-- ==== Sys2Proof/Word.lean ====
section
/-! DEFINITION. Words of the NV9640 and plain arithmetic on them. Registers are 32 bits (R3), the engines'
general registers 64 bits, the Vat and the Ream are bytes. Values that the spec computes with exactly are
`Nat` or `Int`; a field of a register is read as a `Nat`. -/

namespace Sys2Proof

/-- A register of the register map (R3). -/
abbrev Word := BitVec 32
/-- A general register of an engine. -/
abbrev DWord := BitVec 64
/-- A byte of a memory. -/
abbrev Byte := BitVec 8

/-- NAME[hi:lo] of a value (R3). -/
def bits (v hi lo : Nat) : Nat := v / 2 ^ lo % 2 ^ (hi + 1 - lo)

/-- Bit n of a value. -/
def bit (v n : Nat) : Bool := v / 2 ^ n % 2 == 1

/-- The value with NAME[hi:lo] replaced by the low bits of x. -/
def setBits (v hi lo x : Nat) : Nat :=
  v - bits v hi lo * 2 ^ lo + x % 2 ^ (hi + 1 - lo) * 2 ^ lo

/-- A w-bit pattern read as a two's-complement number. -/
def toSigned (w v : Nat) : Int :=
  if v % 2 ^ w < 2 ^ (w - 1) then (v % 2 ^ w : Nat) else (v % 2 ^ w : Nat) - (2 ^ w : Nat)

/-- The w-bit two's-complement pattern of a number. -/
def ofSigned (w : Nat) (x : Int) : Nat := (x % (2 ^ w : Nat)).toNat

/-- A number clamped to a w-bit signed range. -/
def satSigned (w : Nat) (x : Int) : Int :=
  max (-(2 ^ (w - 1) : Nat)) (min x ((2 ^ (w - 1) : Nat) - 1))

/-- R11: the signed w-bit difference a - b. -/
def wrapDiff (w a b : Nat) : Int := toSigned w (ofSigned w ((a : Int) - b))

/-- R11: a is later than b. -/
def later (w a b : Nat) : Bool := 0 < wrapDiff w a b

/-- a / b rounded to the nearest integer, ties away from zero. -/
def roundDiv (a : Int) (b : Nat) : Int :=
  if 0 ≤ a then (2 * a + b) / (2 * b) else -((-(2 * a) + b) / (2 * b))

/-- a / b rounded up. -/
def ceilDiv (a b : Nat) : Nat := (a + b - 1) / b

/-- A Bool as a field value. -/
def b2n (b : Bool) : Nat := if b then 1 else 0

/-- A sparse table of plain data, keyed by a number, keys rising. -/
abbrev Tbl (α : Type) := List (Nat × α)

/-- The entry at a key. -/
def Tbl.find? {α : Type} : Tbl α → Nat → Option α
  | [], _ => none
  | (a, v) :: r, k => if a = k then some v else Tbl.find? r k

/-- The entry at a key, or the value an absent key stands for. -/
def Tbl.getD {α : Type} (t : Tbl α) (k : Nat) (dflt : α) : α := (Tbl.find? t k).getD dflt

/-- The table with one entry written. -/
def Tbl.set {α : Type} : Tbl α → Nat → α → Tbl α
  | [], k, v => [(k, v)]
  | (a, w) :: r, k, v =>
    if k < a then (k, v) :: (a, w) :: r
    else if a = k then (k, v) :: r
    else (a, w) :: Tbl.set r k v

/-- The table without a key. -/
def Tbl.del {α : Type} (t : Tbl α) (k : Nat) : Tbl α := t.filter fun e => e.1 != k

/-- Bytes of a value, least significant first (R4). -/
def leBytes : Nat → Nat → List Byte
  | 0, _ => []
  | n + 1, v => BitVec.ofNat 8 v :: leBytes n (v / 256)

/-- The value of bytes, least significant first (R4). -/
def ofLe : List Byte → Nat
  | [] => 0
  | b :: r => b.toNat + 256 * ofLe r

/-- Bytes of a value, most significant first (frames, R4). -/
def beBytes (n v : Nat) : List Byte := (leBytes n v).reverse

/-- The value of bytes, most significant first. -/
def ofBe (l : List Byte) : Nat := ofLe l.reverse

/-- Bytes [i, i+n) of a list, zero past its end. -/
def sliceB (l : List Byte) (i n : Nat) : List Byte :=
  let s := (l.drop i).take n
  s ++ List.replicate (n - s.length) 0

/-- The little-endian number at [i, i+n) of a list of bytes. -/
def leAt (l : List Byte) (i n : Nat) : Nat := ofLe (sliceB l i n)

end Sys2Proof
end

