-- ==== Sys2Proof/Syntax.lean ====
section
/-! DEFINITION. The commands of the NV9640: one constructor for each row of opcode_table.json, with the operands
that the row's rule gives the step. An operand that names an instance is a `Fin`, so that it always names one. -/

namespace Sys2Proof

/-- R338, R339: the path on which a register access arrives. -/
inductive Path where
  | engine (e : Fin 512)
  | pcie (f : Fin 32)      -- physical function 0, virtual functions 1-31
  | spi
  | i2c
  | params                 -- a PARAMETERS pair of the Ream (R301)
  | regs                   -- a REGS section of an image (R48)
  deriving DecidableEq, Repr, Inhabited

/-- R339: HOST_WERR_SRC.PATH. -/
def Path.code : Path → Nat
  | .engine e => e.val
  | .pcie f => 512 + f.val
  | .spi => 544
  | .i2c => 545
  | .params => 546
  | .regs => 546

/-- The path is a host interface (PCIe, SPI, I2C). -/
def Path.isHost : Path → Bool
  | .pcie _ => true
  | .spi => true
  | .i2c => true
  | _ => false

/-- R50: the fields of an instruction word below the opcode. In the I form `b` is ctl and `lo` is imm, in the
J form `lo` is the offset, in the R form `lo` is func and PC. -/
structure EOp where
  d : Fin 16
  a : Fin 16
  b : Fin 16
  lo : BitVec 14
  deriving DecidableEq, Repr, Inhabited

/-- A system cycle within the tick. -/
abbrev Cycle := Fin 1250
/-- An edge engine. -/
abbrev Eng := Fin 512
/-- A host path of the VAT_QHOST registers: PCIe function, SPI, I2C (R91). -/
abbrev HostPath := Fin 34

/-- What a start meets outside the device (R326, R331, R332): what its self-tests and clock checks find, how
long each step takes, and the flash. -/
structure BootIn where
  ok : BitVec 12              -- bit n - 1: what step n tests outside the logic passes (steps 4, 5, 6 and 10)
  us : Vector (BitVec 32) 12  -- duration of each step
  xo : BitVec 32              -- R326: XO periods counted in 1 ms of the backup oscillator
  arm : BitVec 32             -- R336: how long each erase that arms the save area takes, in µs
  ptr0 : List Byte            -- the boot pointer's copies at 0 and 0x1000
  ptr1 : List Byte
  primary : List Byte         -- what the flash holds at PRIMARY and at SECONDARY
  secondary : List Byte
  deriving DecidableEq, Repr, Inhabited

/-- R31, R97: an error that has arisen in a double word of local memory (`index` an engine) or cluster memory. -/
structure Upset where
  cluster : Bool
  index : Fin 512
  word : BitVec 15
  ue : Bool
  deriving DecidableEq, Repr, Inhabited

/-- R340-R342: what the host does to a function beyond register and Vat accesses: SR-IOV enables VFs 1 to n, a function returns
to D0, its identification is read, MSI-X is enabled or masked, and BAR2 is written or read. -/
inductive HostCfg where
  | vfs (n : Fin 32)
  | wake (f : Fin 32)
  | ident (f : Fin 32)
  | msix (f : Fin 32) (on mask : Bool)
  | bar2Write (f : Fin 32) (off : BitVec 14) (data : List (Byte × Bool))
  | bar2Read (f : Fin 32) (off len : BitVec 14)
  deriving DecidableEq, Repr, Inhabited

/-- R362: how far a channel's code lies from that of the exact edge: noise and non-linearity of its interpolator. -/
structure SelfRead where
  ch : Fin 136
  dev : BitVec 8
  deriving DecidableEq, Repr, Inhabited

/-- R363: a use of the TAP: the level of TRST_N, the instruction, then one scan of its data register: what the pins show at
capture and what is shifted in, cell 0 first. -/
structure TapScan where
  trst : Bool
  ir : Fin 6
  pins : List Bool
  shift : List Bool
  deriving DecidableEq, Repr, Inhabited

/-- R269: a block on a Keanmar link: its sync header and its 64 payload bits as sent, bit 0 first. -/
structure Block where
  head : BitVec 2
  payload : BitVec 64
  deriving DecidableEq, Repr, Inhabited

/-- R41: a task slot of an engine, and the cycle at which the cancel stands. -/
structure SlotAt where
  slot : Fin 16
  cycle : Cycle
  deriving DecidableEq, Repr, Inhabited

/-- R355: what SDA does in a bus recovery: it is high at the end of pulse `pulses` + 1, or still low after the ninth; `high` is
SDA after the STOP. -/
structure SdaForm where
  pulses : Fin 9
  high : Bool
  deriving DecidableEq, Repr, Inhabited

/-- R351: how an I2C transaction begins: its address, and how many pointer bytes follow. -/
structure I2cHead where
  addr : BitVec 7
  np : Fin 5
  deriving DecidableEq, Repr, Inhabited

/-- R351: the address of an I2C read, and how many words the master takes. -/
structure I2cTake where
  addr : BitVec 7
  n : BitVec 16
  deriving DecidableEq, Repr, Inhabited

/-- R50: a word of opcode 0x00 (code 0), or of a reserved opcode: 0x01, 0x3B to 0x3F (codes 1 to 6). -/
structure NopWord where
  code : Fin 7
  op : EOp
  deriving DecidableEq, Repr, Inhabited

/-- R101: the bank whose line is scrubbed, and whether another write reaches that line meanwhile. -/
structure ScrubBank where
  bank : Fin 16
  collide : Bool
  deriving DecidableEq, Repr, Inhabited

/-- R104, R194: an edge: its direction, and the length of the pulse that it begins, in 0.2 ns. -/
structure EdgeForm where
  falling : Bool
  pulse : BitVec 8
  deriving DecidableEq, Repr, Inhabited

/-- R248: a cycle of the present tick (`back` 0) or of an earlier one. -/
structure PastCycle where
  back : Fin 17
  cycle : Cycle
  deriving DecidableEq, Repr, Inhabited

/-- R264: a transmit frame of the host's memory: its bytes, whether they have come, and the cell (R92) from which the
allocator looks for room. -/
structure HostFrame where
  data : List Byte
  got : Bool
  left : BitVec 16
  deriving DecidableEq, Repr, Inhabited

/-- R5, R315, R353: a clearing write: the bits written 1, and the cycle at which it stands. -/
structure ClearMask where
  mask : Word
  cycle : Cycle
  deriving DecidableEq, Repr, Inhabited

/-- R269: blocks that arrive on a Keanmar link. -/
structure LinkIn where
  link : Fin 8
  blocks : List Block
  deriving DecidableEq, Repr, Inhabited

/-- What reaches the device from outside at a tick boundary: die sensors (R163), bank supplies in mV (R179), the other supplies
of R368 by their index in 0.1 mV, the pads of the event ports (R240), one sample of each static input (R24), errors that have
arisen in the engines' memories, and what the host has done to the PCIe functions (log entry 69). -/
structure TickIn where
  ts : Vector (BitVec 16) 4
  vdd : Vector (BitVec 16) 9
  rails : Vector (BitVec 16) 6
  pads : BitVec 16
  pins : BitVec 8             -- RESET_N, PERST_N, PFAIL_N, NVWP_N, BOOTSEL1, BOOTSEL0, MI2C_A1 and MI2C_A0, from bit 0
  upsets : List Upset
  cfg : List HostCfg
  deriving DecidableEq, Repr, Inhabited

/-- The commands. A command register is also written by REGISTER_WRITE; an event acts if its condition holds. -/
inductive Instr where
  /-- TICK_BOUNDARY (R16). -/
  | tickBoundary (i : TickIn)
  /-- STAGE_COMMIT (R284). -/
  | stageCommit
  /-- REGISTER_WRITE (R25). -/
  | registerWrite (p : Path) (off : BitVec 28) (w : Word) (whole ep : Bool) (c : Cycle)
  /-- LO_READ (R8). -/
  | loRead (p : Path) (off : BitVec 28) (one : Bool) (c : Cycle)
  /-- INSTRUCTION_STORE_WRITE (R49). -/
  | instructionStoreWrite (p : Path) (c : Fin 16) (i : Fin 16384) (w : Word)
  /-- CLUSTER_POWER (R47). -/
  | clusterPower (p : Path) (on : BitVec 16) (c : Cycle)
  /-- CLUSTER_START (R325). -/
  | clusterStart (c : Fin 16)
  /-- TASK_DISPATCH (R43). -/
  | taskDispatch (e : Eng) (c : Cycle)
  /-- TASK_OVERRUN (R36). -/
  | taskOverrun (e : Eng)
  /-- TASK_PROMOTION (R45). -/
  | taskPromotion (e : Eng) (slot : Fin 16) (c : Cycle)
  /-- TASK_INPUT_EVENT (R38). -/
  | taskInputEvent (e : Eng) (i : Fin 16) (source : BitVec 12) (c : Cycle)
  /-- TASK_CANCEL (R41). -/
  | taskCancel (p : Path) (e : Eng) (slot : SlotAt)
  /-- TICK_TIMER_EXPIRY (R75). -/
  | tickTimerExpiry (e : Eng) (t : Fin 4)
  /-- NOP (R57), and a word of a reserved opcode (R50). -/
  | nop (e : Eng) (w : NopWord)
  /-- ADD (R58). -/
  | add (e : Eng) (imm : Bool) (o : EOp)
  /-- SUB (R58). -/
  | sub (e : Eng) (imm : Bool) (o : EOp)
  /-- AND (R57). -/
  | and (e : Eng) (imm : Bool) (o : EOp)
  /-- OR (R57). -/
  | or (e : Eng) (imm : Bool) (o : EOp)
  /-- XOR (R57). -/
  | xor (e : Eng) (imm : Bool) (o : EOp)
  /-- SHL (R57). -/
  | shl (e : Eng) (imm : Bool) (o : EOp)
  /-- SHR (R57). -/
  | shr (e : Eng) (imm : Bool) (o : EOp)
  /-- SAR (R57). -/
  | sar (e : Eng) (imm : Bool) (o : EOp)
  /-- MIN (R57). -/
  | min (e : Eng) (imm : Bool) (o : EOp)
  /-- MAX (R57). -/
  | max (e : Eng) (imm : Bool) (o : EOp)
  /-- SDIFF (R59). -/
  | sdiff (e : Eng) (o : EOp)
  /-- SAT (R60). -/
  | sat (e : Eng) (o : EOp)
  /-- LDH (R62). -/
  | ldh (e : Eng) (o : EOp)
  /-- MUL (R57). -/
  | mul (e : Eng) (o : EOp)
  /-- MAC (R61). -/
  | mac (e : Eng) (imm : Bool) (o : EOp)
  /-- MACS (R61). -/
  | macs (e : Eng) (imm : Bool) (o : EOp)
  /-- GETACC (R57). -/
  | getacc (e : Eng) (o : EOp)
  /-- CLRACC (R57). -/
  | clracc (e : Eng) (o : EOp)
  /-- LD (R63). -/
  | ld (e : Eng) (o : EOp)
  /-- ST (R63). -/
  | st (e : Eng) (o : EOp)
  /-- VGET (R64). -/
  | vget (e : Eng) (o : EOp)
  /-- VPUT (R64). -/
  | vput (e : Eng) (o : EOp)
  /-- VPEEK (R65). -/
  | vpeek (e : Eng) (o : EOp)
  /-- QPOP (R66). -/
  | qpop (e : Eng) (o : EOp)
  /-- QPUSH (R66). -/
  | qpush (e : Eng) (o : EOp)
  /-- TLOOK (R69). -/
  | tlook (e : Eng) (o : EOp)
  /-- TSTEP (R71). -/
  | tstep (e : Eng) (o : EOp)
  /-- NOW (R73). -/
  | now (e : Eng) (o : EOp)
  /-- WAIT (R74). -/
  | wait (e : Eng) (o : EOp)
  /-- ARM (R75). -/
  | arm (e : Eng) (o : EOp)
  /-- DISARM (R75). -/
  | disarm (e : Eng) (o : EOp)
  /-- IO_LD (R77). -/
  | ioLd (e : Eng) (o : EOp)
  /-- IO_ST (R77). -/
  | ioSt (e : Eng) (o : EOp)
  /-- EVTEST (R78). -/
  | evtest (e : Eng) (o : EOp)
  /-- EVCLEAR (R78). -/
  | evclear (e : Eng) (o : EOp)
  /-- SIGNAL (R78). -/
  | signal (e : Eng) (o : EOp)
  /-- B (R57). -/
  | b (e : Eng) (o : EOp)
  /-- BZ (R57). -/
  | bz (e : Eng) (o : EOp)
  /-- BNZ (R57). -/
  | bnz (e : Eng) (o : EOp)
  /-- BP (R57). -/
  | bp (e : Eng) (o : EOp)
  /-- CALL (R79). -/
  | call (e : Eng) (o : EOp)
  /-- RET (R79). -/
  | ret (e : Eng) (o : EOp)
  /-- FAULT (R80). -/
  | fault (e : Eng) (o : EOp)
  /-- YIELD (R36). -/
  | yield (e : Eng) (o : EOp)
  /-- HALT (R36). -/
  | halt (e : Eng) (o : EOp)
  /-- FENCE (R76). -/
  | fence (e : Eng) (o : EOp)
  /-- TABLE_LOAD (R389). -/
  | tableLoad (p : Path) (t : Fin 1024) (n : BitVec 13)
  /-- TABLE_DELETE (R389). -/
  | tableDelete (p : Path) (t : Fin 1024)
  /-- VAT_WINDOW_WRITE (R345). -/
  | vatWindowWrite (off : BitVec 26) (data : List (Byte × Bool)) (ep : Bool) (c : Cycle)
  /-- VAT_WINDOW_READ (R346). -/
  | vatWindowRead (off : BitVec 26) (len : BitVec 13) (c : Cycle)
  /-- VF_APERTURE_ACCESS (R344). -/
  | vfApertureAccess (f : Fin 32) (x : BitVec 20) (write : Option (List (Byte × Bool))) (len : BitVec 13) (ep : Bool) (c : Cycle)
  /-- QHOST_POP (R91). -/
  | qhostPop (h : HostPath) (q : Fin 4096) (n : BitVec 16)
  /-- QHOST_PUSH (R91). -/
  | qhostPush (h : HostPath) (q : Fin 4096) (n : BitVec 16)
  /-- QHOST_COMMIT (R91). -/
  | qhostCommit (h : HostPath) (q : Fin 4096)
  /-- QHOST_GRANT_EXPIRY (R91). -/
  | qhostGrantExpiry (h : HostPath)
  /-- SCRUB_LINE (R101). -/
  | scrubLine (bank : ScrubBank) (ce ue : List (Fin 4))
  /-- TDC_STAMP (R194). -/
  | tdcStamp (c : Fin 136) (coarse : Fin 2500) (code : BitVec 12) (edge : EdgeForm)
  /-- BURST_BUFFER_DRAIN (R203). -/
  | burstBufferDrain (c : Fin 136)
  /-- TDC_CALIBRATION (R198). -/
  | tdcCalibration (c : Fin 136) (c1 c2 : BitVec 12)
  /-- ARM_CALIBRATION_DONE (R197). -/
  | armCalibrationDone (c : Fin 136) (a1 a2 b1 b2 : BitVec 12)
  /-- ACTIVITY_WINDOW_MISSED (R106). -/
  | activityWindowMissed (n : Fin 40) (c : Cycle)
  /-- FREQUENCY_GATE_END (R108). -/
  | frequencyGateEnd (n : Fin 40)
  /-- SUSPECT_GATE_END (R111). -/
  | suspectGateEnd (n : Fin 40)
  /-- OBSERVATION_COMPLETE (R116). -/
  | observationComplete (n : Fin 40)
  /-- IN_STATE_WRITE (R115). -/
  | inStateWrite (e : Eng) (n : Fin 40) (st : BitVec 3) (c : Cycle)
  /-- REWIND_START (R136). -/
  | rewindStart (p : Path) (l : Fin 32) (excl : BitVec 8)
  /-- REWIND_ABORT (R141). -/
  | rewindAbort (p : Path) (l : Fin 32)
  /-- REWIND_SPLICE (R140). -/
  | rewindSplice (p : Path) (l : Fin 32)
  /-- REPLAY_CAUGHT_UP (R139). -/
  | replayCaughtUp (l : Fin 32)
  /-- SPLICE_END (R140). -/
  | spliceEnd (l : Fin 32)
  /-- LOCK_GATE_END (R148). -/
  | lockGateEnd (l : Fin 33)
  /-- REFERENCE_GAP_EXPIRY (R150). -/
  | referenceGapExpiry (l : Fin 33)
  /-- COAST_TIMER_EXPIRY (R154). -/
  | coastTimerExpiry (l : Fin 33)
  /-- HISTORY_RECORD_WRITE (R156). -/
  | historyRecordWrite
  /-- SYN_SEARCH (R171). -/
  | synSearch (p : Path) (n : Fin 16)
  /-- SYN_ABORT (R170). -/
  | synAbort (p : Path) (n : Fin 16)
  /-- HOP_LOCK (R167). -/
  | hopLock (n : Fin 16) (locked core : Bool) (band : Fin 128) (vt : BitVec 8)
  /-- OUTPUT_GATE_OPEN (R176). -/
  | outputGateOpen (k : Fin 72)
  /-- OUTPUT_GATE_CLOSE (R176). -/
  | outputGateClose (k : Fin 72)
  /-- OUTPUT_DIVIDER_CHANGE (R174). -/
  | outputDividerChange (k : Fin 72)
  /-- OUTPUT_SOURCE_SWITCH (R174). -/
  | outputSourceSwitch (k : Fin 72)
  /-- OUTPUT_DELAY_CHANGE (R175). -/
  | outputDelayChange (k : Fin 72)
  /-- DPH_MEASURE_END (R181). -/
  | dphMeasureEnd (k : Fin 72)
  /-- DPH_TRIM_STEP (R181). -/
  | dphTrimStep (k : Fin 72)
  /-- BANK_SUPPLY_MISMATCH (R179). -/
  | bankSupplyMismatch (b : Fin 9)
  /-- SLALOM_START (R189). -/
  | slalomStart (p : Path) (n : Fin 32)
  /-- SLALOM_ABORT (R190). -/
  | slalomAbort (p : Path) (n : Fin 32)
  /-- SLALOM_CLEAR (R190). -/
  | slalomClear (p : Path) (n : Fin 32)
  /-- SLALOM_DWELL_END (R189). -/
  | slalomDwellEnd (n : Fin 32)
  /-- MS_ARM (R205). -/
  | msArm (p : Path) (k : Fin 64)
  /-- MS_ABORT (R210). -/
  | msAbort (p : Path) (k : Fin 64) (c : Cycle)
  /-- MEASUREMENT_TIMEOUT (R206). -/
  | measurementTimeout (k : Fin 64) (c : Cycle)
  /-- DECKLE_NOSTOP (R207). -/
  | deckleNostop (k : Fin 64) (c : Cycle)
  /-- ST_START (R211). -/
  | stStart (p : Path) (k : Fin 16)
  /-- ST_ABORT (R213). -/
  | stAbort (p : Path) (k : Fin 16) (c : Cycle)
  /-- TRACE_ARM (R217). -/
  | traceArm (p : Path) (r : Fin 4)
  /-- TRACE_TRIGGER (R215). -/
  | traceTrigger (r : Fin 4) (src : Option (Fin 4 × Fin 288)) (c : Cycle)
  /-- TRACE_ABORT (R220). -/
  | traceAbort (p : Path) (r : Fin 4) (c : Cycle)
  /-- TRACE_RECORD_WRITE (R219). -/
  | traceRecordWrite (r : Fin 4)
  /-- TRACE_CAPTURE_DONE (R217). -/
  | traceCaptureDone (r : Fin 4)
  /-- TRACE_REARM_END (R218). -/
  | traceRearmEnd (r : Fin 4)
  /-- LT_STEP (R223). -/
  | ltStep (p : Path) (e : BitVec 64)
  /-- CONTEXT_CONVERSION (R227). -/
  | contextConversion (p : Path) (t : BitVec 96)
  /-- CTX_SET (R229). -/
  | ctxSet (p : Path)
  /-- CTX_STEP (R229). -/
  | ctxStep (p : Path)
  /-- CTX_SLEW (R228). -/
  | ctxSlew (p : Path)
  /-- CTX_CANCEL (R228). -/
  | ctxCancel (p : Path)
  /-- CTX_DISABLE (R229). -/
  | ctxDisable (p : Path)
  /-- SLEW_COMPLETE (R228). -/
  | slewComplete (n : Fin 4096)
  /-- LEAP_ARM (R231). -/
  | leapArm (p : Path) (time : BitVec 48) (del : Bool)
  /-- LEAP_DISARM (R231). -/
  | leapDisarm (p : Path) (time : BitVec 48) (del : Bool)
  /-- LEAP_ANNOUNCE (R231). -/
  | leapAnnounce (n : Fin 4096)
  /-- LEAP_APPLY (R232). -/
  | leapApply (n : Fin 4096)
  /-- PERFORMANCE_INTERVAL_CLOSE (R243). -/
  | performanceIntervalClose
  /-- EVT_ARM (R234). -/
  | evtArm (path : Path) (p : Fin 16)
  /-- EVT_STOP (R237). -/
  | evtStop (path : Path) (p : Fin 16)
  /-- PULSE_EDGE (R235). -/
  | pulseEdge (p : Fin 16)
  /-- EVT_PARK_END (R241). -/
  | evtParkEnd (p : Fin 16)
  /-- FRAME_RECEIVE (R250): the frame, and the four FCS bytes behind it as a number. -/
  | frameReceive (p : Fin 8) (f : List Byte) (fcs : BitVec 32) (before : Bool) (c : PastCycle) (left : BitVec 16)
  /-- FRAME_REASSEMBLY_TIMEOUT (R250). -/
  | frameReassemblyTimeout (p : Fin 8)
  /-- FRAME_TRANSMIT (R256). -/
  | frameTransmit (p : Fin 8) (c : Cycle)
  /-- TWO_STEP_ENTRY_AGE (R260). -/
  | twoStepEntryAge
  /-- PORT_DRAIN_END (R267). -/
  | portDrainEnd (p : Fin 8)
  /-- DMA_DESCRIPTOR_FETCH (R264). -/
  | dmaDescriptorFetch (r : Fin 256) (desc : List Byte) (f : HostFrame) (poison : Bool) (c : Cycle)
  /-- DMA_RECEIVE (R265). -/
  | dmaReceive (r : Fin 256) (desc : List Byte) (c : Cycle)
  /-- DMA_READ_TIMEOUT (R26). -/
  | dmaReadTimeout (r : Fin 256) (desc : List Byte)
  /-- RING_DISABLE (R266). -/
  | ringDisable (p : Path) (r : Fin 256) (c : Cycle)
  /-- TICK_FRAME_SEND (R270). -/
  | tickFrameSend
  /-- TICK_FRAME_RECEIVE (R271): the blocks before a frame, those of it and those after it; the division is the sender's, and
  the device finds the frame itself. -/
  | tickFrameReceive (k : Fin 8) (fill frame rest : List Block)
  /-- LINK_UP (R271). -/
  | linkUp (k : Fin 8)
  /-- LINK_DOWN (R271). -/
  | linkDown (k : Fin 8)
  /-- LINK_CAL (R273). -/
  | linkCal (p : Path) (k : Fin 8) (s30 : BitVec 30)
  /-- LINK_CAL_ABORT (R273). -/
  | linkCalAbort (p : Path) (k : Fin 8)
  /-- LINK_CAL_SWAP (R273). -/
  | linkCalSwap (k : Fin 8)
  /-- LINK_CAL_END (R273). -/
  | linkCalEnd (k : Fin 8)
  /-- LEAD_ELECTION (R279). -/
  | leadElection
  /-- JOIN (R279). -/
  | join
  /-- LEAD_FAILOVER (R280). -/
  | leadFailover
  /-- SPLIT (R281). -/
  | split
  /-- REJOIN (R281). -/
  | rejoin
  /-- BULK_BURST_RECEIVE (R282): blocks, divided likewise. -/
  | bulkBurstReceive (k : Fin 8) (fill burst rest : List Block)
  /-- STAGE_OPEN (R284). -/
  | stageOpen (p : Path)
  /-- STAGE_ARM (R284). -/
  | stageArm (p : Path)
  /-- STAGE_DISCARD (R284). -/
  | stageDiscard (p : Path)
  /-- WATERMARK_MISMATCH (R285). -/
  | watermarkMismatch (k : Fin 8)
  /-- REAM_READ (R291). -/
  | reamRead (p : Path) (len : BitVec 17)
  /-- REAM_PROGRAM (R293). -/
  | reamProgram (p : Path) (len : BitVec 17)
  /-- REAM_ERASE (R296). -/
  | reamErase (p : Path)
  /-- REAM_ABORT (R295). -/
  | reamAbort (p : Path) (n : BitVec 6) (c : Cycle)
  /-- REAM_READ_DONE (R294). -/
  | reamReadDone
  /-- REAM_PROGRAM_DONE (R293). -/
  | reamProgramDone (ok : Bool)
  /-- REAM_ERASE_DONE (R296). -/
  | reamEraseDone (ok : Bool)
  /-- PFAIL_RECOGNISED (R304). -/
  | pfailRecognised
  /-- SAVE_START (R304). -/
  | saveStart
  /-- SAVE_DONE (R305). -/
  | saveDone
  /-- POWER_LOSS_DETECT (R370). -/
  | powerLossDetect
  /-- FAULT_COLLECTION (R308). -/
  | faultCollection (src : Fin 288) (inst : BitVec 16) (detail : Word) (c : Cycle)
  /-- FAULT_LOG_WRITE (R316). -/
  | faultLogWrite
  /-- FAULT_PIN_PULSE_END (R318). -/
  | faultPinPulseEnd
  /-- FAULT_FORCE (R319). -/
  | faultForce (p : Path) (g : Fin 9) (w : Word) (c : Cycle)
  /-- FAULT_STATUS_CLEAR (R315). -/
  | faultStatusClear (p : Path) (g : Fin 9) (w : ClearMask)
  /-- POWER_ON (R334). -/
  | powerOn (n : BitVec 13)
  /-- RESET_ASSERT (R324). -/
  | resetAssert (n : BitVec 6) (c : Cycle)
  /-- RESET_RELEASE (R326). -/
  | resetRelease (i : BootIn)
  /-- BOOT_STEP_FAIL (R327). -/
  | bootStepFail (i : BootIn)
  /-- BOOT_RESTART (R335). -/
  | bootRestart (p : Path) (src : BitVec 2) (flash : List Byte)
  /-- BOOT_RELEASE (R326). -/
  | bootRelease (p : Path)
  /-- PUSH_GO (R332). -/
  | pushGo (p : Path)
  /-- IMAGE_RESTART_SWITCH (R335). -/
  | imageRestartSwitch
  /-- PERST (R348). -/
  | perst (c : Cycle)
  /-- FLR (R348). -/
  | flr (f : Fin 32) (c : Cycle)
  /-- D3HOT_ENTRY (R348). -/
  | d3hotEntry (f : Fin 32) (c : Cycle)
  /-- HOST_ACCESS_TIMEOUT (R347). -/
  | hostAccessTimeout (p : Path) (write : Bool)
  /-- SPI_WRITE (R349). -/
  | spiWrite (a : Word) (ws : List Word) (part : Fin 4) (c : Cycle)
  /-- SPI_READ (R349). -/
  | spiRead (a : Word) (n : BitVec 16) (c : Cycle)
  /-- SPI_TIMEOUT (R350). -/
  | spiTimeout
  /-- I2C_WRITE (R351). -/
  | i2cWrite (np : I2cHead) (ptr : Word) (ws : List Word) (part : Fin 4) (c : Cycle)
  /-- I2C_READ (R351). -/
  | i2cRead (n : I2cTake) (c : Cycle)
  /-- I2C_SCL_TIMEOUT (R352). -/
  | i2cSclTimeout
  /-- IRQ_CAUSE_CLEAR (R353). -/
  | irqCauseClear (p : Path) (w : ClearMask)
  /-- XI2C_XFER (R354). -/
  | xi2cXfer (p : Path) (n : Fin 2) (addr : BitVec 7) (wlen rlen : BitVec 4)
  /-- XI2C_RESET (R355). -/
  | xi2cReset (p : Path) (n : Fin 2) (sda : SdaForm) (c : Cycle)
  /-- XI2C_TRANSFER_END (R354). -/
  | xi2cTransferEnd (n : Fin 2) (nack : Bool) (data : DWord) (c : Cycle)
  /-- XI2C_STRETCH_TIMEOUT (R354). -/
  | xi2cStretchTimeout (n : Fin 2) (sda : SdaForm)
  /-- XI2C_SDA_STUCK (R355). -/
  | xi2cSdaStuck (n : Fin 2) (sda : SdaForm)
  /-- XI2C_RECOVERY_RETRY (R355). -/
  | xi2cRecoveryRetry (n : Fin 2) (sda : SdaForm)
  /-- FSPI_READ (R356). -/
  | fspiRead (p : Path) (mode : BitVec 2) (len : BitVec 24)
  /-- FSPI_PROGRAM (R356). -/
  | fspiProgram (p : Path) (len : BitVec 24)
  /-- FSPI_ERASE (R356). -/
  | fspiErase (p : Path)
  /-- FSPI_ABORT (R356). -/
  | fspiAbort (p : Path) (c : Cycle)
  /-- FSPI_COMMAND_END (R356). -/
  | fspiCommandEnd (data : List Byte) (late : Bool) (c : Cycle)
  /-- BIST_VAT (R360). -/
  | bistVat (p : Path)
  /-- BIST_ENGINE (R360). -/
  | bistEngine (p : Path) (c : Fin 16)
  /-- BIST_ABORT (R361). -/
  | bistAbort (p : Path) (c : Cycle)
  /-- BIST_DONE (R360). -/
  | bistDone (fail : Option (BitVec 14)) (c : Cycle)
  /-- SELF_STAMP_PULSE (R362). -/
  | selfStampPulse (reads : List SelfRead)
  /-- TAP_INSTRUCTION (R363). -/
  | tapInstruction (i : TapScan)
  /-- FAULT_CONDITION_END (R308). -/
  | faultConditionEnd (src : Fin 288) (inst : BitVec 16)
  /-- BLOCK_LOCK_GAINED (R269). -/
  | blockLockGained (x : LinkIn)
  /-- BLOCK_LOCK_LOST (R269). -/
  | blockLockLost (x : LinkIn)
  /-- PCS_LOCK_GAINED (R246). -/
  | pcsLockGained (p : Fin 8)
  /-- PCS_LOCK_LOST (R246). -/
  | pcsLockLost (p : Fin 8)
  /-- PCIE_LINK_UP (R328). -/
  | pcieLinkUp (width : Fin 3) (speed : Fin 4)
  /-- PCIE_LINK_LOSS (R328). -/
  | pcieLinkLoss
  /-- PERST_RELEASE (R328). -/
  | perstRelease
  /-- CLUSTER_POWER_UP_DONE (R47). -/
  | clusterPowerUpDone (c : Fin 16)
  deriving DecidableEq, Repr, Inhabited

end Sys2Proof
end

