-- ==== Sys2Proof/Decode.lean ====
section
/-! DEFINITION. The opcode table of this block gives its rows no bits: a command is no word of the table. An engine's
instruction is a word of an instruction store (R50, R57), which `decodeEngine` reads as the command that executes it. -/

namespace Sys2Proof

/-- The command that a word spells by the table's bits: none, since no row of the table has bits. -/
def decodeTableWord (_nbits _w : Nat) : Option Instr := none

/-- R50: the fields of an instruction word below the opcode. -/
def wordFields (w : Word) : EOp :=
  ⟨(w.extractLsb' 22 4).toFin, (w.extractLsb' 18 4).toFin, (w.extractLsb' 14 4).toFin, w.extractLsb' 0 14⟩

/-- R50: the opcode of an instruction word. -/
def wordOpcode (w : Word) : BitVec 6 := w.extractLsb' 26 6

/-- R50, R57, R75: the instruction that a word is for engine e. Every word is one: a reserved opcode is a `nop` with a code
other than 0, which raises ENG_ILLEGAL. -/
def decodeEngine (e : Eng) (w : Word) : Instr :=
  let o := wordFields w
  match (wordOpcode w).toNat with
  | 0x00 => .nop e ⟨0, o⟩
  | 0x01 => .nop e ⟨1, o⟩
  | 0x02 => .add e false o
  | 0x03 => .add e true o
  | 0x04 => .sub e false o
  | 0x05 => .sub e true o
  | 0x06 => .and e false o
  | 0x07 => .and e true o
  | 0x08 => .or e false o
  | 0x09 => .or e true o
  | 0x0A => .xor e false o
  | 0x0B => .xor e true o
  | 0x0C => .shl e false o
  | 0x0D => .shl e true o
  | 0x0E => .shr e false o
  | 0x0F => .shr e true o
  | 0x10 => .sar e false o
  | 0x11 => .sar e true o
  | 0x12 => .min e false o
  | 0x13 => .min e true o
  | 0x14 => .max e false o
  | 0x15 => .max e true o
  | 0x16 => .sdiff e o
  | 0x17 => .sat e o
  | 0x18 => .ldh e o
  | 0x19 => .mul e o
  | 0x1A => .mac e false o
  | 0x1B => .mac e true o
  | 0x1C => .macs e false o
  | 0x1D => .macs e true o
  | 0x1E => .getacc e o
  | 0x1F => .clracc e o
  | 0x20 => .ld e o
  | 0x21 => .st e o
  | 0x22 => .vget e o
  | 0x23 => .vput e o
  | 0x24 => .vpeek e o
  | 0x25 => .qpop e o
  | 0x26 => .qpush e o
  | 0x27 => .tlook e o
  | 0x28 => .tstep e o
  | 0x29 => .now e o
  | 0x2A => .wait e o
  | 0x2B => if o.lo.getLsbD 13 then .disarm e o else .arm e o
  | 0x2C => .ioLd e o
  | 0x2D => .ioSt e o
  | 0x2E => .evtest e o
  | 0x2F => .evclear e o
  | 0x30 => .signal e o
  | 0x31 => .b e o
  | 0x32 => .bz e o
  | 0x33 => .bnz e o
  | 0x34 => .bp e o
  | 0x35 => .call e o
  | 0x36 => .ret e o
  | 0x37 => .fault e o
  | 0x38 => .yield e o
  | 0x39 => .halt e o
  | 0x3A => .fence e o
  | 0x3B => .nop e ⟨2, o⟩
  | 0x3C => .nop e ⟨3, o⟩
  | 0x3D => .nop e ⟨4, o⟩
  | 0x3E => .nop e ⟨5, o⟩
  | _ => .nop e ⟨6, o⟩

/-- The opcodes that `nop` stands for: 0x00 and the reserved ones. -/
def nopOpcode (k : Fin 7) : BitVec 6 :=
  match k with
  | 0 => 0x00
  | 1 => 0x01
  | 2 => 0x3B
  | 3 => 0x3C
  | 4 => 0x3D
  | 5 => 0x3E
  | _ => 0x3F

/-- R57: the opcode and the fields of an engine instruction; none for a command that is none. -/
def opcodeOf (i : Instr) : Option (BitVec 6 × EOp) :=
  match i with
  | .nop _ w => some (nopOpcode w.code, w.op)
  | .arm _ o => some (0x2B, o)
  | .disarm _ o => some (0x2B, o)
  | .add _ imm o => some (if imm then 0x03 else 0x02, o)
  | .sub _ imm o => some (if imm then 0x05 else 0x04, o)
  | .and _ imm o => some (if imm then 0x07 else 0x06, o)
  | .or _ imm o => some (if imm then 0x09 else 0x08, o)
  | .xor _ imm o => some (if imm then 0x0B else 0x0A, o)
  | .shl _ imm o => some (if imm then 0x0D else 0x0C, o)
  | .shr _ imm o => some (if imm then 0x0F else 0x0E, o)
  | .sar _ imm o => some (if imm then 0x11 else 0x10, o)
  | .min _ imm o => some (if imm then 0x13 else 0x12, o)
  | .max _ imm o => some (if imm then 0x15 else 0x14, o)
  | .sdiff _ o => some (0x16, o)
  | .sat _ o => some (0x17, o)
  | .ldh _ o => some (0x18, o)
  | .mul _ o => some (0x19, o)
  | .mac _ imm o => some (if imm then 0x1B else 0x1A, o)
  | .macs _ imm o => some (if imm then 0x1D else 0x1C, o)
  | .getacc _ o => some (0x1E, o)
  | .clracc _ o => some (0x1F, o)
  | .ld _ o => some (0x20, o)
  | .st _ o => some (0x21, o)
  | .vget _ o => some (0x22, o)
  | .vput _ o => some (0x23, o)
  | .vpeek _ o => some (0x24, o)
  | .qpop _ o => some (0x25, o)
  | .qpush _ o => some (0x26, o)
  | .tlook _ o => some (0x27, o)
  | .tstep _ o => some (0x28, o)
  | .now _ o => some (0x29, o)
  | .wait _ o => some (0x2A, o)
  | .ioLd _ o => some (0x2C, o)
  | .ioSt _ o => some (0x2D, o)
  | .evtest _ o => some (0x2E, o)
  | .evclear _ o => some (0x2F, o)
  | .signal _ o => some (0x30, o)
  | .b _ o => some (0x31, o)
  | .bz _ o => some (0x32, o)
  | .bnz _ o => some (0x33, o)
  | .bp _ o => some (0x34, o)
  | .call _ o => some (0x35, o)
  | .ret _ o => some (0x36, o)
  | .fault _ o => some (0x37, o)
  | .yield _ o => some (0x38, o)
  | .halt _ o => some (0x39, o)
  | .fence _ o => some (0x3A, o)
  | _ => none

/-- R50: a word from its opcode and fields. -/
def wordOf (op : BitVec 6) (o : EOp) : Word := op ++ (BitVec.ofFin o.d ++ (BitVec.ofFin o.a ++ (BitVec.ofFin o.b ++ o.lo : BitVec 18) : BitVec 22) : BitVec 26)

/-- R50, R57: the word of an engine instruction. -/
def encodeEngine (i : Instr) : Option Word := (opcodeOf i).map fun x => wordOf x.1 x.2

end Sys2Proof
end

