-- ==== Sys2Proof/Config.lean ====
section
/-! DEFINITION. What describes the register map (the types of the register tables) and what the spec leaves
open: every open value is an opaque constant without a body, so nothing can evaluate it. -/

namespace Sys2Proof.Machine

/-- The select register or the path through which a register with copies is addressed (R32, R338). -/
inductive SelKind where
  | pool | task | ti | rgn | wear | src | lb | ctx | bm
  deriving DecidableEq, Repr, Inhabited

/-- How the copies of a register are told apart. -/
inductive RegKind where
  | plain               -- one register at each address
  | path                -- each host path and engine has its own copy
  | sel (k : SelKind)   -- one for each object that a select register names
  deriving DecidableEq, Repr, Inhabited

/-- R8: the part of a multi-part value that a register holds; `frac` says that a _FRAC part belongs to it. -/
inductive RegPart where
  | whole | lo (frac : Bool) | hi (frac : Bool) | frac
  deriving DecidableEq, Repr, Inhabited

/-- A register, or a group of registers at regular offsets. -/
structure Reg where
  name : String
  base : Nat
  stride : Nat
  count : Nat
  stride2 : Nat
  count2 : Nat
  kind : RegKind
  part : RegPart
  reset : Nat
  deriving DecidableEq, Repr, Inhabited

/-- A field of a register. -/
structure Fld where
  reg : Reg
  hi : Nat
  lo : Nat
  deriving DecidableEq, Repr, Inhabited

/-- R5: access codes; `eng` is "engine writes only" (R385). -/
inductive Access where
  | ro | rw | wo | w1c | rwl | eng
  deriving DecidableEq, Repr, Inhabited

/-- R25: the values a field accepts, as its register table states them. -/
inductive Range where
  | any
  | u (min max : Nat)          -- min to max
  | z (min max : Nat)          -- 0 (unset or off) or min to max
  | s (min max : Int)          -- signed, min to max
  | or (min max other : Nat)   -- min to max, or one other code
  | m8                         -- a multiple of 8
  deriving DecidableEq, Repr, Inhabited

/-- A field as its register table gives it: bits, access, tick-synchronous (R19), range (R25). -/
structure FieldSpec where
  hi : Nat
  lo : Nat
  acc : Access
  tick : Bool
  range : Range
  deriving DecidableEq, Repr, Inhabited

/-- The key distance between the copies of a register that a select register or a path tells apart. -/
def copyStride : Nat := 2 ^ 28

/-- The register of a group at a second index (SEL_WEIGHT k, FRM_CNT i and the like). -/
def Reg.at (r : Reg) (k : Nat) : Reg := { r with base := r.base + r.stride2 * k }

/-- The place of register n of a group in the register file. -/
def Reg.key (r : Reg) (n : Nat) : Nat :=
  match r.kind with
  | .plain => r.base + r.stride * n
  | _ => r.base + copyStride * n

/-- The field of a register at a second index. -/
def Fld.at (f : Fld) (k : Nat) : Fld := { f with reg := f.reg.at k }

/-- The part of a register that a field covers, as a register pair's halves do. -/
def Fld.width (f : Fld) : Nat := f.hi + 1 - f.lo

end Sys2Proof.Machine

namespace Sys2Proof.Config

/-- LOG ENTRY 2. The n-th free value of 64 bits; n is `Dev.free`. -/
opaque free64 : Nat → BitVec 64

/-- LOG ENTRY 10. R110: the line that the suspect detector fits to a gate's phase samples (tick, phase in
2^-32 ns): its slope in 2^-48 ns a tick and its phase at the tick given. The manual names no method of fit. -/
opaque lineFit : List (Nat × Int) → Nat → Int × Int

/-- LOG ENTRY 10. R110: the extrapolation of an input's last four edges to a tick. -/
opaque extrapolate : List (Nat × Int) → Nat → Int

/-- LOG ENTRY 2. R199: a channel's fixed path delay without the glitch filter's, in 2^-32 ns, as trimmed at
manufacture. -/
opaque pathDelay : Nat → Int

/-- LOG ENTRY 2. Fuses: the SHA-384 of the public key of slot 0 and of slot 1 (R333). -/
opaque keyHash : Nat → BitVec 384

/-- LOG ENTRY 2. Fuses: REVOKE1 is blown (R333). -/
opaque revoked1 : Bool

/-- LOG ENTRY 2. Fuses: ROLLBACK, the least major version (R333). -/
opaque rollback : BitVec 8

/-- LOG ENTRY 2. R362: the delay of self-stamping tap k in 2^-16 ns, as trimmed at manufacture. -/
opaque tapDelay : Nat → BitVec 32

/-- LOG ENTRY 2. R282: what a follower's mailbox holds as its BOOT request. -/
opaque bootRequest : BitVec 256

/-- LOG ENTRY 2. R282: what a follower's mailbox holds as the name of a bad burst. -/
opaque badBurst : BitVec 24 → BitVec 256

/-- LOG ENTRY 2. R2: the engine of clusters 0 to 7 from which the base image makes its register writes. -/
opaque baseEngine : BitVec 8

/-- LOG ENTRY 109. R161: external sensor k: its XI2C controller, its address, the bytes that the program writes before it
reads (8 at most), and the number of bytes it reads, less 1. The manual names no sensor. -/
opaque xtBus : Nat → Bool
opaque xtAddr : Nat → BitVec 7
opaque xtWrite : Nat → List (BitVec 8)
opaque xtLen : Nat → BitVec 3

/-- LOG ENTRY 109. R161: the temperature that the bytes read from sensor k stand for, in 1/128 °C. -/
opaque xtTemp : Nat → List (BitVec 8) → BitVec 16

/-- LOG ENTRY 108. R129: the phase sample of entry k of loop l in a tick in which the estimate without it has no sample. -/
opaque spanSample : Nat → Nat → Nat → Int

/-- LOG ENTRY 2. R289: the ID of the watermark-history records. -/
opaque wmId : BitVec 16

end Sys2Proof.Config
end

