-- ==== Sys2Proof/Machine/RegTable.lean ====
section
/-! DEFINITION. The register tables of the spec, one entry a register (00-17, "### <NAME>" headings):
name, offset, strides and counts, which select register or path copy addresses it (R32, R338), which part of
a multi-part value it is (R8), reset value (R5), and each field's bits, access, timing (R19) and range (R25). -/

namespace Sys2Proof.Machine

def R.SYS_ID : Reg := ⟨"SYS_ID", 0x08000000, 0, 1, 0, 1, .plain, .whole, 0x9640B07D⟩
def R.SYS_PROFILE : Reg := ⟨"SYS_PROFILE", 0x08000010, 0, 1, 0, 1, .plain, .whole, 0x00000000⟩
def R.TICK_COUNT_LO : Reg := ⟨"TICK_COUNT_LO", 0x08100000, 0, 1, 0, 1, .plain, .lo false, 0x00000000⟩
def R.TICK_COUNT_HI : Reg := ⟨"TICK_COUNT_HI", 0x08100004, 0, 1, 0, 1, .plain, .hi false, 0x00000000⟩
def R.ENG_CLUSTER_PWR : Reg := ⟨"ENG_CLUSTER_PWR", 0x08200000, 0, 1, 0, 1, .plain, .whole, 0x0000FFFF⟩
def R.ENG_CLUSTER_STAT : Reg := ⟨"ENG_CLUSTER_STAT", 0x08200004, 0, 1, 0, 1, .plain, .whole, 0x00000000⟩
def R.ENG_AGE : Reg := ⟨"ENG_AGE", 0x08200008, 0, 1, 0, 1, .plain, .whole, 0x00002020⟩
def R.ENG_ADMIT : Reg := ⟨"ENG_ADMIT", 0x0820000C, 0, 1, 0, 1, .plain, .whole, 0x00000000⟩
def R.ENG_ORPHAN : Reg := ⟨"ENG_ORPHAN", 0x08200010, 0, 1, 0, 1, .plain, .whole, 0x00000000⟩
def R.ENG_TASK_SEL : Reg := ⟨"ENG_TASK_SEL", 0x08200020, 0, 1, 0, 1, .path, .whole, 0x00000000⟩
def R.ENG_TASK_CFG : Reg := ⟨"ENG_TASK_CFG", 0x08200024, 0, 1, 0, 1, .sel .task, .whole, 0x00000000⟩
def R.ENG_TASK_BUDGET : Reg := ⟨"ENG_TASK_BUDGET", 0x08200028, 0, 1, 0, 1, .sel .task, .whole, 0x00000000⟩
def R.ENG_TASK_PERIOD : Reg := ⟨"ENG_TASK_PERIOD", 0x0820002C, 0, 1, 0, 1, .sel .task, .whole, 0x00000001⟩
def R.ENG_TASK_STAT : Reg := ⟨"ENG_TASK_STAT", 0x08200030, 0, 1, 0, 1, .sel .task, .whole, 0x00000000⟩
def R.ENG_TASK_CNT : Reg := ⟨"ENG_TASK_CNT", 0x08200034, 0, 1, 0, 1, .sel .task, .whole, 0x00000000⟩
def R.ENG_TASK_CANCEL : Reg := ⟨"ENG_TASK_CANCEL", 0x08200038, 0, 1, 0, 1, .plain, .whole, 0x00000000⟩
def R.ENG_TI_SEL : Reg := ⟨"ENG_TI_SEL", 0x08200040, 0, 1, 0, 1, .path, .whole, 0x00000000⟩
def R.ENG_TI_STAT : Reg := ⟨"ENG_TI_STAT", 0x08200044, 0, 1, 0, 1, .sel .ti, .whole, 0x00000000⟩
def R.ENG_ROUTE : Reg := ⟨"ENG_ROUTE", 0x08201000, 4, 1024, 0, 1, .plain, .whole, 0x00000000⟩
def R.TBL_DIR_BASE : Reg := ⟨"TBL_DIR_BASE", 0x08000020, 0, 1, 0, 1, .plain, .whole, 0x00002ACB⟩
def R.TBL_LOAD_SRC : Reg := ⟨"TBL_LOAD_SRC", 0x08000024, 0, 1, 0, 1, .path, .whole, 0x00000000⟩
def R.TBL_LOAD_CMD : Reg := ⟨"TBL_LOAD_CMD", 0x08000028, 0, 1, 0, 1, .plain, .whole, 0x00000000⟩
def R.TBL_STAT : Reg := ⟨"TBL_STAT", 0x0800002C, 0, 1, 0, 1, .plain, .whole, 0x00000000⟩
def R.VAT_POOL_SEL : Reg := ⟨"VAT_POOL_SEL", 0x08300000, 0, 1, 0, 1, .path, .whole, 0x00000000⟩
def R.VAT_POOL_CFG : Reg := ⟨"VAT_POOL_CFG", 0x08300004, 0, 1, 0, 1, .sel .pool, .whole, 0x02400000⟩
def R.VAT_QDESC_BASE : Reg := ⟨"VAT_QDESC_BASE", 0x08300008, 0, 1, 0, 1, .plain, .whole, 0x00001200⟩
def R.VAT_AGE : Reg := ⟨"VAT_AGE", 0x0830000C, 0, 1, 0, 1, .plain, .whole, 0x00004020⟩
def R.VAT_SCRUB : Reg := ⟨"VAT_SCRUB", 0x08300010, 0, 1, 0, 1, .plain, .whole, 0x80000400⟩
def R.VAT_SCRUB_PASS : Reg := ⟨"VAT_SCRUB_PASS", 0x08300014, 0, 1, 0, 1, .plain, .whole, 0x00000000⟩
def R.VAT_ECC_CE : Reg := ⟨"VAT_ECC_CE", 0x08300020, 0, 1, 0, 1, .plain, .whole, 0x00000000⟩
def R.VAT_ECC_UE : Reg := ⟨"VAT_ECC_UE", 0x08300024, 0, 1, 0, 1, .plain, .whole, 0x00000000⟩
def R.VAT_POISON_WR : Reg := ⟨"VAT_POISON_WR", 0x08300028, 0, 1, 0, 1, .plain, .whole, 0x00000000⟩
def R.VAT_ECC_ADDR : Reg := ⟨"VAT_ECC_ADDR", 0x0830002C, 0, 1, 0, 1, .plain, .whole, 0x00000000⟩
def R.VAT_REFUSE : Reg := ⟨"VAT_REFUSE", 0x08300030, 0, 1, 0, 1, .plain, .whole, 0x00000000⟩
def R.VAT_QHOST_CMD : Reg := ⟨"VAT_QHOST_CMD", 0x08300040, 0, 1, 0, 1, .plain, .whole, 0x00000000⟩
def R.VAT_QHOST_STAT : Reg := ⟨"VAT_QHOST_STAT", 0x08300044, 0, 1, 0, 1, .path, .whole, 0x00000000⟩
def R.VAT_QHOST_ADDR : Reg := ⟨"VAT_QHOST_ADDR", 0x08300048, 0, 1, 0, 1, .path, .whole, 0x00000000⟩
def R.IN_CFG : Reg := ⟨"IN_CFG", 0x08400000, 128, 40, 0, 1, .plain, .whole, 0x00000000⟩
def R.IN_PRESCALE : Reg := ⟨"IN_PRESCALE", 0x08400004, 128, 40, 0, 1, .plain, .whole, 0x00000001⟩
def R.IN_NOM_LO : Reg := ⟨"IN_NOM_LO", 0x08400008, 128, 40, 0, 1, .plain, .lo false, 0x00000000⟩
def R.IN_NOM_HI : Reg := ⟨"IN_NOM_HI", 0x0840000C, 128, 40, 0, 1, .plain, .hi false, 0x00000000⟩
def R.IN_ACT : Reg := ⟨"IN_ACT", 0x08400010, 128, 40, 0, 1, .plain, .whole, 0x10080211⟩
def R.IN_MON_STAT : Reg := ⟨"IN_MON_STAT", 0x08400014, 128, 40, 0, 1, .plain, .whole, 0x00000000⟩
def R.IN_MON_CFG : Reg := ⟨"IN_MON_CFG", 0x08400018, 128, 40, 0, 1, .plain, .whole, 0x008003E8⟩
def R.IN_FACC_MIN : Reg := ⟨"IN_FACC_MIN", 0x0840001C, 128, 40, 0, 1, .plain, .whole, 0xFFFFD8F0⟩
def R.IN_FACC_MAX : Reg := ⟨"IN_FACC_MAX", 0x08400020, 128, 40, 0, 1, .plain, .whole, 0x00002710⟩
def R.IN_FREJ_MIN : Reg := ⟨"IN_FREJ_MIN", 0x08400024, 128, 40, 0, 1, .plain, .whole, 0xFFFFD120⟩
def R.IN_FREJ_MAX : Reg := ⟨"IN_FREJ_MAX", 0x08400028, 128, 40, 0, 1, .plain, .whole, 0x00002EE0⟩
def R.IN_FMON_RESULT : Reg := ⟨"IN_FMON_RESULT", 0x0840002C, 128, 40, 0, 1, .plain, .whole, 0x00000000⟩
def R.IN_SUS_CFG : Reg := ⟨"IN_SUS_CFG", 0x08400030, 128, 40, 0, 1, .plain, .whole, 0x14324200⟩
def R.IN_SUS_TICK_LO : Reg := ⟨"IN_SUS_TICK_LO", 0x08400034, 128, 40, 0, 1, .plain, .lo false, 0x00000000⟩
def R.IN_SUS_TICK_HI : Reg := ⟨"IN_SUS_TICK_HI", 0x08400038, 128, 40, 0, 1, .plain, .hi false, 0x00000000⟩
def R.IN_QUAL : Reg := ⟨"IN_QUAL", 0x0840003C, 128, 40, 0, 1, .plain, .whole, 0x012C000A⟩
def R.IN_QL : Reg := ⟨"IN_QL", 0x08400040, 128, 40, 0, 1, .plain, .whole, 0x0500FFF0⟩
def R.IN_QL_PORT : Reg := ⟨"IN_QL_PORT", 0x08400044, 128, 40, 0, 1, .plain, .whole, 0x00000000⟩
def R.IN_STATE : Reg := ⟨"IN_STATE", 0x08400048, 128, 40, 0, 1, .plain, .whole, 0x00000000⟩
def R.IN_MASK : Reg := ⟨"IN_MASK", 0x0840004C, 128, 40, 0, 1, .plain, .whole, 0x00000011⟩
def R.MON_REFSM : Reg := ⟨"MON_REFSM", 0x08402000, 0, 1, 0, 1, .plain, .whole, 0x00000010⟩
def R.MON_WORD_BASE : Reg := ⟨"MON_WORD_BASE", 0x08402004, 0, 1, 0, 1, .plain, .whole, 0x02A80000⟩
def R.SEL_MODE : Reg := ⟨"SEL_MODE", 0x08500000, 256, 32, 0, 1, .plain, .whole, 0x0000E000⟩
def R.SEL_PRIO_LO : Reg := ⟨"SEL_PRIO_LO", 0x08500004, 256, 32, 0, 1, .plain, .lo false, 0x00000000⟩
def R.SEL_PRIO_HI : Reg := ⟨"SEL_PRIO_HI", 0x08500008, 256, 32, 0, 1, .plain, .hi false, 0x00000000⟩
def R.SEL_STAT : Reg := ⟨"SEL_STAT", 0x0850000C, 256, 32, 0, 1, .plain, .whole, 0x00000000⟩
def R.SEL_ENS_CFG : Reg := ⟨"SEL_ENS_CFG", 0x08500010, 256, 32, 0, 1, .plain, .whole, 0x4001007D⟩
def R.SEL_WEIGHT : Reg := ⟨"SEL_WEIGHT", 0x08500020, 256, 32, 4, 8, .plain, .whole, 0x00000000⟩
def R.SEL_BO_LO : Reg := ⟨"SEL_BO_LO", 0x08500040, 256, 32, 8, 8, .plain, .lo false, 0x00000000⟩
def R.SEL_BO_HI : Reg := ⟨"SEL_BO_HI", 0x08500044, 256, 32, 8, 8, .plain, .hi false, 0x00000000⟩
def R.SEL_RWD_CFG : Reg := ⟨"SEL_RWD_CFG", 0x08500080, 256, 32, 0, 1, .plain, .whole, 0x00000064⟩
def R.SEL_RWD_FROM_LO : Reg := ⟨"SEL_RWD_FROM_LO", 0x08500084, 256, 32, 0, 1, .plain, .lo false, 0x00000000⟩
def R.SEL_RWD_FROM_HI : Reg := ⟨"SEL_RWD_FROM_HI", 0x08500088, 256, 32, 0, 1, .plain, .hi false, 0x00000000⟩
def R.SEL_RWD_CMD : Reg := ⟨"SEL_RWD_CMD", 0x0850008C, 256, 32, 0, 1, .plain, .whole, 0x00000000⟩
def R.SEL_RWD_STAT : Reg := ⟨"SEL_RWD_STAT", 0x08500090, 256, 32, 0, 1, .plain, .whole, 0x00000000⟩
def R.SEL_RWD_RESTORE_LO : Reg := ⟨"SEL_RWD_RESTORE_LO", 0x08500094, 256, 32, 0, 1, .plain, .lo false, 0x00000000⟩
def R.SEL_RWD_RESTORE_HI : Reg := ⟨"SEL_RWD_RESTORE_HI", 0x08500098, 256, 32, 0, 1, .plain, .hi false, 0x00000000⟩
def R.SEL_SM : Reg := ⟨"SEL_SM", 0x08502000, 0, 1, 0, 1, .plain, .whole, 0x00000020⟩
def R.SEL_RWD_WINDOW : Reg := ⟨"SEL_RWD_WINDOW", 0x08502004, 0, 1, 0, 1, .plain, .whole, 0x0000000C⟩
def R.SEL_QL_RANK_LO : Reg := ⟨"SEL_QL_RANK_LO", 0x08502008, 0, 1, 0, 1, .plain, .lo false, 0xFFF2F1FF⟩
def R.SEL_QL_RANK_HI : Reg := ⟨"SEL_QL_RANK_HI", 0x0850200C, 0, 1, 0, 1, .plain, .hi false, 0xFFFF4FF3⟩
def R.LOOP_CTRL : Reg := ⟨"LOOP_CTRL", 0x08600000, 256, 33, 0, 1, .plain, .whole, 0x00000000⟩
def R.LOOP_BW : Reg := ⟨"LOOP_BW", 0x08600004, 256, 33, 0, 1, .plain, .whole, 0x00002710⟩
def R.LOOP_DAMP : Reg := ⟨"LOOP_DAMP", 0x08600008, 256, 33, 0, 1, .plain, .whole, 0x000001F4⟩
def R.LOOP_LIMIT : Reg := ⟨"LOOP_LIMIT", 0x0860000C, 256, 33, 0, 1, .plain, .whole, 0x000009C4⟩
def R.LOOP_LOCK : Reg := ⟨"LOOP_LOCK", 0x08600014, 256, 33, 0, 1, .plain, .whole, 0x0C806441⟩
def R.LOOP_GATE : Reg := ⟨"LOOP_GATE", 0x08600018, 256, 33, 0, 1, .plain, .whole, 0x07D00064⟩
def R.LOOP_COAST : Reg := ⟨"LOOP_COAST", 0x0860001C, 256, 33, 0, 1, .plain, .whole, 0x006407D0⟩
def R.LOOP_GLIDE_CFG : Reg := ⟨"LOOP_GLIDE_CFG", 0x08600020, 256, 33, 0, 1, .plain, .whole, 0x803C0384⟩
def R.LOOP_FREE_LO : Reg := ⟨"LOOP_FREE_LO", 0x08600024, 256, 33, 0, 1, .plain, .lo false, 0x00000000⟩
def R.LOOP_FREE_HI : Reg := ⟨"LOOP_FREE_HI", 0x08600028, 256, 33, 0, 1, .plain, .hi false, 0x00000000⟩
def R.LOOP_STATE : Reg := ⟨"LOOP_STATE", 0x08600030, 256, 33, 0, 1, .plain, .whole, 0x00000000⟩
def R.LOOP_FOFF : Reg := ⟨"LOOP_FOFF", 0x08600034, 256, 33, 0, 1, .plain, .whole, 0x00000000⟩
def R.LOOP_CNT : Reg := ⟨"LOOP_CNT", 0x08600038, 256, 33, 0, 1, .plain, .whole, 0x00000000⟩
def R.LOOP_MODEL : Reg := ⟨"LOOP_MODEL", 0x0860003C, 256, 33, 0, 1, .plain, .whole, 0x00000000⟩
def R.LOOP_APPLIED_LO : Reg := ⟨"LOOP_APPLIED_LO", 0x08600040, 256, 33, 0, 1, .plain, .lo false, 0x00000000⟩
def R.LOOP_APPLIED_HI : Reg := ⟨"LOOP_APPLIED_HI", 0x08600044, 256, 33, 0, 1, .plain, .hi false, 0x00000000⟩
def R.LOOP_GLIDE_LO : Reg := ⟨"LOOP_GLIDE_LO", 0x08600048, 256, 33, 0, 1, .plain, .lo false, 0x00000000⟩
def R.LOOP_GLIDE_HI : Reg := ⟨"LOOP_GLIDE_HI", 0x0860004C, 256, 33, 0, 1, .plain, .hi false, 0x00000000⟩
def R.LOOP_LOSS_LO : Reg := ⟨"LOOP_LOSS_LO", 0x08600050, 256, 33, 0, 1, .plain, .lo false, 0x00000000⟩
def R.LOOP_LOSS_HI : Reg := ⟨"LOOP_LOSS_HI", 0x08600054, 256, 33, 0, 1, .plain, .hi false, 0x00000000⟩
def R.LOOP_DATA_BASE : Reg := ⟨"LOOP_DATA_BASE", 0x08603000, 0, 1, 0, 1, .plain, .whole, 0x02A81000⟩
def R.TLOOP_CFG : Reg := ⟨"TLOOP_CFG", 0x08603004, 0, 1, 0, 1, .plain, .whole, 0x03E80000⟩
def R.LOOP_VAT_DROP : Reg := ⟨"LOOP_VAT_DROP", 0x08603008, 0, 1, 0, 1, .plain, .whole, 0x00000000⟩
def R.LOOP_XTEMP : Reg := ⟨"LOOP_XTEMP", 0x08603010, 4, 4, 0, 1, .plain, .whole, 0x00000000⟩
def R.SYN_CFG : Reg := ⟨"SYN_CFG", 0x08700000, 256, 16, 0, 1, .plain, .whole, 0x0019103F⟩
def R.SYN_PLAN : Reg := ⟨"SYN_PLAN", 0x08700004, 256, 16, 0, 1, .plain, .whole, 0x04010000⟩
def R.SYN_NFRAC_LO : Reg := ⟨"SYN_NFRAC_LO", 0x08700008, 256, 16, 0, 1, .plain, .lo false, 0x00000000⟩
def R.SYN_NFRAC_HI : Reg := ⟨"SYN_NFRAC_HI", 0x0870000C, 256, 16, 0, 1, .plain, .hi false, 0x00000000⟩
def R.SYN_CMD : Reg := ⟨"SYN_CMD", 0x08700010, 256, 16, 0, 1, .plain, .whole, 0x00000000⟩
def R.SYN_STAT : Reg := ⟨"SYN_STAT", 0x08700014, 256, 16, 0, 1, .plain, .whole, 0x00000000⟩
def R.SYN_TIME : Reg := ⟨"SYN_TIME", 0x08700018, 256, 16, 0, 1, .plain, .whole, 0x00000000⟩
def R.SYN_BM_SEL : Reg := ⟨"SYN_BM_SEL", 0x08700020, 256, 16, 0, 1, .path, .whole, 0x00000000⟩
def R.SYN_BM_DATA : Reg := ⟨"SYN_BM_DATA", 0x08700024, 256, 16, 4, 4, .sel .bm, .whole, 0x00000000⟩
def R.OUT_CFG : Reg := ⟨"OUT_CFG", 0x08704000, 64, 72, 0, 1, .plain, .whole, 0x00000000⟩
def R.OUT_DIV_LO : Reg := ⟨"OUT_DIV_LO", 0x08704004, 64, 72, 0, 1, .plain, .lo false, 0x00000002⟩
def R.OUT_DIV_HI : Reg := ⟨"OUT_DIV_HI", 0x08704008, 64, 72, 0, 1, .plain, .hi false, 0x00000000⟩
def R.OUT_FINE : Reg := ⟨"OUT_FINE", 0x0870400C, 64, 72, 0, 1, .plain, .whole, 0x00000000⟩
def R.OUT_COARSE : Reg := ⟨"OUT_COARSE", 0x08704010, 64, 72, 0, 1, .plain, .whole, 0x00000000⟩
def R.OUT_XODIV : Reg := ⟨"OUT_XODIV", 0x08704014, 64, 72, 0, 1, .plain, .whole, 0x00000001⟩
def R.OUT_DPH_CFG : Reg := ⟨"OUT_DPH_CFG", 0x08704018, 64, 72, 0, 1, .plain, .whole, 0x20020040⟩
def R.OUT_DPH_OFFSET_LO : Reg := ⟨"OUT_DPH_OFFSET_LO", 0x0870401C, 64, 72, 0, 1, .plain, .lo false, 0x00000000⟩
def R.OUT_DPH_OFFSET_HI : Reg := ⟨"OUT_DPH_OFFSET_HI", 0x08704020, 64, 72, 0, 1, .plain, .hi false, 0x00000000⟩
def R.OUT_DPH_RATE : Reg := ⟨"OUT_DPH_RATE", 0x08704024, 64, 72, 0, 1, .plain, .whole, 0x000003E8⟩
def R.OUT_DPH_STAT : Reg := ⟨"OUT_DPH_STAT", 0x08704028, 64, 72, 0, 1, .plain, .whole, 0x00000000⟩
def R.OUT_STAT : Reg := ⟨"OUT_STAT", 0x0870402C, 64, 72, 0, 1, .plain, .whole, 0x00000000⟩
def R.OB_CFG : Reg := ⟨"OB_CFG", 0x08706000, 16, 9, 0, 1, .plain, .whole, 0x00000000⟩
def R.OB_STAT : Reg := ⟨"OB_STAT", 0x08706004, 16, 9, 0, 1, .plain, .whole, 0x00000000⟩
def R.OUT_SAFEMAP : Reg := ⟨"OUT_SAFEMAP", 0x08707000, 0, 1, 0, 1, .plain, .whole, 0x00000030⟩
def R.SLAL_CFG : Reg := ⟨"SLAL_CFG", 0x08800000, 64, 32, 0, 1, .plain, .whole, 0x00000000⟩
def R.SLAL_CMD : Reg := ⟨"SLAL_CMD", 0x08800004, 64, 32, 0, 1, .plain, .whole, 0x00000000⟩
def R.SLAL_STAT : Reg := ⟨"SLAL_STAT", 0x08800008, 64, 32, 0, 1, .plain, .whole, 0x00000000⟩
def R.SLAL_OFFSET_LO : Reg := ⟨"SLAL_OFFSET_LO", 0x0880000C, 64, 32, 0, 1, .plain, .lo false, 0x00000000⟩
def R.SLAL_OFFSET_HI : Reg := ⟨"SLAL_OFFSET_HI", 0x08800010, 64, 32, 0, 1, .plain, .hi false, 0x00000000⟩
def R.TDC_CH_CFG : Reg := ⟨"TDC_CH_CFG", 0x08900000, 32, 136, 0, 1, .plain, .whole, 0x00000000⟩
def R.TDC_CH_DIV : Reg := ⟨"TDC_CH_DIV", 0x08900004, 32, 136, 0, 1, .plain, .whole, 0x00000001⟩
def R.TDC_CH_NTH : Reg := ⟨"TDC_CH_NTH", 0x08900008, 32, 136, 0, 1, .plain, .whole, 0x00000002⟩
def R.TDC_CH_DELAY : Reg := ⟨"TDC_CH_DELAY", 0x0890000C, 32, 136, 0, 1, .plain, .whole, 0x00000000⟩
def R.TDC_CH_STAT : Reg := ⟨"TDC_CH_STAT", 0x08900010, 32, 136, 0, 1, .plain, .whole, 0x00000000⟩
def R.TDC_CH_CAL : Reg := ⟨"TDC_CH_CAL", 0x08900014, 32, 136, 0, 1, .plain, .whole, 0x00000000⟩
def R.TDC_MS_CFG : Reg := ⟨"TDC_MS_CFG", 0x08902000, 64, 64, 0, 1, .plain, .whole, 0x00000000⟩
def R.TDC_MS_STOPN : Reg := ⟨"TDC_MS_STOPN", 0x08902004, 64, 64, 0, 1, .plain, .whole, 0x00000001⟩
def R.TDC_MS_TIMEOUT : Reg := ⟨"TDC_MS_TIMEOUT", 0x08902008, 64, 64, 0, 1, .plain, .whole, 0x3B9ACA00⟩
def R.TDC_MS_WOPEN : Reg := ⟨"TDC_MS_WOPEN", 0x0890200C, 64, 64, 0, 1, .plain, .whole, 0x00000000⟩
def R.TDC_MS_WCLOSE : Reg := ⟨"TDC_MS_WCLOSE", 0x08902010, 64, 64, 0, 1, .plain, .whole, 0x000003E8⟩
def R.TDC_MS_CMD : Reg := ⟨"TDC_MS_CMD", 0x08902014, 64, 64, 0, 1, .plain, .whole, 0x00000000⟩
def R.TDC_MS_STAT : Reg := ⟨"TDC_MS_STAT", 0x08902018, 64, 64, 0, 1, .plain, .whole, 0x00000000⟩
def R.TDC_MS_RES_LO : Reg := ⟨"TDC_MS_RES_LO", 0x0890201C, 64, 64, 0, 1, .plain, .lo false, 0x00000000⟩
def R.TDC_MS_RES_HI : Reg := ⟨"TDC_MS_RES_HI", 0x08902020, 64, 64, 0, 1, .plain, .hi false, 0x00000000⟩
def R.TDC_MS_START_S32 : Reg := ⟨"TDC_MS_START_S32", 0x08902024, 64, 64, 0, 1, .plain, .whole, 0x00000000⟩
def R.TDC_ST_CFG : Reg := ⟨"TDC_ST_CFG", 0x08903000, 64, 16, 0, 1, .plain, .whole, 0x00000002⟩
def R.TDC_ST_CMD : Reg := ⟨"TDC_ST_CMD", 0x08903004, 64, 16, 0, 1, .plain, .whole, 0x00000000⟩
def R.TDC_ST_STAT : Reg := ⟨"TDC_ST_STAT", 0x08903008, 64, 16, 0, 1, .plain, .whole, 0x00000000⟩
def R.TDC_ST_SKIP : Reg := ⟨"TDC_ST_SKIP", 0x0890300C, 64, 16, 0, 1, .plain, .whole, 0x00000000⟩
def R.TDC_ST_MEAN_LO : Reg := ⟨"TDC_ST_MEAN_LO", 0x08903010, 64, 16, 0, 1, .plain, .lo false, 0x00000000⟩
def R.TDC_ST_MEAN_HI : Reg := ⟨"TDC_ST_MEAN_HI", 0x08903014, 64, 16, 0, 1, .plain, .hi false, 0x00000000⟩
def R.TDC_ST_STD_LO : Reg := ⟨"TDC_ST_STD_LO", 0x08903018, 64, 16, 0, 1, .plain, .lo false, 0x00000000⟩
def R.TDC_ST_STD_HI : Reg := ⟨"TDC_ST_STD_HI", 0x0890301C, 64, 16, 0, 1, .plain, .hi false, 0x00000000⟩
def R.TDC_ST_MIN_LO : Reg := ⟨"TDC_ST_MIN_LO", 0x08903020, 64, 16, 0, 1, .plain, .lo false, 0x00000000⟩
def R.TDC_ST_MIN_HI : Reg := ⟨"TDC_ST_MIN_HI", 0x08903024, 64, 16, 0, 1, .plain, .hi false, 0x00000000⟩
def R.TDC_ST_MAX_LO : Reg := ⟨"TDC_ST_MAX_LO", 0x08903028, 64, 16, 0, 1, .plain, .lo false, 0x00000000⟩
def R.TDC_ST_MAX_HI : Reg := ⟨"TDC_ST_MAX_HI", 0x0890302C, 64, 16, 0, 1, .plain, .hi false, 0x00000000⟩
def R.TDC_TR_CFG : Reg := ⟨"TDC_TR_CFG", 0x08904000, 64, 4, 0, 1, .plain, .whole, 0x00000000⟩
def R.TDC_TR_BUF : Reg := ⟨"TDC_TR_BUF", 0x08904004, 64, 4, 0, 1, .plain, .whole, 0x00000000⟩
def R.TDC_TR_PRE : Reg := ⟨"TDC_TR_PRE", 0x08904008, 64, 4, 0, 1, .plain, .whole, 0x00000000⟩
def R.TDC_TR_POST : Reg := ⟨"TDC_TR_POST", 0x0890400C, 64, 4, 0, 1, .plain, .whole, 0x00000001⟩
def R.TDC_TR_CMD : Reg := ⟨"TDC_TR_CMD", 0x08904010, 64, 4, 0, 1, .plain, .whole, 0x00000000⟩
def R.TDC_TR_STAT : Reg := ⟨"TDC_TR_STAT", 0x08904014, 64, 4, 0, 1, .plain, .whole, 0x00000000⟩
def R.TDC_TR_SEQ : Reg := ⟨"TDC_TR_SEQ", 0x08904018, 64, 4, 0, 1, .plain, .whole, 0x00000000⟩
def R.TDC_SUMMARY : Reg := ⟨"TDC_SUMMARY", 0x08905000, 0, 1, 0, 1, .plain, .whole, 0x00000000⟩
def R.TIME_LT_NS_LO : Reg := ⟨"TIME_LT_NS_LO", 0x08A00000, 0, 1, 0, 1, .plain, .lo true, 0x00000000⟩
def R.TIME_LT_NS_HI : Reg := ⟨"TIME_LT_NS_HI", 0x08A00004, 0, 1, 0, 1, .plain, .hi true, 0x00000000⟩
def R.TIME_LT_FRAC : Reg := ⟨"TIME_LT_FRAC", 0x08A00008, 0, 1, 0, 1, .plain, .frac, 0x00000000⟩
def R.TIME_LT_STEP_LO : Reg := ⟨"TIME_LT_STEP_LO", 0x08A00010, 0, 1, 0, 1, .plain, .lo false, 0x00000000⟩
def R.TIME_LT_STEP_HI : Reg := ⟨"TIME_LT_STEP_HI", 0x08A00014, 0, 1, 0, 1, .plain, .hi false, 0x00000000⟩
def R.TIME_PI_CFG : Reg := ⟨"TIME_PI_CFG", 0x08A00020, 0, 1, 0, 1, .plain, .whole, 0x00000000⟩
def R.TIME_PI_BASE : Reg := ⟨"TIME_PI_BASE", 0x08A00024, 0, 1, 0, 1, .plain, .whole, 0x00002A83⟩
def R.TIME_PI_STAT : Reg := ⟨"TIME_PI_STAT", 0x08A00028, 0, 1, 0, 1, .plain, .whole, 0x00000000⟩
def R.CTX_SEL : Reg := ⟨"CTX_SEL", 0x08A01000, 0, 1, 0, 1, .path, .whole, 0x00000000⟩
def R.CTX_TIME_NS_LO : Reg := ⟨"CTX_TIME_NS_LO", 0x08A01004, 0, 1, 0, 1, .sel .ctx, .lo true, 0x00000000⟩
def R.CTX_TIME_NS_HI : Reg := ⟨"CTX_TIME_NS_HI", 0x08A01008, 0, 1, 0, 1, .sel .ctx, .hi true, 0x00000000⟩
def R.CTX_TIME_FRAC : Reg := ⟨"CTX_TIME_FRAC", 0x08A0100C, 0, 1, 0, 1, .sel .ctx, .frac, 0x00000000⟩
def R.CTX_INC_LO : Reg := ⟨"CTX_INC_LO", 0x08A01010, 0, 1, 0, 1, .sel .ctx, .lo false, 0x00000000⟩
def R.CTX_INC_HI : Reg := ⟨"CTX_INC_HI", 0x08A01014, 0, 1, 0, 1, .sel .ctx, .hi false, 0x000003E8⟩
def R.CTX_SLEW_INC_LO : Reg := ⟨"CTX_SLEW_INC_LO", 0x08A01018, 0, 1, 0, 1, .sel .ctx, .lo false, 0x00000000⟩
def R.CTX_SLEW_INC_HI : Reg := ⟨"CTX_SLEW_INC_HI", 0x08A0101C, 0, 1, 0, 1, .sel .ctx, .hi false, 0x000003E8⟩
def R.CTX_SLEW_TICKS : Reg := ⟨"CTX_SLEW_TICKS", 0x08A01020, 0, 1, 0, 1, .sel .ctx, .whole, 0x00000001⟩
def R.CTX_SLEW_LEFT : Reg := ⟨"CTX_SLEW_LEFT", 0x08A01024, 0, 1, 0, 1, .sel .ctx, .whole, 0x00000000⟩
def R.CTX_SET_NS_LO : Reg := ⟨"CTX_SET_NS_LO", 0x08A01028, 0, 1, 0, 1, .sel .ctx, .lo true, 0x00000000⟩
def R.CTX_SET_NS_HI : Reg := ⟨"CTX_SET_NS_HI", 0x08A0102C, 0, 1, 0, 1, .sel .ctx, .hi true, 0x00000000⟩
def R.CTX_SET_FRAC : Reg := ⟨"CTX_SET_FRAC", 0x08A01030, 0, 1, 0, 1, .sel .ctx, .frac, 0x00000000⟩
def R.CTX_STEP_LO : Reg := ⟨"CTX_STEP_LO", 0x08A01034, 0, 1, 0, 1, .sel .ctx, .lo false, 0x00000000⟩
def R.CTX_STEP_HI : Reg := ⟨"CTX_STEP_HI", 0x08A01038, 0, 1, 0, 1, .sel .ctx, .hi false, 0x00000000⟩
def R.CTX_CMD : Reg := ⟨"CTX_CMD", 0x08A0103C, 0, 1, 0, 1, .sel .ctx, .whole, 0x00000000⟩
def R.CTX_UTC : Reg := ⟨"CTX_UTC", 0x08A01040, 0, 1, 0, 1, .sel .ctx, .whole, 0x02D00000⟩
def R.CTX_LEAP_LO : Reg := ⟨"CTX_LEAP_LO", 0x08A01044, 0, 1, 0, 1, .sel .ctx, .lo false, 0x00000000⟩
def R.CTX_LEAP_HI : Reg := ⟨"CTX_LEAP_HI", 0x08A01048, 0, 1, 0, 1, .sel .ctx, .hi false, 0x00000000⟩
def R.CTX_STAT : Reg := ⟨"CTX_STAT", 0x08A0104C, 0, 1, 0, 1, .sel .ctx, .whole, 0x00000000⟩
def R.CTX_CONV_IN_NS_LO : Reg := ⟨"CTX_CONV_IN_NS_LO", 0x08A01050, 0, 1, 0, 1, .path, .lo true, 0x00000000⟩
def R.CTX_CONV_IN_NS_HI : Reg := ⟨"CTX_CONV_IN_NS_HI", 0x08A01054, 0, 1, 0, 1, .path, .hi true, 0x00000000⟩
def R.CTX_CONV_IN_FRAC : Reg := ⟨"CTX_CONV_IN_FRAC", 0x08A01058, 0, 1, 0, 1, .path, .frac, 0x00000000⟩
def R.CTX_CONV_OUT_NS_LO : Reg := ⟨"CTX_CONV_OUT_NS_LO", 0x08A0105C, 0, 1, 0, 1, .path, .lo true, 0x00000000⟩
def R.CTX_CONV_OUT_NS_HI : Reg := ⟨"CTX_CONV_OUT_NS_HI", 0x08A01060, 0, 1, 0, 1, .path, .hi true, 0x00000000⟩
def R.CTX_CONV_OUT_FRAC : Reg := ⟨"CTX_CONV_OUT_FRAC", 0x08A01064, 0, 1, 0, 1, .path, .frac, 0x00000000⟩
def R.CTX_VAT_DROP : Reg := ⟨"CTX_VAT_DROP", 0x08A01068, 0, 1, 0, 1, .plain, .whole, 0x00000000⟩
def R.EVT_CFG : Reg := ⟨"EVT_CFG", 0x08B00000, 64, 16, 0, 1, .plain, .whole, 0x00000000⟩
def R.EVT_START_NS_LO : Reg := ⟨"EVT_START_NS_LO", 0x08B00004, 64, 16, 0, 1, .plain, .lo true, 0x00000000⟩
def R.EVT_START_NS_HI : Reg := ⟨"EVT_START_NS_HI", 0x08B00008, 64, 16, 0, 1, .plain, .hi true, 0x00000000⟩
def R.EVT_START_FRAC : Reg := ⟨"EVT_START_FRAC", 0x08B0000C, 64, 16, 0, 1, .plain, .frac, 0x00000000⟩
def R.EVT_PERIOD_LO : Reg := ⟨"EVT_PERIOD_LO", 0x08B00010, 64, 16, 0, 1, .plain, .lo false, 0x3B9ACA00⟩
def R.EVT_PERIOD_HI : Reg := ⟨"EVT_PERIOD_HI", 0x08B00014, 64, 16, 0, 1, .plain, .hi false, 0x00000000⟩
def R.EVT_WIDTH : Reg := ⟨"EVT_WIDTH", 0x08B00018, 64, 16, 0, 1, .plain, .whole, 0x000003E8⟩
def R.EVT_AUX : Reg := ⟨"EVT_AUX", 0x08B0001C, 64, 16, 0, 1, .plain, .whole, 0x00000001⟩
def R.EVT_CMD : Reg := ⟨"EVT_CMD", 0x08B00020, 64, 16, 0, 1, .plain, .whole, 0x00000000⟩
def R.EVT_STAT : Reg := ⟨"EVT_STAT", 0x08B00024, 64, 16, 0, 1, .plain, .whole, 0x00000000⟩
def R.EVT_CAPT_NS_LO : Reg := ⟨"EVT_CAPT_NS_LO", 0x08B00028, 64, 16, 0, 1, .plain, .lo true, 0x00000000⟩
def R.EVT_CAPT_NS_HI : Reg := ⟨"EVT_CAPT_NS_HI", 0x08B0002C, 64, 16, 0, 1, .plain, .hi true, 0x00000000⟩
def R.EVT_CAPT_FRAC : Reg := ⟨"EVT_CAPT_FRAC", 0x08B00030, 64, 16, 0, 1, .plain, .frac, 0x00000000⟩
def R.EVT_COUNT : Reg := ⟨"EVT_COUNT", 0x08B00034, 64, 16, 0, 1, .plain, .whole, 0x00000000⟩
def R.FRM_PORT_CFG : Reg := ⟨"FRM_PORT_CFG", 0x08C00000, 256, 8, 0, 1, .plain, .whole, 0x00000000⟩
def R.FRM_PORT_STAT : Reg := ⟨"FRM_PORT_STAT", 0x08C00004, 256, 8, 0, 1, .plain, .whole, 0x00000000⟩
def R.FRM_POLICE : Reg := ⟨"FRM_POLICE", 0x08C00008, 256, 8, 0, 1, .plain, .whole, 0x040004E2⟩
def R.FRM_CNT : Reg := ⟨"FRM_CNT", 0x08C00040, 256, 8, 4, 16, .plain, .whole, 0x00000000⟩
def R.FRM_CFG : Reg := ⟨"FRM_CFG", 0x08C01000, 0, 1, 0, 1, .plain, .whole, 0x06410040⟩
def R.FRM_EGQ : Reg := ⟨"FRM_EGQ", 0x08C01004, 0, 1, 0, 1, .plain, .whole, 0x00000000⟩
def R.FRM_EDELAY : Reg := ⟨"FRM_EDELAY", 0x08C02000, 4, 1024, 0, 1, .plain, .whole, 0x00000000⟩
def R.FRM_RING_ADDR_LO : Reg := ⟨"FRM_RING_ADDR_LO", 0x08C04000, 32, 256, 0, 1, .plain, .lo false, 0x00000000⟩
def R.FRM_RING_ADDR_HI : Reg := ⟨"FRM_RING_ADDR_HI", 0x08C04004, 32, 256, 0, 1, .plain, .hi false, 0x00000000⟩
def R.FRM_RING_CFG : Reg := ⟨"FRM_RING_CFG", 0x08C04008, 32, 256, 0, 1, .plain, .whole, 0x00000000⟩
def R.FRM_RING_HEAD : Reg := ⟨"FRM_RING_HEAD", 0x08C0400C, 32, 256, 0, 1, .plain, .whole, 0x00000000⟩
def R.FRM_RING_TAIL : Reg := ⟨"FRM_RING_TAIL", 0x08C04010, 32, 256, 0, 1, .plain, .whole, 0x00000000⟩
def R.FRM_RING_STAT : Reg := ⟨"FRM_RING_STAT", 0x08C04014, 32, 256, 0, 1, .plain, .whole, 0x00000000⟩
def R.KL_CFG : Reg := ⟨"KL_CFG", 0x08D00000, 0, 1, 0, 1, .plain, .whole, 0x00322000⟩
def R.KL_GROUP_STAT : Reg := ⟨"KL_GROUP_STAT", 0x08D00004, 0, 1, 0, 1, .plain, .whole, 0x00000000⟩
def R.KL_WM_LO : Reg := ⟨"KL_WM_LO", 0x08D00008, 0, 1, 0, 1, .plain, .lo false, 0x00000000⟩
def R.KL_WM_HI : Reg := ⟨"KL_WM_HI", 0x08D0000C, 0, 1, 0, 1, .plain, .hi false, 0x00000000⟩
def R.KL_SWM_LO : Reg := ⟨"KL_SWM_LO", 0x08D00010, 0, 1, 0, 1, .plain, .lo false, 0x00000000⟩
def R.KL_SWM_HI : Reg := ⟨"KL_SWM_HI", 0x08D00014, 0, 1, 0, 1, .plain, .hi false, 0x00000000⟩
def R.KL_GEN : Reg := ⟨"KL_GEN", 0x08D00018, 0, 1, 0, 1, .plain, .whole, 0x00000000⟩
def R.KL_WM_SCOPE : Reg := ⟨"KL_WM_SCOPE", 0x08D0001C, 0, 1, 0, 1, .plain, .whole, 0x00000009⟩
def R.KL_STAGE_CMD : Reg := ⟨"KL_STAGE_CMD", 0x08D00020, 0, 1, 0, 1, .plain, .whole, 0x00000000⟩
def R.KL_STAGE_TICK_LO : Reg := ⟨"KL_STAGE_TICK_LO", 0x08D00024, 0, 1, 0, 1, .plain, .lo false, 0x00000000⟩
def R.KL_STAGE_TICK_HI : Reg := ⟨"KL_STAGE_TICK_HI", 0x08D00028, 0, 1, 0, 1, .plain, .hi false, 0x00000000⟩
def R.KL_STAGE_STAT : Reg := ⟨"KL_STAGE_STAT", 0x08D0002C, 0, 1, 0, 1, .plain, .whole, 0x00000000⟩
def R.KL_RX_BASE : Reg := ⟨"KL_RX_BASE", 0x08D00030, 0, 1, 0, 1, .plain, .whole, 0x02A82000⟩
def R.KL_MBOX : Reg := ⟨"KL_MBOX", 0x08D00040, 4, 8, 0, 1, .plain, .whole, 0x00000000⟩
def R.KL_LINK_CFG : Reg := ⟨"KL_LINK_CFG", 0x08D01000, 64, 8, 0, 1, .plain, .whole, 0x00000800⟩
def R.KL_LINK_CMD : Reg := ⟨"KL_LINK_CMD", 0x08D01004, 64, 8, 0, 1, .plain, .whole, 0x00000000⟩
def R.KL_LINK_STAT : Reg := ⟨"KL_LINK_STAT", 0x08D01008, 64, 8, 0, 1, .plain, .whole, 0x00000000⟩
def R.KL_LINK_DELAY : Reg := ⟨"KL_LINK_DELAY", 0x08D0100C, 64, 8, 0, 1, .plain, .whole, 0x00000000⟩
def R.KL_LINK_OFFSET : Reg := ⟨"KL_LINK_OFFSET", 0x08D01010, 64, 8, 0, 1, .plain, .whole, 0x00000000⟩
def R.KL_LINK_ASYM : Reg := ⟨"KL_LINK_ASYM", 0x08D01014, 64, 8, 0, 1, .plain, .whole, 0x00000000⟩
def R.KL_EXPORT : Reg := ⟨"KL_EXPORT", 0x08D02000, 4, 16, 0, 1, .plain, .whole, 0x00000000⟩
def R.KL_LEXPORT : Reg := ⟨"KL_LEXPORT", 0x08D02040, 4, 8, 0, 1, .plain, .whole, 0x00000000⟩
def R.KL_RREF : Reg := ⟨"KL_RREF", 0x08D02080, 4, 16, 0, 1, .plain, .whole, 0x00000000⟩
def R.KL_RLOOP : Reg := ⟨"KL_RLOOP", 0x08D020C0, 4, 8, 0, 1, .plain, .whole, 0x00000000⟩
def R.REAM_ADDR : Reg := ⟨"REAM_ADDR", 0x08E00000, 0, 1, 0, 1, .path, .whole, 0x00000000⟩
def R.REAM_VAT : Reg := ⟨"REAM_VAT", 0x08E00004, 0, 1, 0, 1, .path, .whole, 0x00000000⟩
def R.REAM_CMD : Reg := ⟨"REAM_CMD", 0x08E00008, 0, 1, 0, 1, .plain, .whole, 0x00000000⟩
def R.REAM_STAT : Reg := ⟨"REAM_STAT", 0x08E0000C, 0, 1, 0, 1, .plain, .whole, 0x00000000⟩
def R.REAM_ECC : Reg := ⟨"REAM_ECC", 0x08E00010, 0, 1, 0, 1, .plain, .whole, 0x00000000⟩
def R.REAM_RGN_SEL : Reg := ⟨"REAM_RGN_SEL", 0x08E00020, 0, 1, 0, 1, .path, .whole, 0x00000000⟩
def R.REAM_RGN_CFG : Reg := ⟨"REAM_RGN_CFG", 0x08E00024, 0, 1, 0, 1, .sel .rgn, .whole, 0x00000200⟩
def R.REAM_SAVE_CFG : Reg := ⟨"REAM_SAVE_CFG", 0x08E00030, 0, 1, 0, 1, .plain, .whole, 0x00000000⟩
def R.REAM_SAVE_STAT : Reg := ⟨"REAM_SAVE_STAT", 0x08E00034, 0, 1, 0, 1, .plain, .whole, 0x00000000⟩
def R.REAM_WEAR_SEL : Reg := ⟨"REAM_WEAR_SEL", 0x08E00040, 0, 1, 0, 1, .path, .whole, 0x00000000⟩
def R.REAM_WEAR : Reg := ⟨"REAM_WEAR", 0x08E00044, 0, 1, 0, 1, .sel .wear, .whole, 0x00000000⟩
def R.FLT_STATE : Reg := ⟨"FLT_STATE", 0x08F00000, 0, 1, 0, 1, .plain, .whole, 0x00000000⟩
def R.FLT_SUMMARY_LO : Reg := ⟨"FLT_SUMMARY_LO", 0x08F00004, 0, 1, 0, 1, .plain, .lo false, 0x00000000⟩
def R.FLT_SUMMARY_HI : Reg := ⟨"FLT_SUMMARY_HI", 0x08F00008, 0, 1, 0, 1, .plain, .hi false, 0x00000000⟩
def R.FLT_CTRL : Reg := ⟨"FLT_CTRL", 0x08F0000C, 0, 1, 0, 1, .plain, .whole, 0x00000000⟩
def R.FLT_STATUS : Reg := ⟨"FLT_STATUS", 0x08F00040, 4, 9, 0, 1, .plain, .whole, 0x00000000⟩
def R.FLT_ACTIVE : Reg := ⟨"FLT_ACTIVE", 0x08F00080, 4, 9, 0, 1, .plain, .whole, 0x00000000⟩
def R.FLT_FORCE : Reg := ⟨"FLT_FORCE", 0x08F000C0, 4, 9, 0, 1, .plain, .whole, 0x00000000⟩
def R.FLT_CLASS : Reg := ⟨"FLT_CLASS", 0x08F00100, 4, 18, 0, 1, .plain, .whole, 0x00101A7F⟩
def R.FLT_SRC_SEL : Reg := ⟨"FLT_SRC_SEL", 0x08F00200, 0, 1, 0, 1, .path, .whole, 0x00000000⟩
def R.FLT_SRC_INFO : Reg := ⟨"FLT_SRC_INFO", 0x08F00204, 0, 1, 0, 1, .sel .src, .whole, 0x00000000⟩
def R.FLT_SRC_DETAIL : Reg := ⟨"FLT_SRC_DETAIL", 0x08F00208, 0, 1, 0, 1, .sel .src, .whole, 0x00000000⟩
def R.FLT_PIN : Reg := ⟨"FLT_PIN", 0x08F00210, 0, 1, 0, 1, .plain, .whole, 0x000E0002⟩
def R.FLT_LOG_STAT : Reg := ⟨"FLT_LOG_STAT", 0x08F00220, 0, 1, 0, 1, .plain, .whole, 0x00000000⟩
def R.BOOT_STAT : Reg := ⟨"BOOT_STAT", 0x09000000, 0, 1, 0, 1, .plain, .whole, 0x00000000⟩
def R.BOOT_ALT : Reg := ⟨"BOOT_ALT", 0x09000004, 0, 1, 0, 1, .plain, .whole, 0x00000000⟩
def R.BOOT_CMD : Reg := ⟨"BOOT_CMD", 0x09000008, 0, 1, 0, 1, .plain, .whole, 0x00000000⟩
def R.BOOT_PUSH : Reg := ⟨"BOOT_PUSH", 0x0900000C, 0, 1, 0, 1, .plain, .whole, 0x00000000⟩
def R.BOOT_PUSH_LEN : Reg := ⟨"BOOT_PUSH_LEN", 0x09000010, 0, 1, 0, 1, .plain, .whole, 0x00000000⟩
def R.BOOT_WAIT : Reg := ⟨"BOOT_WAIT", 0x09000014, 0, 1, 0, 1, .plain, .whole, 0x0000000A⟩
def R.BOOT_KEY : Reg := ⟨"BOOT_KEY", 0x09000018, 0, 1, 0, 1, .plain, .whole, 0x00000000⟩
def R.BOOT_TIME : Reg := ⟨"BOOT_TIME", 0x09000020, 4, 12, 0, 1, .plain, .whole, 0x00000000⟩
def R.HOST_PATH_STAT : Reg := ⟨"HOST_PATH_STAT", 0x09100000, 0, 1, 0, 1, .path, .whole, 0x00000000⟩
def R.HOST_WERR_CNT : Reg := ⟨"HOST_WERR_CNT", 0x09100004, 0, 1, 0, 1, .plain, .whole, 0x00000000⟩
def R.HOST_WERR_ADDR : Reg := ⟨"HOST_WERR_ADDR", 0x09100008, 0, 1, 0, 1, .plain, .whole, 0x00000000⟩
def R.HOST_WERR_SRC : Reg := ⟨"HOST_WERR_SRC", 0x0910000C, 0, 1, 0, 1, .plain, .whole, 0x00000000⟩
def R.HOST_IRQ_CAUSE : Reg := ⟨"HOST_IRQ_CAUSE", 0x09100010, 0, 1, 0, 1, .plain, .whole, 0x00000000⟩
def R.HOST_IRQ_MASK : Reg := ⟨"HOST_IRQ_MASK", 0x09100014, 0, 1, 0, 1, .plain, .whole, 0x00000001⟩
def R.HOST_FLT_MASK : Reg := ⟨"HOST_FLT_MASK", 0x09100020, 4, 9, 0, 1, .plain, .whole, 0xFFFFFFFF⟩
def R.HOST_PCIE_STAT : Reg := ⟨"HOST_PCIE_STAT", 0x09100044, 0, 1, 0, 1, .plain, .whole, 0x00000000⟩
def R.HOST_VF_APT : Reg := ⟨"HOST_VF_APT", 0x09100080, 4, 32, 0, 1, .plain, .whole, 0x00000000⟩
def R.XI2C_CFG : Reg := ⟨"XI2C_CFG", 0x09101000, 64, 2, 0, 1, .plain, .whole, 0x00001900⟩
def R.XI2C_CMD : Reg := ⟨"XI2C_CMD", 0x09101004, 64, 2, 0, 1, .plain, .whole, 0x00000000⟩
def R.XI2C_DATA0 : Reg := ⟨"XI2C_DATA0", 0x09101008, 64, 2, 0, 1, .plain, .whole, 0x00000000⟩
def R.XI2C_DATA1 : Reg := ⟨"XI2C_DATA1", 0x0910100C, 64, 2, 0, 1, .plain, .whole, 0x00000000⟩
def R.XI2C_STAT : Reg := ⟨"XI2C_STAT", 0x09101010, 64, 2, 0, 1, .plain, .whole, 0x00000000⟩
def R.FSPI_ADDR : Reg := ⟨"FSPI_ADDR", 0x09102000, 0, 1, 0, 1, .plain, .whole, 0x00000000⟩
def R.FSPI_VAT : Reg := ⟨"FSPI_VAT", 0x09102004, 0, 1, 0, 1, .plain, .whole, 0x00000000⟩
def R.FSPI_CMD : Reg := ⟨"FSPI_CMD", 0x09102008, 0, 1, 0, 1, .plain, .whole, 0x00000000⟩
def R.FSPI_STAT : Reg := ⟨"FSPI_STAT", 0x0910200C, 0, 1, 0, 1, .plain, .whole, 0x00000000⟩
def R.TST_LB_SEL : Reg := ⟨"TST_LB_SEL", 0x09200000, 0, 1, 0, 1, .path, .whole, 0x00000000⟩
def R.TST_LB_CFG : Reg := ⟨"TST_LB_CFG", 0x09200004, 0, 1, 0, 1, .sel .lb, .whole, 0x00000000⟩
def R.TST_LB_ACTIVE : Reg := ⟨"TST_LB_ACTIVE", 0x09200008, 0, 1, 0, 1, .plain, .whole, 0x00000000⟩
def R.TST_SRC : Reg := ⟨"TST_SRC", 0x0920000C, 0, 1, 0, 1, .plain, .whole, 0x00000001⟩
def R.TST_BIST_CMD : Reg := ⟨"TST_BIST_CMD", 0x09200010, 0, 1, 0, 1, .plain, .whole, 0x00000000⟩
def R.TST_BIST_RANGE : Reg := ⟨"TST_BIST_RANGE", 0x09200014, 0, 1, 0, 1, .plain, .whole, 0x00000000⟩
def R.TST_BIST_STAT : Reg := ⟨"TST_BIST_STAT", 0x09200018, 0, 1, 0, 1, .plain, .whole, 0x00000000⟩
def R.TST_SELF_CFG : Reg := ⟨"TST_SELF_CFG", 0x09200020, 0, 1, 0, 1, .plain, .whole, 0x00000000⟩
def R.TST_SELF_TAP : Reg := ⟨"TST_SELF_TAP", 0x09200040, 4, 8, 0, 1, .plain, .whole, 0x00000000⟩

def F.SYS_ID.PART : Fld := ⟨R.SYS_ID, 31, 16⟩
def F.SYS_ID.REV : Fld := ⟨R.SYS_ID, 15, 8⟩
def F.SYS_ID.VENDOR : Fld := ⟨R.SYS_ID, 7, 0⟩
def F.SYS_PROFILE.REFUSE : Fld := ⟨R.SYS_PROFILE, 11, 8⟩
def F.SYS_PROFILE.ACTIVE : Fld := ⟨R.SYS_PROFILE, 5, 4⟩
def F.SYS_PROFILE.PROFILE : Fld := ⟨R.SYS_PROFILE, 1, 0⟩
def F.TICK_COUNT_LO.COUNT_LO : Fld := ⟨R.TICK_COUNT_LO, 31, 0⟩
def F.TICK_COUNT_HI.COUNT_HI : Fld := ⟨R.TICK_COUNT_HI, 31, 0⟩
def F.ENG_CLUSTER_PWR.ON : Fld := ⟨R.ENG_CLUSTER_PWR, 15, 0⟩
def F.ENG_CLUSTER_STAT.BOUND : Fld := ⟨R.ENG_CLUSTER_STAT, 31, 16⟩
def F.ENG_CLUSTER_STAT.POWERED : Fld := ⟨R.ENG_CLUSTER_STAT, 15, 0⟩
def F.ENG_AGE.AGE2 : Fld := ⟨R.ENG_AGE, 15, 8⟩
def F.ENG_AGE.AGE3 : Fld := ⟨R.ENG_AGE, 7, 0⟩
def F.ENG_ADMIT.ENGINE : Fld := ⟨R.ENG_ADMIT, 24, 16⟩
def F.ENG_ADMIT.USED : Fld := ⟨R.ENG_ADMIT, 14, 4⟩
def F.ENG_ADMIT.CODE : Fld := ⟨R.ENG_ADMIT, 3, 0⟩
def F.ENG_ORPHAN.COUNT : Fld := ⟨R.ENG_ORPHAN, 31, 0⟩
def F.ENG_TASK_SEL.SLOT : Fld := ⟨R.ENG_TASK_SEL, 12, 9⟩
def F.ENG_TASK_SEL.ENGINE : Fld := ⟨R.ENG_TASK_SEL, 8, 0⟩
def F.ENG_TASK_CFG.ENTRY : Fld := ⟨R.ENG_TASK_CFG, 29, 16⟩
def F.ENG_TASK_CFG.MAXDISP : Fld := ⟨R.ENG_TASK_CFG, 15, 8⟩
def F.ENG_TASK_CFG.ENABLE : Fld := ⟨R.ENG_TASK_CFG, 7, 7⟩
def F.ENG_TASK_CFG.TRIGGER : Fld := ⟨R.ENG_TASK_CFG, 6, 2⟩
def F.ENG_TASK_CFG.CLASS : Fld := ⟨R.ENG_TASK_CFG, 1, 0⟩
def F.ENG_TASK_BUDGET.PATH : Fld := ⟨R.ENG_TASK_BUDGET, 26, 16⟩
def F.ENG_TASK_BUDGET.BUDGET : Fld := ⟨R.ENG_TASK_BUDGET, 10, 0⟩
def F.ENG_TASK_PERIOD.PHASE : Fld := ⟨R.ENG_TASK_PERIOD, 31, 16⟩
def F.ENG_TASK_PERIOD.PERIOD : Fld := ⟨R.ENG_TASK_PERIOD, 15, 0⟩
def F.ENG_TASK_STAT.MAXUSED : Fld := ⟨R.ENG_TASK_STAT, 26, 16⟩
def F.ENG_TASK_STAT.LATE : Fld := ⟨R.ENG_TASK_STAT, 4, 4⟩
def F.ENG_TASK_STAT.PROMOTED : Fld := ⟨R.ENG_TASK_STAT, 3, 3⟩
def F.ENG_TASK_STAT.STATE : Fld := ⟨R.ENG_TASK_STAT, 2, 0⟩
def F.ENG_TASK_CNT.CANCELS : Fld := ⟨R.ENG_TASK_CNT, 31, 16⟩
def F.ENG_TASK_CNT.OVERRUNS : Fld := ⟨R.ENG_TASK_CNT, 15, 0⟩
def F.ENG_TASK_CANCEL.GO : Fld := ⟨R.ENG_TASK_CANCEL, 31, 31⟩
def F.ENG_TASK_CANCEL.SLOT : Fld := ⟨R.ENG_TASK_CANCEL, 12, 9⟩
def F.ENG_TASK_CANCEL.ENGINE : Fld := ⟨R.ENG_TASK_CANCEL, 8, 0⟩
def F.ENG_TI_SEL.INPUT : Fld := ⟨R.ENG_TI_SEL, 12, 9⟩
def F.ENG_TI_SEL.ENGINE : Fld := ⟨R.ENG_TI_SEL, 8, 0⟩
def F.ENG_TI_STAT.BOUND : Fld := ⟨R.ENG_TI_STAT, 14, 14⟩
def F.ENG_TI_STAT.OVF : Fld := ⟨R.ENG_TI_STAT, 13, 13⟩
def F.ENG_TI_STAT.LEVEL : Fld := ⟨R.ENG_TI_STAT, 12, 8⟩
def F.ENG_TI_STAT.COUNT : Fld := ⟨R.ENG_TI_STAT, 7, 0⟩
def F.ENG_ROUTE.ENABLE : Fld := ⟨R.ENG_ROUTE, 31, 31⟩
def F.ENG_ROUTE.INPUT : Fld := ⟨R.ENG_ROUTE, 15, 12⟩
def F.ENG_ROUTE.ENGINE : Fld := ⟨R.ENG_ROUTE, 8, 0⟩
def F.TBL_DIR_BASE.GRANULE : Fld := ⟨R.TBL_DIR_BASE, 13, 0⟩
def F.TBL_LOAD_SRC.OFFSET : Fld := ⟨R.TBL_LOAD_SRC, 25, 3⟩
def F.TBL_LOAD_CMD.OP : Fld := ⟨R.TBL_LOAD_CMD, 31, 30⟩
def F.TBL_LOAD_CMD.TABLE : Fld := ⟨R.TBL_LOAD_CMD, 25, 16⟩
def F.TBL_LOAD_CMD.LENGTH : Fld := ⟨R.TBL_LOAD_CMD, 12, 0⟩
def F.TBL_STAT.VAT_DROP : Fld := ⟨R.TBL_STAT, 31, 16⟩
def F.TBL_STAT.STAGED : Fld := ⟨R.TBL_STAT, 10, 0⟩
def F.VAT_POOL_SEL.POOL : Fld := ⟨R.VAT_POOL_SEL, 3, 0⟩
def F.VAT_POOL_CFG.COUNT : Fld := ⟨R.VAT_POOL_CFG, 28, 14⟩
def F.VAT_POOL_CFG.BASE : Fld := ⟨R.VAT_POOL_CFG, 13, 0⟩
def F.VAT_QDESC_BASE.GRANULE : Fld := ⟨R.VAT_QDESC_BASE, 13, 0⟩
def F.VAT_AGE.AGE_D : Fld := ⟨R.VAT_AGE, 14, 8⟩
def F.VAT_AGE.AGE_C : Fld := ⟨R.VAT_AGE, 5, 0⟩
def F.VAT_SCRUB.ENABLE : Fld := ⟨R.VAT_SCRUB, 31, 31⟩
def F.VAT_SCRUB.INTERVAL : Fld := ⟨R.VAT_SCRUB, 15, 0⟩
def F.VAT_SCRUB_PASS.PASSES : Fld := ⟨R.VAT_SCRUB_PASS, 31, 0⟩
def F.VAT_ECC_CE.COUNT : Fld := ⟨R.VAT_ECC_CE, 31, 0⟩
def F.VAT_ECC_UE.COUNT : Fld := ⟨R.VAT_ECC_UE, 31, 0⟩
def F.VAT_POISON_WR.COUNT : Fld := ⟨R.VAT_POISON_WR, 31, 0⟩
def F.VAT_ECC_ADDR.VALID : Fld := ⟨R.VAT_ECC_ADDR, 31, 31⟩
def F.VAT_ECC_ADDR.ORIGIN : Fld := ⟨R.VAT_ECC_ADDR, 30, 28⟩
def F.VAT_ECC_ADDR.WORD : Fld := ⟨R.VAT_ECC_ADDR, 25, 3⟩
def F.VAT_REFUSE.INDEX : Fld := ⟨R.VAT_REFUSE, 27, 16⟩
def F.VAT_REFUSE.CODE : Fld := ⟨R.VAT_REFUSE, 3, 0⟩
def F.VAT_QHOST_CMD.OP : Fld := ⟨R.VAT_QHOST_CMD, 31, 30⟩
def F.VAT_QHOST_CMD.QUEUE : Fld := ⟨R.VAT_QHOST_CMD, 27, 16⟩
def F.VAT_QHOST_CMD.COUNT : Fld := ⟨R.VAT_QHOST_CMD, 15, 0⟩
def F.VAT_QHOST_STAT.VALID : Fld := ⟨R.VAT_QHOST_STAT, 31, 31⟩
def F.VAT_QHOST_STAT.QUEUE : Fld := ⟨R.VAT_QHOST_STAT, 27, 16⟩
def F.VAT_QHOST_STAT.GRANTED : Fld := ⟨R.VAT_QHOST_STAT, 15, 0⟩
def F.VAT_QHOST_ADDR.ADDR : Fld := ⟨R.VAT_QHOST_ADDR, 25, 0⟩
def F.IN_CFG.LOCKOUT : Fld := ⟨R.IN_CFG, 15, 15⟩
def F.IN_CFG.GLITCH : Fld := ⟨R.IN_CFG, 14, 8⟩
def F.IN_CFG.POL : Fld := ⟨R.IN_CFG, 4, 4⟩
def F.IN_CFG.BIAS : Fld := ⟨R.IN_CFG, 3, 3⟩
def F.IN_CFG.TERM : Fld := ⟨R.IN_CFG, 2, 2⟩
def F.IN_CFG.MODE : Fld := ⟨R.IN_CFG, 1, 1⟩
def F.IN_CFG.ENABLE : Fld := ⟨R.IN_CFG, 0, 0⟩
def F.IN_PRESCALE.DIV : Fld := ⟨R.IN_PRESCALE, 12, 0⟩
def F.IN_NOM_LO.NOM_LO : Fld := ⟨R.IN_NOM_LO, 31, 0⟩
def F.IN_NOM_HI.NOM_HI : Fld := ⟨R.IN_NOM_HI, 15, 0⟩
def F.IN_ACT.TOL : Fld := ⟨R.IN_ACT, 31, 24⟩
def F.IN_ACT.REJECT : Fld := ⟨R.IN_ACT, 23, 16⟩
def F.IN_ACT.ACCEPT : Fld := ⟨R.IN_ACT, 15, 8⟩
def F.IN_ACT.FILL : Fld := ⟨R.IN_ACT, 7, 4⟩
def F.IN_ACT.LEAK : Fld := ⟨R.IN_ACT, 3, 0⟩
def F.IN_MON_STAT.WORD : Fld := ⟨R.IN_MON_STAT, 31, 0⟩
def F.IN_MON_CFG.BASIS : Fld := ⟨R.IN_MON_CFG, 31, 26⟩
def F.IN_MON_CFG.SUS_REF : Fld := ⟨R.IN_MON_CFG, 23, 18⟩
def F.IN_MON_CFG.GATE : Fld := ⟨R.IN_MON_CFG, 16, 0⟩
def F.IN_FACC_MIN.LIMIT : Fld := ⟨R.IN_FACC_MIN, 31, 0⟩
def F.IN_FACC_MAX.LIMIT : Fld := ⟨R.IN_FACC_MAX, 31, 0⟩
def F.IN_FREJ_MIN.LIMIT : Fld := ⟨R.IN_FREJ_MIN, 31, 0⟩
def F.IN_FREJ_MAX.LIMIT : Fld := ⟨R.IN_FREJ_MAX, 31, 0⟩
def F.IN_FMON_RESULT.OFFSET : Fld := ⟨R.IN_FMON_RESULT, 31, 0⟩
def F.IN_SUS_CFG.PSTEP : Fld := ⟨R.IN_SUS_CFG, 31, 24⟩
def F.IN_SUS_CFG.FJUMP : Fld := ⟨R.IN_SUS_CFG, 23, 16⟩
def F.IN_SUS_CFG.CONFIRM : Fld := ⟨R.IN_SUS_CFG, 15, 13⟩
def F.IN_SUS_CFG.SUS_GATE : Fld := ⟨R.IN_SUS_CFG, 12, 0⟩
def F.IN_SUS_TICK_LO.TICK_LO : Fld := ⟨R.IN_SUS_TICK_LO, 31, 0⟩
def F.IN_SUS_TICK_HI.CAUSE : Fld := ⟨R.IN_SUS_TICK_HI, 31, 29⟩
def F.IN_SUS_TICK_HI.TICK_HI : Fld := ⟨R.IN_SUS_TICK_HI, 28, 0⟩
def F.IN_QUAL.WTR : Fld := ⟨R.IN_QUAL, 27, 16⟩
def F.IN_QUAL.HOLDOFF : Fld := ⟨R.IN_QUAL, 11, 0⟩
def F.IN_QL.SRC : Fld := ⟨R.IN_QL, 31, 31⟩
def F.IN_QL.TIMEOUT : Fld := ⟨R.IN_QL, 27, 24⟩
def F.IN_QL.ESSM : Fld := ⟨R.IN_QL, 23, 16⟩
def F.IN_QL.QL : Fld := ⟨R.IN_QL, 15, 12⟩
def F.IN_QL.ESMC_QL : Fld := ⟨R.IN_QL, 11, 8⟩
def F.IN_QL.HOST_QL : Fld := ⟨R.IN_QL, 7, 4⟩
def F.IN_QL_PORT.PORT : Fld := ⟨R.IN_QL_PORT, 15, 0⟩
def F.IN_STATE.EVER_GOOD : Fld := ⟨R.IN_STATE, 8, 8⟩
def F.IN_STATE.STATE : Fld := ⟨R.IN_STATE, 2, 0⟩
def F.IN_MASK.ENABLE : Fld := ⟨R.IN_MASK, 31, 31⟩
def F.IN_MASK.CURVE : Fld := ⟨R.IN_MASK, 9, 0⟩
def F.MON_REFSM.TABLE : Fld := ⟨R.MON_REFSM, 9, 0⟩
def F.MON_WORD_BASE.BASE : Fld := ⟨R.MON_WORD_BASE, 25, 3⟩
def F.SEL_MODE.QL_MIN : Fld := ⟨R.SEL_MODE, 15, 12⟩
def F.SEL_MODE.QL_EN : Fld := ⟨R.SEL_MODE, 8, 8⟩
def F.SEL_MODE.FORCE : Fld := ⟨R.SEL_MODE, 6, 4⟩
def F.SEL_MODE.MODE : Fld := ⟨R.SEL_MODE, 1, 0⟩
def F.SEL_PRIO_LO.ENTRIES : Fld := ⟨R.SEL_PRIO_LO, 31, 0⟩
def F.SEL_PRIO_HI.ENTRIES : Fld := ⟨R.SEL_PRIO_HI, 31, 0⟩
def F.SEL_STAT.HELD : Fld := ⟨R.SEL_STAT, 31, 24⟩
def F.SEL_STAT.MEMBERS : Fld := ⟨R.SEL_STAT, 23, 16⟩
def F.SEL_STAT.ACTIVE_VALID : Fld := ⟨R.SEL_STAT, 11, 11⟩
def F.SEL_STAT.ACTIVE : Fld := ⟨R.SEL_STAT, 10, 8⟩
def F.SEL_STAT.SSTATE : Fld := ⟨R.SEL_STAT, 1, 0⟩
def F.SEL_ENS_CFG.BO_AVG : Fld := ⟨R.SEL_ENS_CFG, 31, 24⟩
def F.SEL_ENS_CFG.TDEV_FLOOR : Fld := ⟨R.SEL_ENS_CFG, 19, 16⟩
def F.SEL_ENS_CFG.TAU : Fld := ⟨R.SEL_ENS_CFG, 13, 0⟩
def F.SEL_WEIGHT.TDEV : Fld := ⟨R.SEL_WEIGHT, 31, 17⟩
def F.SEL_WEIGHT.WEIGHT : Fld := ⟨R.SEL_WEIGHT, 16, 0⟩
def F.SEL_BO_LO.BO : Fld := ⟨R.SEL_BO_LO, 31, 0⟩
def F.SEL_BO_HI.BO : Fld := ⟨R.SEL_BO_HI, 31, 0⟩
def F.SEL_RWD_CFG.ENABLE : Fld := ⟨R.SEL_RWD_CFG, 31, 31⟩
def F.SEL_RWD_CFG.SLOT : Fld := ⟨R.SEL_RWD_CFG, 30, 28⟩
def F.SEL_RWD_CFG.QUEUE : Fld := ⟨R.SEL_RWD_CFG, 27, 16⟩
def F.SEL_RWD_CFG.SLOPE : Fld := ⟨R.SEL_RWD_CFG, 15, 0⟩
def F.SEL_RWD_FROM_LO.FROM : Fld := ⟨R.SEL_RWD_FROM_LO, 31, 0⟩
def F.SEL_RWD_FROM_HI.FROM : Fld := ⟨R.SEL_RWD_FROM_HI, 31, 0⟩
def F.SEL_RWD_CMD.OP : Fld := ⟨R.SEL_RWD_CMD, 31, 30⟩
def F.SEL_RWD_CMD.EXCLUDE : Fld := ⟨R.SEL_RWD_CMD, 7, 0⟩
def F.SEL_RWD_STAT.RSTATE : Fld := ⟨R.SEL_RWD_STAT, 31, 29⟩
def F.SEL_RWD_STAT.ABORT_LATE : Fld := ⟨R.SEL_RWD_STAT, 28, 28⟩
def F.SEL_RWD_STAT.TRUNCATED : Fld := ⟨R.SEL_RWD_STAT, 27, 27⟩
def F.SEL_RWD_STAT.BACKLOG : Fld := ⟨R.SEL_RWD_STAT, 15, 0⟩
def F.SEL_RWD_RESTORE_LO.RESTORE : Fld := ⟨R.SEL_RWD_RESTORE_LO, 31, 0⟩
def F.SEL_RWD_RESTORE_HI.RESTORE : Fld := ⟨R.SEL_RWD_RESTORE_HI, 31, 0⟩
def F.SEL_SM.TABLE : Fld := ⟨R.SEL_SM, 9, 0⟩
def F.SEL_RWD_WINDOW.LOG2 : Fld := ⟨R.SEL_RWD_WINDOW, 3, 0⟩
def F.SEL_QL_RANK_LO.RANKS : Fld := ⟨R.SEL_QL_RANK_LO, 31, 0⟩
def F.SEL_QL_RANK_HI.RANKS : Fld := ⟨R.SEL_QL_RANK_HI, 31, 0⟩
def F.LOOP_CTRL.TSRC : Fld := ⟨R.LOOP_CTRL, 19, 16⟩
def F.LOOP_CTRL.FB : Fld := ⟨R.LOOP_CTRL, 14, 8⟩
def F.LOOP_CTRL.FORCE_GLIDE : Fld := ⟨R.LOOP_CTRL, 1, 1⟩
def F.LOOP_CTRL.ENABLE : Fld := ⟨R.LOOP_CTRL, 0, 0⟩
def F.LOOP_BW.BW : Fld := ⟨R.LOOP_BW, 25, 0⟩
def F.LOOP_DAMP.DAMP : Fld := ⟨R.LOOP_DAMP, 10, 0⟩
def F.LOOP_LIMIT.PSL : Fld := ⟨R.LOOP_LIMIT, 29, 12⟩
def F.LOOP_LIMIT.PULLIN : Fld := ⟨R.LOOP_LIMIT, 11, 0⟩
def F.LOOP_LOCK.UNLOCK_PPB : Fld := ⟨R.LOOP_LOCK, 31, 20⟩
def F.LOOP_LOCK.LOCK_PPB : Fld := ⟨R.LOOP_LOCK, 19, 8⟩
def F.LOOP_LOCK.LOCK_CNT : Fld := ⟨R.LOOP_LOCK, 7, 4⟩
def F.LOOP_LOCK.UNLOCK_CNT : Fld := ⟨R.LOOP_LOCK, 3, 0⟩
def F.LOOP_GATE.GAP : Fld := ⟨R.LOOP_GATE, 31, 16⟩
def F.LOOP_GATE.GATE : Fld := ⟨R.LOOP_GATE, 9, 0⟩
def F.LOOP_COAST.GSLOPE : Fld := ⟨R.LOOP_COAST, 31, 16⟩
def F.LOOP_COAST.COAST : Fld := ⟨R.LOOP_COAST, 15, 0⟩
def F.LOOP_GLIDE_CFG.MODEL_EN : Fld := ⟨R.LOOP_GLIDE_CFG, 31, 31⟩
def F.LOOP_GLIDE_CFG.GUARD : Fld := ⟨R.LOOP_GLIDE_CFG, 27, 16⟩
def F.LOOP_GLIDE_CFG.SPAN : Fld := ⟨R.LOOP_GLIDE_CFG, 12, 0⟩
def F.LOOP_FREE_LO.WORD : Fld := ⟨R.LOOP_FREE_LO, 31, 0⟩
def F.LOOP_FREE_HI.WORD : Fld := ⟨R.LOOP_FREE_HI, 15, 0⟩
def F.LOOP_STATE.INUSE : Fld := ⟨R.LOOP_STATE, 14, 14⟩
def F.LOOP_STATE.GSRC : Fld := ⟨R.LOOP_STATE, 13, 12⟩
def F.LOOP_STATE.RATIO : Fld := ⟨R.LOOP_STATE, 11, 11⟩
def F.LOOP_STATE.BWLIM : Fld := ⟨R.LOOP_STATE, 10, 10⟩
def F.LOOP_STATE.CLAMP_PSL : Fld := ⟨R.LOOP_STATE, 9, 9⟩
def F.LOOP_STATE.CLAMP_PI : Fld := ⟨R.LOOP_STATE, 8, 8⟩
def F.LOOP_STATE.CAUSE : Fld := ⟨R.LOOP_STATE, 4, 3⟩
def F.LOOP_STATE.STATE : Fld := ⟨R.LOOP_STATE, 2, 0⟩
def F.LOOP_FOFF.OFFSET : Fld := ⟨R.LOOP_FOFF, 31, 0⟩
def F.LOOP_CNT.COASTS : Fld := ⟨R.LOOP_CNT, 31, 16⟩
def F.LOOP_CNT.MISSED : Fld := ⟨R.LOOP_CNT, 15, 0⟩
def F.LOOP_MODEL.VALID : Fld := ⟨R.LOOP_MODEL, 31, 31⟩
def F.LOOP_MODEL.TEMP_VALID : Fld := ⟨R.LOOP_MODEL, 30, 30⟩
def F.LOOP_MODEL.HOURS : Fld := ⟨R.LOOP_MODEL, 16, 0⟩
def F.LOOP_APPLIED_LO.WORD : Fld := ⟨R.LOOP_APPLIED_LO, 31, 0⟩
def F.LOOP_APPLIED_HI.WORD : Fld := ⟨R.LOOP_APPLIED_HI, 31, 0⟩
def F.LOOP_GLIDE_LO.WORD : Fld := ⟨R.LOOP_GLIDE_LO, 31, 0⟩
def F.LOOP_GLIDE_HI.SRC : Fld := ⟨R.LOOP_GLIDE_HI, 17, 16⟩
def F.LOOP_GLIDE_HI.WORD : Fld := ⟨R.LOOP_GLIDE_HI, 15, 0⟩
def F.LOOP_LOSS_LO.TICK : Fld := ⟨R.LOOP_LOSS_LO, 31, 0⟩
def F.LOOP_LOSS_HI.TICK : Fld := ⟨R.LOOP_LOSS_HI, 31, 0⟩
def F.LOOP_DATA_BASE.BASE : Fld := ⟨R.LOOP_DATA_BASE, 25, 6⟩
def F.TLOOP_CFG.STEP : Fld := ⟨R.TLOOP_CFG, 31, 16⟩
def F.TLOOP_CFG.CH : Fld := ⟨R.TLOOP_CFG, 14, 8⟩
def F.TLOOP_CFG.SRC : Fld := ⟨R.TLOOP_CFG, 1, 0⟩
def F.LOOP_VAT_DROP.COUNT : Fld := ⟨R.LOOP_VAT_DROP, 31, 0⟩
def F.LOOP_XTEMP.VALID : Fld := ⟨R.LOOP_XTEMP, 31, 31⟩
def F.LOOP_XTEMP.TEMP : Fld := ⟨R.LOOP_XTEMP, 15, 0⟩
def F.SYN_CFG.BM_TWIN : Fld := ⟨R.SYN_CFG, 22, 16⟩
def F.SYN_CFG.ABW : Fld := ⟨R.SYN_CFG, 13, 12⟩
def F.SYN_CFG.ENABLE : Fld := ⟨R.SYN_CFG, 8, 8⟩
def F.SYN_CFG.LOOP : Fld := ⟨R.SYN_CFG, 5, 0⟩
def F.SYN_PLAN.POST : Fld := ⟨R.SYN_PLAN, 26, 24⟩
def F.SYN_PLAN.RDIV : Fld := ⟨R.SYN_PLAN, 23, 16⟩
def F.SYN_PLAN.MULT : Fld := ⟨R.SYN_PLAN, 15, 15⟩
def F.SYN_PLAN.NINT : Fld := ⟨R.SYN_PLAN, 10, 0⟩
def F.SYN_NFRAC_LO.NFRAC : Fld := ⟨R.SYN_NFRAC_LO, 31, 0⟩
def F.SYN_NFRAC_HI.NFRAC : Fld := ⟨R.SYN_NFRAC_HI, 15, 0⟩
def F.SYN_CMD.OP : Fld := ⟨R.SYN_CMD, 31, 30⟩
def F.SYN_STAT.SEARCH : Fld := ⟨R.SYN_STAT, 31, 28⟩
def F.SYN_STAT.ABORT_LATE : Fld := ⟨R.SYN_STAT, 27, 27⟩
def F.SYN_STAT.HIT : Fld := ⟨R.SYN_STAT, 26, 26⟩
def F.SYN_STAT.BM_FULL : Fld := ⟨R.SYN_STAT, 25, 25⟩
def F.SYN_STAT.VT_MARGIN : Fld := ⟨R.SYN_STAT, 24, 24⟩
def F.SYN_STAT.LOCK : Fld := ⟨R.SYN_STAT, 15, 15⟩
def F.SYN_STAT.HOLD : Fld := ⟨R.SYN_STAT, 14, 14⟩
def F.SYN_STAT.ENTRY : Fld := ⟨R.SYN_STAT, 13, 8⟩
def F.SYN_STAT.CORE : Fld := ⟨R.SYN_STAT, 7, 7⟩
def F.SYN_STAT.BAND : Fld := ⟨R.SYN_STAT, 6, 0⟩
def F.SYN_TIME.TICKS : Fld := ⟨R.SYN_TIME, 15, 0⟩
def F.SYN_BM_SEL.ENTRY : Fld := ⟨R.SYN_BM_SEL, 5, 0⟩
def F.SYN_BM_DATA.DATA : Fld := ⟨R.SYN_BM_DATA, 31, 0⟩
def F.OUT_CFG.SAFE : Fld := ⟨R.OUT_CFG, 27, 26⟩
def F.OUT_CFG.NLEG : Fld := ⟨R.OUT_CFG, 25, 24⟩
def F.OUT_CFG.DRIVE : Fld := ⟨R.OUT_CFG, 23, 22⟩
def F.OUT_CFG.SWING : Fld := ⟨R.OUT_CFG, 21, 20⟩
def F.OUT_CFG.FORMAT : Fld := ⟨R.OUT_CFG, 19, 16⟩
def F.OUT_CFG.SRC : Fld := ⟨R.OUT_CFG, 7, 4⟩
def F.OUT_CFG.RUN : Fld := ⟨R.OUT_CFG, 0, 0⟩
def F.OUT_DIV_LO.D2 : Fld := ⟨R.OUT_DIV_LO, 31, 0⟩
def F.OUT_DIV_HI.D2 : Fld := ⟨R.OUT_DIV_HI, 4, 0⟩
def F.OUT_FINE.FINE : Fld := ⟨R.OUT_FINE, 11, 0⟩
def F.OUT_COARSE.COARSE : Fld := ⟨R.OUT_COARSE, 31, 0⟩
def F.OUT_XODIV.XODIV : Fld := ⟨R.OUT_XODIV, 23, 0⟩
def F.OUT_DPH_CFG.ENABLE : Fld := ⟨R.OUT_DPH_CFG, 31, 31⟩
def F.OUT_DPH_CFG.TARGET : Fld := ⟨R.OUT_DPH_CFG, 30, 30⟩
def F.OUT_DPH_CFG.HOLD_START : Fld := ⟨R.OUT_DPH_CFG, 29, 29⟩
def F.OUT_DPH_CFG.SLIP_RUN : Fld := ⟨R.OUT_DPH_CFG, 28, 28⟩
def F.OUT_DPH_CFG.TOL : Fld := ⟨R.OUT_DPH_CFG, 23, 16⟩
def F.OUT_DPH_CFG.AVG : Fld := ⟨R.OUT_DPH_CFG, 10, 0⟩
def F.OUT_DPH_OFFSET_LO.OFFSET : Fld := ⟨R.OUT_DPH_OFFSET_LO, 31, 0⟩
def F.OUT_DPH_OFFSET_HI.OFFSET : Fld := ⟨R.OUT_DPH_OFFSET_HI, 31, 0⟩
def F.OUT_DPH_RATE.TRIM_RATE : Fld := ⟨R.OUT_DPH_RATE, 15, 0⟩
def F.OUT_DPH_STAT.STATE : Fld := ⟨R.OUT_DPH_STAT, 31, 29⟩
def F.OUT_DPH_STAT.RESID : Fld := ⟨R.OUT_DPH_STAT, 15, 0⟩
def F.OUT_STAT.PENDING : Fld := ⟨R.OUT_STAT, 4, 4⟩
def F.OUT_STAT.SSTATE : Fld := ⟨R.OUT_STAT, 3, 2⟩
def F.OUT_STAT.SAFE : Fld := ⟨R.OUT_STAT, 1, 1⟩
def F.OUT_STAT.OPEN : Fld := ⟨R.OUT_STAT, 0, 0⟩
def F.OB_CFG.VSEL : Fld := ⟨R.OB_CFG, 1, 0⟩
def F.OB_STAT.MISMATCH : Fld := ⟨R.OB_STAT, 16, 16⟩
def F.OB_STAT.VMEAS : Fld := ⟨R.OB_STAT, 15, 0⟩
def F.OUT_SAFEMAP.TABLE : Fld := ⟨R.OUT_SAFEMAP, 9, 0⟩
def F.SLAL_CFG.PROFILE : Fld := ⟨R.SLAL_CFG, 9, 0⟩
def F.SLAL_CMD.OP : Fld := ⟨R.SLAL_CMD, 31, 30⟩
def F.SLAL_STAT.RSTATE : Fld := ⟨R.SLAL_STAT, 31, 30⟩
def F.SLAL_STAT.ABORT_LATE : Fld := ⟨R.SLAL_STAT, 29, 29⟩
def F.SLAL_STAT.OWNER : Fld := ⟨R.SLAL_STAT, 27, 26⟩
def F.SLAL_STAT.SEG : Fld := ⟨R.SLAL_STAT, 21, 16⟩
def F.SLAL_OFFSET_LO.OFFSET : Fld := ⟨R.SLAL_OFFSET_LO, 31, 0⟩
def F.SLAL_OFFSET_HI.OFFSET : Fld := ⟨R.SLAL_OFFSET_HI, 31, 0⟩
def F.TDC_CH_CFG.FULLRATE : Fld := ⟨R.TDC_CH_CFG, 15, 15⟩
def F.TDC_CH_CFG.EDGE : Fld := ⟨R.TDC_CH_CFG, 11, 10⟩
def F.TDC_CH_CFG.MODE : Fld := ⟨R.TDC_CH_CFG, 2, 0⟩
def F.TDC_CH_DIV.DIV : Fld := ⟨R.TDC_CH_DIV, 23, 0⟩
def F.TDC_CH_NTH.N : Fld := ⟨R.TDC_CH_NTH, 16, 0⟩
def F.TDC_CH_DELAY.DELAY : Fld := ⟨R.TDC_CH_DELAY, 23, 0⟩
def F.TDC_CH_STAT.LOST : Fld := ⟨R.TDC_CH_STAT, 31, 16⟩
def F.TDC_CH_STAT.EDGES : Fld := ⟨R.TDC_CH_STAT, 15, 0⟩
def F.TDC_CH_CAL.IP : Fld := ⟨R.TDC_CH_CAL, 31, 31⟩
def F.TDC_CH_CAL.STALE : Fld := ⟨R.TDC_CH_CAL, 30, 30⟩
def F.TDC_CH_CAL.C2 : Fld := ⟨R.TDC_CH_CAL, 27, 16⟩
def F.TDC_CH_CAL.C1 : Fld := ⟨R.TDC_CH_CAL, 11, 0⟩
def F.TDC_MS_CFG.REPEAT : Fld := ⟨R.TDC_MS_CFG, 17, 17⟩
def F.TDC_MS_CFG.MODE : Fld := ⟨R.TDC_MS_CFG, 16, 16⟩
def F.TDC_MS_CFG.STOP_CH : Fld := ⟨R.TDC_MS_CFG, 15, 8⟩
def F.TDC_MS_CFG.START_CH : Fld := ⟨R.TDC_MS_CFG, 7, 0⟩
def F.TDC_MS_STOPN.VALUE : Fld := ⟨R.TDC_MS_STOPN, 15, 0⟩
def F.TDC_MS_TIMEOUT.VALUE : Fld := ⟨R.TDC_MS_TIMEOUT, 31, 0⟩
def F.TDC_MS_WOPEN.VALUE : Fld := ⟨R.TDC_MS_WOPEN, 31, 0⟩
def F.TDC_MS_WCLOSE.VALUE : Fld := ⟨R.TDC_MS_WCLOSE, 31, 0⟩
def F.TDC_MS_CMD.OP : Fld := ⟨R.TDC_MS_CMD, 31, 30⟩
def F.TDC_MS_STAT.STATE : Fld := ⟨R.TDC_MS_STAT, 31, 29⟩
def F.TDC_MS_STAT.COINCIDENT : Fld := ⟨R.TDC_MS_STAT, 28, 28⟩
def F.TDC_MS_STAT.ORDER : Fld := ⟨R.TDC_MS_STAT, 27, 27⟩
def F.TDC_MS_STAT.ABORT_LATE : Fld := ⟨R.TDC_MS_STAT, 26, 26⟩
def F.TDC_MS_STAT.CALSTALE : Fld := ⟨R.TDC_MS_STAT, 25, 25⟩
def F.TDC_MS_STAT.IGNORED : Fld := ⟨R.TDC_MS_STAT, 23, 16⟩
def F.TDC_MS_STAT.RESULTS : Fld := ⟨R.TDC_MS_STAT, 15, 0⟩
def F.TDC_MS_RES_LO.RESULT : Fld := ⟨R.TDC_MS_RES_LO, 31, 0⟩
def F.TDC_MS_RES_HI.RESULT : Fld := ⟨R.TDC_MS_RES_HI, 31, 0⟩
def F.TDC_MS_START_S32.S32 : Fld := ⟨R.TDC_MS_START_S32, 31, 0⟩
def F.TDC_ST_CFG.AUTO : Fld := ⟨R.TDC_ST_CFG, 31, 31⟩
def F.TDC_ST_CFG.SRC : Fld := ⟨R.TDC_ST_CFG, 30, 25⟩
def F.TDC_ST_CFG.N : Fld := ⟨R.TDC_ST_CFG, 24, 0⟩
def F.TDC_ST_CMD.OP : Fld := ⟨R.TDC_ST_CMD, 31, 30⟩
def F.TDC_ST_STAT.STATE : Fld := ⟨R.TDC_ST_STAT, 31, 30⟩
def F.TDC_ST_STAT.ABORT_LATE : Fld := ⟨R.TDC_ST_STAT, 29, 29⟩
def F.TDC_ST_STAT.COUNT : Fld := ⟨R.TDC_ST_STAT, 24, 0⟩
def F.TDC_ST_SKIP.SKIPPED : Fld := ⟨R.TDC_ST_SKIP, 31, 0⟩
def F.TDC_ST_MEAN_LO.VALUE : Fld := ⟨R.TDC_ST_MEAN_LO, 31, 0⟩
def F.TDC_ST_MEAN_HI.VALUE : Fld := ⟨R.TDC_ST_MEAN_HI, 31, 0⟩
def F.TDC_ST_STD_LO.VALUE : Fld := ⟨R.TDC_ST_STD_LO, 31, 0⟩
def F.TDC_ST_STD_HI.VALUE : Fld := ⟨R.TDC_ST_STD_HI, 31, 0⟩
def F.TDC_ST_MIN_LO.VALUE : Fld := ⟨R.TDC_ST_MIN_LO, 31, 0⟩
def F.TDC_ST_MIN_HI.VALUE : Fld := ⟨R.TDC_ST_MIN_HI, 31, 0⟩
def F.TDC_ST_MAX_LO.VALUE : Fld := ⟨R.TDC_ST_MAX_LO, 31, 0⟩
def F.TDC_ST_MAX_HI.VALUE : Fld := ⟨R.TDC_ST_MAX_HI, 31, 0⟩
def F.TDC_TR_CFG.QUEUE : Fld := ⟨R.TDC_TR_CFG, 31, 31⟩
def F.TDC_TR_CFG.AUTO : Fld := ⟨R.TDC_TR_CFG, 30, 30⟩
def F.TDC_TR_CFG.TRIG : Fld := ⟨R.TDC_TR_CFG, 27, 25⟩
def F.TDC_TR_CFG.INDEX : Fld := ⟨R.TDC_TR_CFG, 24, 16⟩
def F.TDC_TR_CFG.SRC_KIND : Fld := ⟨R.TDC_TR_CFG, 8, 8⟩
def F.TDC_TR_CFG.SRC : Fld := ⟨R.TDC_TR_CFG, 7, 0⟩
def F.TDC_TR_BUF.SIZE : Fld := ⟨R.TDC_TR_BUF, 28, 14⟩
def F.TDC_TR_BUF.GRANULE : Fld := ⟨R.TDC_TR_BUF, 13, 0⟩
def F.TDC_TR_PRE.COUNT : Fld := ⟨R.TDC_TR_PRE, 31, 0⟩
def F.TDC_TR_POST.COUNT : Fld := ⟨R.TDC_TR_POST, 31, 0⟩
def F.TDC_TR_CMD.OP : Fld := ⟨R.TDC_TR_CMD, 31, 30⟩
def F.TDC_TR_STAT.STATE : Fld := ⟨R.TDC_TR_STAT, 31, 29⟩
def F.TDC_TR_STAT.ABORT_LATE : Fld := ⟨R.TDC_TR_STAT, 28, 28⟩
def F.TDC_TR_STAT.QUEUED : Fld := ⟨R.TDC_TR_STAT, 27, 27⟩
def F.TDC_TR_STAT.MISSED : Fld := ⟨R.TDC_TR_STAT, 15, 0⟩
def F.TDC_TR_SEQ.SEQ : Fld := ⟨R.TDC_TR_SEQ, 31, 0⟩
def F.TDC_SUMMARY.FULLRATE : Fld := ⟨R.TDC_SUMMARY, 23, 16⟩
def F.TDC_SUMMARY.BURST : Fld := ⟨R.TDC_SUMMARY, 11, 8⟩
def F.TDC_SUMMARY.STALE : Fld := ⟨R.TDC_SUMMARY, 7, 0⟩
def F.TIME_LT_NS_LO.VALUE : Fld := ⟨R.TIME_LT_NS_LO, 31, 0⟩
def F.TIME_LT_NS_HI.VALUE : Fld := ⟨R.TIME_LT_NS_HI, 31, 0⟩
def F.TIME_LT_FRAC.VALUE : Fld := ⟨R.TIME_LT_FRAC, 31, 0⟩
def F.TIME_LT_STEP_LO.STEP : Fld := ⟨R.TIME_LT_STEP_LO, 31, 0⟩
def F.TIME_LT_STEP_HI.STEP : Fld := ⟨R.TIME_LT_STEP_HI, 31, 0⟩
def F.TIME_PI_CFG.ENABLE : Fld := ⟨R.TIME_PI_CFG, 31, 31⟩
def F.TIME_PI_CFG.CTX : Fld := ⟨R.TIME_PI_CFG, 11, 0⟩
def F.TIME_PI_BASE.GRANULE : Fld := ⟨R.TIME_PI_BASE, 13, 0⟩
def F.TIME_PI_STAT.CLOSES : Fld := ⟨R.TIME_PI_STAT, 31, 16⟩
def F.TIME_PI_STAT.POWER_INT : Fld := ⟨R.TIME_PI_STAT, 1, 1⟩
def F.TIME_PI_STAT.OPEN : Fld := ⟨R.TIME_PI_STAT, 0, 0⟩
def F.CTX_SEL.INDEX : Fld := ⟨R.CTX_SEL, 11, 0⟩
def F.CTX_TIME_NS_LO.VALUE : Fld := ⟨R.CTX_TIME_NS_LO, 31, 0⟩
def F.CTX_TIME_NS_HI.VALUE : Fld := ⟨R.CTX_TIME_NS_HI, 31, 0⟩
def F.CTX_TIME_FRAC.VALUE : Fld := ⟨R.CTX_TIME_FRAC, 31, 0⟩
def F.CTX_INC_LO.VALUE : Fld := ⟨R.CTX_INC_LO, 31, 0⟩
def F.CTX_INC_HI.VALUE : Fld := ⟨R.CTX_INC_HI, 31, 0⟩
def F.CTX_SLEW_INC_LO.VALUE : Fld := ⟨R.CTX_SLEW_INC_LO, 31, 0⟩
def F.CTX_SLEW_INC_HI.VALUE : Fld := ⟨R.CTX_SLEW_INC_HI, 31, 0⟩
def F.CTX_SLEW_TICKS.TICKS : Fld := ⟨R.CTX_SLEW_TICKS, 31, 0⟩
def F.CTX_SLEW_LEFT.TICKS : Fld := ⟨R.CTX_SLEW_LEFT, 31, 0⟩
def F.CTX_SET_NS_LO.VALUE : Fld := ⟨R.CTX_SET_NS_LO, 31, 0⟩
def F.CTX_SET_NS_HI.VALUE : Fld := ⟨R.CTX_SET_NS_HI, 31, 0⟩
def F.CTX_SET_FRAC.VALUE : Fld := ⟨R.CTX_SET_FRAC, 31, 0⟩
def F.CTX_STEP_LO.STEP : Fld := ⟨R.CTX_STEP_LO, 31, 0⟩
def F.CTX_STEP_HI.STEP : Fld := ⟨R.CTX_STEP_HI, 31, 0⟩
def F.CTX_CMD.OP : Fld := ⟨R.CTX_CMD, 31, 29⟩
def F.CTX_UTC.VALID : Fld := ⟨R.CTX_UTC, 31, 31⟩
def F.CTX_UTC.ANNOUNCE : Fld := ⟨R.CTX_UTC, 26, 16⟩
def F.CTX_UTC.OFFSET : Fld := ⟨R.CTX_UTC, 15, 0⟩
def F.CTX_LEAP_LO.LEAP : Fld := ⟨R.CTX_LEAP_LO, 31, 0⟩
def F.CTX_LEAP_HI.ARM : Fld := ⟨R.CTX_LEAP_HI, 31, 31⟩
def F.CTX_LEAP_HI.DIR : Fld := ⟨R.CTX_LEAP_HI, 16, 16⟩
def F.CTX_LEAP_HI.LEAP_AT : Fld := ⟨R.CTX_LEAP_HI, 15, 0⟩
def F.CTX_STAT.ENABLE : Fld := ⟨R.CTX_STAT, 31, 31⟩
def F.CTX_STAT.UTC_VALID : Fld := ⟨R.CTX_STAT, 30, 30⟩
def F.CTX_STAT.LEAP61 : Fld := ⟨R.CTX_STAT, 29, 29⟩
def F.CTX_STAT.LEAP59 : Fld := ⟨R.CTX_STAT, 28, 28⟩
def F.CTX_STAT.DUE : Fld := ⟨R.CTX_STAT, 27, 27⟩
def F.CTX_STAT.LEAP : Fld := ⟨R.CTX_STAT, 26, 25⟩
def F.CTX_STAT.SLEWING : Fld := ⟨R.CTX_STAT, 24, 24⟩
def F.CTX_STAT.ABORT_LATE : Fld := ⟨R.CTX_STAT, 23, 23⟩
def F.CTX_STAT.STEPPED : Fld := ⟨R.CTX_STAT, 22, 22⟩
def F.CTX_STAT.CONV_RANGE : Fld := ⟨R.CTX_STAT, 21, 21⟩
def F.CTX_CONV_IN_NS_LO.VALUE : Fld := ⟨R.CTX_CONV_IN_NS_LO, 31, 0⟩
def F.CTX_CONV_IN_NS_HI.VALUE : Fld := ⟨R.CTX_CONV_IN_NS_HI, 31, 0⟩
def F.CTX_CONV_IN_FRAC.VALUE : Fld := ⟨R.CTX_CONV_IN_FRAC, 31, 0⟩
def F.CTX_CONV_OUT_NS_LO.VALUE : Fld := ⟨R.CTX_CONV_OUT_NS_LO, 31, 0⟩
def F.CTX_CONV_OUT_NS_HI.VALUE : Fld := ⟨R.CTX_CONV_OUT_NS_HI, 31, 0⟩
def F.CTX_CONV_OUT_FRAC.VALUE : Fld := ⟨R.CTX_CONV_OUT_FRAC, 31, 0⟩
def F.CTX_VAT_DROP.COUNT : Fld := ⟨R.CTX_VAT_DROP, 31, 0⟩
def F.EVT_CFG.CTX : Fld := ⟨R.EVT_CFG, 31, 20⟩
def F.EVT_CFG.PERIODIC : Fld := ⟨R.EVT_CFG, 19, 19⟩
def F.EVT_CFG.POL : Fld := ⟨R.EVT_CFG, 18, 18⟩
def F.EVT_CFG.DRIVE : Fld := ⟨R.EVT_CFG, 17, 16⟩
def F.EVT_CFG.FUNC : Fld := ⟨R.EVT_CFG, 3, 0⟩
def F.EVT_START_NS_LO.START : Fld := ⟨R.EVT_START_NS_LO, 31, 0⟩
def F.EVT_START_NS_HI.START : Fld := ⟨R.EVT_START_NS_HI, 31, 0⟩
def F.EVT_START_FRAC.START : Fld := ⟨R.EVT_START_FRAC, 31, 0⟩
def F.EVT_PERIOD_LO.PERIOD : Fld := ⟨R.EVT_PERIOD_LO, 31, 0⟩
def F.EVT_PERIOD_HI.PERIOD : Fld := ⟨R.EVT_PERIOD_HI, 16, 0⟩
def F.EVT_WIDTH.WIDTH : Fld := ⟨R.EVT_WIDTH, 29, 0⟩
def F.EVT_AUX.GPIO_OUT : Fld := ⟨R.EVT_AUX, 31, 31⟩
def F.EVT_AUX.GPIO_IN : Fld := ⟨R.EVT_AUX, 30, 30⟩
def F.EVT_AUX.FAULT : Fld := ⟨R.EVT_AUX, 28, 20⟩
def F.EVT_AUX.TICKDIV : Fld := ⟨R.EVT_AUX, 19, 0⟩
def F.EVT_CMD.OP : Fld := ⟨R.EVT_CMD, 31, 30⟩
def F.EVT_STAT.STATE : Fld := ⟨R.EVT_STAT, 31, 29⟩
def F.EVT_STAT.ABORT_LATE : Fld := ⟨R.EVT_STAT, 28, 28⟩
def F.EVT_STAT.PARK : Fld := ⟨R.EVT_STAT, 27, 27⟩
def F.EVT_STAT.STEPPED : Fld := ⟨R.EVT_STAT, 26, 26⟩
def F.EVT_STAT.NOCTX : Fld := ⟨R.EVT_STAT, 25, 25⟩
def F.EVT_STAT.SKIPPED : Fld := ⟨R.EVT_STAT, 15, 0⟩
def F.EVT_CAPT_NS_LO.VALUE : Fld := ⟨R.EVT_CAPT_NS_LO, 31, 0⟩
def F.EVT_CAPT_NS_HI.VALUE : Fld := ⟨R.EVT_CAPT_NS_HI, 31, 0⟩
def F.EVT_CAPT_FRAC.VALUE : Fld := ⟨R.EVT_CAPT_FRAC, 31, 0⟩
def F.EVT_COUNT.COUNT : Fld := ⟨R.EVT_COUNT, 31, 0⟩
def F.FRM_PORT_CFG.FEC : Fld := ⟨R.FRM_PORT_CFG, 1, 1⟩
def F.FRM_PORT_CFG.ENABLE : Fld := ⟨R.FRM_PORT_CFG, 0, 0⟩
def F.FRM_PORT_STAT.DRAIN_LEFT : Fld := ⟨R.FRM_PORT_STAT, 23, 16⟩
def F.FRM_PORT_STAT.FEC_LOCK : Fld := ⟨R.FRM_PORT_STAT, 3, 3⟩
def F.FRM_PORT_STAT.PCS_LOCK : Fld := ⟨R.FRM_PORT_STAT, 2, 2⟩
def F.FRM_PORT_STAT.STATE : Fld := ⟨R.FRM_PORT_STAT, 1, 0⟩
def F.FRM_POLICE.A_BURST : Fld := ⟨R.FRM_POLICE, 31, 16⟩
def F.FRM_POLICE.A_RATE : Fld := ⟨R.FRM_POLICE, 15, 0⟩
def F.FRM_CNT.COUNT : Fld := ⟨R.FRM_CNT, 31, 0⟩
def F.FRM_CFG.FU_AGE : Fld := ⟨R.FRM_CFG, 31, 20⟩
def F.FRM_CFG.UDP4 : Fld := ⟨R.FRM_CFG, 16, 16⟩
def F.FRM_CFG.PARSER : Fld := ⟨R.FRM_CFG, 9, 0⟩
def F.FRM_EGQ.ENABLE : Fld := ⟨R.FRM_EGQ, 31, 31⟩
def F.FRM_EGQ.QUEUE : Fld := ⟨R.FRM_EGQ, 11, 0⟩
def F.FRM_EDELAY.DELAY : Fld := ⟨R.FRM_EDELAY, 31, 0⟩
def F.FRM_RING_ADDR_LO.ADDR : Fld := ⟨R.FRM_RING_ADDR_LO, 31, 0⟩
def F.FRM_RING_ADDR_HI.ADDR : Fld := ⟨R.FRM_RING_ADDR_HI, 31, 0⟩
def F.FRM_RING_CFG.ENABLE : Fld := ⟨R.FRM_RING_CFG, 31, 31⟩
def F.FRM_RING_CFG.DIR : Fld := ⟨R.FRM_RING_CFG, 30, 30⟩
def F.FRM_RING_CFG.LOG2 : Fld := ⟨R.FRM_RING_CFG, 29, 26⟩
def F.FRM_RING_CFG.FUNC : Fld := ⟨R.FRM_RING_CFG, 25, 21⟩
def F.FRM_RING_CFG.VECTOR : Fld := ⟨R.FRM_RING_CFG, 20, 14⟩
def F.FRM_RING_CFG.QUEUE : Fld := ⟨R.FRM_RING_CFG, 11, 0⟩
def F.FRM_RING_HEAD.INDEX : Fld := ⟨R.FRM_RING_HEAD, 15, 0⟩
def F.FRM_RING_TAIL.INDEX : Fld := ⟨R.FRM_RING_TAIL, 15, 0⟩
def F.FRM_RING_STAT.ERRORS : Fld := ⟨R.FRM_RING_STAT, 31, 16⟩
def F.FRM_RING_STAT.DONE : Fld := ⟨R.FRM_RING_STAT, 15, 0⟩
def F.KL_CFG.JOIN_WAIT : Fld := ⟨R.KL_CFG, 23, 16⟩
def F.KL_CFG.GROUP : Fld := ⟨R.KL_CFG, 15, 15⟩
def F.KL_CFG.DEPTH : Fld := ⟨R.KL_CFG, 14, 12⟩
def F.KL_CFG.PRIO : Fld := ⟨R.KL_CFG, 11, 8⟩
def F.KL_CFG.DEV : Fld := ⟨R.KL_CFG, 2, 0⟩
def F.KL_GROUP_STAT.LEPOCH : Fld := ⟨R.KL_GROUP_STAT, 31, 24⟩
def F.KL_GROUP_STAT.HOPS : Fld := ⟨R.KL_GROUP_STAT, 23, 20⟩
def F.KL_GROUP_STAT.UPSTREAM : Fld := ⟨R.KL_GROUP_STAT, 18, 16⟩
def F.KL_GROUP_STAT.NEXT_VALID : Fld := ⟨R.KL_GROUP_STAT, 11, 11⟩
def F.KL_GROUP_STAT.NEXT : Fld := ⟨R.KL_GROUP_STAT, 10, 8⟩
def F.KL_GROUP_STAT.LEAD : Fld := ⟨R.KL_GROUP_STAT, 6, 4⟩
def F.KL_GROUP_STAT.ROLE : Fld := ⟨R.KL_GROUP_STAT, 1, 0⟩
def F.KL_WM_LO.VALUE : Fld := ⟨R.KL_WM_LO, 31, 0⟩
def F.KL_WM_HI.VALUE : Fld := ⟨R.KL_WM_HI, 31, 0⟩
def F.KL_SWM_LO.VALUE : Fld := ⟨R.KL_SWM_LO, 31, 0⟩
def F.KL_SWM_HI.VALUE : Fld := ⟨R.KL_SWM_HI, 31, 0⟩
def F.KL_GEN.MISMATCH : Fld := ⟨R.KL_GEN, 31, 24⟩
def F.KL_GEN.GEN : Fld := ⟨R.KL_GEN, 15, 0⟩
def F.KL_WM_SCOPE.BLOCKS : Fld := ⟨R.KL_WM_SCOPE, 18, 0⟩
def F.KL_STAGE_CMD.OP : Fld := ⟨R.KL_STAGE_CMD, 31, 30⟩
def F.KL_STAGE_TICK_LO.TICK : Fld := ⟨R.KL_STAGE_TICK_LO, 31, 0⟩
def F.KL_STAGE_TICK_HI.TICK : Fld := ⟨R.KL_STAGE_TICK_HI, 31, 0⟩
def F.KL_STAGE_STAT.STATE : Fld := ⟨R.KL_STAGE_STAT, 31, 30⟩
def F.KL_STAGE_STAT.RESULT : Fld := ⟨R.KL_STAGE_STAT, 3, 0⟩
def F.KL_RX_BASE.BASE : Fld := ⟨R.KL_RX_BASE, 25, 9⟩
def F.KL_MBOX.DATA : Fld := ⟨R.KL_MBOX, 31, 0⟩
def F.KL_LINK_CFG.DAVG : Fld := ⟨R.KL_LINK_CFG, 15, 8⟩
def F.KL_LINK_CFG.ENABLE : Fld := ⟨R.KL_LINK_CFG, 0, 0⟩
def F.KL_LINK_CMD.OP : Fld := ⟨R.KL_LINK_CMD, 31, 30⟩
def F.KL_LINK_CMD.S : Fld := ⟨R.KL_LINK_CMD, 29, 0⟩
def F.KL_LINK_STAT.CAL : Fld := ⟨R.KL_LINK_STAT, 31, 29⟩
def F.KL_LINK_STAT.ABORT_LATE : Fld := ⟨R.KL_LINK_STAT, 28, 28⟩
def F.KL_LINK_STAT.PEER_HOPS : Fld := ⟨R.KL_LINK_STAT, 19, 16⟩
def F.KL_LINK_STAT.PEER : Fld := ⟨R.KL_LINK_STAT, 14, 12⟩
def F.KL_LINK_STAT.STATE : Fld := ⟨R.KL_LINK_STAT, 1, 0⟩
def F.KL_LINK_DELAY.VALUE : Fld := ⟨R.KL_LINK_DELAY, 31, 0⟩
def F.KL_LINK_OFFSET.VALUE : Fld := ⟨R.KL_LINK_OFFSET, 31, 0⟩
def F.KL_LINK_ASYM.VALUE : Fld := ⟨R.KL_LINK_ASYM, 31, 0⟩
def F.KL_EXPORT.VALID : Fld := ⟨R.KL_EXPORT, 31, 31⟩
def F.KL_EXPORT.SRC : Fld := ⟨R.KL_EXPORT, 5, 0⟩
def F.KL_LEXPORT.VALID : Fld := ⟨R.KL_LEXPORT, 31, 31⟩
def F.KL_LEXPORT.SRC : Fld := ⟨R.KL_LEXPORT, 5, 0⟩
def F.KL_RREF.VALID : Fld := ⟨R.KL_RREF, 31, 31⟩
def F.KL_RREF.LOOP : Fld := ⟨R.KL_RREF, 20, 16⟩
def F.KL_RREF.SLOT : Fld := ⟨R.KL_RREF, 15, 12⟩
def F.KL_RREF.DEV : Fld := ⟨R.KL_RREF, 10, 8⟩
def F.KL_RREF.LINK : Fld := ⟨R.KL_RREF, 2, 0⟩
def F.KL_RLOOP.VALID : Fld := ⟨R.KL_RLOOP, 31, 31⟩
def F.KL_RLOOP.LOOP : Fld := ⟨R.KL_RLOOP, 20, 16⟩
def F.KL_RLOOP.SLOT : Fld := ⟨R.KL_RLOOP, 15, 12⟩
def F.KL_RLOOP.DEV : Fld := ⟨R.KL_RLOOP, 10, 8⟩
def F.KL_RLOOP.LINK : Fld := ⟨R.KL_RLOOP, 2, 0⟩
def F.REAM_ADDR.ADDR : Fld := ⟨R.REAM_ADDR, 19, 0⟩
def F.REAM_VAT.OFFSET : Fld := ⟨R.REAM_VAT, 25, 0⟩
def F.REAM_CMD.OP : Fld := ⟨R.REAM_CMD, 31, 29⟩
def F.REAM_CMD.LEN : Fld := ⟨R.REAM_CMD, 16, 0⟩
def F.REAM_STAT.STATE : Fld := ⟨R.REAM_STAT, 31, 29⟩
def F.REAM_STAT.ABORT_LATE : Fld := ⟨R.REAM_STAT, 28, 28⟩
def F.REAM_STAT.HALF : Fld := ⟨R.REAM_STAT, 27, 27⟩
def F.REAM_STAT.NVWP : Fld := ⟨R.REAM_STAT, 26, 26⟩
def F.REAM_STAT.CODE : Fld := ⟨R.REAM_STAT, 19, 16⟩
def F.REAM_STAT.HALF_SECTOR : Fld := ⟨R.REAM_STAT, 15, 8⟩
def F.REAM_STAT.REFUSE : Fld := ⟨R.REAM_STAT, 3, 0⟩
def F.REAM_ECC.CE : Fld := ⟨R.REAM_ECC, 31, 16⟩
def F.REAM_ECC.UE : Fld := ⟨R.REAM_ECC, 15, 0⟩
def F.REAM_RGN_SEL.REGION : Fld := ⟨R.REAM_RGN_SEL, 4, 0⟩
def F.REAM_RGN_CFG.PROTECT : Fld := ⟨R.REAM_RGN_CFG, 31, 31⟩
def F.REAM_RGN_CFG.METHOD : Fld := ⟨R.REAM_RGN_CFG, 29, 28⟩
def F.REAM_RGN_CFG.LOG2_SLOTS : Fld := ⟨R.REAM_RGN_CFG, 27, 24⟩
def F.REAM_RGN_CFG.COUNT : Fld := ⟨R.REAM_RGN_CFG, 15, 8⟩
def F.REAM_RGN_CFG.FIRST : Fld := ⟨R.REAM_RGN_CFG, 7, 0⟩
def F.REAM_SAVE_CFG.ENABLE : Fld := ⟨R.REAM_SAVE_CFG, 31, 31⟩
def F.REAM_SAVE_CFG.CTXN : Fld := ⟨R.REAM_SAVE_CFG, 30, 18⟩
def F.REAM_SAVE_CFG.SHADOW : Fld := ⟨R.REAM_SAVE_CFG, 17, 14⟩
def F.REAM_SAVE_CFG.GRANULE : Fld := ⟨R.REAM_SAVE_CFG, 13, 0⟩
def F.REAM_SAVE_STAT.ARMED : Fld := ⟨R.REAM_SAVE_STAT, 31, 31⟩
def F.REAM_SAVE_STAT.AREA : Fld := ⟨R.REAM_SAVE_STAT, 30, 30⟩
def F.REAM_SAVE_STAT.RESTORE : Fld := ⟨R.REAM_SAVE_STAT, 29, 27⟩
def F.REAM_SAVE_STAT.LAST : Fld := ⟨R.REAM_SAVE_STAT, 26, 24⟩
def F.REAM_SAVE_STAT.SEQ : Fld := ⟨R.REAM_SAVE_STAT, 15, 0⟩
def F.REAM_WEAR_SEL.SECTOR : Fld := ⟨R.REAM_WEAR_SEL, 7, 0⟩
def F.REAM_WEAR.ERASES : Fld := ⟨R.REAM_WEAR, 31, 0⟩
def F.FLT_STATE.STOPPED : Fld := ⟨R.FLT_STATE, 31, 31⟩
def F.FLT_STATE.FIRST_VALID : Fld := ⟨R.FLT_STATE, 15, 15⟩
def F.FLT_STATE.FIRST : Fld := ⟨R.FLT_STATE, 8, 0⟩
def F.FLT_SUMMARY_LO.SAFE : Fld := ⟨R.FLT_SUMMARY_LO, 24, 16⟩
def F.FLT_SUMMARY_LO.STOP : Fld := ⟨R.FLT_SUMMARY_LO, 8, 0⟩
def F.FLT_SUMMARY_HI.NOTE : Fld := ⟨R.FLT_SUMMARY_HI, 24, 16⟩
def F.FLT_SUMMARY_HI.ALERT : Fld := ⟨R.FLT_SUMMARY_HI, 8, 0⟩
def F.FLT_CTRL.FORCE_STOP_EN : Fld := ⟨R.FLT_CTRL, 31, 31⟩
def F.FLT_STATUS.STATUS : Fld := ⟨R.FLT_STATUS, 31, 0⟩
def F.FLT_ACTIVE.ACTIVE : Fld := ⟨R.FLT_ACTIVE, 31, 0⟩
def F.FLT_FORCE.FORCE : Fld := ⟨R.FLT_FORCE, 31, 0⟩
def F.FLT_CLASS.CLASS : Fld := ⟨R.FLT_CLASS, 31, 0⟩
def F.FLT_SRC_SEL.SOURCE : Fld := ⟨R.FLT_SRC_SEL, 8, 0⟩
def F.FLT_SRC_INFO.COUNT : Fld := ⟨R.FLT_SRC_INFO, 31, 16⟩
def F.FLT_SRC_INFO.INSTANCE : Fld := ⟨R.FLT_SRC_INFO, 15, 0⟩
def F.FLT_SRC_DETAIL.DETAIL : Fld := ⟨R.FLT_SRC_DETAIL, 31, 0⟩
def F.FLT_PIN.SW_ASSERT : Fld := ⟨R.FLT_PIN, 31, 31⟩
def F.FLT_PIN.LOW : Fld := ⟨R.FLT_PIN, 30, 30⟩
def F.FLT_PIN.CLASSES : Fld := ⟨R.FLT_PIN, 19, 16⟩
def F.FLT_PIN.PULSE : Fld := ⟨R.FLT_PIN, 7, 0⟩
def F.FLT_LOG_STAT.DROPPED : Fld := ⟨R.FLT_LOG_STAT, 31, 16⟩
def F.FLT_LOG_STAT.LEVEL : Fld := ⟨R.FLT_LOG_STAT, 6, 0⟩
def F.BOOT_STAT.HALTED : Fld := ⟨R.BOOT_STAT, 31, 31⟩
def F.BOOT_STAT.DIAG : Fld := ⟨R.BOOT_STAT, 30, 30⟩
def F.BOOT_STAT.CAUSE : Fld := ⟨R.BOOT_STAT, 29, 28⟩
def F.BOOT_STAT.SOURCE : Fld := ⟨R.BOOT_STAT, 27, 26⟩
def F.BOOT_STAT.SECONDARY : Fld := ⟨R.BOOT_STAT, 25, 25⟩
def F.BOOT_STAT.XO : Fld := ⟨R.BOOT_STAT, 24, 22⟩
def F.BOOT_STAT.BOOTSEL : Fld := ⟨R.BOOT_STAT, 21, 20⟩
def F.BOOT_STAT.PREV_FAIL : Fld := ⟨R.BOOT_STAT, 19, 16⟩
def F.BOOT_STAT.RESTART : Fld := ⟨R.BOOT_STAT, 15, 14⟩
def F.BOOT_STAT.STEP : Fld := ⟨R.BOOT_STAT, 3, 0⟩
def F.BOOT_ALT.ALT : Fld := ⟨R.BOOT_ALT, 11, 0⟩
def F.BOOT_CMD.OP : Fld := ⟨R.BOOT_CMD, 31, 30⟩
def F.BOOT_CMD.SRC : Fld := ⟨R.BOOT_CMD, 29, 28⟩
def F.BOOT_PUSH.GRANULE : Fld := ⟨R.BOOT_PUSH, 13, 0⟩
def F.BOOT_PUSH_LEN.LENGTH : Fld := ⟨R.BOOT_PUSH_LEN, 24, 0⟩
def F.BOOT_WAIT.SECONDS : Fld := ⟨R.BOOT_WAIT, 7, 0⟩
def F.BOOT_KEY.ROLLBACK : Fld := ⟨R.BOOT_KEY, 15, 8⟩
def F.BOOT_KEY.REVOKED1 : Fld := ⟨R.BOOT_KEY, 4, 4⟩
def F.BOOT_KEY.KEYSLOT : Fld := ⟨R.BOOT_KEY, 1, 0⟩
def F.BOOT_TIME.US : Fld := ⟨R.BOOT_TIME, 31, 0⟩
def F.HOST_PATH_STAT.COUNT : Fld := ⟨R.HOST_PATH_STAT, 31, 16⟩
def F.HOST_PATH_STAT.LAST : Fld := ⟨R.HOST_PATH_STAT, 3, 0⟩
def F.HOST_WERR_CNT.COUNT : Fld := ⟨R.HOST_WERR_CNT, 31, 0⟩
def F.HOST_WERR_ADDR.OFFSET : Fld := ⟨R.HOST_WERR_ADDR, 27, 0⟩
def F.HOST_WERR_SRC.REASON : Fld := ⟨R.HOST_WERR_SRC, 15, 12⟩
def F.HOST_WERR_SRC.PATH : Fld := ⟨R.HOST_WERR_SRC, 9, 0⟩
def F.HOST_IRQ_CAUSE.FSPI : Fld := ⟨R.HOST_IRQ_CAUSE, 6, 6⟩
def F.HOST_IRQ_CAUSE.XI2C : Fld := ⟨R.HOST_IRQ_CAUSE, 5, 5⟩
def F.HOST_IRQ_CAUSE.QHOST : Fld := ⟨R.HOST_IRQ_CAUSE, 4, 4⟩
def F.HOST_IRQ_CAUSE.WERR : Fld := ⟨R.HOST_IRQ_CAUSE, 3, 3⟩
def F.HOST_IRQ_CAUSE.COMMIT : Fld := ⟨R.HOST_IRQ_CAUSE, 2, 2⟩
def F.HOST_IRQ_CAUSE.BOOT : Fld := ⟨R.HOST_IRQ_CAUSE, 1, 1⟩
def F.HOST_IRQ_CAUSE.FAULT : Fld := ⟨R.HOST_IRQ_CAUSE, 0, 0⟩
def F.HOST_IRQ_MASK.ENABLE : Fld := ⟨R.HOST_IRQ_MASK, 6, 0⟩
def F.HOST_FLT_MASK.ENABLE : Fld := ⟨R.HOST_FLT_MASK, 31, 0⟩
def F.HOST_PCIE_STAT.NUMVF : Fld := ⟨R.HOST_PCIE_STAT, 20, 16⟩
def F.HOST_PCIE_STAT.L0 : Fld := ⟨R.HOST_PCIE_STAT, 8, 8⟩
def F.HOST_PCIE_STAT.WIDTH : Fld := ⟨R.HOST_PCIE_STAT, 7, 4⟩
def F.HOST_PCIE_STAT.SPEED : Fld := ⟨R.HOST_PCIE_STAT, 3, 0⟩
def F.HOST_VF_APT.SIZE : Fld := ⟨R.HOST_VF_APT, 24, 16⟩
def F.HOST_VF_APT.GRANULE : Fld := ⟨R.HOST_VF_APT, 13, 0⟩
def F.XI2C_CFG.ENABLE : Fld := ⟨R.XI2C_CFG, 31, 31⟩
def F.XI2C_CFG.STRETCH : Fld := ⟨R.XI2C_CFG, 15, 8⟩
def F.XI2C_CFG.SPEED : Fld := ⟨R.XI2C_CFG, 1, 0⟩
def F.XI2C_CMD.OP : Fld := ⟨R.XI2C_CMD, 31, 30⟩
def F.XI2C_CMD.ADDR : Fld := ⟨R.XI2C_CMD, 22, 16⟩
def F.XI2C_CMD.WLEN : Fld := ⟨R.XI2C_CMD, 11, 8⟩
def F.XI2C_CMD.RLEN : Fld := ⟨R.XI2C_CMD, 3, 0⟩
def F.XI2C_DATA0.DATA : Fld := ⟨R.XI2C_DATA0, 31, 0⟩
def F.XI2C_DATA1.DATA : Fld := ⟨R.XI2C_DATA1, 31, 0⟩
def F.XI2C_STAT.STATE : Fld := ⟨R.XI2C_STAT, 31, 29⟩
def F.XI2C_STAT.ABORT_LATE : Fld := ⟨R.XI2C_STAT, 28, 28⟩
def F.XI2C_STAT.RETRIES : Fld := ⟨R.XI2C_STAT, 11, 8⟩
def F.XI2C_STAT.RECOVERIES : Fld := ⟨R.XI2C_STAT, 7, 0⟩
def F.FSPI_ADDR.VALUE : Fld := ⟨R.FSPI_ADDR, 31, 0⟩
def F.FSPI_VAT.VALUE : Fld := ⟨R.FSPI_VAT, 25, 0⟩
def F.FSPI_CMD.OP : Fld := ⟨R.FSPI_CMD, 31, 29⟩
def F.FSPI_CMD.MODE : Fld := ⟨R.FSPI_CMD, 25, 24⟩
def F.FSPI_CMD.LEN : Fld := ⟨R.FSPI_CMD, 23, 0⟩
def F.FSPI_STAT.STATE : Fld := ⟨R.FSPI_STAT, 31, 29⟩
def F.FSPI_STAT.ABORT_LATE : Fld := ⟨R.FSPI_STAT, 28, 28⟩
def F.TST_LB_SEL.KIND : Fld := ⟨R.TST_LB_SEL, 10, 8⟩
def F.TST_LB_SEL.INDEX : Fld := ⟨R.TST_LB_SEL, 6, 0⟩
def F.TST_LB_CFG.ENABLE : Fld := ⟨R.TST_LB_CFG, 31, 31⟩
def F.TST_LB_CFG.DEPTH : Fld := ⟨R.TST_LB_CFG, 1, 0⟩
def F.TST_LB_ACTIVE.COUNT : Fld := ⟨R.TST_LB_ACTIVE, 7, 0⟩
def F.TST_SRC.DIV : Fld := ⟨R.TST_SRC, 23, 0⟩
def F.TST_BIST_CMD.OP : Fld := ⟨R.TST_BIST_CMD, 31, 30⟩
def F.TST_BIST_CMD.CLUSTER : Fld := ⟨R.TST_BIST_CMD, 3, 0⟩
def F.TST_BIST_RANGE.COUNT : Fld := ⟨R.TST_BIST_RANGE, 28, 14⟩
def F.TST_BIST_RANGE.GRANULE : Fld := ⟨R.TST_BIST_RANGE, 13, 0⟩
def F.TST_BIST_STAT.STATE : Fld := ⟨R.TST_BIST_STAT, 31, 29⟩
def F.TST_BIST_STAT.ABORT_LATE : Fld := ⟨R.TST_BIST_STAT, 28, 28⟩
def F.TST_BIST_STAT.WHERE : Fld := ⟨R.TST_BIST_STAT, 13, 0⟩
def F.TST_SELF_CFG.ENABLE : Fld := ⟨R.TST_SELF_CFG, 31, 31⟩
def F.TST_SELF_CFG.TAP : Fld := ⟨R.TST_SELF_CFG, 26, 24⟩
def F.TST_SELF_CFG.LAST : Fld := ⟨R.TST_SELF_CFG, 15, 8⟩
def F.TST_SELF_CFG.FIRST : Fld := ⟨R.TST_SELF_CFG, 7, 0⟩
def F.TST_SELF_TAP.DELAY : Fld := ⟨R.TST_SELF_TAP, 31, 0⟩

/-- Register tables, piece 0. -/
def RegSpec.piece0 : List (Reg × List FieldSpec) := [
  (R.SYS_ID, [⟨31, 16, .ro, false, .any⟩, ⟨15, 8, .ro, false, .any⟩, ⟨7, 0, .ro, false, .any⟩]),
  (R.SYS_PROFILE, [⟨11, 8, .ro, false, .any⟩, ⟨5, 4, .ro, false, .any⟩, ⟨1, 0, .rwl, false, .any⟩]),
  (R.TICK_COUNT_LO, [⟨31, 0, .ro, false, .any⟩]),
  (R.TICK_COUNT_HI, [⟨31, 0, .ro, false, .any⟩]),
  (R.ENG_CLUSTER_PWR, [⟨15, 0, .rw, true, .any⟩]),
  (R.ENG_CLUSTER_STAT, [⟨31, 16, .ro, false, .any⟩, ⟨15, 0, .ro, false, .any⟩]),
  (R.ENG_AGE, [⟨15, 8, .rw, false, .u 1 255⟩, ⟨7, 0, .rw, false, .u 1 255⟩]),
  (R.ENG_ADMIT, [⟨24, 16, .ro, false, .any⟩, ⟨14, 4, .ro, false, .any⟩, ⟨3, 0, .ro, false, .any⟩]),
  (R.ENG_ORPHAN, [⟨31, 0, .ro, false, .any⟩]),
  (R.ENG_TASK_SEL, [⟨12, 9, .rw, false, .any⟩, ⟨8, 0, .rw, false, .any⟩]),
  (R.ENG_TASK_CFG, [⟨29, 16, .rwl, false, .any⟩, ⟨15, 8, .rwl, false, .u 0 255⟩, ⟨7, 7, .rwl, false, .any⟩, ⟨6, 2, .rwl, false, .u 0 16⟩, ⟨1, 0, .rwl, false, .any⟩]),
  (R.ENG_TASK_BUDGET, [⟨26, 16, .rwl, false, .any⟩, ⟨10, 0, .rwl, false, .z 3 1200⟩]),
  (R.ENG_TASK_PERIOD, [⟨31, 16, .rwl, false, .any⟩, ⟨15, 0, .rwl, false, .u 1 65535⟩]),
  (R.ENG_TASK_STAT, [⟨26, 16, .ro, false, .any⟩, ⟨4, 4, .ro, false, .any⟩, ⟨3, 3, .ro, false, .any⟩, ⟨2, 0, .ro, false, .any⟩]),
  (R.ENG_TASK_CNT, [⟨31, 16, .ro, false, .any⟩, ⟨15, 0, .ro, false, .any⟩]),
  (R.ENG_TASK_CANCEL, [⟨31, 31, .wo, false, .any⟩, ⟨12, 9, .wo, false, .any⟩, ⟨8, 0, .wo, false, .any⟩]),
  (R.ENG_TI_SEL, [⟨12, 9, .rw, false, .any⟩, ⟨8, 0, .rw, false, .any⟩]),
  (R.ENG_TI_STAT, [⟨14, 14, .ro, false, .any⟩, ⟨13, 13, .ro, false, .any⟩, ⟨12, 8, .ro, false, .any⟩, ⟨7, 0, .ro, false, .any⟩]),
  (R.ENG_ROUTE, [⟨31, 31, .rwl, false, .any⟩, ⟨15, 12, .rwl, false, .any⟩, ⟨8, 0, .rwl, false, .any⟩]),
  (R.TBL_DIR_BASE, [⟨13, 0, .rwl, false, .any⟩]),
  (R.TBL_LOAD_SRC, [⟨25, 3, .rw, false, .any⟩]),
  (R.TBL_LOAD_CMD, [⟨31, 30, .wo, false, .u 1 2⟩, ⟨25, 16, .wo, false, .any⟩, ⟨12, 0, .wo, false, .any⟩]),
  (R.TBL_STAT, [⟨31, 16, .ro, false, .any⟩, ⟨10, 0, .ro, false, .any⟩]),
  (R.VAT_POOL_SEL, [⟨3, 0, .rw, false, .any⟩]),
  (R.VAT_POOL_CFG, [⟨28, 14, .rwl, false, .u 0 16384⟩, ⟨13, 0, .rwl, false, .any⟩]),
  (R.VAT_QDESC_BASE, [⟨13, 0, .rwl, false, .any⟩]),
  (R.VAT_AGE, [⟨14, 8, .rw, false, .u 4 64⟩, ⟨5, 0, .rw, false, .u 4 32⟩]),
  (R.VAT_SCRUB, [⟨31, 31, .rw, false, .any⟩, ⟨15, 0, .rw, false, .u 64 65535⟩]),
  (R.VAT_SCRUB_PASS, [⟨31, 0, .ro, false, .any⟩]),
  (R.VAT_ECC_CE, [⟨31, 0, .ro, false, .any⟩]),
  (R.VAT_ECC_UE, [⟨31, 0, .ro, false, .any⟩]),
  (R.VAT_POISON_WR, [⟨31, 0, .ro, false, .any⟩]),
  (R.VAT_ECC_ADDR, [⟨31, 31, .w1c, false, .any⟩, ⟨30, 28, .ro, false, .any⟩, ⟨25, 3, .ro, false, .any⟩]),
  (R.VAT_REFUSE, [⟨27, 16, .ro, false, .any⟩, ⟨3, 0, .ro, false, .any⟩]),
  (R.VAT_QHOST_CMD, [⟨31, 30, .wo, false, .u 1 3⟩, ⟨27, 16, .wo, false, .any⟩, ⟨15, 0, .wo, false, .any⟩]),
  (R.VAT_QHOST_STAT, [⟨31, 31, .ro, false, .any⟩, ⟨27, 16, .ro, false, .any⟩, ⟨15, 0, .ro, false, .any⟩]),
  (R.VAT_QHOST_ADDR, [⟨25, 0, .ro, false, .any⟩]),
  (R.IN_CFG, [⟨15, 15, .rw, true, .any⟩, ⟨14, 8, .rw, false, .u 0 100⟩, ⟨4, 4, .rw, false, .any⟩, ⟨3, 3, .rw, false, .any⟩, ⟨2, 2, .rw, false, .any⟩, ⟨1, 1, .rw, false, .any⟩, ⟨0, 0, .rw, true, .any⟩]),
  (R.IN_PRESCALE, [⟨12, 0, .rw, false, .u 1 4096⟩]),
  (R.IN_NOM_LO, [⟨31, 0, .rw, false, .any⟩])]

/-- Register tables, piece 1. -/
def RegSpec.piece1 : List (Reg × List FieldSpec) := [
  (R.IN_NOM_HI, [⟨15, 0, .rw, false, .any⟩]),
  (R.IN_ACT, [⟨31, 24, .rw, true, .u 1 255⟩, ⟨23, 16, .rw, true, .u 1 255⟩, ⟨15, 8, .rw, true, .u 0 254⟩, ⟨7, 4, .rw, true, .u 1 15⟩, ⟨3, 0, .rw, true, .u 1 15⟩]),
  (R.IN_MON_STAT, [⟨31, 0, .ro, false, .any⟩]),
  (R.IN_MON_CFG, [⟨31, 26, .rw, true, .u 0 40⟩, ⟨23, 18, .rw, true, .u 0 32⟩, ⟨16, 0, .rw, true, .u 1 100000⟩]),
  (R.IN_FACC_MIN, [⟨31, 0, .rw, true, .any⟩]),
  (R.IN_FACC_MAX, [⟨31, 0, .rw, true, .any⟩]),
  (R.IN_FREJ_MIN, [⟨31, 0, .rw, true, .any⟩]),
  (R.IN_FREJ_MAX, [⟨31, 0, .rw, true, .any⟩]),
  (R.IN_FMON_RESULT, [⟨31, 0, .ro, false, .any⟩]),
  (R.IN_SUS_CFG, [⟨31, 24, .rw, true, .u 1 255⟩, ⟨23, 16, .rw, true, .u 1 255⟩, ⟨15, 13, .rw, true, .u 1 7⟩, ⟨12, 0, .rw, true, .u 16 4096⟩]),
  (R.IN_SUS_TICK_LO, [⟨31, 0, .ro, false, .any⟩]),
  (R.IN_SUS_TICK_HI, [⟨31, 29, .ro, false, .any⟩, ⟨28, 0, .ro, false, .any⟩]),
  (R.IN_QUAL, [⟨27, 16, .rw, true, .u 0 4095⟩, ⟨11, 0, .rw, true, .any⟩]),
  (R.IN_QL, [⟨31, 31, .rw, false, .any⟩, ⟨27, 24, .rw, false, .u 1 15⟩, ⟨23, 16, .eng, false, .any⟩, ⟨15, 12, .ro, false, .any⟩, ⟨11, 8, .eng, false, .any⟩, ⟨7, 4, .rw, false, .any⟩]),
  (R.IN_QL_PORT, [⟨15, 0, .rw, false, .any⟩]),
  (R.IN_STATE, [⟨8, 8, .ro, false, .any⟩, ⟨2, 0, .eng, true, .u 0 4⟩]),
  (R.IN_MASK, [⟨31, 31, .rw, true, .any⟩, ⟨9, 0, .rw, true, .any⟩]),
  (R.MON_REFSM, [⟨9, 0, .rwl, false, .any⟩]),
  (R.MON_WORD_BASE, [⟨25, 3, .rwl, false, .any⟩]),
  (R.SEL_MODE, [⟨15, 12, .rwl, false, .u 0 14⟩, ⟨8, 8, .rwl, false, .any⟩, ⟨6, 4, .rwl, false, .any⟩, ⟨1, 0, .rwl, false, .any⟩]),
  (R.SEL_PRIO_LO, [⟨31, 31, .rwl, false, .any⟩, ⟨29, 23, .rwl, false, .any⟩, ⟨21, 15, .rwl, false, .any⟩, ⟨13, 7, .rwl, false, .any⟩,
    ⟨5, 0, .rwl, false, .any⟩]),
  (R.SEL_PRIO_HI, [⟨31, 31, .rwl, false, .any⟩, ⟨29, 23, .rwl, false, .any⟩, ⟨21, 15, .rwl, false, .any⟩, ⟨13, 7, .rwl, false, .any⟩,
    ⟨5, 0, .rwl, false, .any⟩]),
  (R.SEL_STAT, [⟨31, 24, .eng, true, .any⟩, ⟨23, 16, .eng, true, .any⟩, ⟨11, 11, .eng, true, .any⟩, ⟨10, 8, .eng, true, .any⟩, ⟨1, 0, .eng, true, .any⟩]),
  (R.SEL_ENS_CFG, [⟨31, 24, .rwl, false, .u 16 255⟩, ⟨19, 16, .rwl, false, .u 1 15⟩, ⟨13, 0, .rwl, false, .u 1 12500⟩]),
  (R.SEL_WEIGHT, [⟨31, 17, .eng, true, .any⟩, ⟨16, 0, .eng, true, .u 0 65536⟩]),
  (R.SEL_BO_LO, [⟨31, 0, .eng, true, .any⟩]),
  (R.SEL_BO_HI, [⟨31, 0, .eng, true, .any⟩]),
  (R.SEL_RWD_CFG, [⟨31, 31, .rwl, false, .any⟩, ⟨30, 28, .rwl, false, .any⟩, ⟨27, 16, .rwl, false, .z 392 4095⟩, ⟨15, 0, .rwl, false, .u 1 65535⟩]),
  (R.SEL_RWD_FROM_LO, [⟨31, 0, .rw, false, .any⟩]),
  (R.SEL_RWD_FROM_HI, [⟨31, 0, .rw, false, .any⟩]),
  (R.SEL_RWD_CMD, [⟨31, 30, .wo, false, .u 1 3⟩, ⟨7, 0, .wo, false, .any⟩]),
  (R.SEL_RWD_STAT, [⟨31, 29, .ro, false, .any⟩, ⟨28, 28, .ro, false, .any⟩, ⟨27, 27, .ro, false, .any⟩, ⟨15, 0, .ro, false, .any⟩]),
  (R.SEL_RWD_RESTORE_LO, [⟨31, 0, .ro, false, .any⟩]),
  (R.SEL_RWD_RESTORE_HI, [⟨31, 0, .ro, false, .any⟩]),
  (R.SEL_SM, [⟨9, 0, .rwl, false, .any⟩]),
  (R.SEL_RWD_WINDOW, [⟨3, 0, .rwl, false, .u 10 14⟩]),
  (R.SEL_QL_RANK_LO, [⟨31, 0, .rwl, false, .any⟩]),
  (R.SEL_QL_RANK_HI, [⟨31, 0, .rwl, false, .any⟩]),
  (R.LOOP_CTRL, [⟨19, 16, .rwl, false, .u 0 7⟩, ⟨14, 8, .rwl, false, .z 40 111⟩, ⟨1, 1, .rw, true, .any⟩, ⟨0, 0, .rw, true, .any⟩]),
  (R.LOOP_BW, [⟨25, 0, .rwl, false, .u 1 40000000⟩])]

/-- Register tables, piece 2. -/
def RegSpec.piece2 : List (Reg × List FieldSpec) := [
  (R.LOOP_DAMP, [⟨10, 0, .rwl, false, .u 50 2000⟩]),
  (R.LOOP_LIMIT, [⟨29, 12, .rwl, false, .z 1 250000⟩, ⟨11, 0, .rwl, false, .u 1 2500⟩]),
  (R.LOOP_LOCK, [⟨31, 20, .rwl, false, .u 2 4095⟩, ⟨19, 8, .rwl, false, .u 1 4094⟩, ⟨7, 4, .rwl, false, .u 1 15⟩, ⟨3, 0, .rwl, false, .u 1 15⟩]),
  (R.LOOP_GATE, [⟨31, 16, .rwl, false, .u 1 65535⟩, ⟨9, 0, .rwl, false, .u 1 1000⟩]),
  (R.LOOP_COAST, [⟨31, 16, .rwl, false, .u 1 65535⟩, ⟨15, 0, .rwl, false, .any⟩]),
  (R.LOOP_GLIDE_CFG, [⟨31, 31, .rwl, false, .any⟩, ⟨27, 16, .rwl, false, .u 0 3600⟩, ⟨12, 0, .rwl, false, .u 1 7200⟩]),
  (R.LOOP_FREE_LO, [⟨31, 0, .rwl, false, .any⟩]),
  (R.LOOP_FREE_HI, [⟨15, 0, .rwl, false, .any⟩]),
  (R.LOOP_STATE, [⟨14, 14, .ro, false, .any⟩, ⟨13, 12, .ro, false, .any⟩, ⟨11, 11, .ro, false, .any⟩, ⟨10, 10, .eng, false, .any⟩, ⟨9, 9, .ro, false, .any⟩, ⟨8, 8, .ro, false, .any⟩, ⟨4, 3, .ro, false, .any⟩, ⟨2, 0, .ro, false, .any⟩]),
  (R.LOOP_FOFF, [⟨31, 0, .ro, false, .any⟩]),
  (R.LOOP_CNT, [⟨31, 16, .ro, false, .any⟩, ⟨15, 0, .ro, false, .any⟩]),
  (R.LOOP_MODEL, [⟨31, 31, .eng, false, .any⟩, ⟨30, 30, .eng, false, .any⟩, ⟨16, 0, .eng, false, .any⟩]),
  (R.LOOP_APPLIED_LO, [⟨31, 0, .ro, false, .any⟩]),
  (R.LOOP_APPLIED_HI, [⟨31, 0, .ro, false, .any⟩]),
  (R.LOOP_GLIDE_LO, [⟨31, 0, .eng, true, .any⟩]),
  (R.LOOP_GLIDE_HI, [⟨17, 16, .eng, true, .u 0 2⟩, ⟨15, 0, .eng, true, .any⟩]),
  (R.LOOP_LOSS_LO, [⟨31, 0, .ro, false, .any⟩]),
  (R.LOOP_LOSS_HI, [⟨31, 0, .ro, false, .any⟩]),
  (R.LOOP_DATA_BASE, [⟨25, 6, .rwl, false, .any⟩]),
  (R.TLOOP_CFG, [⟨31, 16, .rwl, false, .any⟩, ⟨14, 8, .rwl, false, .any⟩, ⟨1, 0, .rwl, false, .u 0 2⟩]),
  (R.LOOP_VAT_DROP, [⟨31, 0, .ro, false, .any⟩]),
  (R.LOOP_XTEMP, [⟨31, 31, .eng, false, .any⟩, ⟨15, 0, .eng, false, .any⟩]),
  (R.SYN_CFG, [⟨22, 16, .rwl, false, .u 1 100⟩, ⟨13, 12, .rwl, false, .any⟩, ⟨8, 8, .rwl, false, .any⟩, ⟨5, 0, .rwl, false, .or 0 32 63⟩]),
  (R.SYN_PLAN, [⟨26, 24, .rwl, false, .u 4 8⟩, ⟨23, 16, .rwl, false, .u 1 255⟩, ⟨15, 15, .rwl, false, .any⟩, ⟨10, 0, .rwl, false, .z 16 2047⟩]),
  (R.SYN_NFRAC_LO, [⟨31, 0, .rwl, false, .any⟩]),
  (R.SYN_NFRAC_HI, [⟨15, 0, .rwl, false, .any⟩]),
  (R.SYN_CMD, [⟨31, 30, .wo, false, .u 1 2⟩]),
  (R.SYN_STAT, [⟨31, 28, .ro, false, .any⟩, ⟨27, 27, .ro, false, .any⟩, ⟨26, 26, .ro, false, .any⟩, ⟨25, 25, .ro, false, .any⟩, ⟨24, 24, .ro, false, .any⟩, ⟨15, 15, .ro, false, .any⟩, ⟨14, 14, .ro, false, .any⟩, ⟨13, 8, .ro, false, .any⟩, ⟨7, 7, .ro, false, .any⟩, ⟨6, 0, .ro, false, .any⟩]),
  (R.SYN_TIME, [⟨15, 0, .ro, false, .any⟩]),
  (R.SYN_BM_SEL, [⟨5, 0, .rw, false, .any⟩]),
  (R.SYN_BM_DATA, [⟨31, 0, .rw, false, .any⟩]),
  (R.OUT_CFG, [⟨27, 26, .rw, true, .u 0 2⟩, ⟨25, 24, .rw, true, .u 0 2⟩, ⟨23, 22, .rw, true, .any⟩, ⟨21, 20, .rw, true, .any⟩, ⟨19, 16, .rw, true, .u 0 5⟩, ⟨7, 4, .rw, true, .any⟩, ⟨0, 0, .rw, true, .any⟩]),
  (R.OUT_DIV_LO, [⟨31, 0, .rw, true, .any⟩]),
  (R.OUT_DIV_HI, [⟨4, 0, .rw, true, .any⟩]),
  (R.OUT_FINE, [⟨11, 0, .rw, false, .s (-1024) 1024⟩]),
  (R.OUT_COARSE, [⟨31, 0, .rw, false, .any⟩]),
  (R.OUT_XODIV, [⟨23, 0, .rw, true, .u 1 16777215⟩]),
  (R.OUT_DPH_CFG, [⟨31, 31, .rw, true, .any⟩, ⟨30, 30, .rw, true, .any⟩, ⟨29, 29, .rw, true, .any⟩, ⟨28, 28, .rw, true, .any⟩, ⟨23, 16, .rw, true, .u 1 255⟩, ⟨10, 0, .rw, true, .u 1 1024⟩]),
  (R.OUT_DPH_OFFSET_LO, [⟨31, 0, .rw, true, .any⟩]),
  (R.OUT_DPH_OFFSET_HI, [⟨31, 0, .rw, true, .any⟩])]

/-- Register tables, piece 3. -/
def RegSpec.piece3 : List (Reg × List FieldSpec) := [
  (R.OUT_DPH_RATE, [⟨15, 0, .rw, false, .u 1 65535⟩]),
  (R.OUT_DPH_STAT, [⟨31, 29, .ro, false, .any⟩, ⟨15, 0, .ro, false, .any⟩]),
  (R.OUT_STAT, [⟨4, 4, .ro, false, .any⟩, ⟨3, 2, .ro, false, .any⟩, ⟨1, 1, .ro, false, .any⟩, ⟨0, 0, .ro, false, .any⟩]),
  (R.OB_CFG, [⟨1, 0, .rw, false, .u 0 2⟩]),
  (R.OB_STAT, [⟨16, 16, .ro, false, .any⟩, ⟨15, 0, .ro, false, .any⟩]),
  (R.OUT_SAFEMAP, [⟨9, 0, .rwl, false, .any⟩]),
  (R.SLAL_CFG, [⟨9, 0, .rw, true, .any⟩]),
  (R.SLAL_CMD, [⟨31, 30, .wo, false, .u 1 3⟩]),
  (R.SLAL_STAT, [⟨31, 30, .ro, false, .any⟩, ⟨29, 29, .ro, false, .any⟩, ⟨27, 26, .ro, false, .any⟩, ⟨21, 16, .ro, false, .any⟩]),
  (R.SLAL_OFFSET_LO, [⟨31, 0, .ro, false, .any⟩]),
  (R.SLAL_OFFSET_HI, [⟨31, 0, .ro, false, .any⟩]),
  (R.TDC_CH_CFG, [⟨15, 15, .rwl, false, .any⟩, ⟨11, 10, .rw, true, .u 0 2⟩, ⟨2, 0, .rw, true, .u 0 4⟩]),
  (R.TDC_CH_DIV, [⟨23, 0, .rw, true, .u 1 16777215⟩]),
  (R.TDC_CH_NTH, [⟨16, 0, .rw, true, .u 2 65536⟩]),
  (R.TDC_CH_DELAY, [⟨23, 0, .rw, false, .any⟩]),
  (R.TDC_CH_STAT, [⟨31, 16, .ro, false, .any⟩, ⟨15, 0, .ro, false, .any⟩]),
  (R.TDC_CH_CAL, [⟨31, 31, .ro, false, .any⟩, ⟨30, 30, .ro, false, .any⟩, ⟨27, 16, .ro, false, .any⟩, ⟨11, 0, .ro, false, .any⟩]),
  (R.TDC_MS_CFG, [⟨17, 17, .rw, false, .any⟩, ⟨16, 16, .rw, false, .any⟩, ⟨15, 8, .rw, false, .u 0 135⟩, ⟨7, 0, .rw, false, .u 0 135⟩]),
  (R.TDC_MS_STOPN, [⟨15, 0, .rw, false, .u 1 65535⟩]),
  (R.TDC_MS_TIMEOUT, [⟨31, 0, .rw, false, .u 1 4294967295⟩]),
  (R.TDC_MS_WOPEN, [⟨31, 0, .rw, false, .any⟩]),
  (R.TDC_MS_WCLOSE, [⟨31, 0, .rw, false, .u 1 4294967295⟩]),
  (R.TDC_MS_CMD, [⟨31, 30, .wo, false, .u 1 2⟩]),
  (R.TDC_MS_STAT, [⟨31, 29, .ro, false, .any⟩, ⟨28, 28, .ro, false, .any⟩, ⟨27, 27, .ro, false, .any⟩, ⟨26, 26, .ro, false, .any⟩, ⟨25, 25, .ro, false, .any⟩, ⟨23, 16, .ro, false, .any⟩, ⟨15, 0, .ro, false, .any⟩]),
  (R.TDC_MS_RES_LO, [⟨31, 0, .ro, false, .any⟩]),
  (R.TDC_MS_RES_HI, [⟨31, 0, .ro, false, .any⟩]),
  (R.TDC_MS_START_S32, [⟨31, 0, .ro, false, .any⟩]),
  (R.TDC_ST_CFG, [⟨31, 31, .rw, false, .any⟩, ⟨30, 25, .rw, false, .any⟩, ⟨24, 0, .rw, false, .u 2 16777216⟩]),
  (R.TDC_ST_CMD, [⟨31, 30, .wo, false, .u 1 2⟩]),
  (R.TDC_ST_STAT, [⟨31, 30, .ro, false, .any⟩, ⟨29, 29, .ro, false, .any⟩, ⟨24, 0, .ro, false, .any⟩]),
  (R.TDC_ST_SKIP, [⟨31, 0, .ro, false, .any⟩]),
  (R.TDC_ST_MEAN_LO, [⟨31, 0, .ro, false, .any⟩]),
  (R.TDC_ST_MEAN_HI, [⟨31, 0, .ro, false, .any⟩]),
  (R.TDC_ST_STD_LO, [⟨31, 0, .ro, false, .any⟩]),
  (R.TDC_ST_STD_HI, [⟨31, 0, .ro, false, .any⟩]),
  (R.TDC_ST_MIN_LO, [⟨31, 0, .ro, false, .any⟩]),
  (R.TDC_ST_MIN_HI, [⟨31, 0, .ro, false, .any⟩]),
  (R.TDC_ST_MAX_LO, [⟨31, 0, .ro, false, .any⟩]),
  (R.TDC_ST_MAX_HI, [⟨31, 0, .ro, false, .any⟩]),
  (R.TDC_TR_CFG, [⟨31, 31, .rw, false, .any⟩, ⟨30, 30, .rw, false, .any⟩, ⟨27, 25, .rw, false, .u 0 4⟩, ⟨24, 16, .rw, false, .any⟩, ⟨8, 8, .rw, false, .any⟩, ⟨7, 0, .rw, false, .any⟩])]

/-- Register tables, piece 4. -/
def RegSpec.piece4 : List (Reg × List FieldSpec) := [
  (R.TDC_TR_BUF, [⟨28, 14, .rw, false, .z 1 16384⟩, ⟨13, 0, .rw, false, .any⟩]),
  (R.TDC_TR_PRE, [⟨31, 0, .rw, false, .u 0 65536⟩]),
  (R.TDC_TR_POST, [⟨31, 0, .rw, false, .u 1 1048576⟩]),
  (R.TDC_TR_CMD, [⟨31, 30, .wo, false, .u 1 3⟩]),
  (R.TDC_TR_STAT, [⟨31, 29, .ro, false, .any⟩, ⟨28, 28, .ro, false, .any⟩, ⟨27, 27, .ro, false, .any⟩, ⟨15, 0, .ro, false, .any⟩]),
  (R.TDC_TR_SEQ, [⟨31, 0, .ro, false, .any⟩]),
  (R.TDC_SUMMARY, [⟨23, 16, .ro, false, .any⟩, ⟨11, 8, .ro, false, .any⟩, ⟨7, 0, .ro, false, .any⟩]),
  (R.TIME_LT_NS_LO, [⟨31, 0, .ro, false, .any⟩]),
  (R.TIME_LT_NS_HI, [⟨31, 0, .ro, false, .any⟩]),
  (R.TIME_LT_FRAC, [⟨31, 0, .ro, false, .any⟩]),
  (R.TIME_LT_STEP_LO, [⟨31, 0, .wo, false, .any⟩]),
  (R.TIME_LT_STEP_HI, [⟨31, 0, .wo, false, .any⟩]),
  (R.TIME_PI_CFG, [⟨31, 31, .rwl, false, .any⟩, ⟨11, 0, .rwl, false, .any⟩]),
  (R.TIME_PI_BASE, [⟨13, 0, .rwl, false, .any⟩]),
  (R.TIME_PI_STAT, [⟨31, 16, .ro, false, .any⟩, ⟨1, 1, .ro, false, .any⟩, ⟨0, 0, .ro, false, .any⟩]),
  (R.CTX_SEL, [⟨11, 0, .rw, false, .any⟩]),
  (R.CTX_TIME_NS_LO, [⟨31, 0, .ro, false, .any⟩]),
  (R.CTX_TIME_NS_HI, [⟨31, 0, .ro, false, .any⟩]),
  (R.CTX_TIME_FRAC, [⟨31, 0, .ro, false, .any⟩]),
  (R.CTX_INC_LO, [⟨31, 0, .rw, true, .any⟩]),
  (R.CTX_INC_HI, [⟨31, 0, .rw, true, .any⟩]),
  (R.CTX_SLEW_INC_LO, [⟨31, 0, .rw, true, .any⟩]),
  (R.CTX_SLEW_INC_HI, [⟨31, 0, .rw, true, .any⟩]),
  (R.CTX_SLEW_TICKS, [⟨31, 0, .rw, false, .u 1 4294967295⟩]),
  (R.CTX_SLEW_LEFT, [⟨31, 0, .ro, false, .any⟩]),
  (R.CTX_SET_NS_LO, [⟨31, 0, .rw, false, .any⟩]),
  (R.CTX_SET_NS_HI, [⟨31, 0, .rw, false, .any⟩]),
  (R.CTX_SET_FRAC, [⟨31, 0, .rw, false, .any⟩]),
  (R.CTX_STEP_LO, [⟨31, 0, .rw, false, .any⟩]),
  (R.CTX_STEP_HI, [⟨31, 0, .rw, false, .any⟩]),
  (R.CTX_CMD, [⟨31, 29, .wo, false, .u 1 5⟩]),
  (R.CTX_UTC, [⟨31, 31, .rw, true, .any⟩, ⟨26, 16, .rw, true, .u 1 1440⟩, ⟨15, 0, .rw, true, .any⟩]),
  (R.CTX_LEAP_LO, [⟨31, 0, .rw, true, .any⟩]),
  (R.CTX_LEAP_HI, [⟨31, 31, .rw, true, .any⟩, ⟨16, 16, .rw, true, .any⟩, ⟨15, 0, .rw, true, .any⟩]),
  (R.CTX_STAT, [⟨31, 31, .ro, false, .any⟩, ⟨30, 30, .ro, false, .any⟩, ⟨29, 29, .ro, false, .any⟩, ⟨28, 28, .ro, false, .any⟩, ⟨27, 27, .ro, false, .any⟩, ⟨26, 25, .ro, false, .any⟩, ⟨24, 24, .ro, false, .any⟩, ⟨23, 23, .ro, false, .any⟩, ⟨22, 22, .w1c, false, .any⟩, ⟨21, 21, .ro, false, .any⟩]),
  (R.CTX_CONV_IN_NS_LO, [⟨31, 0, .rw, false, .any⟩]),
  (R.CTX_CONV_IN_NS_HI, [⟨31, 0, .rw, false, .any⟩]),
  (R.CTX_CONV_IN_FRAC, [⟨31, 0, .rw, false, .any⟩]),
  (R.CTX_CONV_OUT_NS_LO, [⟨31, 0, .ro, false, .any⟩]),
  (R.CTX_CONV_OUT_NS_HI, [⟨31, 0, .ro, false, .any⟩])]

/-- Register tables, piece 5. -/
def RegSpec.piece5 : List (Reg × List FieldSpec) := [
  (R.CTX_CONV_OUT_FRAC, [⟨31, 0, .ro, false, .any⟩]),
  (R.CTX_VAT_DROP, [⟨31, 0, .ro, false, .any⟩]),
  (R.EVT_CFG, [⟨31, 20, .rw, true, .any⟩, ⟨19, 19, .rw, true, .any⟩, ⟨18, 18, .rw, true, .any⟩, ⟨17, 16, .rw, true, .any⟩, ⟨3, 0, .rw, true, .u 0 6⟩]),
  (R.EVT_START_NS_LO, [⟨31, 0, .rw, false, .any⟩]),
  (R.EVT_START_NS_HI, [⟨31, 0, .rw, false, .any⟩]),
  (R.EVT_START_FRAC, [⟨31, 0, .rw, false, .any⟩]),
  (R.EVT_PERIOD_LO, [⟨31, 0, .rw, false, .any⟩]),
  (R.EVT_PERIOD_HI, [⟨16, 0, .rw, false, .any⟩]),
  (R.EVT_WIDTH, [⟨29, 0, .rw, false, .u 1 1000000000⟩]),
  (R.EVT_AUX, [⟨31, 31, .rw, true, .any⟩, ⟨30, 30, .ro, false, .any⟩, ⟨28, 20, .rw, true, .u 0 290⟩, ⟨19, 0, .rw, true, .u 1 1000000⟩]),
  (R.EVT_CMD, [⟨31, 30, .wo, false, .u 1 2⟩]),
  (R.EVT_STAT, [⟨31, 29, .ro, false, .any⟩, ⟨28, 28, .ro, false, .any⟩, ⟨27, 27, .ro, false, .any⟩, ⟨26, 26, .w1c, false, .any⟩, ⟨25, 25, .ro, false, .any⟩, ⟨15, 0, .ro, false, .any⟩]),
  (R.EVT_CAPT_NS_LO, [⟨31, 0, .ro, false, .any⟩]),
  (R.EVT_CAPT_NS_HI, [⟨31, 0, .ro, false, .any⟩]),
  (R.EVT_CAPT_FRAC, [⟨31, 0, .ro, false, .any⟩]),
  (R.EVT_COUNT, [⟨31, 0, .ro, false, .any⟩]),
  (R.FRM_PORT_CFG, [⟨1, 1, .rw, false, .any⟩, ⟨0, 0, .rw, true, .any⟩]),
  (R.FRM_PORT_STAT, [⟨23, 16, .ro, false, .any⟩, ⟨3, 3, .ro, false, .any⟩, ⟨2, 2, .ro, false, .any⟩, ⟨1, 0, .ro, false, .any⟩]),
  (R.FRM_POLICE, [⟨31, 16, .rw, false, .u 84 65535⟩, ⟨15, 0, .rw, false, .u 1 25000⟩]),
  (R.FRM_CNT, [⟨31, 0, .ro, false, .any⟩]),
  (R.FRM_CFG, [⟨31, 20, .rwl, false, .u 1 4095⟩, ⟨16, 16, .rwl, false, .any⟩, ⟨9, 0, .rwl, false, .any⟩]),
  (R.FRM_EGQ, [⟨31, 31, .rwl, false, .any⟩, ⟨11, 0, .rwl, false, .z 392 4095⟩]),
  (R.FRM_EDELAY, [⟨31, 0, .rw, false, .any⟩]),
  (R.FRM_RING_ADDR_LO, [⟨31, 0, .rw, false, .any⟩]),
  (R.FRM_RING_ADDR_HI, [⟨31, 0, .rw, false, .any⟩]),
  (R.FRM_RING_CFG, [⟨31, 31, .rw, false, .any⟩, ⟨30, 30, .rw, false, .any⟩, ⟨29, 26, .rw, false, .z 3 15⟩, ⟨25, 21, .rw, false, .any⟩, ⟨20, 14, .rw, false, .any⟩, ⟨11, 0, .rw, false, .any⟩]),
  (R.FRM_RING_HEAD, [⟨15, 0, .ro, false, .any⟩]),
  (R.FRM_RING_TAIL, [⟨15, 0, .rw, false, .any⟩]),
  (R.FRM_RING_STAT, [⟨31, 16, .ro, false, .any⟩, ⟨15, 0, .ro, false, .any⟩]),
  (R.KL_CFG, [⟨23, 16, .rw, false, .u 1 255⟩, ⟨15, 15, .rw, false, .any⟩, ⟨14, 12, .rw, false, .u 1 7⟩, ⟨11, 8, .rw, false, .any⟩, ⟨2, 0, .rw, false, .any⟩]),
  (R.KL_GROUP_STAT, [⟨31, 24, .ro, false, .any⟩, ⟨23, 20, .ro, false, .any⟩, ⟨18, 16, .ro, false, .any⟩, ⟨11, 11, .ro, false, .any⟩, ⟨10, 8, .ro, false, .any⟩, ⟨6, 4, .ro, false, .any⟩, ⟨1, 0, .ro, false, .any⟩]),
  (R.KL_WM_LO, [⟨31, 0, .ro, false, .any⟩]),
  (R.KL_WM_HI, [⟨31, 0, .ro, false, .any⟩]),
  (R.KL_SWM_LO, [⟨31, 0, .ro, false, .any⟩]),
  (R.KL_SWM_HI, [⟨31, 0, .ro, false, .any⟩]),
  (R.KL_GEN, [⟨31, 24, .ro, false, .any⟩, ⟨15, 0, .ro, false, .any⟩]),
  (R.KL_WM_SCOPE, [⟨18, 0, .rwl, false, .any⟩]),
  (R.KL_STAGE_CMD, [⟨31, 30, .wo, false, .u 1 3⟩]),
  (R.KL_STAGE_TICK_LO, [⟨31, 0, .rw, false, .any⟩]),
  (R.KL_STAGE_TICK_HI, [⟨31, 0, .rw, false, .any⟩])]

/-- Register tables, piece 6. -/
def RegSpec.piece6 : List (Reg × List FieldSpec) := [
  (R.KL_STAGE_STAT, [⟨31, 30, .ro, false, .any⟩, ⟨3, 0, .ro, false, .any⟩]),
  (R.KL_RX_BASE, [⟨25, 9, .rwl, false, .any⟩]),
  (R.KL_MBOX, [⟨31, 0, .rw, true, .any⟩]),
  (R.KL_LINK_CFG, [⟨15, 8, .rw, false, .u 0 8⟩, ⟨0, 0, .rw, true, .any⟩]),
  (R.KL_LINK_CMD, [⟨31, 30, .wo, false, .u 1 2⟩, ⟨29, 0, .wo, false, .any⟩]),
  (R.KL_LINK_STAT, [⟨31, 29, .ro, false, .any⟩, ⟨28, 28, .ro, false, .any⟩, ⟨19, 16, .ro, false, .any⟩, ⟨14, 12, .ro, false, .any⟩, ⟨1, 0, .ro, false, .any⟩]),
  (R.KL_LINK_DELAY, [⟨31, 0, .ro, false, .any⟩]),
  (R.KL_LINK_OFFSET, [⟨31, 0, .ro, false, .any⟩]),
  (R.KL_LINK_ASYM, [⟨31, 0, .rw, false, .any⟩]),
  (R.KL_EXPORT, [⟨31, 31, .rwl, false, .any⟩, ⟨5, 0, .rwl, false, .u 0 39⟩]),
  (R.KL_LEXPORT, [⟨31, 31, .rwl, false, .any⟩, ⟨5, 0, .rwl, false, .u 0 31⟩]),
  (R.KL_RREF, [⟨31, 31, .rwl, false, .any⟩, ⟨20, 16, .rwl, false, .u 0 0⟩, ⟨15, 12, .rwl, false, .u 0 15⟩, ⟨10, 8, .rwl, false, .any⟩, ⟨2, 0, .rwl, false, .any⟩]),
  (R.KL_RLOOP, [⟨31, 31, .rwl, false, .any⟩, ⟨20, 16, .rwl, false, .u 0 31⟩, ⟨15, 12, .rwl, false, .u 0 7⟩, ⟨10, 8, .rwl, false, .any⟩, ⟨2, 0, .rwl, false, .any⟩]),
  (R.REAM_ADDR, [⟨19, 0, .rw, false, .m8⟩]),
  (R.REAM_VAT, [⟨25, 0, .rw, false, .m8⟩]),
  (R.REAM_CMD, [⟨31, 29, .wo, false, .u 1 4⟩, ⟨16, 0, .wo, false, .any⟩]),
  (R.REAM_STAT, [⟨31, 29, .ro, false, .any⟩, ⟨28, 28, .ro, false, .any⟩, ⟨27, 27, .ro, false, .any⟩, ⟨26, 26, .ro, false, .any⟩, ⟨19, 16, .ro, false, .any⟩, ⟨15, 8, .ro, false, .any⟩, ⟨3, 0, .ro, false, .any⟩]),
  (R.REAM_ECC, [⟨31, 16, .ro, false, .any⟩, ⟨15, 0, .ro, false, .any⟩]),
  (R.REAM_RGN_SEL, [⟨4, 0, .rw, false, .u 0 25⟩]),
  (R.REAM_RGN_CFG, [⟨31, 31, .rwl, false, .any⟩, ⟨29, 28, .rwl, false, .u 0 3⟩, ⟨27, 24, .rwl, false, .z 3 8⟩, ⟨15, 8, .rwl, false, .any⟩, ⟨7, 0, .rwl, false, .any⟩]),
  (R.REAM_SAVE_CFG, [⟨31, 31, .rwl, false, .any⟩, ⟨30, 18, .rwl, false, .u 0 4096⟩, ⟨17, 14, .rwl, false, .any⟩, ⟨13, 0, .rwl, false, .any⟩]),
  (R.REAM_SAVE_STAT, [⟨31, 31, .ro, false, .any⟩, ⟨30, 30, .ro, false, .any⟩, ⟨29, 27, .ro, false, .any⟩, ⟨26, 24, .ro, false, .any⟩, ⟨15, 0, .ro, false, .any⟩]),
  (R.REAM_WEAR_SEL, [⟨7, 0, .rw, false, .any⟩]),
  (R.REAM_WEAR, [⟨31, 0, .ro, false, .any⟩]),
  (R.FLT_STATE, [⟨31, 31, .ro, false, .any⟩, ⟨15, 15, .w1c, false, .any⟩, ⟨8, 0, .ro, false, .any⟩]),
  (R.FLT_SUMMARY_LO, [⟨24, 16, .ro, false, .any⟩, ⟨8, 0, .ro, false, .any⟩]),
  (R.FLT_SUMMARY_HI, [⟨24, 16, .ro, false, .any⟩, ⟨8, 0, .ro, false, .any⟩]),
  (R.FLT_CTRL, [⟨31, 31, .rwl, false, .any⟩]),
  (R.FLT_STATUS, [⟨31, 0, .w1c, false, .any⟩]),
  (R.FLT_ACTIVE, [⟨31, 0, .ro, false, .any⟩]),
  (R.FLT_FORCE, [⟨31, 0, .rw, false, .any⟩]),
  (R.FLT_CLASS, [⟨31, 0, .rwl, false, .any⟩]),
  (R.FLT_SRC_SEL, [⟨8, 0, .rw, false, .any⟩]),
  (R.FLT_SRC_INFO, [⟨31, 16, .ro, false, .any⟩, ⟨15, 0, .ro, false, .any⟩]),
  (R.FLT_SRC_DETAIL, [⟨31, 0, .ro, false, .any⟩]),
  (R.FLT_PIN, [⟨31, 31, .rw, false, .any⟩, ⟨30, 30, .ro, false, .any⟩, ⟨19, 16, .rw, false, .u 8 15⟩, ⟨7, 0, .rw, false, .u 2 255⟩]),
  (R.FLT_LOG_STAT, [⟨31, 16, .ro, false, .any⟩, ⟨6, 0, .ro, false, .any⟩]),
  (R.BOOT_STAT, [⟨31, 31, .ro, false, .any⟩, ⟨30, 30, .ro, false, .any⟩, ⟨29, 28, .ro, false, .any⟩, ⟨27, 26, .ro, false, .any⟩, ⟨25, 25, .ro, false, .any⟩, ⟨24, 22, .ro, false, .any⟩, ⟨21, 20, .ro, false, .any⟩, ⟨19, 16, .ro, false, .any⟩, ⟨15, 14, .ro, false, .any⟩, ⟨3, 0, .ro, false, .any⟩]),
  (R.BOOT_ALT, [⟨11, 0, .ro, false, .any⟩]),
  (R.BOOT_CMD, [⟨31, 30, .wo, false, .u 1 3⟩, ⟨29, 28, .wo, false, .u 0 2⟩])]

/-- Register tables, piece 7. -/
def RegSpec.piece7 : List (Reg × List FieldSpec) := [
  (R.BOOT_PUSH, [⟨13, 0, .rw, false, .any⟩]),
  (R.BOOT_PUSH_LEN, [⟨24, 0, .rw, false, .u 0 16777216⟩]),
  (R.BOOT_WAIT, [⟨7, 0, .rw, false, .u 1 255⟩]),
  (R.BOOT_KEY, [⟨15, 8, .ro, false, .any⟩, ⟨4, 4, .ro, false, .any⟩, ⟨1, 0, .ro, false, .any⟩]),
  (R.BOOT_TIME, [⟨31, 0, .ro, false, .any⟩]),
  (R.HOST_PATH_STAT, [⟨31, 16, .ro, false, .any⟩, ⟨3, 0, .ro, false, .any⟩]),
  (R.HOST_WERR_CNT, [⟨31, 0, .ro, false, .any⟩]),
  (R.HOST_WERR_ADDR, [⟨27, 0, .ro, false, .any⟩]),
  (R.HOST_WERR_SRC, [⟨15, 12, .ro, false, .any⟩, ⟨9, 0, .ro, false, .any⟩]),
  (R.HOST_IRQ_CAUSE, [⟨6, 6, .w1c, false, .any⟩, ⟨5, 5, .w1c, false, .any⟩, ⟨4, 4, .w1c, false, .any⟩, ⟨3, 3, .w1c, false, .any⟩, ⟨2, 2, .w1c, false, .any⟩, ⟨1, 1, .w1c, false, .any⟩, ⟨0, 0, .ro, false, .any⟩]),
  (R.HOST_IRQ_MASK, [⟨6, 0, .rw, false, .any⟩]),
  (R.HOST_FLT_MASK, [⟨31, 0, .rw, false, .any⟩]),
  (R.HOST_PCIE_STAT, [⟨20, 16, .ro, false, .any⟩, ⟨8, 8, .ro, false, .any⟩, ⟨7, 4, .ro, false, .any⟩, ⟨3, 0, .ro, false, .any⟩]),
  (R.HOST_VF_APT, [⟨24, 16, .rw, false, .u 0 256⟩, ⟨13, 0, .rw, false, .any⟩]),
  (R.XI2C_CFG, [⟨31, 31, .rw, false, .any⟩, ⟨15, 8, .rw, false, .u 1 255⟩, ⟨1, 0, .rw, false, .u 0 2⟩]),
  (R.XI2C_CMD, [⟨31, 30, .wo, false, .u 1 2⟩, ⟨22, 16, .wo, false, .any⟩, ⟨11, 8, .wo, false, .u 0 8⟩, ⟨3, 0, .wo, false, .u 0 8⟩]),
  (R.XI2C_DATA0, [⟨31, 0, .rw, false, .any⟩]),
  (R.XI2C_DATA1, [⟨31, 0, .rw, false, .any⟩]),
  (R.XI2C_STAT, [⟨31, 29, .ro, false, .any⟩, ⟨28, 28, .ro, false, .any⟩, ⟨11, 8, .ro, false, .any⟩, ⟨7, 0, .ro, false, .any⟩]),
  (R.FSPI_ADDR, [⟨31, 0, .rw, false, .any⟩]),
  (R.FSPI_VAT, [⟨25, 0, .rw, false, .any⟩]),
  (R.FSPI_CMD, [⟨31, 29, .wo, false, .u 1 4⟩, ⟨25, 24, .wo, false, .u 0 2⟩, ⟨23, 0, .wo, false, .any⟩]),
  (R.FSPI_STAT, [⟨31, 29, .ro, false, .any⟩, ⟨28, 28, .ro, false, .any⟩]),
  (R.TST_LB_SEL, [⟨10, 8, .rw, false, .u 0 4⟩, ⟨6, 0, .rw, false, .any⟩]),
  (R.TST_LB_CFG, [⟨31, 31, .rw, true, .any⟩, ⟨1, 0, .rw, true, .any⟩]),
  (R.TST_LB_ACTIVE, [⟨7, 0, .ro, false, .any⟩]),
  (R.TST_SRC, [⟨23, 0, .rw, true, .u 1 16777215⟩]),
  (R.TST_BIST_CMD, [⟨31, 30, .wo, false, .u 1 3⟩, ⟨3, 0, .wo, false, .any⟩]),
  (R.TST_BIST_RANGE, [⟨28, 14, .rw, false, .z 1 16384⟩, ⟨13, 0, .rw, false, .any⟩]),
  (R.TST_BIST_STAT, [⟨31, 29, .ro, false, .any⟩, ⟨28, 28, .ro, false, .any⟩, ⟨13, 0, .ro, false, .any⟩]),
  (R.TST_SELF_CFG, [⟨31, 31, .rw, true, .any⟩, ⟨26, 24, .rw, true, .any⟩, ⟨15, 8, .rw, true, .u 0 135⟩, ⟨7, 0, .rw, true, .u 0 135⟩]),
  (R.TST_SELF_TAP, [⟨31, 0, .ro, false, .any⟩])]

/-- Every register of the map with its fields. -/
def RegSpec.all : List (Reg × List FieldSpec) :=
  RegSpec.piece0 ++ RegSpec.piece1 ++ RegSpec.piece2 ++ RegSpec.piece3 ++ RegSpec.piece4 ++ RegSpec.piece5 ++ RegSpec.piece6 ++ RegSpec.piece7

end Sys2Proof.Machine
end

