-- ==== Sys2Proof/Machine/State.lean ====
section
/-! DEFINITION. The state of the NV9640 as plain data: the register file (every register of the spec's register
tables, see RegTable.lean), the memories, what each block holds beside its registers, and the queue of waiting
commands. Nothing here is a function. -/

namespace Sys2Proof.Machine

/-- A byte memory: address and byte pairs, addresses strictly rising, no entry equal to the default. -/
abbrev Memory := List Host.Cell

/-- The canonical form of a memory whose unlisted addresses read `dflt`. -/
abbrev Memory.wf (dflt : Byte) (m : Memory) : Prop :=
  m.Pairwise (fun x y => x.1 < y.1) ∧ ∀ x ∈ m, x.2 ≠ dflt

/-- R176, R178: what one leg of an output carries. -/
inductive Leg where
  | low | high | clock | inverted | highZ
  deriving DecidableEq, Repr, Inhabited

/-- R176, R178: what an output's pins carry: both legs, the swing in mV (LVDS, CML) and the strength (LVCMOS). -/
structure Drive where
  p : Leg
  n : Leg
  swing : Nat
  strength : Nat
  deriving DecidableEq, Repr, Inhabited

/-- R354, R355: what a controller drives on an XI2C bus: S or Sr, a byte, P, one SCL pulse; `read n` clocks n bytes in. -/
inductive I2cPart where
  | start
  | byte (b : Byte)
  | read (n : Nat)
  | stop
  | pulse
  deriving DecidableEq, Repr, Inhabited

/-- LOG ENTRY 5: what a command sends out of the device. -/
inductive Out where
  | readData (path : Nat) (words : List Word) (status : Nat)   -- register data returned to a path (R349 markers)
  | bytes (path : Nat) (data : List Byte) (poison : Bool)      -- window data; EP bit (R346)
  | unsupported (path : Nat)                                   -- completion with Unsupported Request (R337)
  | msix (fn vector addr data : Nat)                           -- a message with its entry's address and data (R341, R342)
  | config (fn vendor device cls : Nat)                        -- the identification of a function (R340)
  | frame (port : Nat) (data : List Byte)                      -- a frame on a frame port
  | blocks (link : Nat) (data : List Block)                    -- blocks on a Keanmar link (R269-R271)
  | edge (port : Nat) (level : Bool) (at10ps : Int)            -- an event port's pad level, LT in 10 ps (R235)
  | hostWrite (fn addr : Nat) (data : List Byte)               -- DMA write to host memory
  | i2c (bus : Nat) (parts : List I2cPart)                     -- an XI2C bus (R354, R355)
  | flash (op addr : Nat) (data : List Byte)                   -- flash command, address and data
  | tap (data : List Bool)                                     -- data shifted out of the TAP, cell 0 first
  | cells (data : List Bool)                                   -- what the boundary cells drive on the pins (R363)
  | output (k : Nat) (drive : Drive)                           -- what an output's pins now carry (R176, R178)
  deriving DecidableEq, Repr, Inhabited

/-! ## Engines and tasks (02, 03) -/

/-- R64: an issued vput; it completes at cycle `doneAt` of the tick. -/
structure Vput where
  addr : Nat
  width : Nat
  val : Nat
  doneAt : Nat
  deriving DecidableEq, Repr, Inhabited

/-- R66, R67: uncommitted operations of one dispatch on one queue. -/
structure QueueOp where
  queue : Nat
  push : Bool
  count : Nat
  deriving DecidableEq, Repr, Inhabited

/-- An edge engine (R30, R31, R64, R66, R75, R79). -/
structure Engine where
  g : Vector DWord 16
  acc : BitVec 128
  p : Vector Bool 4
  ts : Nat
  pc : Nat
  stack : List Nat
  run : Option Nat            -- slot of the dispatched task
  start : Nat                 -- cycle of the tick at which the dispatch started
  cyc : Nat                   -- cycle of the tick the engine has reached
  ltFrac : Nat                -- fraction latched for LT_FRAC (R73)
  timers : Vector (Option Nat) 4
  timerIn : Vector Nat 4      -- task input of each tick timer
  vputs : List Vput
  qops : List QueueOp
  ioDone : Nat                -- cycle at which the last io.st has been answered (R76)
  lmem : Memory
  lue : List Nat              -- poisoned or uncorrectable double words of local memory
  lce : List Nat              -- double words of local memory with a correctable error
  deriving DecidableEq, Repr, Inhabited

/-- A task's runtime state beside its ENG_TASK_* registers (R40, R43, R45). -/
structure Task where
  ready : Bool
  since : Nat                 -- absolute cycle since which it is ready
  aged : Nat                  -- absolute cycle of becoming ready or of the last promotion
  eff : Nat                   -- effective class
  promoted : Bool
  disp : Nat                  -- dispatches in the tick `dispTick`
  dispTick : Nat
  deferred : Option Nat       -- tick in which it did not fit (R44)
  again : Bool                -- its input got events during its own dispatch (R40)
  cancelled : Bool            -- a cancel named it during its own dispatch (R41)
  due : Option Nat            -- absolute cycle, 50 of its tick, at which a periodic task becomes ready (R35)
  cancelAt : Option Nat       -- absolute cycle of the last cancel (R41)
  deriving DecidableEq, Repr, Inhabited

/-- A task input (R38). -/
structure TaskIn where
  count : Nat
  fifo : List DWord
  ovf : Bool
  last : Nat                  -- absolute cycle of the newest entry (R39)
  same : Nat                  -- newest entries that came in that cycle
  deriving DecidableEq, Repr, Inhabited

/-- A cluster's stores (R47, R72). -/
structure Cluster where
  istore : Memory
  cmem : Memory
  cue : List Nat              -- poisoned or uncorrectable double words of cluster memory
  cce : List Nat              -- double words of cluster memory with a correctable error
  resident : List Nat         -- tables that a task of the cluster declares (.usetable)
  live : Tbl (List Byte)
  staged : Tbl (List Byte)
  waiting : Bool              -- switched on, its turn to start not yet come (R325)
  startedAt : Option Nat      -- tick of its start, until its power-up completes
  deriving DecidableEq, Repr, Inhabited

/-! ## The Vat (04) -/

/-- The central store. -/
structure Vat where
  mem : Memory
  ce : List Nat               -- double words with a correctable error
  ue : List Nat               -- uncorrectable or poisoned double words
  scrub : Tbl Nat             -- next line of each bank
  qoff : Tbl Nat              -- queues disabled by an uncorrectable descriptor, and its words rewritten since (R100)
  pushed : Tbl Nat            -- entries pushed to a stamp ring since its descriptor was enabled
  deriving DecidableEq, Repr, Inhabited

/-- R91: a host path's grant. -/
structure Grant where
  queue : Nat
  push : Bool
  count : Nat
  since : Nat                 -- tick of the grant
  deriving DecidableEq, Repr, Inhabited

/-- R389: a table loaded or deleted in the open change. -/
structure StagedTable where
  offset : Nat
  length : Nat                -- 0: delete
  deriving DecidableEq, Repr, Inhabited

/-! ## Faults (14) -/

/-- R316: a log entry waiting for the FAULT_LOG region. -/
structure LogEntry where
  tick : Nat
  source : Nat
  cls : Nat
  flags : Nat
  inst : Nat
  detail : Nat
  cyc : Option Nat            -- absolute cycle of the collection time, none while TICK_COUNT does not run
  deriving DecidableEq, Repr, Inhabited

/-- The fault block beside its registers. -/
structure Flt where
  held : List (Nat × Nat)     -- level conditions that hold: source, instance
  log : List LogEntry
  overflow : Bool             -- an entry was dropped; the next one carries OVERFLOW
  pulseEnd : Option Nat       -- tick at which the FAULT_N pulse ends
  saveBegun : Bool            -- power-fail handling has begun (R321)
  stopLogged : Bool           -- the STOP entry is written (R312)
  irq : Bool                  -- an enabled cause is set: INT_N low once the pins live (R353, R366)
  firstAt : Option Nat        -- absolute cycle of the detection that FIRST names (R320)
  stopAt : Option Nat         -- absolute cycle in which the device entered STOPPED (R316)
  deriving DecidableEq, Repr, Inhabited

/-! ## Inputs (05) -/

/-- The monitors of an input beside its registers. Times are on the XO timescale (R108), in units of 2^-32 ns,
but for the activity window, which counts coarse periods of 400 ps (R106). -/
structure InMon where
  bucket : Nat
  present : Bool
  actFail : Bool
  actSeen : Bool              -- ACT_FAIL was 1 in this tick (R114)
  riseFrom : Nat              -- tick of the last rise of the bucket from its lowest value (R112)
  lowest : Nat                -- lowest bucket value since ACT_FAIL cleared
  windowFrom : Option Nat     -- coarse period at which the activity window opened
  winTol : Nat                -- TOL of the open window (R119)
  edges : Nat                 -- prescaled edges since enable
  gateFrom : Nat              -- first tick of the frequency gate
  gateFirst : Option (Nat × Nat)   -- first stamp inside the gate: time and edge number
  gateLast : Nat
  gateK : Nat                 -- prescaled periods between the first and the last stamp
  basisFirst : Option (Nat × Nat)  -- the same of the basis input
  basisLast : Nat
  basisK : Nat
  basisBad : Bool             -- the basis was failing or off during the gate (R108)
  gateKept : Option (Nat × Nat) × Nat × Nat   -- the gate as the last tick left it: first, last, periods (R100)
  basisKept : Option (Nat × Nat) × Nat × Nat
  freqFail : Bool
  fmonValid : Bool
  fmonOffset : Nat            -- last valid gate result, as the word carries it
  maskFail : Bool
  maskWin : List (Nat × Int × Int)  -- for each of the four intervals: first tick, least and greatest phase (R113)
  maskOkFrom : Nat            -- tick since which every interval passed
  suspect : Bool
  confirm : Bool
  clear : Bool                -- CLEAR of the present tick's word
  fallback : Bool
  susValid : Bool
  susFrom : Nat               -- boundary from which suspect gates count (R110)
  samples : List (Nat × Int)  -- tick and phase of the gate's samples
  baseline : Option (Int × Int × Nat)  -- slope (2^-48 ns a tick), phase and first tick of the baseline fit
  confirms : Nat
  last4 : List (Nat × Int)    -- last edges of a slow input
  susRef : Option Int         -- phase of the loop estimate at the last sample (R110, R128)
  stamps : List (Nat × Nat)   -- stamps of this tick that are samples: time and edge number
  obsFrom : Option Nat        -- boundary at which OBSERVE took effect
  obsDone : Bool
  deriving DecidableEq, Repr, Inhabited

/-! ## Selection, rewind and loops (06, 07, 08) -/

/-- Selection and rewind of a loop beside its registers. -/
structure Sel where
  marked : List Nat           -- entries with a pending MARK
  failed : List Nat
  cleared : List Nat
  failTick : Tbl Nat          -- entry: tick that its FAIL names (R117)
  doneSeen : Bool             -- SPLICE_DONE has been acted on
  cmdStart : Option Nat       -- START waiting for the boundary, its EXCLUDE
  cmdAbort : Bool
  cmdSplice : Bool
  from' : Nat                 -- FROM of the rewind in progress
  exclude : Nat
  start : Nat                 -- boundary t_r
  next : Nat                  -- next stamp tick to deliver
  recLstate : Nat             -- LSTATE of record r
  offsets : List Int          -- replay offsets of the eight entries
  weights : List Nat          -- weights in force at t_r
  choice : Nat                -- the loop's choice at t_r (R138)
  ctrl0 : Int                 -- CONTROL of record r - 1 as read at t_r
  lastCtrl : Int              -- CONTROL of the last replay record
  ringFrom : Nat              -- first stamp tick the ring may hold
  splicing : Bool
  kept : Option (Nat × Nat × Nat × Nat)  -- SEL_PRIO_LO, SEL_PRIO_HI, SEL_MODE and SEL_ENS_CFG kept by R142
  deriving DecidableEq, Repr, Inhabited

/-- R156: the accumulators of one second of a loop's history. -/
structure HistAcc where
  sum : Int
  n : Nat
  valid : Bool                -- LOCKED in every tick and no clamp acted
  excl : Bool
  tempSum : Int
  tempN : Nat
  state : Nat
  deriving DecidableEq, Repr, Inhabited

/-- A loop's sequencer beside its registers. -/
structure Loop where
  applied : Int
  prevApplied : Int           -- word applied one boundary earlier
  slotWritten : Bool          -- the Vat marked a write of SLOT in this tick (R145)
  servo : Bool                -- the servo program wrote PHASE or FLAGS of block 32 in this tick (R162)
  missed : Bool               -- the last boundary counted a missed update
  ramped : Bool               -- the generator moved the word at the last boundary
  source : Int                -- the last source word (R147 step 1)
  coastWord : Int
  coastFrom : Nat             -- boundary at which COAST took effect
  lastSample : Option Nat     -- tick of the last sample
  selTick : Option Nat        -- boundary at which the selection last took effect
  membersUsed : Nat           -- entries combined for the last stamp tick
  membersPrev : Nat           -- and for the stamp tick before it
  activeUsed : Nat            -- ACTIVE byte of the last stamp tick
  activePrev : Nat
  gateFrom : Option Nat       -- first tick of the lock gate, none while no gate runs
  refFirst : Option (Nat × Nat)   -- first stamp of the reference in the gate: time, edge count
  refLast : Nat
  refK : Nat
  fbFirst : Option (Nat × Nat)
  fbLast : Nat
  fbK : Nat
  gateBad : Bool              -- NEWREF or a hop in the gate
  lockRun : Nat
  unlockRun : Nat
  lockDecl : Bool             -- lock declared in this tick
  unlockDecl : Bool
  coastOver : Bool            -- the coast timer has elapsed
  newref : Bool
  entry : Bool
  pairSel : List Nat          -- selection and weights as last seen, for NEWREF
  exclAt : Option Nat         -- boundary at which a START last took effect (R157)
  hist : HistAcc
  histPrev : Option (Nat × HistAcc)  -- the completed second, not yet written
  lastAvg : Int               -- AVG of the last completed record
  stepped : Option Nat        -- tick whose sample made TLOOP step LT since ACQUIRE was entered (R162)
  tlPrev : Option (Nat × Int) -- TLOOP's previous sample: stamp tick, error
  deriving DecidableEq, Repr, Inhabited

/-- A Slalom generator beside its registers (R187-R190). -/
structure Slal where
  offset : Int
  dwell : Option Nat          -- boundary at which the segment's dwell ends, once TARGET is reached
  cmdStart : Bool
  cmdAbort : Bool
  cmdClear : Bool
  doneAt : Option Nat         -- boundary at which the last segment completed (R190)
  deriving DecidableEq, Repr, Inhabited

/-- R164: a frequency plan. -/
structure Plan where
  nint : Nat
  frac : Nat
  rdiv : Nat
  mult : Nat
  post : Nat
  deriving DecidableEq, Repr, Inhabited

/-- A synthesizer beside its registers (R165-R171, R186). -/
structure Syn where
  word : Int                  -- word in force
  hopFrom : Nat               -- boundary at which the hop started
  hopLt : Nat                 -- LT at that boundary, 2^-32 ns
  cmdSearch : Bool
  cmdAbort : Bool
  releasing : Bool            -- moving from a frozen word to the applied word
  planNow : Plan              -- the plan that it runs
  enNow : Bool
  deriving DecidableEq, Repr, Inhabited

/-- An output beside its registers (R174-R186). -/
structure OutCh where
  src : Nat                   -- synthesizer that feeds the divider
  xo : Bool                   -- the pins carry the divided XO (XO_DERIVED)
  d2 : Nat                    -- divider in use
  fine : Int                  -- delays in use
  coarse : Nat
  safeRun : Bool              -- RUN when the safe state was entered
  safeSrc : Nat
  aligned : Bool              -- ALIGNED since the enable and the last hop
  pairs : Nat                 -- pairs of the measuring window
  pairSum : Int               -- their folded differences, over the denominator of T_o
  trimmed : Bool              -- a TRIM has been made since the procedure started
  trimTo : Option Int         -- FINE that the trim moves to
  trimTick : Nat              -- tick of the last FINE step
  slipTo : Option Nat         -- COARSE waiting for the next low phase
  drive : Drive               -- what the pins carry
  deriving DecidableEq, Repr, Inhabited

/-! ## Time contexts, event ports, performance intervals (10) -/

/-- R229: a pending CTX_CMD with its value. -/
inductive CtxCmd where
  | set (v : Nat)
  | step (e : Int)
  | slew (ticks : Nat)
  | cancel
  | disable
  deriving DecidableEq, Repr, Inhabited

/-- A context beside its CTX_* registers (R225-R232). Times in 2^-32 ns. -/
structure Ctx where
  c : Nat                     -- c(b)
  cPrev : Nat                 -- c(b-1)
  curInc : Nat                -- inc(b)
  prevInc : Nat               -- inc(b-1)
  prevOn : Bool               -- ENABLE in the tick that ended at b (R227)
  fresh : Bool                -- c(b) came from a SET or a STEP
  cmd : Option CtxCmd
  leapCmd : Option Bool       -- CTX_LEAP written: ARM
  leapNow : Bool              -- a leap was applied at the last boundary
  slewOver : Bool             -- the slew completes at the next boundary
  deriving DecidableEq, Repr, Inhabited

/-- An event port beside its registers (R234-R241). -/
structure Evt where
  func : Nat                  -- function connected, 16 while parked
  want : Nat                  -- function that the port is or moves to
  k : Nat                     -- next edge of the train
  active : Option Nat         -- context time at which the active phase ends
  stopping : Bool             -- STOPPED after the active phase
  cmdArm : Bool
  cmdStop : Bool
  armAt : Nat                 -- arm boundary
  parkEnd : Nat               -- first tick in which the park may end
  level : Bool                -- pad level driven
  pad : Bool                  -- last sample of the pad
  rearmed : Bool              -- R234: the active phase is of an arm before the last
  clean : Nat                 -- R241: consecutive clean samples at idle, 2 from the second one on
  pulseTo : Nat               -- cycle, from tick 0 on, at which a TICK pulse ends
  deriving DecidableEq, Repr, Inhabited

/-- R242: an open performance bin; times in ticks, LENGTH in 2^-32 ns of context time. -/
structure Bin where
  start : Nat
  flags : Nat
  len : Nat
  ta : Nat
  tb : Nat
  na : Nat
  nb : Nat
  peak : Nat
  missed : Nat
  deriving DecidableEq, Repr, Inhabited

/-- An object's two open bins, and what its counts compare with. -/
structure PiObj where
  b15 : Bin
  b24 : Bin
  state : Nat
  sus : Bool
  deriving DecidableEq, Repr, Inhabited

/-- The interval unit beside its registers. -/
structure PiUnit where
  isOpen : Bool
  ctx : Nat                   -- PI context of the open bins
  objs : List PiObj
  restored : Bool             -- a restore precedes the next opening (R245)
  counted : Option Nat        -- tick that has entered the bins
  deriving DecidableEq, Repr, Inhabited

/-! ## Interval measurement (09) -/

/-- A TDC channel beside its registers. -/
structure TdcCh where
  calA : Option (Nat × Nat)   -- accepted C1, C2 of interpolator A
  calB : Option (Nat × Nat)
  staleA : Bool
  staleB : Bool
  last : Option Nat           -- XO time of the last stamped edge, 2^-32 ns
  stamp : Nat                 -- its stamp
  lost : Bool                 -- the next record carries LOST
  nth : Nat                   -- prescaled edges since the last N-th one
  recTick : Option Nat        -- tick whose FIRST_PER_TICK record is written
  pend : List (Nat × Nat × Nat × Nat)  -- SAMPLE: tick, time, flags and edge count of a tick's last edge
  sampled : Option Nat        -- tick of the last SAMPLE record
  burst : List (List Byte)
  carry : Nat                 -- flags that the next written record takes from discarded ones (R200)
  pre : Nat                   -- edges that the prescaler has passed over since the last prescaled one (R105)
  level : Option Bool         -- the glitch filter's output, none before its first edge (R104)
  deriving DecidableEq, Repr, Inhabited

def TdcCh.reset : TdcCh := ⟨none, none, false, false, none, 0, false, 0, none, [], none, [], 0, 0, none⟩

/-- A stamped edge as a measurement slot sees it: stamp, stamp less the LT steps so far, CALSTALE, cycle. -/
structure MsEdge where
  time : Nat
  adj : Int
  stale : Bool
  cyc : Nat
  deriving DecidableEq, Repr, Inhabited

/-- A measurement slot beside its registers. -/
structure MsSlot where
  cmdArm : Bool
  base : Int                  -- LT of the arm boundary less the LT steps so far
  cal : List Nat              -- channels that calibrate under R197
  start : Option MsEdge
  stop : Option MsEdge
  count : Nat                 -- stop edges counted
  early : List MsEdge         -- Deckle: stops that arrived before the start
  ignored : Nat               -- Deckle: stops ignored, which IGNORED shows saturated (R207)
  rearm : Bool
  doneAt : Option Nat         -- absolute cycle of the last end
  deriving DecidableEq, Repr, Inhabited

def MsSlot.reset : MsSlot := ⟨false, 0, [], none, none, 0, [], 0, false, none⟩

/-- A statistics slot beside its registers. -/
structure StSlot where
  cmdStart : Bool
  sum : Int
  sq : Nat
  least : Int
  greatest : Int
  again : Bool                -- the run ended since the last boundary
  doneAt : Option Nat
  deriving DecidableEq, Repr, Inhabited

def StSlot.reset : StSlot := ⟨false, 0, 0, 0, 0, false, none⟩

/-- A trace recorder beside its registers. -/
structure TraceRec where
  cmdArm : Bool
  fifo : List (Bool × List Byte)  -- the 64-record buffer: post-trigger record, bytes
  next : Nat                  -- records written to the ring
  pre : Nat
  post : Nat
  lost : Nat
  trigSrc : Nat
  trigTick : Nat
  trigS32 : Nat
  queuedRun : Bool            -- the capture comes from a queued trigger
  queue : Option (Nat × Nat × Nat)  -- queued trigger: tick, S32, source
  queueAt : Option Nat        -- absolute cycle in which a trigger was last queued
  rearmEnd : Option Nat       -- boundary at which REARM ends
  doneAt : Option Nat
  trigAt : Option Nat         -- absolute cycle of the trigger that ended PRE
  abortAt : Option Nat        -- absolute cycle of the last abort
  deriving DecidableEq, Repr, Inhabited

def TraceRec.reset : TraceRec := ⟨false, [], 0, 0, 0, 0, 0, 0, 0, false, none, none, none, none, none, none⟩

/-! ## Joined devices (12) -/

/-- R274: a remote reference as last heard. -/
structure RRef where
  state : Nat
  ql : Nat
  sus : Nat
  susValid : Bool
  stamp : Option Nat          -- local stamp of its last record, 2^-32 ns
  ring : List Nat             -- its ring: the local stamps formed, newest first (R274)
  rxTick : Option Nat         -- tick of the last record
  deriving DecidableEq, Repr, Inhabited

def RRef.reset : RRef := ⟨0, 0, 0, false, none, [], none⟩

/-- A Keanmar link beside its registers. Stamps are in 2^-32 ns. -/
structure KlLink where
  lock : Bool                 -- block lock
  good : Nat                  -- consecutive good frames
  missed : Nat                -- consecutive missed frames
  seen : Bool                 -- a frame arrived in the present tick
  sync : List Byte            -- SYNC block and body of the last good frame
  body : List Byte
  rxTick : Option Nat         -- tick in which it arrived
  rxStamp : Nat               -- local stamp of its marker
  txs : List (Nat × Nat)      -- transmit stamps by TICK[31:0], newest first
  samples : List (Int × Int)  -- twice the delay and offset of the last good frames, newest first
  count : Nat                 -- link frame count
  mism : Nat                  -- consecutive frames with another watermark or generation
  cmdCal : Option Nat         -- CAL with its S, waiting for the boundary
  cmdAbort : Bool
  calS : Nat                  -- start tick
  calSum : Int                -- offsets of the measuring part, 2^-16 ns
  calN : Nat
  thetaN : Int
  txScr : BitVec 58           -- the last 58 bits sent, the oldest at bit 0 (R269)
  rxScr : BitVec 58           -- the last 58 bits received
  run : Nat                   -- consecutive valid sync headers
  heads : BitVec 64           -- of the last 64 sync headers under block lock: 1 an invalid one, the newest at bit 0
  rxCount : Option Nat        -- link frame count of the last good frame (R270)
  gap : Int                   -- signed difference of the link frame counts of the last two
  serve : Option Nat          -- R282: the next burst of a boot image that the link asks for
  again : List Nat            -- bursts that the peer has named bad
  mbox : List Byte            -- the peer's mailbox as last received
  resent : Option (Nat × Nat) -- the burst sent again last, and the tick of the frame behind it (R282)
  newUp : Bool                -- the link came UP at the last boundary or since (R281)
  deriving DecidableEq, Repr, Inhabited

def KlLink.reset : KlLink :=
  ⟨false, 0, 0, false, [], [], none, 0, [], [], 0, 0, none, false, 0, 0, 0, 0, 0, 0, 0, 0, none, 0, none, [], [], none, false⟩

/-- R277, R273, R279-R281: what drives the system clock: the XO, a PLL that holds the upstream link's offset at 0, one
that pulls in after a split, one that holds its frequency, the free timebase before joining, or (R280) a new lead's XO at the
frequency held when it became lead. -/
inductive Pll where
  | xo
  | xoHeld
  | steer
  | pullIn
  | hold
  | free
  deriving DecidableEq, Repr, Inhabited

/-- The Keanmar block beside its registers. -/
structure Kl where
  links : Tbl KlLink
  wait : Nat                  -- ticks without a frame with HOPS below 15, while waiting to join (R279)
  heard : List (Nat × Nat)    -- PRIO and DEV of the devices heard
  lastLead : Nat              -- tick of the last frame of the lead's epoch
  tqueue : List (Nat × Int)   -- TLOOP words of the group: TAPPLY, TWORD
  tword : Int                 -- the one in force (R278)
  bulk : Tbl (List Byte)      -- bursts of a boot image (R282)
  badBursts : List Nat
  pll : Pll                   -- what drives the system clock (R277)
  adj : Int                   -- the phase correction of the system PLL at the last boundary, 2^-16 ns
  served : List Byte          -- the boot image that a lead sends (R282)
  phased : Bool               -- a joining device has stepped its tick phase by the offset (R279)
  deriving DecidableEq, Repr, Inhabited

def Kl.reset : Kl := ⟨[], 0, [], 0, [], 0, [], [], .xo, 0, [], false⟩

/-! ## The frame path (11) -/

/-- Cells of the FRAME pool that hold a frame (R92). -/
structure FrmCells where
  first : Nat
  count : Nat
  reserved : Bool             -- taken from the Class A reservation
  deriving DecidableEq, Repr, Inhabited

/-- A frame that waits to leave a port. -/
structure FrmTx where
  port : Nat
  cls : Nat                   -- 0 A, 1 B, 2 C, 3 D
  addr : Nat                  -- Vat offset of a frame that lies in the Vat
  len : Nat
  free : Bool
  insert : Bool
  ptp : Nat                   -- offset of the PTP header, 0 if none
  action : Nat                -- Class A: parser action
  ring : Option Nat           -- Class B: its ring
  desc : List Byte            -- Class B: its descriptor
  deriving DecidableEq, Repr, Inhabited

/-- R260: a stored two-step residence. -/
structure TwoStep where
  port : Nat
  domain : Nat
  identity : List Byte
  seq : Nat
  pair : Nat                  -- 0 Sync, 1 Pdelay_Resp
  res : Int                   -- 2^-16 ns
  since : Nat                 -- tick
  deriving DecidableEq, Repr, Inhabited

/-- The frame path beside its registers. -/
structure Frm where
  allocs : List FrmCells
  txs : List FrmTx            -- oldest first
  two : List TwoStep          -- oldest first
  tokens : Tbl (Nat × Nat)    -- policer of a port: tokens in 10^-4 bytes, absolute cycle (R257)
  lastDone : Tbl (Nat × Nat × List Byte)  -- last DONE descriptor of a ring: cycle, host address, bytes (R266)
  reads : Tbl (List Byte)     -- by ring: the descriptor whose frame is being read from host memory (R266)
  handed : List Nat           -- frames sent on with FREE whose ingress entry has not been popped (R263)
  deriving DecidableEq, Repr, Inhabited

def Frm.reset : Frm := ⟨[], [], [], [], [], [], []⟩

/-! ## Ream (13) -/

/-- R291: a Ream command in progress. -/
structure ReamCmd where
  op : Nat                    -- 1 READ, 2 PROGRAM, 3 ERASE
  addr : Nat
  len : Nat
  vat : Nat
  deriving DecidableEq, Repr, Inhabited

/-- A save in progress: the area and, in programming order, page number, bytes and poisoned words of each page. -/
structure SaveRun where
  area : Nat
  image : List Byte
  bad : List Nat              -- poisoned 8-byte words of the image
  deriving DecidableEq, Repr, Inhabited

/-- R306, R336: the erase that arms a save area in the background: the area, the sector of it that is being erased, the tick
at which that sector's erase began, and how long an erase takes. -/
structure AreaErase where
  area : Nat
  sector : Nat
  since : Nat
  us : Nat
  deriving DecidableEq, Repr, Inhabited

/-- R317: a fault-log record that is being written: the tick in which the write ends, and its address. -/
structure LogWriting where
  done : Nat
  addr : Nat
  deriving DecidableEq, Repr, Inhabited

/-- The Ream: 1 MiB that reads 0xFF where nothing is programmed, in groups of 8 bytes. -/
structure Ream where
  mem : Memory
  ones : List Nat             -- programmed groups whose data is all ones
  ce : List Nat               -- groups with a correctable error
  ue : List Nat               -- groups with an uncorrectable error
  erases : Tbl Nat            -- erase count of a sector's spare group
  half : List Nat             -- half-erased sectors
  intents : Tbl Nat           -- a half-erased sector: ERASES of its open INTENT record (R298)
  cmd : Option ReamCmd
  doneAt : Option Nat         -- absolute cycle of the last completion
  logSect : Nat               -- erase log: current sector, next slot, next SEQ
  logSlot : Nat
  logSeq : Nat
  armed : Option Nat          -- armed save area
  saveSeq : Nat               -- SEQ of the newest save
  save : Option SaveRun
  saved : Bool                -- the save of this power-fail handling is complete
  skipped : Bool              -- a power-fail handling started no save
  arm : Option AreaErase
  writing : Option LogWriting
  deriving DecidableEq, Repr, Inhabited

def Ream.reset : Ream := ⟨[], [], [], [], [], [], [], none, none, 0, 0, 0, none, 0, none, false, false, none, none⟩

/-! ## Start-up (15) -/

/-- The start beside its BOOT registers. -/
structure Boot where
  low : Bool                  -- RESET_N is recognised low
  resetPend : Nat             -- R371: RESET_N went low during a save: 1 it is low, 2 it has been released since
  halted : Bool               -- R305: halted after a power-fail save
  outsHeld : Bool             -- no output runs: reset, boot before step 12, power loss, save
  loss : Bool                 -- the power-loss detector tripped (R370)
  pfail : Bool                -- PFAIL_N is recognised: power-fail handling at the next boundary
  pinLast : BitVec 8          -- last sample of RESET_N, PERST_N, PFAIL_N, NVWP_N, BOOTSEL1, BOOTSEL0, MI2C_A1, MI2C_A0, from bit 0 (R24)
  pinSeen : BitVec 8          -- their recognised levels
  sel : Nat                   -- BOOTSEL1:0 as taken at the last recognised release of RESET_N (R323)
  inp : BootIn                -- what the present start meets
  wait : Bool                 -- the step in progress waits: step 4 to join, step 7 for its image
  waitFrom : Nat              -- tick at which the wait of step 7, or of a restart, began
  failed : Bool               -- the step in progress has failed its check
  start : Nat                 -- START of this start's records
  alts : Nat                  -- R330: the alternative that this start runs, a step or 0
  haltAt : Nat                -- R330: the step at which this start halts, 0 for none
  pushed : Bool               -- PUSH_GO has come (R332)
  image : List Byte           -- the image of step 7, until it is placed
  imageId : Nat               -- IMAGE_ID and VERSION of the image in force
  version : Nat
  profiles : Nat              -- its PROFILES
  baseOk : Bool               -- it carries the tables that the base image loads
  cmdRestart : Option (Nat × List Byte)  -- RESTART waiting for the boundary: SRC, what the flash holds there
  next : Option (List Byte)   -- a restart's image that passed steps 7 and 8
  stopLeft : Nat              -- ticks until an output that has not stopped is cut (R324, R370); 0: none runs out
  calDone : Bool              -- step 10: the core calibration is over, and hops run
  live : Bool                 -- step 12 has taken effect since the last reset: the pins are in use (R366)
  switching : Bool            -- a restart's image waits for the frame ports to power down (R335)
  restart : Bool              -- the start in progress is an image restart (R329, R335)
  runs : Option Nat           -- RUN of the 72 outputs that a restart holds until its step 12, bit k output k (R335)
  deriving DecidableEq, Repr, Inhabited

def BootIn.reset : BootIn := ⟨0, Vector.replicate 12 0, 0, 0, [], [], [], []⟩
def Boot.reset : Boot :=
  ⟨true, 0, false, true, false, false, 0, 0, 0, BootIn.reset, false, 0, false, 0, 0, 0, false, [], 0, 0, 0, false, none, none,
   0, false, false, false, false, none⟩

/-! ## Host interfaces and test (16, 17) -/

/-- R355: steps 1 to 3 of a bus recovery: the tick in which its STOP is complete, SDA then, and whether it is a retry. -/
structure Recovery where
  done : Nat
  high : Bool
  retry : Bool
  deriving DecidableEq, Repr, Inhabited

/-- An XI2C controller beside its registers. -/
structure Xi2c where
  addr : Nat                  -- the transfer in progress
  wlen : Nat
  rlen : Nat
  since : Nat                 -- tick of the last STUCK
  doneAt : Option Nat
  recover : Option Recovery   -- a bus recovery that runs
  deriving DecidableEq, Repr, Inhabited

def Xi2c.reset : Xi2c := ⟨0, 0, 0, 0, none, none⟩

/-- The FSPI controller beside its registers: the command in progress. -/
structure Fspi where
  op : Nat
  mode : Nat
  addr : Nat
  vat : Nat
  len : Nat
  abort : Bool
  doneAt : Option Nat
  deriving DecidableEq, Repr, Inhabited

def Fspi.reset : Fspi := ⟨0, 0, 0, 0, 0, false, none⟩

/-- The host interfaces beside their registers. -/
structure HostIf where
  i2cPtr : Nat                -- R351: the pointer of the I2C target
  perst : Bool                -- PERST_N is recognised low
  trained : Bool              -- the PCIe link has trained since PERST_N
  d3 : List Nat               -- functions in D3hot: their vectors are masked (R348)
  msix : Memory               -- MSI-X tables and PBA: byte 16384 f + x is byte x of function f's BAR2, xor its reset value (R341)
  msixOn : List Nat           -- functions with MSI-X enabled
  msixMask : List Nat         -- functions whose vectors are all masked
  xi2c : Tbl Xi2c
  fspi : Fspi
  deriving DecidableEq, Repr, Inhabited

def HostIf.reset : HostIf := ⟨0, true, false, [], [], [], [], [], Fspi.reset⟩

/-- Test access beside its registers. -/
structure Test where
  cmd : Option (Nat × Nat × Nat)  -- TST_BIST_CMD waiting for the boundary: OP, first granule or cluster, granules
  run : Option (Nat × Nat × Nat)  -- the self-test in progress, likewise
  start : Nat                 -- the tick in which it began
  doneAt : Option Nat
  lastTick : Option Nat       -- tick of the last self-stamping pulse
  ir : Nat                    -- instruction in the TAP: 0 BYPASS, 1 IDCODE, 2 SAMPLE/PRELOAD, 3 EXTEST, 4 EXTEST_PULSE, 5 EXTEST_TRAIN
  held : Bool                 -- TRST_N holds the TAP in Test-Logic-Reset
  cells : List Bool           -- the boundary register as last updated
  deriving DecidableEq, Repr, Inhabited

def Test.reset : Test := ⟨none, none, 0, none, none, 1, true, []⟩

/-- LT and the tick's increment (R222, R223), in units of 2^-48 ns. -/
structure Time where
  lt : Nat
  dlt : Nat
  prev : Nat
  step : Option Int           -- pending LT step, phase value
  tlStep : Option Int         -- TLOOP's step for the next boundary (R162)
  stepPend : List Nat         -- channels whose next record carries STEP
  dltPrev : Nat
  stepSum : Int               -- sum of TLOOP's steps, phase value (R208)
  hist : List Nat             -- LT (2^-32 ns) at the last boundaries, newest first, kept for replay
  past : List (Nat × Nat)     -- LT and increment of the last 16 ticks, newest first (R248)
  deriving DecidableEq, Repr, Inhabited

/-! ## The programs of the base image (R2): what their tasks keep in memory -/

/-- R129: a member's span. -/
structure Span where
  first : Option Nat          -- first stamp tick since the entry last became a member
  tau : Nat                   -- TAU in force over the span
  got : List (Nat × Int)      -- corrected phases: number of the tau0 interval and its last value, newest first
  deriving DecidableEq, Repr, Inhabited

/-- R158: the glide base: sums over the eligible records of the window. -/
structure GlideBase where
  loss : Nat                  -- LOOP_LOSS that the window belongs to
  n : Nat
  avgs : Int
  secs : Nat
  temps : Int
  tempN : Nat
  deriving DecidableEq, Repr, Inhabited

/-- R160: the running sums of a fit: second s, temperature t and AVG y over all VALID records, and over those with
TEMP_OK (k). -/
structure FitSums where
  n : Int
  s : Int
  ss : Int
  y : Int
  sy : Int
  k : Int
  ks : Int
  kss : Int
  kt : Int
  ktt : Int
  kttt : Int
  ktttt : Int
  kst : Int
  kstt : Int
  ky : Int
  ksy : Int
  kty : Int
  ktty : Int
  least : Int
  greatest : Int
  deriving DecidableEq, Repr, Inhabited

/-- R160: an oscillator model record. -/
structure OscModel where
  fitTime : Nat
  tRef : Int
  age : Int
  tc1 : Int
  tc2 : Int
  locked : Nat
  least : Int
  greatest : Int
  valid : Bool
  tempValid : Bool
  deriving DecidableEq, Repr, Inhabited

/-- What the base image's programs keep for a loop. -/
structure BaseLoop where
  list : List Nat             -- the eight entry bytes that errs and spans belong to
  errs : List (List (Option Int))  -- raw errors of the eight entries in the last stamp ticks, newest first (R126)
  spans : List Span
  tdevs : List (Option Nat)   -- TDEV at the last refresh, of members whose span was complete (R130)
  integ : Int                 -- the 80-bit integrator, 2^-32 of a frequency-word unit (R146)
  word : Int                  -- the word that SLOT holds
  leak : Int                  -- phase that leaked into the output in a replay, 2^-48 ns (R139)
  words : List (Nat × Int)    -- corrected words of the last stamp ticks, newest first
  glide : Option GlideBase
  sums : FitSums
  model : OscModel
  from' : Option (Nat × Nat)  -- FB and TSRC that the sums belong to
  servoAt : Option Nat        -- TLOOP: tick of the servo program's last write of PHASE, and the interval before it
  servoGap : Nat
  deriving DecidableEq, Repr, Inhabited

/-- What the base image's programs keep. -/
structure Base where
  began : Bool                -- the engines have started: the models are restored (R160)
  loops : Tbl BaseLoop
  quiet : List Nat            -- for each external sensor: consecutive reads without an answer (R161)
  xtWait : List Nat           -- external sensors that wait for their read
  xtNow : List (Option Nat)   -- the sensor that each XI2C controller reads for the program
  saveModels : Bool           -- a fit waits to be written to the Ream
  gen : Nat                   -- the generation at the last tick (R289)
  wmWait : Nat                -- commits whose watermark-history record is not written yet (R289)
  esmc : Tbl (Nat × Bool)     -- inputs with SRC 1: tick of the last ESMC PDU, or of SRC, and whether TIMEOUT has passed (R120)
  deriving DecidableEq, Repr, Inhabited

def Span.reset : Span := ⟨none, 0, []⟩
def FitSums.reset : FitSums := ⟨0, 0, 0, 0, 0, 0, 0, 0, 0, 0, 0, 0, 0, 0, 0, 0, 0, 0, 0, 0⟩
def OscModel.reset : OscModel := ⟨0, 0, 0, 0, 0, 0, 0, 0, false, false⟩
def BaseLoop.reset : BaseLoop :=
  ⟨[], [], [], [], 0, 0, 0, [], none, FitSums.reset, OscModel.reset, none, none, 1⟩
def Base.reset : Base := ⟨false, [], [0, 0, 0, 0], [], [none, none], false, 0, 0, []⟩

/-! ## Values at reset -/

def Engine.reset : Engine :=
  ⟨Vector.replicate 16 0, 0, Vector.replicate 4 false, 0, 0, [], none, 0, 0, 0, Vector.replicate 4 none,
   Vector.replicate 4 0, [], [], 0, [], [], []⟩
def Task.reset : Task := ⟨false, 0, 0, 0, false, 0, 0, none, false, false, none, none⟩
def TaskIn.reset : TaskIn := ⟨0, [], false, 0, 0⟩
def Cluster.reset : Cluster := ⟨[], [], [], [], [], [], [], false, none⟩
def Vat.reset : Vat := ⟨[], [], [], [], [], []⟩
def Flt.reset : Flt := ⟨[], [], false, none, false, false, false, none, none⟩
def InMon.reset : InMon :=
  ⟨0, false, false, false, 0, 0, none, 0, 0, 0, none, 0, 0, none, 0, 0, false, (none, 0, 0), (none, 0, 0), false, false, 0,
   false, [], 0, false,
   false, false, false, false, 0, [], none, 0, [], none, [], none, false⟩
def Sel.reset : Sel := ⟨[], [], [], [], false, none, false, false, 0, 0, 0, 0, 0, [], [], 0, 0, 0, 0, false, none⟩
def HistAcc.reset : HistAcc := ⟨0, 0, true, false, 0, 0, 0⟩
def Loop.reset : Loop :=
  ⟨0, 0, false, false, false, false, 0, 0, 0, none, none, 0, 0, 0, 0, none, none, 0, 0, none, 0, 0, false, 0, 0, false, false, false,
   false, false, [], none, HistAcc.reset, none, 0, none, none⟩
def Slal.reset : Slal := ⟨0, none, false, false, false, none⟩
def Syn.reset : Syn := ⟨0, 0, 0, false, false, false, ⟨0, 0, 0, 0, 0⟩, false⟩
def OutCh.reset : OutCh := ⟨0, false, 2, 0, 0, false, 0, false, 0, 0, false, none, 0, none, ⟨.highZ, .highZ, 0, 0⟩⟩
def Ctx.reset : Ctx := ⟨0, 0, 1000 * 2 ^ 32, 1000 * 2 ^ 32, false, false, none, none, false, false⟩
def Evt.reset : Evt := ⟨0, 0, 0, none, false, false, false, 0, 0, false, false, false, 0, 0⟩
def Bin.reset : Bin := ⟨0, 0, 0, 0, 0, 0, 0, 0, 0⟩
def PiUnit.reset : PiUnit := ⟨false, 0, [], false, none⟩
/-- LT advances 1000 ns a tick at reset: TLOOP's word is 0 (R222). -/
def Time.reset : Time := ⟨0, 1000 * 2 ^ 48, 0, none, none, [], 1000 * 2 ^ 48, 0, [], []⟩

/-- The device: everything but the queue of waiting commands. -/
structure Dev where
  regs : Tbl Word             -- the register file, what differs from the reset values (R3, R5)
  acc : Tbl Word              -- accepted tick-synchronous words that wait for the boundary (R19)
  staged : Tbl Word           -- staged copies of RWL registers of the open change (R284)
  latch : Tbl Word            -- _HI and _FRAC parts latched by a read, by path and register (R8)
  half : Tbl Word             -- _LO and _FRAC parts staged by a write, by path and register (R8)
  tick : Nat                  -- TICK_COUNT (R28)
  tickOn : Bool               -- TICK_COUNT runs (boot step 4, R279)
  cycle : Nat                 -- system cycle of the present command (log entry 4)
  free : Nat                  -- the model's own counter of free values (log entry 2)
  fresh : Tbl Nat             -- bits of W1C registers set in absolute cycle `freshAt` (R5)
  freshAt : Nat
  outs : List Out             -- what the last command sent out (log entry 5)
  engs : Tbl Engine
  tasks : Tbl Task
  tins : Tbl TaskIn
  cluss : Tbl Cluster
  dispatchOn : Bool           -- dispatch has begun (R325) and has not ended (R312, R304)
  lastStart : Option Nat      -- tick of the last cluster start (R47)
  ageFrom : Nat               -- absolute cycle of the last change of ENG_AGE (R45)
  vat : Vat
  grants : Tbl Grant
  stagedTabs : Tbl StagedTable
  flt : Flt
  mons : Tbl InMon
  sels : Tbl Sel
  loops : Tbl Loop
  slals : Tbl Slal
  syns : Tbl Syn
  outcs : Tbl OutCh
  bankBad : Tbl Nat           -- ticks for which a bank's supply has differed (R179)
  supplyBad : Tbl Nat         -- ticks for which a supply has been outside its recommended range, by its index (R368)
  rrefs : Tbl RRef
  rwords : Tbl Int            -- words of received loop exports (R276)
  sensors : List (BitVec 16)  -- die sensors at the last boundary (R163)
  hot : Nat                   -- ticks for which a die sensor has read above 125 degrees (table Fault sources)
  xoHz : Nat                  -- f_XO in Hz (R326)
  time : Time
  ctxs : Tbl Ctx
  evts : Tbl Evt
  pi : PiUnit
  tdcs : Tbl TdcCh
  mss : Tbl MsSlot
  sts : Tbl StSlot
  trs : Tbl TraceRec
  frm : Frm
  kl : Kl
  ream : Ream
  boot : Boot
  host : HostIf
  test : Test
  base : Base                 -- what the base image's programs keep (R2)
  deriving DecidableEq, Repr, Inhabited

/-- Words that a register's copies take at reset where they differ: first index and words. -/
def resetWords (r : Reg) (l : List Nat) : List (Nat × Word) := l.zipIdx.map fun p => (r.key p.2, BitVec.ofNat 32 p.1)

/-- R85: VAT_POOL_CFG of pools 0-15, the FULL bases and sizes. -/
def poolReset : List Nat :=
  [(0, 2304), (2304, 256), (2560, 2048), (4608, 1024), (5632, 2048), (7680, 128), (7808, 1024), (8832, 2048),
   (10880, 5504), (0, 0), (0, 0), (0, 0), (0, 0), (0, 0), (0, 0), (0, 0)].map fun p => p.1 + 2 ^ 14 * p.2

/-- R289: REAM_RGN_CFG of regions 0-25: first sector, sectors, method; region 2 is protected, region 3 has 256 slots (log entry
38). -/
def regionReset : List Nat :=
  (([(0, 2, 0), (2, 4, 0), (6, 2, 1), (8, 16, 2), (24, 10, 0), (34, 8, 0), (42, 2, 1), (44, 10, 1), (54, 4, 0),
    (58, 32, 0)].zipIdx.map fun p =>
      p.1.1 + 2 ^ 8 * p.1.2.1 + 2 ^ 28 * p.1.2.2 + (if p.2 = 2 then 2 ^ 31 else 0) + (if p.2 = 3 then 2 ^ 27 else 0)) ++
    List.replicate 16 0)

/-- Table Fault sources: FLT_CLASS0-17, the default class of every source. -/
def classReset : List Nat :=
  [0x101A7F, 0, 0x51555, 0, 0x4545, 0, 0x510, 0, 0x495, 0, 1, 0, 0x405, 0, 0x155, 0, 0x115, 0]

/-- The register file at reset: what differs from a register's own reset value. -/
def regsReset : Tbl Word :=
  (resetWords R.VAT_POOL_CFG poolReset ++ resetWords R.REAM_RGN_CFG regionReset ++ resetWords R.FLT_CLASS classReset).foldl
    (fun t p => Tbl.set t p.1 p.2) []

/-- R334: the device after POWER, with RESET_N low; nothing has run, and a start begins at RESET_RELEASE. -/
def Dev.reset : Dev :=
  { regs := regsReset, acc := [], staged := [], latch := [], half := [], tick := 0, tickOn := false, cycle := 0, free := 0,
    fresh := [], freshAt := 0,
    outs := [], engs := [], tasks := [], tins := [], cluss := [], dispatchOn := false, lastStart := none, ageFrom := 0, vat := Vat.reset,
    grants := [], stagedTabs := [], flt := Flt.reset, mons := [], sels := [], loops := [], slals := [], syns := [],
    outcs := [], bankBad := [], supplyBad := [], rrefs := [], rwords := [], sensors := [], hot := 0, xoHz := 10000000, time := Time.reset, ctxs := [],
    evts := [], pi := PiUnit.reset, tdcs := [], mss := [], sts := [], trs := [], frm := Frm.reset, kl := Kl.reset,
    ream := Ream.reset, boot := Boot.reset, host := HostIf.reset, test := Test.reset, base := Base.reset }

/-- The machine: the device and the commands that wait, first in, first out. -/
structure State where
  dev : Dev
  pending : List Instr
  deriving DecidableEq, Repr, Inhabited

/-- R334: the machine right after reset: the device after POWER, and no command waits. -/
def State.reset : State := ⟨Dev.reset, []⟩

/-- No command stops the machine: what the spec calls a fault is an effect on the device's state. -/
inductive Fault where
  /-- Raised by nobody; safe. -/
  | unused
  deriving DecidableEq, Repr, Inhabited

/-- Why a command is refused by the model. -/
inductive Refusal where
  /-- Raised by an arm of `exec` that has no meaning, of which there is none; safe. -/
  | notModelled (mnemonic : String)
  deriving DecidableEq, Repr, Inhabited

end Sys2Proof.Machine
end

