-- ==== Sys2Proof/Machine/Ops.lean ====
section
/-! DEFINITION. The named operations over the register file, the memories and the sparse tables. -/

namespace Sys2Proof.Machine

/-- What a meaning answers. -/
abbrev StepOut := Host.Outcome State Fault Refusal

/-- A meaning acts on the device and leaves the queue; what the last command sent out is dropped first. -/
def State.run (s : State) (f : Dev → Dev) : StepOut := .next { s with dev := f { s.dev with outs := [] } }

/-! ## Byte memories in canonical form -/

/-- The byte at an address; an unlisted address reads the default. -/
def Memory.read (dflt : Byte) (m : Memory) (a : Nat) : Byte := Tbl.getD m a dflt

/-- One byte written; the default is not listed. -/
def Memory.write (dflt : Byte) (m : Memory) (a : Nat) (b : Byte) : Memory :=
  if b = dflt then Tbl.del m a else Tbl.set m a b

/-- n bytes from an address. -/
def Memory.readN (dflt : Byte) (m : Memory) (a n : Nat) : List Byte :=
  (List.range n).map fun i => m.read dflt (a + i)

/-- A little-endian number of n bytes (R4). -/
def Memory.readLe (dflt : Byte) (m : Memory) (a n : Nat) : Nat := ofLe (m.readN dflt a n)

/-- Bytes written from an address upward. -/
def Memory.writeN (dflt : Byte) : Memory → Nat → List Byte → Memory
  | m, _, [] => m
  | m, a, b :: r => Memory.writeN dflt (m.write dflt a b) (a + 1) r

/-! ## The register file -/

/-- The whole value in force of register n of a group. -/
def Dev.rd (d : Dev) (r : Reg) (n : Nat := 0) : Nat :=
  (Tbl.getD d.regs (r.key n) (BitVec.ofNat 32 r.reset)).toNat

/-- The whole value of register n put in force. -/
def Dev.wr (d : Dev) (r : Reg) (v : Nat) (n : Nat := 0) : Dev :=
  { d with regs := Tbl.set d.regs (r.key n) (BitVec.ofNat 32 v) }

/-- A field in force. -/
def Dev.get (d : Dev) (f : Fld) (n : Nat := 0) : Nat := bits (d.rd f.reg n) f.hi f.lo

/-- A one-bit field in force. -/
def Dev.flag (d : Dev) (f : Fld) (n : Nat := 0) : Bool := d.get f n != 0

/-- A field in force, read as signed. -/
def Dev.gets (d : Dev) (f : Fld) (n : Nat := 0) : Int := toSigned f.width (d.get f n)

/-- A field put in force by the hardware. -/
def Dev.put (d : Dev) (f : Fld) (v : Nat) (n : Nat := 0) : Dev :=
  d.wr f.reg (setBits (d.rd f.reg n) f.hi f.lo v) n

/-- A one-bit field put in force. -/
def Dev.putB (d : Dev) (f : Fld) (v : Bool) (n : Nat := 0) : Dev := d.put f (b2n v) n

/-- R387: a field's last accepted value (tick-synchronous and immediate fields). -/
def Dev.getA (d : Dev) (f : Fld) (n : Nat := 0) : Nat :=
  bits (Tbl.getD d.acc (f.reg.key n) (BitVec.ofNat 32 (d.rd f.reg n))).toNat f.hi f.lo

/-- R387, R284: the last accepted value of an RWL field, its staged copy during an open change. -/
def Dev.getS (d : Dev) (f : Fld) (n : Nat := 0) : Nat :=
  bits (Tbl.getD d.staged (f.reg.key n) (BitVec.ofNat 32 (d.rd f.reg n))).toNat f.hi f.lo

/-- A counter field that saturates. -/
def Dev.incSat (d : Dev) (f : Fld) (n : Nat := 0) (by' : Nat := 1) : Dev :=
  d.put f (min (d.get f n + by') (2 ^ f.width - 1)) n

/-- A counter field that wraps. -/
def Dev.incWrap (d : Dev) (f : Fld) (n : Nat := 0) (by' : Nat := 1) : Dev :=
  d.put f ((d.get f n + by') % 2 ^ f.width) n

/-- A 64-bit value in a _LO and _HI pair (R8). -/
def Dev.get64 (d : Dev) (lo hi : Fld) (n : Nat := 0) : Nat := d.get lo n + d.get hi n * 2 ^ lo.width

/-- A 64-bit value put in a _LO and _HI pair. -/
def Dev.put64 (d : Dev) (lo hi : Fld) (v : Nat) (n : Nat := 0) : Dev :=
  (d.put lo (v % 2 ^ lo.width) n).put hi (v / 2 ^ lo.width) n

/-- LOG ENTRY 78: the base image of R2 (image ID 0x0100, version 1.4, with the tables that the manual gives it) is in force
and dispatch has begun: its programs run. A replacement image is not bound by what the manual states for the base image. -/
def Dev.baseRuns (d : Dev) : Bool :=
  d.dispatchOn && d.boot.imageId == 0x0100 && d.boot.version == 0x0104 && d.boot.baseOk

/-! ## Free values and outputs -/

/-- LOG ENTRY 2: the next free value, read as a number. -/
def Dev.freeVal (d : Dev) : Nat := (Config.free64 d.free).toNat

/-- The free-value counter advanced. -/
def Dev.freeNext (d : Dev) : Dev := { d with free := d.free + 1 }

/-- LOG ENTRY 5: something leaves the device. -/
def Dev.emit (d : Dev) (o : Out) : Dev := { d with outs := d.outs ++ [o] }

/-! ## Sub-objects -/

/-- R366: the pins are in use: boot step 12 has taken effect and RESET_N is high. -/
def Dev.pinsLive (d : Dev) : Bool := d.boot.live && !d.boot.low

/-- R24: the recognised level of a static input, by its bit in `pinSeen`. -/
def Dev.pinHigh (d : Dev) (i : Nat) : Bool := d.boot.pinSeen.getLsbD i

/-- R24: a level of a static input is recognised. -/
def Dev.pinSee (d : Dev) (i : Nat) (v : Bool) : Dev :=
  { d with boot := { d.boot with pinSeen :=
      if v then d.boot.pinSeen ||| 1#8 <<< i else d.boot.pinSeen &&& ~~~(1#8 <<< i) } }

def Dev.eng (d : Dev) (e : Nat) : Engine := Tbl.getD d.engs e Engine.reset
def Dev.setEng (d : Dev) (e : Nat) (x : Engine) : Dev := { d with engs := Tbl.set d.engs e x }
def Dev.setTask (d : Dev) (t : Nat) (x : Task) : Dev := { d with tasks := Tbl.set d.tasks t x }
def Dev.tin (d : Dev) (i : Nat) : TaskIn := Tbl.getD d.tins i TaskIn.reset
def Dev.setTin (d : Dev) (i : Nat) (x : TaskIn) : Dev := { d with tins := Tbl.set d.tins i x }
def Dev.clus (d : Dev) (c : Nat) : Cluster := Tbl.getD d.cluss c Cluster.reset
def Dev.setClus (d : Dev) (c : Nat) (x : Cluster) : Dev := { d with cluss := Tbl.set d.cluss c x }

/-! ## Time -/

/-- TICK_COUNT[31:0]. -/
def Dev.tick32 (d : Dev) : Nat := d.tick % 2 ^ 32

/-- Absolute system cycle of the present command. -/
def Dev.absCycle (d : Dev) : Nat := d.tick * 1250 + d.cycle

/-- R35, R43: the task as of absolute cycle `now`, of declared class `cls`: one that has fallen due has been ready since then. -/
def Task.asOf (x : Task) (cls now : Nat) : Task :=
  match x.due with
  | none => x
  | some a =>
    if now < a then x
    else if x.ready then { x with due := none }
    else { x with ready := true, since := a, aged := a, eff := cls, promoted := false, due := none }

/-- A task as it stands at the present cycle. -/
def Dev.task (d : Dev) (t : Nat) : Task :=
  (Tbl.getD d.tasks t Task.reset).asOf (d.get F.ENG_TASK_CFG.CLASS t) d.absCycle

/-- R5: bits of a W1C register set in the present cycle, which a clearing write of that cycle leaves. -/
def Dev.justSet (d : Dev) (key : Nat) : Nat := if d.freshAt = d.absCycle then Tbl.getD d.fresh key 0 else 0

/-- R5: a set event of W1C bits is noted with its cycle. -/
def Dev.noteSet (d : Dev) (key mask : Nat) : Dev :=
  { d with fresh := Tbl.set (if d.freshAt = d.absCycle then d.fresh else []) key (d.justSet key ||| mask)
           freshAt := d.absCycle }

/-- R5: a W1C bit is set. -/
def Dev.setW1c (d : Dev) (f : Fld) (n : Nat := 0) : Dev := (d.put f 1 n).noteSet (f.reg.key n) (2 ^ f.lo)

/-- R5: what a write of `mask` leaves of a W1C register's word. -/
def Dev.w1cLeft (d : Dev) (r : Reg) (mask : Nat) (n : Nat := 0) : Nat :=
  let w := d.rd r n
  w - (w &&& mask &&& (2 ^ 32 - 1 - d.justSet (r.key n)))

/-- R29: a 32-bit tick deadline is due. -/
def Dev.dueTick (d : Dev) (dl : Nat) : Bool := wrapDiff 32 dl d.tick32 ≤ 0

/-- R29: a 32-bit deadline is accepted: 1 to 2^31 - 1 ticks ahead. -/
def Dev.deadlineOk (d : Dev) (dl : Nat) : Bool := 1 ≤ wrapDiff 32 dl d.tick32

/-- R29: an absolute tick is accepted. -/
def Dev.tickOk (d : Dev) (t : Nat) : Bool := d.tick + 1 ≤ t && t ≤ d.tick + 2 ^ 31 - 1

/-- R222: LT at a cycle of the tick, in units of 2^-48 ns. -/
def Dev.ltAt (d : Dev) (cyc : Nat) : Nat := d.time.lt + d.time.dlt * cyc / 1250

/-- LT at a cycle of the tick that lies `back` ticks before the present one, as far as it is kept, in units of 2^-48 ns. -/
def Dev.ltBack (d : Dev) (back cyc : Nat) : Nat :=
  match back with
  | 0 => d.ltAt cyc
  | n + 1 =>
    let (lt, dlt) := d.time.past.getD n (d.time.prev, d.time.dltPrev)
    lt + dlt * cyc / 1250

/-- LT of the present command in T96: nanoseconds and fraction of 2^-32 ns. -/
def Dev.t96 (d : Dev) : Nat := d.ltAt d.cycle / 2 ^ 16 % 2 ^ 96

/-- S32: the low 32 bits of LT's nanoseconds (R10). -/
def Dev.s32 (d : Dev) : Nat := d.t96 / 2 ^ 32 % 2 ^ 32

end Sys2Proof.Machine
end

