-- ==== Sys2Proof/Machine/Events.lean ====
section
/-! DEFINITION. Events to task inputs (R38-R42), tables in the Vat (R388), safe states of outputs (R184-R186). -/

namespace Sys2Proof.Machine

/-! ## Clusters and bound tasks -/

/-- R47, R42: the cluster is powered and initialised. -/
def Dev.clusterOn (d : Dev) (c : Nat) : Bool := bit (d.get F.ENG_CLUSTER_STAT.POWERED) c

/-- R42: a task is bound while its ENABLE is set. -/
def Dev.taskBound (d : Dev) (t : Nat) : Bool := d.flag F.ENG_TASK_CFG.ENABLE t

/-- The bound tasks of all engines: their slots are among the listed copies of ENG_TASK_CFG, which resets to 0. -/
def Dev.boundTasks (d : Dev) : List Nat :=
  (d.regs.filterMap fun e => if e.1 % copyStride = R.ENG_TASK_CFG.base then some (e.1 / copyStride) else none).filter d.taskBound

/-- The bound tasks of an engine that an input triggers. -/
def Dev.tasksOnInput (d : Dev) (e i : Nat) : List Nat :=
  (List.range 16).filterMap fun s =>
    if d.taskBound (16 * e + s) && d.get F.ENG_TASK_CFG.TRIGGER (16 * e + s) == i
    then some (16 * e + s) else none

/-- R40, R43: a task becomes ready, or is marked to become ready when its dispatch ends. -/
def Dev.makeReady (d : Dev) (t : Nat) : Dev :=
  let x := d.task t
  if (d.eng (t / 16)).run = some (t % 16) then d.setTask t { x with again := true }
  else if x.ready then d
  else d.setTask t { x with
    ready := true, since := d.absCycle, aged := d.absCycle,
    eff := d.get F.ENG_TASK_CFG.CLASS t, promoted := false }

/-- R38: the 8-byte FIFO entry of an event. -/
def Dev.fifoEntry (d : Dev) (source : Nat) : DWord :=
  BitVec.ofNat 64 (source % 4096 + d.tick % 2 ^ 16 * 2 ^ 16 + d.s32 * 2 ^ 32)

/-- R39: an entry put among those of its cycle, in ascending source number. -/
def entryInsert (entry : DWord) : List DWord → List DWord
  | [] => [entry]
  | v :: r => if entry.toNat % 4096 < v.toNat % 4096 then entry :: v :: r else v :: entryInsert entry r

/-- R38, R39: one event of absolute cycle `now` counted and, if the FIFO has room, stored; of the events of one cycle
those of the lowest sources find room. -/
def TaskIn.push (x : TaskIn) (entry : DWord) (now : Nat) : TaskIn :=
  let k := if x.last = now then min x.same x.fifo.length else 0
  let old := x.fifo.take (x.fifo.length - k)
  let all := old ++ entryInsert entry (x.fifo.drop (x.fifo.length - k))
  { count := min 255 (x.count + 1), fifo := all.take 16, ovf := x.ovf || decide (16 < all.length)
    last := now, same := (all.take 16).length - old.length }

/-- R38, R42: an event reaches a task input. R41: over a cancel of the same cycle it does not prevail: the task cancelled stays
so, and its input empty. -/
def Dev.taskEvent (d : Dev) (e i source : Nat) : Dev :=
  let ts := d.tasksOnInput e i
  let live := ts.filter fun t => (d.task t).cancelAt != some d.absCycle
  if ts.isEmpty || !d.clusterOn (e / 32) then d.incWrap F.ENG_ORPHAN.COUNT
  else
    let d := if live.length < ts.length then d
      else d.setTin (16 * e + i) ((d.tin (16 * e + i)).push (d.fifoEntry source) d.absCycle)
    live.foldl Dev.makeReady d

/-- R38: a hardware event source raises its event, through its route register. -/
def Dev.event (d : Dev) (n : Nat) : Dev :=
  if d.flag F.ENG_ROUTE.ENABLE n
  then d.taskEvent (d.get F.ENG_ROUTE.ENGINE n) (d.get F.ENG_ROUTE.INPUT n) n
  else d

/-! ## Raw Vat access and tables -/

/-- n bytes of the Vat as a number, error state aside. -/
def Dev.vraw (d : Dev) (a n : Nat) : Nat := Memory.readLe 0 d.vat.mem a n

/-- n bytes of the Vat. -/
def Dev.vbytes (d : Dev) (a n : Nat) : List Byte := Memory.readN 0 d.vat.mem a n

/-- A word that the range touches is uncorrectable or poisoned. -/
def Dev.vbad (d : Dev) (a n : Nat) : Bool :=
  d.vat.ue.any fun w => decide (8 * w < a + n ∧ a < 8 * w + 8)

/-- R388: the directory entry of a table: offset and length of the copy in force. -/
def Dev.dirEntry (d : Dev) (n : Nat) : Nat × Nat :=
  let a := d.get F.TBL_DIR_BASE.GRANULE * 4096 + 8 * n
  (d.vraw a 4, d.vraw (a + 4) 4)

/-- R388: the bytes of a table in force, none if it does not exist. -/
def Dev.table (d : Dev) (n : Nat) : Option (List Byte) :=
  let (o, l) := d.dirEntry n
  if o = 0 ∧ l = 0 then none else some (d.vbytes o l)

/-- KIND of a table's bytes (R68, R70, R185, R188, R252). -/
def tableKind (t : List Byte) : Nat := leAt t 0 2

/-- R185, R100: a fault source is assigned to an output by the safe-state map in force. -/
def Dev.safeAssigned (d : Dev) (source k : Nat) : Bool :=
  let n := d.get F.OUT_SAFEMAP.TABLE
  let (o, _) := d.dirEntry n
  match d.table n with
  | none => false
  | some t =>
    let rows := List.range (leAt t 2 2)
    if rows.any (fun j => d.vbad (o + 8 + 16 * j) 16) then true
    else
      let hit := fun (s : Nat) => rows.find? fun j => leAt t (8 + 16 * j) 2 == s
      match (hit source).or (hit 0xFFFF) with
      | some j => bit (leAt t (12 + 16 * j + k / 8) 1) (k % 8)
      | none => false

/-! ## Outputs: what a gate and a source should be -/

def Dev.outc (d : Dev) (k : Nat) : OutCh := Tbl.getD d.outcs k OutCh.reset
def Dev.setOutc (d : Dev) (k : Nat) (x : OutCh) : Dev := { d with outcs := Tbl.set d.outcs k x }
def Dev.syn (d : Dev) (n : Nat) : Syn := Tbl.getD d.syns n Syn.reset
def Dev.setSyn (d : Dev) (n : Nat) (x : Syn) : Dev := { d with syns := Tbl.set d.syns n x }

/-- The synthesizer is in a hop (R167). -/
def Dev.inHop (d : Dev) (n : Nat) : Bool :=
  d.get F.SYN_STAT.SEARCH n == 1 || d.get F.SYN_STAT.SEARCH n == 2

/-- R174, R177, R186: the synthesizer that should feed an output's divider: in a safe state a change of SRC is recorded. -/
def Dev.srcWant (d : Dev) (k : Nat) : Nat :=
  if d.flag F.OUT_STAT.SAFE k then (d.outc k).safeSrc else d.get F.OUT_CFG.SRC k

/-- R184: the pins should carry the divided XO. -/
def Dev.xoWant (d : Dev) (k : Nat) : Bool := d.flag F.OUT_STAT.SAFE k && d.get F.OUT_STAT.SSTATE k == 2

/-- R335: RUN of an output as it is in force: an image restart holds it until its step 12. -/
def Dev.outRun (d : Dev) (k : Nat) : Bool :=
  match d.boot.runs with
  | some m => bit m k
  | none => d.flag F.OUT_CFG.RUN k

/-- R168, R176, R177, R181, R184, R324, R370: the gate should be open. -/
def Dev.gateWant (d : Dev) (k : Nat) : Bool :=
  let x := d.outc k
  let run := if d.flag F.OUT_STAT.SAFE k then x.safeRun else d.outRun k
  if d.boot.outsHeld || d.get F.OUT_CFG.FORMAT k == 0 || !run then false
  else if d.xoWant k then x.xo
  else if d.flag F.OUT_STAT.SAFE k && d.get F.OUT_STAT.SSTATE k == 0 then false
  else !x.xo && d.flag F.SYN_STAT.LOCK x.src &&
    !(d.flag F.OUT_DPH_CFG.ENABLE k && d.flag F.OUT_DPH_CFG.HOLD_START k && !x.aligned)

/-- R184: an output enters its safe state; what its gate does follows at its next low phase. -/
def Dev.safeEnter (d : Dev) (k : Nat) : Dev :=
  if d.flag F.OUT_STAT.SAFE k then d else
  let x := d.outc k
  let st := d.get F.OUT_CFG.SAFE k
  let d := ((d.put F.OUT_STAT.SAFE 1 k).put F.OUT_STAT.SSTATE st k).setOutc k
    { x with safeRun := d.flag F.OUT_CFG.RUN k, safeSrc := x.src }
  if st = 1 then d.put F.SYN_STAT.HOLD 1 x.src else d

/-- R184: every output that a SAFE source assigns enters its safe state. -/
def Dev.safeEnterFor (d : Dev) (source : Nat) : Dev :=
  (List.range 72).foldl (fun d k => if d.safeAssigned source k then d.safeEnter k else d) d

end Sys2Proof.Machine
end

