-- ==== Sys2Proof/Machine/TraceOps.lean ====
section
/-! DEFINITION. The trace recorders as the other blocks meet them: records that enter a recorder's buffer and
triggers (R214-R219). -/

namespace Sys2Proof.Machine

def Dev.tr (d : Dev) (r : Nat) : TraceRec := Tbl.getD d.trs r TraceRec.reset
def Dev.setTr (d : Dev) (r : Nat) (x : TraceRec) : Dev := { d with trs := Tbl.set d.trs r x }

/-- The state code of a recorder: 0 IDLE, 1 PRE, 2 POST, 3 DONE, 4 REARM. -/
def Dev.trState (d : Dev) (r : Nat) : Nat := d.get F.TDC_TR_STAT.STATE r

/-- R216: entries of the capture ring. -/
def Dev.trRing (d : Dev) (r : Nat) : Nat := d.get F.TDC_TR_PRE.COUNT r + d.get F.TDC_TR_POST.COUNT r

/-- R215, R217, R219: a record that the stream produces enters the 64-record buffer, or is lost; one produced after the
trigger's cycle is a post-trigger record. In POST no more than POST of those enter. -/
def Dev.trProduce (d : Dev) (r : Nat) (bytes : List Byte) : Dev :=
  let x := d.tr r
  let st := d.trState r
  let post := st == 2 && x.trigAt != some d.absCycle
  let queued := (x.fifo.filter fun e => e.1).length
  if st != 1 && st != 2 || post && !decide (x.post + queued < d.get F.TDC_TR_POST.COUNT r) then d
  else if 64 ≤ x.fifo.length then d.setTr r { x with lost := x.lost + 1 }
  else d.setTr r { x with fifo := x.fifo ++ [(post, bytes)] }

/-- R214: a record of a stream goes to every recorder that copies it. -/
def Dev.trStream (d : Dev) (kind src : Nat) (bytes : List Byte) : Dev :=
  (List.range 4).foldl (fun d r =>
    if d.get F.TDC_TR_CFG.SRC_KIND r == kind && d.get F.TDC_TR_CFG.SRC r == src then d.trProduce r bytes else d) d

/-- Vat offset of a recorder's buffer. -/
def Dev.trBase (d : Dev) (r : Nat) : Nat := d.get F.TDC_TR_BUF.GRANULE r * 4096

/-- R217: PRE begins with an empty ring. -/
def Dev.trPre (d : Dev) (r : Nat) : Dev :=
  (d.put F.TDC_TR_STAT.STATE 1 r).setTr r
    { d.tr r with
      next := 0, pre := 0, post := 0, lost := 0, fifo := [], rearmEnd := none, queuedRun := false
      trigAt := none, abortAt := none }

/-- R217: a trigger of code `src` acts: the recorder enters POST. -/
def Dev.trPost (d : Dev) (r src tick s32 : Nat) (queued : Bool) : Dev :=
  (d.put F.TDC_TR_STAT.STATE 2 r).setTr r
    { d.tr r with
      trigSrc := src, trigTick := tick, trigS32 := s32, queuedRun := queued
      trigAt := if queued then none else some d.absCycle }

/-- R218: a trigger that is not captured is queued, or counts in MISSED; the second answer says that it did. -/
def Dev.trMiss (d : Dev) (r src : Nat) : Dev × Bool :=
  let x := d.tr r
  if d.flag F.TDC_TR_CFG.QUEUE r && x.queue.isNone then
    ((d.put F.TDC_TR_STAT.QUEUED 1 r).setTr r { x with queue := some (d.tick32, d.s32, src), queueAt := some d.absCycle }, false)
  else (d.incSat F.TDC_TR_STAT.MISSED r, true)

/-- R217, R218: a trigger reaches a recorder. One that finds it IDLE, or DONE after its REARM, has no effect. R220: one in the
cycle of an abort counts in MISSED. -/
def Dev.trTrigger (d : Dev) (r src : Nat) : Dev × Bool :=
  match d.trState r with
  | 0 => if (d.tr r).abortAt = some d.absCycle then (d.incSat F.TDC_TR_STAT.MISSED r, true) else (d, false)
  | 1 => (d.trPost r src d.tick32 d.s32 false, false)
  | 3 => if (d.tr r).rearmEnd.isSome then d.trMiss r src else (d, false)
  | _ => d.trMiss r src

/-- R215: a trigger source of code `trig` and INDEX `ix` reaches the recorders that name it; the recorders that
miss it are listed. -/
def Dev.trSource (d : Dev) (trig ix : Nat) : Dev × List Nat :=
  (List.range 4).foldl (fun (p : Dev × List Nat) r =>
    if p.1.get F.TDC_TR_CFG.TRIG r == trig && p.1.get F.TDC_TR_CFG.INDEX r == ix then
      let (d, m) := p.1.trTrigger r (trig + 8 * ix)
      (d, if m then p.2 ++ [r] else p.2)
    else p) (d, [])

end Sys2Proof.Machine
end

