-- ==== Sys2Proof/Machine/FaultOps.lean ====
section
/-! DEFINITION. Fault detection and reaction (R307-R321) and the host interrupt (R314, R353), as shared operations. -/

namespace Sys2Proof.Machine

/-- R307: the sources of the level kind. -/
def levelSources : List Nat := [0, 1, 3, 4, 5, 131, 132, 133, 134, 193, 226, 227, 258, 263]

/-- R309, R310: the class in force of a source. -/
def Dev.faultClass (d : Dev) (s : Nat) : Nat := d.rd R.FLT_CLASS (s / 16) / 4 ^ (s % 16) % 4

/-- STATUS of a source. -/
def Dev.faultStatus (d : Dev) (s : Nat) : Bool := bit (d.rd R.FLT_STATUS (s / 32)) (s % 32)

/-- The force bit of a source. -/
def Dev.faultForced (d : Dev) (s : Nat) : Bool := bit (d.rd R.FLT_FORCE (s / 32)) (s % 32)

/-- A level condition of the source holds. -/
def Dev.faultHeld (d : Dev) (s : Nat) : Bool := d.flt.held.any fun h => h.1 == s

/-- R308, R319: a source is active. -/
def Dev.faultActive (d : Dev) (s : Nat) : Bool :=
  d.faultForced s || (if levelSources.contains s then d.faultHeld s else d.faultStatus s)

/-- R312: the device is in STOPPED. -/
def Dev.stopped (d : Dev) : Bool := d.flag F.FLT_STATE.STOPPED

/-- R314: a source of class ALERT or higher has STATUS set and is enabled for the FAULT cause. -/
def Dev.faultCause (d : Dev) : Bool :=
  (List.range 9).any fun g =>
    let w := d.rd R.FLT_STATUS g &&& d.rd R.HOST_FLT_MASK g
    w != 0 && (List.range 32).any fun i => bit w i && d.faultClass (32 * g + i) ≥ 1

/-- The interrupt causes that are set and enabled (R353). -/
def Dev.irqEnabled (d : Dev) : Bool :=
  (d.rd R.HOST_IRQ_CAUSE &&& d.get F.HOST_IRQ_MASK.ENABLE) != 0

/-! ## MSI-X (R341, R342). LOG ENTRY 69: entries, masks and pending bits as PCIe lays them out -/

/-- What byte x of a BAR2 reads at reset: the mask bit of each vector's control is set. -/
def bar2Reset (x : Nat) : Byte := if x < 2048 ∧ x % 16 = 12 then 1 else 0

/-- Byte x of function f's BAR2. -/
def Dev.bar2 (d : Dev) (f x : Nat) : Byte := d.host.msix.read 0 (16384 * f + x) ^^^ bar2Reset x

def Dev.bar2Put (d : Dev) (f x : Nat) (b : Byte) : Dev :=
  { d with host := { d.host with msix := d.host.msix.write 0 (16384 * f + x) (b ^^^ bar2Reset x) } }

/-- The pending bit of a vector, in the PBA at 0x2000. -/
def Dev.msixPending (d : Dev) (f v : Nat) : Bool := (d.bar2 f (0x2000 + v / 8)).getLsbD (v % 8)

def Dev.msixMark (d : Dev) (f v : Nat) (on : Bool) : Dev :=
  let b := d.bar2 f (0x2000 + v / 8)
  let m := BitVec.ofNat 8 (2 ^ (v % 8))
  d.bar2Put f (0x2000 + v / 8) (if on then b ||| m else b &&& ~~~m)

/-- R348: a vector is masked: by D3hot, by its function's mask or by its own. -/
def Dev.msixMasked (d : Dev) (f v : Nat) : Bool :=
  d.host.d3.contains f || d.host.msixMask.contains f || (d.bar2 f (16 * v + 12)).getLsbD 0

/-- The message of a vector leaves, with its entry's address and data. -/
def Dev.msixEmit (d : Dev) (f v : Nat) : Dev :=
  let l := (List.range 12).map fun i => d.bar2 f (16 * v + i)
  d.emit (.msix f v (leAt l 0 8) (leAt l 8 4))

/-- R342, R348: a function sends a message: a masked vector's bit becomes pending, and without MSI-X or L0 nothing leaves. -/
def Dev.msixSend (d : Dev) (f v : Nat) : Dev :=
  if !d.host.msixOn.contains f || !d.flag F.HOST_PCIE_STAT.L0 || decide (d.get F.HOST_PCIE_STAT.NUMVF < f) then d
  else if d.msixMasked f v then d.msixMark f v true else d.msixEmit f v

/-- Pending vectors of a function that no mask holds any more send their messages. -/
def Dev.msixFlush (d : Dev) (f : Nat) : Dev :=
  (List.range 128).foldl (fun d v => if d.msixPending f v then (d.msixMark f v false).msixSend f v else d) d

/-- R314, R353: FAULT follows its sources, INT_N the enabled causes; PF vector 0 sends a message when the
enabled causes go from none to at least one. -/
def Dev.irqRefresh (d : Dev) : Dev :=
  let d := d.putB F.HOST_IRQ_CAUSE.FAULT d.faultCause
  let on := d.irqEnabled
  let d := if on && !d.flt.irq then d.msixSend 0 0 else d
  { d with flt := { d.flt with irq := on } }

/-- R353, R366: INT_N is driven low, once the pins are in use. -/
def Dev.intLow (d : Dev) : Bool := d.flt.irq && d.pinsLive

/-- An interrupt cause is set (R353). -/
def Dev.irqSet (d : Dev) (f : Fld) : Dev := (d.setW1c f).irqRefresh

/-- The cycle of a detection, where TICK_COUNT gives it one. -/
def Dev.cycleKey (d : Dev) : Option Nat := if d.tickOn then some d.absCycle else none

/-- R316: the device entered STOPPED in the present cycle. -/
def Dev.stopsNow (d : Dev) : Bool := d.stopped && d.flt.stopAt.isSome && d.flt.stopAt == d.cycleKey

/-- R317: an entry goes behind the newest entries, given newest first, but before those of its own cycle with a higher source. -/
def logBehind (e : LogEntry) : List LogEntry → List LogEntry
  | [] => [e]
  | x :: r => if x.cyc.isSome && x.cyc == e.cyc && decide (e.source < x.source) then x :: logBehind e r else e :: x :: r

/-- R317: an entry enters the queue: in order of collection, in ascending source number within a cycle. -/
def logInsert (l : List LogEntry) (e : LogEntry) : List LogEntry := (logBehind e l.reverse).reverse

/-- R312: the newest entry without STOPPED is dropped. -/
def logRoom (l : List LogEntry) : List LogEntry := (l.reverse.eraseP fun x => !bit x.flags 2).reverse

/-- R312, R315-R317: a detection of a source whose STATUS was clear queues a log entry. After the cycle in which the device entered
STOPPED nothing is logged. -/
def Dev.logQueue (d : Dev) (e : LogEntry) : Dev :=
  if d.flt.saveBegun ∨ d.flt.stopLogged ∨ (d.stopped ∧ !d.stopsNow) then d
  else if d.flt.log.length < 64 then
    let e := if d.flt.overflow then { e with flags := setBits e.flags 1 1 1 } else e
    let d := { d with flt := { d.flt with log := logInsert d.flt.log e, overflow := false } }
    d.put F.FLT_LOG_STAT.LEVEL d.flt.log.length
  else if bit e.flags 2 then
    -- the newest entry is dropped to make room, and the STOP entry carries OVERFLOW
    let e := { e with flags := setBits e.flags 1 1 1 }
    let d := { d with flt := { d.flt with log := logInsert (logRoom d.flt.log) e, overflow := false } }
    (d.put F.FLT_LOG_STAT.LEVEL d.flt.log.length).incSat F.FLT_LOG_STAT.DROPPED
  else ({ d with flt := { d.flt with overflow := true } }).incSat F.FLT_LOG_STAT.DROPPED

/-- R318: FAULT_N goes low for PULSE ticks; R366: the pin does so once the pins are in use. -/
def Dev.faultPulse (d : Dev) : Dev :=
  let d := if d.pinsLive then d.put F.FLT_PIN.LOW 1 else d
  { d with flt := { d.flt with pulseEnd := some (d.tick + d.get F.FLT_PIN.PULSE) } }

/-- R312: the frame ports stop at once and discard their frames. -/
def Dev.framesStop (d : Dev) : Dev :=
  let d := (List.range 8).foldl (fun d p => d.put F.FRM_PORT_STAT.STATE 0 p) d
  { d with frm := { d.frm with allocs := [], txs := [], two := [], reads := [], handed := [] } }

/-- R312: a STOP source puts the device in STOPPED: every output enters its safe state, FAULT_N stays low. -/
def Dev.enterStopped (d : Dev) : Dev :=
  let d := ((d.put F.FLT_STATE.STOPPED 1).put F.FLT_PIN.LOW 1).framesStop
  let d := { d with flt := { d.flt with stopAt := if d.stopped then d.flt.stopAt else d.cycleKey } }
  (List.range 72).foldl (fun d k => d.safeEnter k) d

/-! ## FAULT ports (R240) -/

def Dev.evt (d : Dev) (p : Nat) : Evt := Tbl.getD d.evts p Evt.reset
def Dev.setEvt (d : Dev) (p : Nat) (x : Evt) : Dev := { d with evts := Tbl.set d.evts p x }

/-- LT of the present cycle in units of 10 ps. -/
def Dev.lt10ps (d : Dev) : Int := roundDiv (100 * d.ltAt d.cycle) (2 ^ 48)

/-- The pad of an event port moves to a level. -/
def Dev.evtDrive (d : Dev) (p : Nat) (lvl : Bool) (at' : Int) : Dev :=
  if (d.evt p).level = lvl then d else (d.setEvt p { d.evt p with level := lvl }).emit (.edge p lvl at')

/-- R234: the active level. -/
def Dev.activeLevel (d : Dev) (p : Nat) : Bool := !d.flag F.EVT_CFG.POL p

/-- R240: the mirrored fault is active. -/
def Dev.mirrored (d : Dev) (s : Nat) : Bool :=
  if s < 288 then d.faultActive s
  else (List.range 288).any fun i => d.faultActive i && d.faultClass i == (if s = 288 then 3 else if s = 289 then 2 else 1)

/-- R240: FAULT ports follow their sources. -/
def Dev.evtFaults (d : Dev) : Dev :=
  (List.range 16).foldl (fun d p =>
    if (d.evt p).func = 6 then
      d.evtDrive p (if d.mirrored (d.get F.EVT_AUX.FAULT p) then d.activeLevel p else !d.activeLevel p) d.lt10ps
    else d) d

/-! ## Detection -/

/-- R320: FIRST takes the first source detected since FIRST_VALID was cleared, the lowest of those of one cycle. -/
def Dev.firstNote (d : Dev) (s : Nat) : Dev :=
  if !d.flag F.FLT_STATE.FIRST_VALID then
    let d := (d.setW1c F.FLT_STATE.FIRST_VALID).put F.FLT_STATE.FIRST s
    { d with flt := { d.flt with firstAt := d.cycleKey } }
  else if d.flt.firstAt.isSome ∧ d.flt.firstAt = d.cycleKey ∧ s < d.get F.FLT_STATE.FIRST then d.put F.FLT_STATE.FIRST s
  else d

/-- R308, R312, R314, R315, R318, R320: one detection of a source, without the triggers that it gives. -/
def Dev.detectOne (d : Dev) (s inst detail : Nat) (forced : Bool) (wasActive : Bool) : Dev :=
  let g := s / 32
  let had := d.faultStatus s
  let cls := d.faultClass s
  let d := (d.wr R.FLT_STATUS (d.rd R.FLT_STATUS g ||| 2 ^ (s % 32)) g).noteSet (R.FLT_STATUS.key g) (2 ^ (s % 32))
  let d := (d.incSat F.FLT_SRC_INFO.COUNT s).put F.FLT_SRC_INFO.INSTANCE inst s
  let d := d.wr R.FLT_SRC_DETAIL detail s
  let d := d.firstNote s
  let stopping := cls = 3 && (!d.stopped || d.stopsNow)
  let flags := b2n forced + 4 * b2n stopping
  let d := if had then d else d.logQueue ⟨d.tick % 2 ^ 48, s, cls, flags, inst, detail, d.cycleKey⟩
  let d := if bit (d.get F.FLT_PIN.CLASSES) cls then d.faultPulse else d
  let d := if cls = 3 then d.enterStopped else if cls = 2 then d.safeEnterFor s else d
  let d := if wasActive then d else d.event (0x280 + g)
  d.irqRefresh.evtFaults

/-- R218: a recorder missed a trigger: TR_MISSED, which may itself be a recorder's trigger. -/
def Dev.trMissed (d : Dev) (rs : List Nat) : Dev :=
  rs.foldl (fun d r =>
    let was := d.faultActive 165
    let d := d.detectOne 165 r 0 false was
    if was then d else (d.trSource 3 165).1) d

/-- R215: a trigger source acts, and what misses it is raised. -/
def Dev.trHit (d : Dev) (trig ix : Nat) : Dev :=
  let (d, missed) := d.trSource trig ix
  d.trMissed missed

/-- R97: an uncorrectable read is counted, and recorded with its ORIGIN. -/
def Dev.ueNote (d : Dev) (w origin : Nat) : Dev :=
  ((((d.incSat F.VAT_ECC_UE.COUNT).setW1c F.VAT_ECC_ADDR.VALID).put F.VAT_ECC_ADDR.ORIGIN origin).put F.VAT_ECC_ADDR.WORD w)

/-- R308, R215: one detection and the trigger that it gives. -/
def Dev.detectHit (d : Dev) (s inst detail : Nat) (forced : Bool) (wasActive : Bool) : Dev :=
  let d := d.detectOne s inst detail forced wasActive
  if wasActive then d else d.trHit 3 s

/-- R97, R100, R185: the fault block reads the rows of the safe-state map: correctable words are counted, poisoned ones
recorded. DESIGN CHOICE (log entry 97): the detections of VAT_ECC_UNCORR and VAT_ECC_CORR record no second read. -/
def Dev.mapTouch (d : Dev) : Dev :=
  let n := d.get F.OUT_SAFEMAP.TABLE
  match d.table n with
  | none => d
  | some t =>
    let o := (d.dirEntry n).1 + 8
    let met := fun (w : Nat) => decide (8 * w < o + 16 * leAt t 2 2 ∧ o < 8 * w + 8)
    let d := (d.vat.ue.filter met).foldl (fun d w => (d.ueNote w 4).detectHit 64 0 0 false (d.faultActive 64)) d
    (d.vat.ce.filter fun w => met w && !d.vat.ue.contains w).foldl
      (fun d _ => (d.incSat F.VAT_ECC_CE.COUNT).detectHit 66 0 0 false (d.faultActive 66)) d

/-- R308: one detection of a source; one of class SAFE reads the safe-state map (R100, R185). -/
def Dev.detect (d : Dev) (s inst detail : Nat) (forced : Bool) (wasActive : Bool) : Dev :=
  let d := if d.faultClass s = 2 ∧ s ≠ 64 ∧ s ≠ 66 then d.mapTouch else d
  d.detectHit s inst detail forced wasActive

/-- Table Fault sources: the sources whose instance it names. -/
def instanceSources : List Nat := [32, 69, 70, 96, 98, 128, 131, 133, 134, 160, 163, 164, 165, 192, 197, 224, 260]

/-- Table Fault sources, R308: the sources whose detail word it names. -/
def detailSources : List Nat := [4, 7, 8, 228, 256] ++ (List.range 10).map (· + 32)

/-- R308: the instance of a source is 0 unless the table names it. -/
def faultInst (s inst : Nat) : Nat := if instanceSources.contains s then inst else 0

/-- R308: the detail word of a source is 0 unless the table names it. -/
def faultDetail (s detail : Nat) : Nat := if detailSources.contains s then detail else 0

/-- An event source is detected (R308). -/
def Dev.fault (d : Dev) (s : Nat) (inst : Nat := 0) (detail : Nat := 0) : Dev :=
  d.detect s (faultInst s inst) (faultDetail s detail) false (d.faultActive s)

/-- R308: a level condition begins to hold; detected only when the source had none. -/
def Dev.levelOn (d : Dev) (s : Nat) (inst : Nat := 0) (detail : Nat := 0) : Dev :=
  if d.flt.held.contains (s, inst) then d else
  let was := d.faultActive s
  let had := d.faultHeld s
  let d := { d with flt := { d.flt with held := d.flt.held ++ [(s, inst)] } }
  if had then d else d.detect s (faultInst s inst) (faultDetail s detail) false was

/-- R308: a level condition ceases to hold. -/
def Dev.levelOff (d : Dev) (s : Nat) (inst : Nat := 0) : Dev :=
  { d with flt := { d.flt with held := d.flt.held.filter fun h => h != (s, inst) } }

/-- A level condition follows a Boolean. -/
def Dev.levelSet (d : Dev) (s inst : Nat) (on : Bool) : Dev :=
  if on then d.levelOn s inst else d.levelOff s inst

/-- R308: STATUS of a source whose level condition holds cannot be cleared; R5: nor one set in the same cycle. -/
def Dev.clearStatus (d : Dev) (g mask : Nat) : Dev :=
  let keep := (List.range 32).foldl
    (fun m i => if levelSources.contains (32 * g + i) && d.faultHeld (32 * g + i) then m ||| 2 ^ i else m) 0
  let w := d.rd R.FLT_STATUS g
  (d.wr R.FLT_STATUS (d.w1cLeft R.FLT_STATUS mask g ||| (w &&& keep)) g).irqRefresh

/-- R319: the force bits of a group are written; a rising bit detects its source once. -/
def Dev.forceWrite (d : Dev) (g w : Nat) : Dev :=
  let old := d.rd R.FLT_FORCE g
  let rising := (List.range 32).filter fun i => bit w i && !bit old i
  let was := rising.map fun i => (i, d.faultActive (32 * g + i))
  let d := d.wr R.FLT_FORCE w g
  was.foldl (fun d p => d.detect (32 * g + p.1) 0xFFFF 0 true p.2) d

/-- R320: groups active in a class, one bit a group. -/
def Dev.groupsActive (d : Dev) (cls : Nat) : Nat :=
  (List.range 9).foldl (fun m g =>
    if (List.range 32).any fun i => d.faultActive (32 * g + i) && d.faultClass (32 * g + i) == cls
    then m ||| 2 ^ g else m) 0

/-- R186: an active SAFE (or STOP) source assigns the output. -/
def Dev.safeNeeded (d : Dev) (k : Nat) : Bool :=
  d.stopped || (List.range 288).any fun s =>
    d.faultActive s && d.faultClass s == 2 && d.safeAssigned s k

/-! ## Refused writes (R339) -/

/-- R339: the reasons of a refused write, in the order in which the first that applies is recorded. -/
inductive Reason where
  | reserved | size | access | locked | range | combination | state
  deriving DecidableEq, Repr, Inhabited

/-- R339: the code of a reason. -/
def Reason.code : Reason → Nat
  | .reserved => 1 | .range => 2 | .combination => 3 | .locked => 4 | .access => 5 | .size => 6 | .state => 7

/-- The reason of a code. -/
def Reason.ofCode : Nat → Reason
  | 1 => .reserved | 2 => .range | 3 => .combination | 4 => .locked | 5 => .access | 6 => .size | _ => .state

/-- R339: a write is refused: counted, recorded with offset, path and reason, raised as WRITE_REFUSED. -/
def Dev.refuse (d : Dev) (path off : Nat) (r : Reason) : Dev :=
  let d := (d.incSat F.HOST_WERR_CNT.COUNT).put F.HOST_WERR_ADDR.OFFSET off
  let d := (d.put F.HOST_WERR_SRC.REASON r.code).put F.HOST_WERR_SRC.PATH path
  (d.fault 7 0 off).irqSet F.HOST_IRQ_CAUSE.WERR

/-- R339: the reason for which a command `f` refuses itself, if it does. -/
def Dev.refusalOf (d : Dev) (f : Dev → Dev) : Option Reason :=
  let e := f (d.put F.HOST_WERR_CNT.COUNT 0)
  if e.get F.HOST_WERR_CNT.COUNT = 0 then none else some (Reason.ofCode (e.get F.HOST_WERR_SRC.REASON))

end Sys2Proof.Machine
end

