-- ==== Sys2Proof/Machine/Vat.lean ====
section
/-! DEFINITION. The Vat: error correction and poison (R97-R100), pools (R86), queues (R88-R91). -/

namespace Sys2Proof.Machine

/-! ## Words with errors -/

/-- The double words that n bytes from a touch. -/
def wordsOf (a n : Nat) : List Nat :=
  if n = 0 then [] else (List.range ((a + n - 1) / 8 + 1 - a / 8)).map (· + a / 8)

/-- R97: an uncorrectable read is counted and recorded with its ORIGIN; R99: VAT_ECC_UNCORR is raised. -/
def Dev.ueRecord (d : Dev) (w origin : Nat) : Dev := (d.ueNote w origin).fault 64

/-- R98: the word is written back with the poison pattern by a read-modify-write of a narrower access. -/
def Dev.poisonKept (d : Dev) : Dev := (d.incSat F.VAT_POISON_WR.COUNT).fault 65

/-- R97, R98: a correctable error is corrected and counted. -/
def Dev.ceCount (d : Dev) : Dev := (d.incSat F.VAT_ECC_CE.COUNT).fault 66

/-- R98: what a write of [a, a+n) does to the error state of word w; the read of a narrower write falls under R97 and
R99, with ORIGIN 1. -/
def Dev.eccWrite (d : Dev) (a n w : Nat) : Dev :=
  if a ≤ 8 * w ∧ 8 * w + 8 ≤ a + n then
    { d with vat := { d.vat with ce := d.vat.ce.filter (· != w), ue := d.vat.ue.filter (· != w) } }
  else if d.vat.ue.contains w then (d.ueRecord w 1).poisonKept
  else if d.vat.ce.contains w then ({ d with vat := { d.vat with ce := d.vat.ce.filter (· != w) } }).ceCount
  else d

/-- R84, R98: bytes stored in the Vat from offset a. -/
def Dev.vatStore (d : Dev) (a : Nat) (l : List Byte) : Dev :=
  let d := { d with vat := { d.vat with mem := Memory.writeN 0 d.vat.mem a l } }
  (wordsOf a l.length).foldl (fun d w => d.eccWrite a l.length w) d

/-- A little-endian number stored in n bytes. -/
def Dev.vatPut (d : Dev) (a n v : Nat) : Dev := d.vatStore a (leBytes n v)

/-- R97: the read of one word: a correctable error is corrected and counted, an uncorrectable one recorded. -/
def Dev.eccRead (d : Dev) (origin w : Nat) : Dev :=
  if d.vat.ue.contains w then d.ueRecord w origin
  else if d.vat.ce.contains w then d.ceCount
  else d

/-- R97: n bytes read from offset a by a party named by ORIGIN. -/
def Dev.vatTouch (d : Dev) (a n origin : Nat) : Dev :=
  (wordsOf a n).foldl (fun d w => d.eccRead origin w) d

/-- R100: a hardware block reads n bytes; none where a word is uncorrectable or poisoned. -/
def Dev.vatHw (d : Dev) (a n : Nat) : Dev × Option Nat :=
  (d.vatTouch a n 4, if d.vbad a n then none else some (d.vraw a n))

/-- R98, R346: every word of the range is written with the poison pattern. -/
def Dev.vatPoison (d : Dev) (a : Nat) (l : List Byte) : Dev :=
  let d := { d with vat := { d.vat with mem := Memory.writeN 0 d.vat.mem a l } }
  (wordsOf a l.length).foldl (fun d w =>
    let d := d.incSat F.VAT_POISON_WR.COUNT
    if d.vat.ue.contains w then d else { d with vat := { d.vat with ue := d.vat.ue ++ [w] } }) d

/-! ## Pools (R85, R86) -/

/-- First granule and granule count of a pool in force. -/
def Dev.pool (d : Dev) (p : Nat) : Nat × Nat :=
  (d.get F.VAT_POOL_CFG.BASE p, d.get F.VAT_POOL_CFG.COUNT p)

/-- Vat byte offset of a pool. -/
def Dev.poolBase (d : Dev) (p : Nat) : Nat := (d.pool p).1 * 4096

/-- A byte range lies inside a pool. -/
def Dev.inPool (d : Dev) (p a n : Nat) : Bool :=
  decide ((d.pool p).1 * 4096 ≤ a ∧ a + n ≤ ((d.pool p).1 + (d.pool p).2) * 4096)

/-- A byte range lies inside one of pools 8-15. -/
def Dev.inFreePool (d : Dev) (a n : Nat) : Bool := (List.range 8).any fun p => d.inPool (p + 8) a n

/-! ## Queues (R88-R90) -/

/-- R88: a queue descriptor. -/
structure QDesc where
  base : Nat
  entry : Nat
  log2 : Nat
  flags : Nat
  prod : Nat
  cons : Nat
  head : Nat
  tail : Nat
  notify : Nat
  drops : Nat
  deriving DecidableEq, Repr, Inhabited

/-- R88: the fields of a descriptor's 32 bytes. -/
def QDesc.ofBytes (l : List Byte) : QDesc :=
  ⟨leAt l 0 4, leAt l 4 2, leAt l 6 1, leAt l 7 1, leAt l 8 2, leAt l 10 2,
   leAt l 12 4, leAt l 16 4, leAt l 20 4, leAt l 24 4⟩

/-- Vat offset of the queue descriptor table in force. -/
def Dev.qtable (d : Dev) : Nat := d.get F.VAT_QDESC_BASE.GRANULE * 4096

/-- Vat offset of a descriptor. -/
def Dev.qaddr (d : Dev) (q : Nat) : Nat := d.qtable + 32 * q

def Dev.qdesc (d : Dev) (q : Nat) : QDesc := QDesc.ofBytes (d.vbytes (d.qaddr q) 32)

/-- Entries of a queue's ring. -/
def QDesc.size (x : QDesc) : Nat := 2 ^ x.log2

/-- R89: the fill of a queue. -/
def QDesc.fill (x : QDesc) : Nat := (x.tail + 2 ^ 32 - x.head) % 2 ^ 32

/-- R89: the offset of the entry that an index addresses. -/
def QDesc.entryAddr (x : QDesc) (i : Nat) : Nat := x.base + i % x.size * x.entry

def QDesc.enabled (x : QDesc) : Bool := bit x.flags 0

/-- R88, R100: the queue is enabled and its descriptor reads clean. -/
def Dev.qEnabled (d : Dev) (q : Nat) : Bool :=
  (d.qdesc q).enabled && (Tbl.find? d.vat.qoff q).isNone && !d.vbad (d.qaddr q) 32

/-- R97, R100: a hardware party reads a descriptor; one that is uncorrectable disables the queue. -/
def Dev.qCheck (d : Dev) (q : Nat) : Dev :=
  if (Tbl.find? d.vat.qoff q).isSome then d
  else
    let bad := d.vbad (d.qaddr q) 32
    let d := d.vatTouch (d.qaddr q) 32 4
    if bad then { d with vat := { d.vat with qoff := Tbl.set d.vat.qoff q 0 } } else d

def Dev.qSetHead (d : Dev) (q v : Nat) : Dev := d.vatPut (d.qaddr q + 12) 4 (v % 2 ^ 32)
def Dev.qSetTail (d : Dev) (q v : Nat) : Dev := d.vatPut (d.qaddr q + 16) 4 (v % 2 ^ 32)
def Dev.qSetDrops (d : Dev) (q v : Nat) : Dev := d.vatPut (d.qaddr q + 24) 4 (min v (2 ^ 32 - 1))

/-- R87: a queue's event source. -/
def queueSource (q : Nat) : Option Nat :=
  if q < 256 then some (0x100 + q) else if q < 392 then some (q - 256) else none

/-- R89: the event of a queue whose fill rises from below NOTIFY to NOTIFY or more. -/
def Dev.qNotify (d : Dev) (q before after : Nat) : Dev :=
  let n := (d.qdesc q).notify
  if before < n ∧ n ≤ after then
    match queueSource q with
    | some s => d.event s
    | none => d
  else d

/-- R89: a committed push of entries that their producer has already written; with OVERWRITE the entries that it finds no
room for take that of the oldest. R100: a queue that is disabled by then, or whose descriptor reads poisoned, takes none. -/
def Dev.qCommitPush (d : Dev) (q n : Nat) : Dev :=
  let d := d.qCheck q
  if !d.qEnabled q then d else
  let x := d.qdesc q
  let lost := x.fill + n - x.size
  let d := if lost = 0 then d else (d.qSetHead q (x.head + lost)).qSetDrops q (x.drops + lost)
  let d := if 256 ≤ q ∧ q < 392 then
      { d with vat := { d.vat with pushed := Tbl.set d.vat.pushed q (Tbl.getD d.vat.pushed q 0 + n) } } else d
  (d.qSetTail q (x.tail + n)).qNotify q (x.fill - lost) (x.fill + n - lost)

/-- Vat offset of frame cell k (R92). -/
def cellAddr (k : Nat) : Nat := 256 * k

/-- R263: the cells of the frame at an address are released. -/
def Dev.cellsFree (d : Dev) (a : Nat) : Dev :=
  { d with frm := { d.frm with allocs := d.frm.allocs.filter fun c => cellAddr c.first != a } }

/-- R263: an entry of the egress queue, pushed or about to be, sends the frame at an address on with FREE set; or one that
the frame block has taken since its ingress entry came did. -/
def Dev.sentOn (d : Dev) (a : Nat) : Bool :=
  let q := d.get F.FRM_EGQ.QUEUE
  let x := d.qdesc q
  let more := d.engs.foldl (fun n e => n + e.2.qops.foldl (fun n o => if o.queue == q && o.push then n + o.count else n) 0) 0
  d.frm.handed.contains a || d.flag F.FRM_EGQ.ENABLE && ((List.range (min (x.fill + more) x.size)).any fun i =>
    let e := x.entryAddr (x.head + i)
    d.vraw e 4 == a && bit (d.vraw (e + 7) 1) 2)

/-- R263: a frame queue still holds the ingress entry of the frame at an address. -/
def Dev.inIngress (d : Dev) (a : Nat) : Bool :=
  (List.range 256).any fun q =>
    let x := d.qdesc q
    d.qEnabled q && (List.range (min x.fill x.size)).any fun i => d.vraw (x.entryAddr (x.head + i)) 4 == a

/-- R263: the frame block takes an entry that sends a frame on with FREE set, while its ingress entry is still queued. -/
def Dev.handOver (d : Dev) (a : Nat) : Dev :=
  if d.frm.handed.contains a || !d.inIngress a then d else { d with frm := { d.frm with handed := d.frm.handed ++ [a] } }

/-- R97, R263: committed pops of frame entries release the frames' cells, unless the entry is sent on with FREE set; the
frame block reads them for it. -/
def Dev.popRelease (d : Dev) (q n : Nat) : Dev :=
  let x := d.qdesc q
  if q < 256 then
    (List.range n).foldl (fun d i =>
      let d := d.vatTouch (x.entryAddr (x.head + i)) 8 4
      let a := d.vraw (x.entryAddr (x.head + i)) 4
      if d.sentOn a then { d with frm := { d.frm with handed := d.frm.handed.filter (· != a) } } else d.cellsFree a) d
  else d

/-- R67: a committed pop releases its slots; one of a queue that is disabled by then does nothing (R90, R100). -/
def Dev.qCommitPop (d : Dev) (q n : Nat) : Dev :=
  let d := d.qCheck q
  if d.qEnabled q then (d.popRelease q n).qSetHead q ((d.qdesc q).head + n) else d

/-- R89: a hardware block pushes one entry; a full queue drops it, or loses its oldest with OVERWRITE. -/
def Dev.qPush (d : Dev) (q : Nat) (entry : List Byte) : Dev :=
  let d := d.qCheck q
  if !d.qEnabled q then d else
  let x := d.qdesc q
  let full := x.fill ≥ x.size
  if full && !bit x.flags 1 then d.qSetDrops q (x.drops + 1) else
  let d := if full then (d.qSetHead q (x.head + 1)).qSetDrops q (x.drops + 1) else d
  let x := d.qdesc q
  (d.vatStore (x.entryAddr x.tail) (entry.take x.entry)).qCommitPush q 1

/-- R89, R97: a party named by ORIGIN, a hardware block or an engine of the base image, pops the oldest entry and reads
it. -/
def Dev.qPop (d : Dev) (q : Nat) (origin : Nat := 4) : Dev × Option (List Byte) :=
  let d := d.qCheck q
  let x := d.qdesc q
  if d.qEnabled q && x.fill > 0 then
    ((d.vatTouch (x.entryAddr x.head) x.entry origin).qCommitPop q 1, some (d.vbytes (x.entryAddr x.head) x.entry))
  else (d, none)

/-- R90: conditions on every descriptor, enabled or not. -/
def QDesc.rangeOk (x : QDesc) (tail28 : Nat) : Bool :=
  decide (8 ≤ x.entry ∧ x.entry ≤ 4096 ∧ x.entry % 8 = 0 ∧ 1 ≤ x.log2 ∧ x.log2 ≤ 20 ∧
    1 ≤ x.notify ∧ x.notify ≤ 2 ^ x.log2 ∧ x.flags / 4 % 4 = 0 ∧ tail28 = 0 ∧
    x.prod / 4096 ≤ 2 ∧ x.cons / 4096 ≤ 2)

/-- Two byte ranges overlap. -/
def overlap (a n b m : Nat) : Bool := decide (a < b + m ∧ b < a + n ∧ 0 < n ∧ 0 < m)

/-- R90: conditions on an enabled descriptor's ring. LOG ENTRY 93: a BASE that is no multiple of 8 (table Queue descriptor)
is refused with them. -/
def Dev.ringOk (d : Dev) (x : QDesc) : Bool :=
  d.inPool (x.flags / 16) x.base (x.entry * x.size) && x.base % 8 == 0 &&
  !overlap x.base (x.entry * x.size) d.qtable (4096 * 32)

/-- A refusal of the Vat (VAT_REFUSE). -/
def Dev.vatRefuse (d : Dev) (code index : Nat) : Dev :=
  (d.put F.VAT_REFUSE.CODE code).put F.VAT_REFUSE.INDEX index

/-- R91: a grant is undone. -/
def Dev.grantUndo (d : Dev) (path : Nat) : Dev :=
  let d := { d with grants := Tbl.del d.grants path }
  d.put F.VAT_QHOST_STAT.VALID 0 path

/-- R90: a queue is emptied and its uncommitted operations dropped. -/
def Dev.qDrop (d : Dev) (q : Nat) : Dev :=
  let d := d.qSetHead q (d.qdesc q).tail
  let d := { d with
    engs := d.engs.map fun (e : Nat × Engine) => (e.1, { e.2 with qops := e.2.qops.filter fun o => o.queue != q })
    vat := { d.vat with pushed := Tbl.del d.vat.pushed q } }
  d.grants.foldl (fun (d : Dev) (g : Nat × Grant) => if g.2.queue = q then d.grantUndo g.1 else d) d

/-- The words of a descriptor that bytes [i, j) of it cover in full, one bit each. -/
def descWords (i j : Nat) : Nat :=
  (List.range 4).foldl (fun m k => if i ≤ 8 * k ∧ 8 * k + 8 ≤ j then m ||| 2 ^ k else m) 0

/-- R90, R100: a program or host writes bytes [i, j) of descriptor q; l gives its 32 bytes after a plain merge. LOG ENTRY
93: an uncorrectable descriptor is judged as a disabled one, and the write that completes the rewriting of its four words
with ENABLE set enables it. -/
def Dev.descWrite (d : Dev) (q : Nat) (l : List Byte) (i j : Nat) : Dev :=
  let a := d.qaddr q
  let old := d.vbytes a 32
  let off := Tbl.find? d.vat.qoff q
  let bad := off.isSome || d.vbad a 32
  -- bytes 12-19 and 24-27 are never taken from a write
  let new := l.take 12 ++ (old.drop 12).take 8 ++ (l.drop 20).take 4 ++ (old.drop 24).take 4 ++ l.drop 28
  let x := QDesc.ofBytes new
  let o := QDesc.ofBytes old
  let strip := fun (y : QDesc) => { y with flags := y.flags / 2 }
  let was := o.enabled && !bad
  if was && strip x != strip o then d.vatRefuse 5 q
  else if !x.rangeOk (leAt new 28 4) then d.vatRefuse 6 q
  else if x.enabled && !was && !d.ringOk x then d.vatRefuse 6 q
  else
    let d := d.vatStore (a + i) (sliceB new i (j - i))
    let d := match off with
      | none => d
      | some m =>
        let m := m ||| descWords i j
        { d with vat := { d.vat with qoff := if m = 15 ∧ x.enabled then Tbl.del d.vat.qoff q else Tbl.set d.vat.qoff q m } }
    if x.enabled && !was then
      let d := ((d.qSetHead q 0).qSetTail q 0).qSetDrops q 0
      { d with vat := { d.vat with pushed := Tbl.del d.vat.pushed q } }
    else if !x.enabled && o.enabled then d.qDrop q
    else d

/-! ## Host grants (R91) -/

/-- R88: the identity of a host party in a descriptor; none for a path that is no host party. -/
def hostParty (path : Nat) : Option Nat :=
  if 512 ≤ path ∧ path ≤ 543 then some (0x2000 + (path - 512))
  else if path = 544 then some 0x2020 else if path = 545 then some 0x2021 else none

/-- R91: a grant of n entries or slots from index i. -/
def Dev.grantSet (d : Dev) (path q : Nat) (push : Bool) (n i : Nat) : Dev :=
  let x := d.qdesc q
  let d := { d with grants := Tbl.set d.grants path ⟨q, push, n, d.tick⟩ }
  let d := ((d.put F.VAT_QHOST_STAT.VALID 1 path).put F.VAT_QHOST_STAT.QUEUE q path).put F.VAT_QHOST_STAT.GRANTED n path
  d.put F.VAT_QHOST_ADDR.ADDR (x.entryAddr i) path

/-- R91, R67: a commit makes the grant take effect. -/
def Dev.grantCommit (d : Dev) (path : Nat) : Dev :=
  match Tbl.find? d.grants path with
  | none => d
  | some g =>
    let d := d.grantUndo path
    if g.push then d.qCommitPush g.queue g.count else d.qCommitPop g.queue g.count

/-- The BAR0 offset of a register, for records of refusals. -/
def Reg.off (r : Reg) (n : Nat := 0) : Nat :=
  match r.kind with
  | .plain => r.base + r.stride * n
  | _ => r.base

/-- R91: the descriptor of the queue names the path as its consumer (POP) or producer (PUSH). LOG ENTRY 93: a disabled
queue, and one whose descriptor reads poisoned (R100), names nobody. -/
def Dev.qhostOk (d : Dev) (path q : Nat) (push : Bool) : Bool :=
  let x := d.qdesc q
  hostParty path == some (if push then x.prod else x.cons) && d.qEnabled q

/-- R91: a refused host queue command. -/
def Dev.qhostRefuse (d : Dev) (path q : Nat) : Dev :=
  (d.vatRefuse 7 q).refuse path (R.VAT_QHOST_CMD.off) .state

/-- R91: POP grants the oldest min(n, fill) entries. -/
def Dev.qhostPop (d : Dev) (path q n : Nat) : Dev :=
  let d := d.qCheck q
  if d.qhostOk path q false then
    let x := d.qdesc q
    (d.grantUndo path).grantSet path q false (min n x.fill) x.head
  else d.qhostRefuse path q

/-- R91: PUSH grants min(n, free) slots. -/
def Dev.qhostPush (d : Dev) (path q n : Nat) : Dev :=
  let d := d.qCheck q
  if d.qhostOk path q true then
    let x := d.qdesc q
    (d.grantUndo path).grantSet path q true (min n (x.size - x.fill)) x.tail
  else d.qhostRefuse path q

/-- R91: COMMIT on a queue that names the path. LOG ENTRY 93: one that names another queue than the grant's, or comes with
no grant, does nothing. -/
def Dev.qhostCommit (d : Dev) (path q : Nat) : Dev :=
  let d := d.qCheck q
  if d.qhostOk path q true || d.qhostOk path q false then
    match Tbl.find? d.grants path with
    | some g => if g.queue = q then d.grantCommit path else d
    | none => d
  else d.qhostRefuse path q

/-- R91: a grant of 10,000 ticks without a COMMIT is undone, and the QHOST cause is set. -/
def Dev.grantExpire (d : Dev) (path : Nat) : Dev :=
  match Tbl.find? d.grants path with
  | some g => if g.since + 10000 ≤ d.tick then (d.grantUndo path).irqSet F.HOST_IRQ_CAUSE.QHOST else d
  | none => d

/-! ## The scrubber (R101) -/

/-- R101: one bank's next line is read; correctable words are written back, uncorrectable ones recorded.
`ce` and `ue` name the words of the line in which errors have arisen since it was last read; `collide` says that another
write reaches the line in the cycle of the write-back, which the scrubber then leaves to its next pass. -/
def Dev.scrubLine (d : Dev) (bank : Nat) (ce ue : List Nat) (collide : Bool) : Dev :=
  if !d.flag F.VAT_SCRUB.ENABLE then d else
  let line := Tbl.getD d.vat.scrub bank bank
  let add := fun (l : List Nat) (n : List Nat) => l ++ (n.map (· % 4 + 4 * line)).filter fun w => !l.contains w
  let d := { d with vat := { d.vat with ce := add d.vat.ce ce, ue := add d.vat.ue ue } }
  let d := d.vatTouch (32 * line) 32 2
  let d := if collide then d else { d with vat := { d.vat with ce := d.vat.ce.filter fun w => w / 4 != line } }
  let next := (line + 16) % 2097152
  let d := { d with vat := { d.vat with scrub := Tbl.set d.vat.scrub bank next } }
  -- a pass over all banks ends when the last bank has read its last line
  let wrapped := (List.range 16).all fun b => decide (Tbl.getD d.vat.scrub b b < 16)
  if decide (next < 16) && wrapped then d.incWrap F.VAT_SCRUB_PASS.PASSES else d

end Sys2Proof.Machine
end

