-- ==== Sys2Proof/Machine/Access.lean ====
section
/-! DEFINITION. Which accesses reach the registers (R32, R312, R313, R328, R343), for every command that a path
writes, and the host-path errors (R339, R347). -/

namespace Sys2Proof.Machine

/-- What becomes of an access. -/
inductive Reach where
  | ok
  | absent                    -- the interface does not answer: nothing happens
  | timeout                   -- R328: the access times out at once
  | refused (r : Reason)
  deriving DecidableEq, Repr, Inhabited

/-- R32: an engine may write the register at this offset. -/
def engMayWrite (off : Nat) : Bool :=
  if off < 0x08000000 || 0x09300000 ≤ off then false
  else if 0x08200000 ≤ off && off < 0x08300000 then
    off == R.ENG_TASK_SEL.off || off == R.ENG_TI_SEL.off || off == R.ENG_TASK_CANCEL.off
  else if 0x09100000 ≤ off && off < 0x09200000 then decide (0x09101000 ≤ off ∧ off < 0x09101080)
  else off < 0x09000000

/-- R328: a block that answers before boot step 4 completes: SYS, BOOT, HOST, FLT. -/
def earlyBlock (off : Nat) : Bool :=
  let b := off / 2 ^ 20
  b == 0x80 || b == 0x8F || b == 0x90 || b == 0x91

/-- R343: a register of a DMA ring and the ring. -/
def ringOf (off : Nat) : Option Nat :=
  let b := R.FRM_RING_ADDR_LO.base
  if b ≤ off ∧ off < b + 256 * R.FRM_RING_ADDR_LO.stride then some ((off - b) / R.FRM_RING_ADDR_LO.stride) else none

/-- R342, R343: a VF may reach the register: its VAT_QHOST registers and its rings. -/
def Dev.vfReaches (d : Dev) (f off : Nat) : Bool :=
  off == R.VAT_QHOST_CMD.off || off == R.VAT_QHOST_STAT.off || off == R.VAT_QHOST_ADDR.off ||
  match ringOf off with
  | some r => d.get F.FRM_RING_CFG.FUNC r == f
  | none => false

/-- What becomes of an access of a path to an offset. After a power-fail save the device is halted, and nothing answers (R305;
DEDUCED, log entry 57). -/
def Dev.access (d : Dev) (p : Path) (off : Nat) (write : Bool) : Reach :=
  match p with
  | .params => .ok
  | .regs => .ok
  | .engine _ => if d.boot.halted then .absent else if write && !engMayWrite off then .refused .access else .ok
  | p =>
    let step := d.get F.BOOT_STAT.STEP
    let pcieDown := match p with
      | .pcie f => !d.flag F.HOST_PCIE_STAT.L0 || d.host.d3.contains f.val || d.stopped ||
        decide (d.get F.HOST_PCIE_STAT.NUMVF < f.val)
      | .spi => d.stopped
      | _ => false
    let vfBad := match p with
      | .pcie f => f.val != 0 && !d.vfReaches f.val off
      | _ => false
    if d.boot.low || d.boot.halted || step ≤ 1 || pcieDown then .absent
    else if step ≤ 4 && !earlyBlock off then .timeout
    else if d.stopped && write then .refused .state
    else if vfBad && write then .refused .access
    else .ok

/-- HOST_PATH_STAT of a path records an error: 1 TIMEOUT, 2 POISON, 3 UNMAPPED, 4 SIZE. -/
def Dev.pathError (d : Dev) (p : Path) (code : Nat) : Dev :=
  (d.incWrap F.HOST_PATH_STAT.COUNT p.code).put F.HOST_PATH_STAT.LAST code p.code

/-- R26, R347: a register access times out: recorded on its path, counted as WAIT_TIMEOUT of row 1. -/
def Dev.accessTimeout (d : Dev) (p : Path) : Dev := (d.pathError p 1).fault 8 0 1

/-- R349: what a read's status is to its path: a marker byte on SPI. -/
def pathStatus (p : Path) (st : Nat) : Nat :=
  match p with
  | .spi => [0x5A, 0xE1, 0xE2, 0xE3].getD st 0
  | _ => st

/-- A path's write of the command register at an offset. R339: a reason of the command itself comes before STATE. -/
def State.runBy (s : State) (p : Path) (off : Nat) (f : Dev → Dev) : StepOut :=
  s.run fun d => match d.access p off true with
    | .ok => f d
    | .absent => d
    | .timeout => d.accessTimeout p
    | .refused .state => d.refuse p.code off ((d.refusalOf f).getD .state)
    | .refused r => d.refuse p.code off r

/-! ## Loop-backs and self-stamping (R357, R362) -/

/-- R357: the depth code of an instance in loop-back: kind 0 IN, 1 OUT, 2 FP, 3 KL, 4 PCIe lane. -/
def Dev.loopDepth (d : Dev) (kind ix : Nat) : Option Nat :=
  if d.flag F.TST_LB_CFG.ENABLE (128 * kind + ix) then some (d.get F.TST_LB_CFG.DEPTH (128 * kind + ix)) else none

/-- R357: the instance still drives its pins: no loop-back, or one at the pad. -/
def Dev.pinsDriven (d : Dev) (kind ix : Nat) : Bool :=
  match d.loopDepth kind ix with
  | none => true
  | some k => k == 0

/-- R359: a link in loop-back at D3 or D4. -/
def Dev.klLooped (d : Dev) (k : Nat) : Bool :=
  match d.loopDepth 3 k with
  | none => false
  | some n => 2 ≤ n

/-- R362: a channel stamps only the on-chip pulse. -/
def Dev.selfStamping (d : Dev) (c : Nat) : Bool :=
  d.flag F.TST_SELF_CFG.ENABLE && decide (d.get F.TST_SELF_CFG.FIRST ≤ c ∧ c ≤ d.get F.TST_SELF_CFG.LAST)

/-! ## Host queue grants and the scrubber as commands (R91, R101) -/

/-- The path of a VAT_QHOST command: PCIe functions 0-31, SPI, I2C. -/
def hostPath (h : HostPath) : Path := if f : h.val < 32 then .pcie ⟨h.val, f⟩ else if h.val = 32 then .spi else .i2c

/-- R91: COUNT of a POP or PUSH is 1 to 65,535. -/
def Dev.qhostGo (d : Dev) (h : HostPath) (_q n : Nat) (go : Dev) : Dev :=
  if n = 0 then d.refuse (512 + h) R.VAT_QHOST_CMD.off .range else go

def execQhostPop (h : HostPath) (q : Fin 4096) (n : BitVec 16) (s : State) : StepOut :=
  s.runBy (hostPath h) R.VAT_QHOST_CMD.off fun d => d.qhostGo h q n.toNat (d.qhostPop (512 + h) q n.toNat)
def execQhostPush (h : HostPath) (q : Fin 4096) (n : BitVec 16) (s : State) : StepOut :=
  s.runBy (hostPath h) R.VAT_QHOST_CMD.off fun d => d.qhostGo h q n.toNat (d.qhostPush (512 + h) q n.toNat)
def execQhostCommit (h : HostPath) (q : Fin 4096) (s : State) : StepOut :=
  s.runBy (hostPath h) R.VAT_QHOST_CMD.off fun d => d.qhostCommit (512 + h) q
def execQhostGrantExpiry (h : HostPath) (s : State) : StepOut := s.run fun d => d.grantExpire (512 + h)

/-- R101: the scrubber reads the next line of a bank. `ce` and `ue` name the words of the line with new errors. -/
def execScrubLine (bank : ScrubBank) (ce ue : List (Fin 4)) (s : State) : StepOut :=
  s.run fun d => d.scrubLine bank.bank (ce.map (·.val)) (ue.map (·.val)) bank.collide

end Sys2Proof.Machine
end

