-- ==== Sys2Proof/Machine/BaseTables.lean ====
section
/-! DEFINITION. The tables that the base image loads (R113, R118, R133, R185, R254), as the manual gives them. -/

namespace Sys2Proof.Machine

/-- A row of a state table (R70). -/
structure StateRow where
  from' : Nat
  to' : Nat
  mask : Nat
  match' : Nat
  action : Nat
  deriving DecidableEq, Repr, Inhabited

/-- R70: the bytes of a state table. -/
def stateTable (states : Nat) (rows : List StateRow) : List Byte :=
  leBytes 2 2 ++ leBytes 1 states ++ leBytes 1 rows.length ++ leBytes 4 0 ++
  rows.flatMap fun r => leBytes 1 r.from' ++ leBytes 1 r.to' ++ leBytes 2 r.mask ++ leBytes 2 r.match' ++ leBytes 2 r.action

/-- R118: table 0x010. States: 0 ABSENT, 1 BAD, 2 OBSERVE, 3 GOOD, 4 SUSPECT; actions: 1 NOTIFY, 2 MARK, 3 FAIL,
4 CLEAR_SUSPECT. -/
def baseRefRows : List StateRow :=
  [⟨0xFF, 0, 0x0001, 0x0000, 1⟩, ⟨0xFF, 0, 0x0002, 0x0000, 1⟩, ⟨0xFF, 1, 0x0004, 0x0004, 3⟩, ⟨0xFF, 1, 0x0008, 0x0008, 3⟩,
   ⟨0xFF, 1, 0x0010, 0x0010, 3⟩, ⟨0xFF, 1, 0x0020, 0x0020, 3⟩, ⟨4, 1, 0x0080, 0x0080, 3⟩, ⟨4, 3, 0x0100, 0x0100, 4⟩,
   ⟨3, 4, 0x0040, 0x0040, 2⟩, ⟨0, 2, 0x0000, 0x0000, 1⟩, ⟨1, 2, 0x0000, 0x0000, 1⟩, ⟨2, 3, 0x0200, 0x0200, 1⟩]

/-- R133: table 0x020. States: 0 IDLE, 1 TRACK, 2 REPLAY, 3 SPLICE; actions: 0 NONE, 1 SELECT, 2 HOLD, 3 RELEASE, 4 REWIND,
5 DROP, 6 SPLICE, 7 END, 8 LOSE. -/
def baseSelRows : List StateRow :=
  [⟨0, 0, 0x0001, 0x0000, 0⟩, ⟨0xFF, 0, 0x0001, 0x0000, 8⟩, ⟨2, 2, 0x0020, 0x0020, 4⟩, ⟨3, 2, 0x0020, 0x0020, 4⟩,
   ⟨2, 0, 0x0002, 0x0000, 8⟩, ⟨3, 0, 0x0002, 0x0000, 8⟩, ⟨2, 3, 0x0100, 0x0100, 6⟩, ⟨3, 1, 0x0200, 0x0200, 7⟩,
   ⟨2, 2, 0x0000, 0x0000, 0⟩, ⟨3, 3, 0x0000, 0x0000, 0⟩] ++
  [⟨0xFF, 2, 0x0060, 0x0060, 4⟩, ⟨0xFF, 1, 0x0060, 0x0020, 5⟩, ⟨0, 1, 0x0002, 0x0002, 1⟩, ⟨0, 0, 0x0000, 0x0000, 0⟩,
   ⟨1, 1, 0x0010, 0x0010, 2⟩, ⟨1, 1, 0x0080, 0x0080, 3⟩, ⟨1, 0, 0x0006, 0x0000, 8⟩, ⟨1, 1, 0x0004, 0x0000, 1⟩,
   ⟨1, 1, 0x0008, 0x0008, 1⟩]

/-- R113: curve 0x011, with EXTRAP clear. -/
def baseCurve : List Byte :=
  leBytes 2 1 ++ leBytes 1 4 ++ leBytes 5 0 ++
  [(10, 40000), (100, 80000), (1000, 250000), (10000, 1000000)].flatMap fun (p : Nat × Nat) => leBytes 4 p.1 ++ leBytes 4 p.2

/-- R185: map 0x030: every source without a row of its own affects all 72 outputs. -/
def baseMap : List Byte :=
  leBytes 2 3 ++ leBytes 2 1 ++ leBytes 4 0 ++ leBytes 2 0xFFFF ++ leBytes 2 0 ++ List.replicate 9 0xFF ++ leBytes 3 0

/-- A row of the base parser table (R252, R254): ENCAP, UDP_PORT, MSGMASK, CLASS, ACTION, QUEUE. -/
structure ParserRow where
  encap : Nat
  port : Nat
  mask : Nat
  cls : Nat
  action : Nat
  queue : Nat
  deriving DecidableEq, Repr, Inhabited

/-- R254: table 0x040. ENCAP: 0 L2, 1 UDP4, 2 UDP6, 3 ESMC, 4 MACSEC, 5 ANY; CLASS: 0 A, 2 C, 3 D; ACTION: 0 DELIVER,
1 CORRECT, 2 FOLLOW, 3 PASS. -/
def baseParserRows : List ParserRow :=
  [⟨4, 0, 0x0000, 0, 3, 3⟩, ⟨0, 0, 0x000F, 0, 1, 0⟩, ⟨0, 0, 0x0500, 0, 2, 0⟩, ⟨1, 319, 0x000F, 0, 1, 0⟩,
   ⟨1, 320, 0x0500, 0, 2, 0⟩, ⟨2, 319, 0x000F, 0, 1, 0⟩, ⟨2, 320, 0x0500, 0, 2, 0⟩, ⟨0, 0, 0xFFFF, 2, 0, 0⟩,
   ⟨1, 0, 0xFFFF, 2, 0, 0⟩, ⟨2, 0, 0xFFFF, 2, 0, 0⟩, ⟨3, 0, 0x0000, 2, 0, 1⟩, ⟨5, 0, 0x0000, 3, 0, 2⟩]

def baseParser : List Byte :=
  leBytes 2 5 ++ leBytes 1 baseParserRows.length ++ leBytes 5 0 ++
  baseParserRows.flatMap fun r =>
    leBytes 1 r.encap ++ leBytes 1 2 ++ leBytes 2 0 ++ leBytes 2 r.port ++ leBytes 2 r.mask ++ leBytes 1 0 ++ leBytes 1 255 ++
    leBytes 1 r.cls ++ leBytes 1 r.action ++ leBytes 2 r.queue ++ leBytes 2 0

/-- The tables that the base image loads, by number. -/
def baseTables : List (Nat × List Byte) :=
  [(0x010, stateTable 5 baseRefRows), (0x011, baseCurve), (0x020, stateTable 4 baseSelRows), (0x030, baseMap), (0x040, baseParser)]

/-- LOG ENTRY 78: the tables just placed are those of the base image: the mark by which the model knows it. -/
def Dev.baseLoaded (d : Dev) : Bool := baseTables.all fun t => d.table t.1 == some t.2

end Sys2Proof.Machine
end

