-- ==== Sys2Proof/Machine/Crc.lean ====
section
/-! DEFINITION. Cyclic redundancy checks in bit-reflected form: CRC-32 of IEEE 802.3 (R270, R282) and CRC-64 of
ECMA-182 (R283). -/

namespace Sys2Proof.Machine

/-- n shifts of a reflected register with a reflected polynomial. -/
def crcShift (poly : Nat) : Nat → Nat → Nat
  | 0, r => r
  | n + 1, r => crcShift poly n (if r % 2 = 1 then r / 2 ^^^ poly else r / 2)

/-- A byte enters the register, least significant bit first. -/
def crcByte (poly r : Nat) (b : Byte) : Nat := crcShift poly 8 (r ^^^ b.toNat)

/-- The register after bytes. -/
def crcRun (poly r : Nat) (l : List Byte) : Nat := l.foldl (crcByte poly) r

/-- CRC-32 of bytes. -/
def crc32 (l : List Byte) : Nat := crcRun 0xEDB88320 0xFFFFFFFF l ^^^ 0xFFFFFFFF

/-- The reflection of 0x42F0E1EBA9EA3693. -/
def crc64Poly : Nat := 0xC96C5795D7870F42

/-- R283: CRC-64 of bytes. -/
def crc64 (l : List Byte) : Nat := crcRun crc64Poly 0xFFFFFFFFFFFFFFFF l ^^^ 0xFFFFFFFFFFFFFFFF

end Sys2Proof.Machine
end

