-- ==== Sys2Proof/Machine/Operands.lean ====
section
/-! DEFINITION. What an engine instruction reads: the fields of its word (R50-R52), its operands, its cost
(R55, R56), and how a dispatch advances, faults or ends around it (R36, R54). -/

namespace Sys2Proof.Machine

/-- A register of the engine; g0 reads 0. -/
def Engine.rg (x : Engine) (n : Fin 16) : DWord := if n = 0 then 0 else x.g[n]

/-- A register written; writes to g0 are discarded (R58). -/
def Engine.setRg (x : Engine) (n : Fin 16) (v : DWord) : Engine :=
  if n = 0 then x else { x with g := x.g.set n v }

/-- R52: imm sign-extended. -/
def immS (o : EOp) : DWord := o.lo.signExtend 64
/-- R52: imm zero-extended (and, or, xor). -/
def immZ (o : EOp) : DWord := o.lo.setWidth 64
/-- imm as a number. -/
def immN (o : EOp) : Nat := o.lo.toNat

/-- R50: the R form's func[13:4]. -/
def func (o : EOp) : Nat := o.lo.toNat / 16
/-- R51: the predicate control of the R form. -/
def pcR (o : EOp) : Nat := o.lo.toNat % 16

/-- R51: a predicate control is well formed. -/
def pcOk (pc : Nat) : Bool := pc / 4 != 0 || pc == 0

/-- The second operand of an arithmetic instruction in its R or I form. -/
def Engine.arg2 (x : Engine) (imm : Bool) (o : EOp) : DWord := if imm then immS o else x.rg o.b

/-- R50: the unused fields of an arithmetic instruction are zero and its PC is well formed. -/
def aluOk (imm : Bool) (o : EOp) : Bool :=
  if imm then pcOk o.b.val else func o == 0 && pcOk (pcR o)

/-- The predicate control of an arithmetic instruction. -/
def aluPc (imm : Bool) (o : EOp) : Nat := if imm then o.b.val else pcR o

/-- R55: the longest latency V of a Vat access, by the task's declared class. -/
def latV (cls : Nat) : Nat := if cls ≤ 1 then 32 else if cls = 2 then 64 else 128
/-- R55: the longest latency Q of a queue instruction. -/
def latQ (cls : Nat) : Nat := if cls ≤ 1 then 40 else if cls = 2 then 80 else 160

/-- The task that an engine runs. -/
def Dev.runTask (d : Dev) (e : Nat) : Nat := 16 * e + (d.eng e).run.getD 0

/-- The declared class of the running task. -/
def Dev.runClass (d : Dev) (e : Nat) : Nat := d.get F.ENG_TASK_CFG.CLASS (d.runTask e)

/-- LOG ENTRY 6: a latency that the spec bounds but does not fix: 1 to `bound` cycles. -/
def Dev.latency (d : Dev) (bound : Nat) : Nat := 1 + d.freeVal % bound

/-- The detail word of an ENG_* source: instruction index, cluster, slot (table Fault sources). -/
def Dev.engDetail (d : Dev) (e : Nat) : Nat :=
  (d.eng e).pc % 2 ^ 14 * 2 ^ 16 + e / 32 * 2 ^ 8 + (d.eng e).run.getD 0

/-- R36, R40: what the end of a dispatch does to the task: MAXUSED, and readiness from events that came meanwhile. DESIGN CHOICE
(log entry 91): of a dispatch that ends with the tick's last cycle that is at cycle 0 of the next tick, not LATE there. -/
def Dev.endTask (d : Dev) (e : Nat) : Dev :=
  let x := d.eng e
  let t := d.runTask e
  let used := x.cyc - x.start
  let d := if d.get F.ENG_TASK_STAT.MAXUSED t < used then d.put F.ENG_TASK_STAT.MAXUSED used t else d
  let d := d.setEng e { x with run := none, qops := [], vputs := [] }
  let y := d.task t
  if y.again || y.cancelled then
    let d := ({ d with cycle := x.cyc } : Dev).setTask t { y with again := false, cancelled := false }
    if y.cancelled then d else d.makeReady t
  else d

/-- The largest r whose square is at most x, of n bits. -/
def isqrt : Nat → Nat → Nat → Nat
  | 0, _, r => r
  | n + 1, x, r => isqrt n x (if (r + 2 ^ n) * (r + 2 ^ n) ≤ x then r + 2 ^ n else r)

/-- The square root of a / b rounded to the nearest integer. -/
def sqrtRound (a b : Nat) : Nat := (isqrt 80 (4 * a / max 1 b) 0 + 1) / 2

end Sys2Proof.Machine
end

