-- ==== Sys2Proof/Machine/Flags.lean ====
section
/-! DEFINITION. Results, status bits S and predicate writes of the engine instructions (R51, R57-R62). -/

namespace Sys2Proof.Machine

/-- A result and its status bit S. -/
structure Res where
  val : DWord
  s : Bool
  deriving DecidableEq, Repr, Inhabited

/-- R57: signed overflow of a sum. -/
def resAdd (a b : DWord) : Res := ⟨a + b, BitVec.saddOverflow a b⟩
/-- R57: signed overflow of a difference. -/
def resSub (a b : DWord) : Res := ⟨a - b, BitVec.ssubOverflow a b⟩
def resAnd (a b : DWord) : Res := ⟨a &&& b, false⟩
def resOr (a b : DWord) : Res := ⟨a ||| b, false⟩
def resXor (a b : DWord) : Res := ⟨a ^^^ b, false⟩
/-- S: a 1 bit was shifted out (R57); a shift by 0 returns a with S 0 (R58). -/
def resShl (a : DWord) (n : Nat) : Res := ⟨a <<< n, a.toNat / 2 ^ (64 - n) != 0⟩
def resShr (a : DWord) (n : Nat) : Res := ⟨a >>> n, a.toNat % 2 ^ n != 0⟩
def resSar (a : DWord) (n : Nat) : Res := ⟨a.sshiftRight n, a.toNat % 2 ^ n != 0⟩
/-- S: the result is the second operand and differs from a. -/
def resMin (a b : DWord) : Res := if b.slt a then ⟨b, true⟩ else ⟨a, false⟩
def resMax (a b : DWord) : Res := if a.slt b then ⟨b, true⟩ else ⟨a, false⟩

/-- R59: the signed wrap difference at width 32 or 64. -/
def resSdiff (wide : Bool) (a b : DWord) : Res :=
  if wide then ⟨a - b, decide (0 < (a - b).toInt)⟩
  else
    let r := a.setWidth 32 - b.setWidth 32
    ⟨r.signExtend 64, decide (0 < r.toInt)⟩

/-- R60: the bounds of a saturation. -/
def satBounds (w : Nat) (uns : Bool) : Int × Int :=
  if uns then (0, 2 ^ w - 1) else (-(2 ^ (w - 1)), 2 ^ (w - 1) - 1)

/-- R60: a saturated to w bits. -/
def resSat (a : DWord) (w : Nat) (uns : Bool) : Res :=
  let (lo, hi) := satBounds w uns
  let v := max lo (min hi a.toInt)
  ⟨BitVec.ofInt 64 v, v != a.toInt⟩

/-- R62: slice k of d replaced by imm. -/
def resLdh (d : DWord) (k imm : Nat) : DWord :=
  BitVec.ofNat 64 (if k = 4 then setBits d.toNat 63 56 imm else setBits d.toNat (14 * k + 13) (14 * k) imm)

/-- R57: the low or high half of the signed product. -/
def resMul (high : Bool) (a b : DWord) : Res :=
  let p := a.toInt * b.toInt
  let fits := decide (-(2 ^ 63) ≤ p ∧ p ≤ 2 ^ 63 - 1)
  ⟨BitVec.ofInt 64 (if high then p / 2 ^ 64 else p), !fits⟩

/-- R61: the accumulator after mac: modulo 2^128. -/
def accMac (acc : BitVec 128) (a b : DWord) : BitVec 128 := acc + BitVec.ofInt 128 (a.toInt * b.toInt)

/-- R61: the accumulator after macs, saturating at ±(2^127 - 1), and S. -/
def accMacs (acc : BitVec 128) (a b : DWord) : BitVec 128 × Bool :=
  let x := acc.toInt + a.toInt * b.toInt
  let v := max (-(2 ^ 127 - 1)) (min (2 ^ 127 - 1) x)
  (BitVec.ofInt 128 v, v != x)

/-- R57: acc shifted right arithmetically by n, saturated to 64 signed bits. -/
def resGetacc (acc : BitVec 128) (n : Nat) : Res :=
  let x := acc.toInt / 2 ^ n
  let v := satSigned 64 x
  ⟨BitVec.ofInt 64 v, v != x⟩

/-- R51: the value that a predicate control writes, none where it writes no predicate. -/
def predValue (pc : Nat) (r : Res) : Option Bool :=
  match pc / 4 with
  | 0 => none
  | 1 => some (r.val == 0)
  | 2 => some r.val.msb
  | _ => some r.s

/-- R51: the predicate written by a control. -/
def Engine.setPred (x : Engine) (pc : Nat) (v : Option Bool) : Engine :=
  match v with
  | none => x
  | some b => { x with p := x.p.set (pc % 4) b (Nat.mod_lt _ (by decide)) }

/-- R51, R58: a result written to d with its predicate. -/
def Engine.write (x : Engine) (d : Fin 16) (pc : Nat) (r : Res) : Engine :=
  (x.setRg d r.val).setPred pc (predValue pc r)

end Sys2Proof.Machine
end

