-- ==== Sys2Proof/Machine/VatUser.lean ====
section
/-! DEFINITION. Writes into the Vat by programs and hosts (through the window, an aperture or vput), with the
structures that only the NV9640 writes (R90, R143, R225, R388). -/

namespace Sys2Proof.Machine

def Dev.loop (d : Dev) (n : Nat) : Loop := Tbl.getD d.loops n Loop.reset
def Dev.setLoop (d : Dev) (n : Nat) (x : Loop) : Dev := { d with loops := Tbl.set d.loops n x }

/-! ## Context entries (R225) -/

def Dev.setCtx (d : Dev) (n : Nat) (x : Ctx) : Dev := { d with ctxs := Tbl.set d.ctxs n x }

def Dev.ctxInc (d : Dev) (n : Nat) : Nat := d.get64 F.CTX_INC_LO.VALUE F.CTX_INC_HI.VALUE n

/-- A context beside its registers. One that nothing has used since a start has run with its INC. -/
def Dev.ctx (d : Dev) (n : Nat) : Ctx :=
  Tbl.getD d.ctxs n { Ctx.reset with curInc := d.ctxInc n, prevInc := d.ctxInc n }

def Dev.ctxSlewInc (d : Dev) (n : Nat) : Nat := d.get64 F.CTX_SLEW_INC_LO.VALUE F.CTX_SLEW_INC_HI.VALUE n
def Dev.slewLeft (d : Dev) (n : Nat) : Nat := d.get F.CTX_SLEW_LEFT.TICKS n

/-- R231: LEAP_AT in seconds. -/
def Dev.leapAt (d : Dev) (n : Nat) : Nat := d.get F.CTX_LEAP_LO.LEAP n + d.rd R.CTX_LEAP_HI n % 2 ^ 16 * 2 ^ 32

/-- DIR: a deletion. -/
def Dev.leapDel (d : Dev) (n : Nat) : Bool := bit (d.rd R.CTX_LEAP_HI n) 16

/-- R225: Vat offset of a context's entry. -/
def Dev.ctxAddr (d : Dev) (n : Nat) : Nat := d.poolBase 5 + 128 * n

/-- R225: bytes 0-63 of a context's entry. -/
def Dev.ctxBytes (d : Dev) (n : Nat) : List Byte :=
  let x := d.ctx n
  leBytes 12 x.c ++ leBytes 8 (d.ctxInc n) ++ leBytes 8 (d.ctxSlewInc n) ++ leBytes 4 (d.slewLeft n) ++
  leBytes 2 (d.get F.CTX_UTC.OFFSET n) ++
  leBytes 1 (d.get F.CTX_STAT.ENABLE n + 2 * d.get F.CTX_UTC.VALID n + 4 * d.get F.CTX_STAT.LEAP61 n +
    8 * d.get F.CTX_STAT.LEAP59 n) ++
  leBytes 1 (d.get F.CTX_STAT.LEAP n + 4 * b2n (d.leapDel n)) ++ leBytes 6 (d.leapAt n) ++
  leBytes 2 (d.get F.CTX_UTC.ANNOUNCE n) ++ leBytes 4 0 ++ leBytes 8 x.prevInc ++ leBytes 8 0

/-- R225: the stepper writes bytes 0-63. -/
def Dev.ctxMirror (d : Dev) (n : Nat) : Dev := d.vatStore (d.ctxAddr n) (d.ctxBytes n)

/-- R225: the stepper keeps the entry of every context: a reader of the range finds those of contexts that nothing has used
yet as their registers give them. They are written out at the read, so that an unused context costs no memory. -/
def Dev.ctxShow (d : Dev) (a n : Nat) : Dev :=
  let b := d.poolBase 5
  if d.get F.BOOT_STAT.STEP ≤ 5 || !overlap a n b (4096 * 128) then d
  else
    let i := (max a b - b) / 128
    let j := (min (a + n) (b + 4096 * 128) - b + 127) / 128
    ((List.range (j - i)).map (i + ·)).foldl (fun (d : Dev) m =>
      if (Tbl.find? d.ctxs m).isSome || d.vbad (d.ctxAddr m) 64 then d else d.ctxMirror m) d

/-! ## Ranges that discard writes -/

/-- R143: Vat offset of loop n's data block. -/
def Dev.loopBlock (d : Dev) (n : Nat) : Nat := d.get F.LOOP_DATA_BASE.BASE * 64 + 64 * n

/-- R388, R389: the range touches the table directory, a master copy in force or a staged one. -/
def Dev.touchesTables (d : Dev) (a n : Nat) : Bool :=
  overlap a n (d.get F.TBL_DIR_BASE.GRANULE * 4096) 8192 ||
  d.stagedTabs.any (fun t => overlap a n t.2.offset t.2.length) ||
  (List.range 1024).any fun t => overlap a n (d.dirEntry t).1 (d.dirEntry t).2

/-- R225: the range touches bytes 0-63 of a context entry. -/
def Dev.touchesContexts (d : Dev) (a n : Nat) : Bool :=
  let b := d.poolBase 5
  overlap a n b (4096 * 128) &&
    (let i := max a b - b
     decide (i % 128 < 64 ∨ 128 < i % 128 + (min (a + n) (b + 4096 * 128) - max a b)))

/-- R143: the range touches hardware-written bytes of a loop data block. In block 32, PHASE, FLAGS and TICK
accept writes while TLOOP_CFG.SRC is 2. -/
def Dev.touchesLoops (d : Dev) (a n : Nat) : Bool :=
  (List.range 33).any fun l =>
    let b := d.loopBlock l
    if l == 32 && d.get F.TLOOP_CFG.SRC == 2 then overlap a n (b + 9) 3 || overlap a n (b + 24) 8
    else overlap a n b 16 || overlap a n (b + 24) 8

/-- R145: the Vat marks the loops whose slot the range touches. -/
def Dev.markSlots (d : Dev) (a n : Nat) : Dev :=
  (List.range 33).foldl (fun d l =>
    if overlap a n (d.loopBlock l + 16) 8 then d.setLoop l { d.loop l with slotWritten := true } else d) d

/-- R162: the servo program has written PHASE or FLAGS of block 32. -/
def Dev.markServo (d : Dev) (a n : Nat) : Dev :=
  if d.get F.TLOOP_CFG.SRC = 2 ∧ overlap a n (d.loopBlock 32) 9 then d.setLoop 32 { d.loop 32 with servo := true }
  else d

/-- R90: the part of a write that lies in descriptor q, judged and applied. -/
def Dev.userDesc (d : Dev) (a : Nat) (l : List Byte) (q : Nat) : Dev :=
  let b := d.qaddr q
  let merged := (List.range 32).map fun i =>
    if a ≤ b + i ∧ b + i < a + l.length then l.getD (b + i - a) 0 else Memory.read 0 d.vat.mem (b + i)
  d.descWrite q merged (max a b - b) (min (a + l.length) (b + 32) - b)

/-- The parts of a write below and above the descriptor table, stored by `store`, and its descriptors. -/
def Dev.userSplit (d : Dev) (store : Dev → Nat → List Byte → Dev) (a : Nat) (l : List Byte) : Dev :=
  let t := d.qtable
  let e := t + 4096 * 32
  let below := l.take (t - a)
  let above := l.drop (e - a)
  let d := if below.isEmpty then d else store d a below
  let d := if above.isEmpty then d else store d (max a e) above
  let q0 := (max a t - t) / 32
  let q1 := (min (a + l.length) e - t + 31) / 32
  (List.range (q1 - q0)).foldl (fun d i => d.userDesc a l (q0 + i)) d

/-- A write by a program or a host: what touches a protected structure is discarded whole and counted. -/
def Dev.vatUserWith (d : Dev) (store : Dev → Nat → List Byte → Dev) (a : Nat) (l : List Byte) : Dev :=
  let n := l.length
  if n = 0 then d
  else if d.touchesTables a n then d.incSat F.TBL_STAT.VAT_DROP
  else if d.touchesContexts a n then d.incSat F.CTX_VAT_DROP.COUNT
  else if d.touchesLoops a n then d.incSat F.LOOP_VAT_DROP.COUNT
  else
    let d := if overlap a n d.qtable (4096 * 32) then d.userSplit store a l else store d a l
    (d.markSlots a n).markServo a n

/-- R64, R345: bytes written by a program or a host. -/
def Dev.vatUser (d : Dev) (a : Nat) (l : List Byte) : Dev := d.vatUserWith Dev.vatStore a l

/-- R346: bytes of a poisoned write. -/
def Dev.vatUserPoison (d : Dev) (a : Nat) (l : List Byte) : Dev := d.vatUserWith Dev.vatPoison a l

end Sys2Proof.Machine
end

