-- ==== Sys2Proof/Machine/EngineCore.lean ====
section
/-! DEFINITION. A dispatch around its instructions: issue, budget, faults, overrun, fence (R36, R54, R56, R64, R67, R76). -/

namespace Sys2Proof.Machine

/-- R64: outstanding vputs complete in issue order, those done by cycle `now`. -/
def Dev.vputRetire (d : Dev) (e now : Nat) : Dev :=
  let x := d.eng e
  let done := x.vputs.takeWhile fun v => v.doneAt ≤ now
  let d := d.setEng e { x with vputs := x.vputs.drop done.length }
  done.foldl (fun d v => d.vatUser v.addr (leBytes v.width v.val)) d

/-- R36, R67: a dispatch ends without its fence: completed vputs stay, the rest and the queue operations go. -/
def Dev.abandon (d : Dev) (e : Nat) : Dev := (d.vputRetire e (d.eng e).cyc).endTask e

/-- The end of the running dispatch's budget: the cycle after its last one. -/
def Dev.limit (d : Dev) (e : Nat) : Nat := (d.eng e).start + d.get F.ENG_TASK_BUDGET.BUDGET (d.runTask e)

/-- R36: the budget's last cycle ends the dispatch; writes completed before that cycle stay. -/
def Dev.overrun (d : Dev) (e : Nat) : Dev :=
  let t := d.runTask e
  let detail := d.engDetail e
  let fin := d.limit e
  let d := ({ d with cycle := min 1249 (fin - 1) } : Dev).vputRetire e (fin - 1)
  let d := (d.setEng e { d.eng e with cyc := fin }).endTask e
  (d.incSat F.ENG_TASK_CNT.OVERRUNS t).fault 32 e detail

/-- R44, R53: no dispatch spans a tick boundary: one that has not ended has reached its budget's last cycle. -/
def Dev.overrunAll (d : Dev) : Dev :=
  d.engs.foldl (fun (d : Dev) e => if (d.eng e.1).run.isSome then d.overrun e.1 else d) d

/-- R54: a fault source ends the dispatch at the faulting instruction. -/
def Dev.engFault (d : Dev) (e source : Nat) : Dev :=
  let detail := d.engDetail e
  (d.abandon e).fault source 0 detail

/-- R50, R54: ENG_ILLEGAL. -/
def Dev.engIllegal (d : Dev) (e : Nat) : Dev := d.engFault e 33

/-- The engine runs a dispatch. -/
def Dev.running (d : Dev) (e : Nat) : Bool := (d.eng e).run.isSome

/-- One instruction of `cost` cycles: nothing without a dispatch; an overrun if the budget's last cycle comes before it has
completed (R36); otherwise `body`, which sees the issue cycle in `Dev.cycle` and the engine's cycle after the instruction. -/
def Dev.issue (d : Dev) (e cost : Nat) (body : Dev → Dev) : Dev :=
  if d.running e then
    let x := d.eng e
    let d := { d with cycle := x.cyc }
    if x.cyc + cost < d.limit e then
      body ((d.setEng e { x with cyc := x.cyc + cost }).vputRetire e (x.cyc + cost))
    else d.overrun e
  else d

/-- The instruction index moves to the next instruction. -/
def Dev.advance (d : Dev) (e : Nat) : Dev := d.setEng e { d.eng e with pc := (d.eng e).pc + 1 }

/-- An engine's registers change, and it goes on to the next instruction. -/
def Dev.engDo (d : Dev) (e : Nat) (f : Engine → Engine) : Dev :=
  d.setEng e { f (d.eng e) with pc := (d.eng e).pc + 1 }

/-- R50, R57: an arithmetic instruction: unused fields checked, the result and its predicate written. -/
def Dev.alu (d : Dev) (e cost : Nat) (ok : Bool) (o : EOp) (pc : Nat) (r : Engine → Res) : Dev :=
  d.issue e cost fun d => if ok then d.engDo e (fun x => x.write o.d pc (r x)) else d.engIllegal e

/-- As `alu`, for a result that is read from more than the engine. -/
def Dev.alu' (d : Dev) (e cost : Nat) (ok : Bool) (o : EOp) (r : Dev → Res) : Dev :=
  d.issue e cost fun d => if ok then d.engDo e (fun x => x.write o.d o.b.val (r d)) else d.engIllegal e

/-- R76: the cycle at which a fence that began at the engine's cycle ends. -/
def Engine.fenceEnd (x : Engine) : Nat :=
  let drained := x.vputs.foldl (fun c v => max c v.doneAt) (max x.cyc x.ioDone)
  drained + (if x.qops.isEmpty then 0 else 8)

/-- R67: the queue operations of a dispatch take effect, in order. -/
def Dev.commitQops (d : Dev) (e : Nat) : Dev :=
  let ops := (d.eng e).qops
  let d := d.setEng e { d.eng e with qops := [] }
  ops.foldl (fun d o => if o.push then d.qCommitPush o.queue o.count else d.qCommitPop o.queue o.count) d

/-- R36, R76: a fence, and `after`. A yield or halt may end with the budget's last cycle (`slack` 1); a fence alone that has
not completed before it is an overrun. -/
def Dev.fenceThen (d : Dev) (e : Nat) (slack : Nat) (after : Dev → Dev) : Dev :=
  if d.running e then
    let d := { d with cycle := (d.eng e).cyc }
    let x := { d.eng e with cyc := (d.eng e).cyc + 1 }
    let fin := x.fenceEnd
    if fin < d.limit e + slack then
      after (((d.setEng e { x with cyc := fin }).vputRetire e fin).commitQops e)
    else d.overrun e
  else d

/-- R36: halt clears the task's ENABLE, and with it its ready state. -/
def Dev.haltTask (d : Dev) (t : Nat) : Dev :=
  (d.put F.ENG_TASK_CFG.ENABLE 0 t).setTask t { d.task t with ready := false, again := false }

end Sys2Proof.Machine
end

