-- ==== Sys2Proof/Machine/EngineAlu.lean ====
section
/-! DEFINITION. Meanings of the arithmetic and accumulator instructions (R50-R62). -/

namespace Sys2Proof.Machine

/-- R57: an instruction with an R and an I form. -/
def Dev.alu2 (d : Dev) (e : Nat) (imm : Bool) (o : EOp) (r : DWord → DWord → Res) : Dev :=
  d.alu e 1 (aluOk imm o) o (aluPc imm o) fun x => r (x.rg o.a) (x.arg2 imm o)

/-- R52, R57: a logic instruction, whose imm is zero-extended. -/
def Dev.aluLogic (d : Dev) (e : Nat) (imm : Bool) (o : EOp) (r : DWord → DWord → Res) : Dev :=
  d.alu e 1 (aluOk imm o) o (aluPc imm o) fun x => r (x.rg o.a) (if imm then immZ o else x.rg o.b)

/-- R57: a shift by b[5:0] or imm[5:0]; the other bits of imm are zero (R52). -/
def Dev.aluShift (d : Dev) (e : Nat) (imm : Bool) (o : EOp) (r : DWord → Nat → Res) : Dev :=
  d.alu e 1 (aluOk imm o && (!imm || immN o < 64)) o (aluPc imm o) fun x =>
    r (x.rg o.a) (if imm then immN o else (x.rg o.b).toNat % 64)

/-- R50: NOP is the all-zero word; a reserved opcode raises ENG_ILLEGAL. -/
def execNop (e : Eng) (w : NopWord) (s : State) : StepOut :=
  s.run fun d => d.issue e 1 fun d =>
    if w.code = 0 ∧ w.op = ⟨0, 0, 0, 0⟩ then d.advance e else d.engIllegal e

def execAdd (e : Eng) (imm : Bool) (o : EOp) (s : State) : StepOut := s.run fun d => d.alu2 e imm o resAdd
def execSub (e : Eng) (imm : Bool) (o : EOp) (s : State) : StepOut := s.run fun d => d.alu2 e imm o resSub
def execAnd (e : Eng) (imm : Bool) (o : EOp) (s : State) : StepOut := s.run fun d => d.aluLogic e imm o resAnd
def execOr (e : Eng) (imm : Bool) (o : EOp) (s : State) : StepOut := s.run fun d => d.aluLogic e imm o resOr
def execXor (e : Eng) (imm : Bool) (o : EOp) (s : State) : StepOut := s.run fun d => d.aluLogic e imm o resXor
def execShl (e : Eng) (imm : Bool) (o : EOp) (s : State) : StepOut := s.run fun d => d.aluShift e imm o resShl
def execShr (e : Eng) (imm : Bool) (o : EOp) (s : State) : StepOut := s.run fun d => d.aluShift e imm o resShr
def execSar (e : Eng) (imm : Bool) (o : EOp) (s : State) : StepOut := s.run fun d => d.aluShift e imm o resSar
def execMin (e : Eng) (imm : Bool) (o : EOp) (s : State) : StepOut := s.run fun d => d.alu2 e imm o resMin
def execMax (e : Eng) (imm : Bool) (o : EOp) (s : State) : StepOut := s.run fun d => d.alu2 e imm o resMax

/-- R59. -/
def execSdiff (e : Eng) (o : EOp) (s : State) : StepOut :=
  s.run fun d => d.alu e 1 (func o % 512 == 0 && pcOk (pcR o)) o (pcR o) fun x =>
    resSdiff (func o == 512) (x.rg o.a) (x.rg o.b)

/-- R60: width 2 to 64; imm[13:8] is unused. -/
def execSat (e : Eng) (o : EOp) (s : State) : StepOut :=
  s.run fun d =>
    let w := immN o % 128
    d.alu e 1 (pcOk o.b.val && 2 ≤ w && w ≤ 64 && immN o < 256) o o.b.val fun x =>
      resSat (x.rg o.a) w (immN o / 128 == 1)

/-- R62: slices 0-3 take imm, slice 4 takes imm[7:0]; the a field is zero. -/
def execLdh (e : Eng) (o : EOp) (s : State) : StepOut :=
  s.run fun d => d.alu e 1 (o.a == 0 && (o.b.val < 4 || (o.b.val == 4 && immN o < 256))) o 0 fun x =>
    ⟨resLdh (x.rg o.d) o.b.val (immN o), false⟩

/-- R57: func[13] selects the high half. -/
def execMul (e : Eng) (o : EOp) (s : State) : StepOut :=
  s.run fun d => d.alu e 4 (func o % 512 == 0 && pcOk (pcR o)) o (pcR o) fun x =>
    resMul (func o == 512) (x.rg o.a) (x.rg o.b)

/-- R51, LOG ENTRY 7: an instruction without a result: its Z or N condition names no value, so the predicate
takes a free one; S is as the instruction defines it. -/
def Dev.predOnly (d : Dev) (e pc : Nat) (st : Bool) : Dev :=
  if pc / 4 = 0 then d
  else if pc / 4 = 3 then d.setEng e ((d.eng e).setPred pc (some st))
  else (d.setEng e ((d.eng e).setPred pc (some (bit d.freeVal 0)))).freeNext

/-- R61: mac. -/
def execMac (e : Eng) (imm : Bool) (o : EOp) (s : State) : StepOut :=
  s.run fun d => d.issue e 4 fun d =>
    if aluOk imm o && o.d == 0 then
      (d.engDo e fun x => { x with acc := accMac x.acc (x.rg o.a) (x.arg2 imm o) }).predOnly e (aluPc imm o) false
    else d.engIllegal e

/-- R61: macs; S says that it saturated. -/
def execMacs (e : Eng) (imm : Bool) (o : EOp) (s : State) : StepOut :=
  s.run fun d => d.issue e 4 fun d =>
    if aluOk imm o && o.d == 0 then
      let x := d.eng e
      let r := accMacs x.acc (x.rg o.a) (x.arg2 imm o)
      (d.engDo e fun x => { x with acc := r.1 }).predOnly e (aluPc imm o) r.2
    else d.engIllegal e

/-- R57: getacc by imm[6:0]; the a field and imm[13:7] are unused. -/
def execGetacc (e : Eng) (o : EOp) (s : State) : StepOut :=
  s.run fun d => d.alu e 1 (pcOk o.b.val && o.a == 0 && immN o < 128) o o.b.val fun x => resGetacc x.acc (immN o)

/-- R57: clracc. DESIGN CHOICE (log entry 7): it takes no PC, so a word with a field set is ENG_ILLEGAL. -/
def execClracc (e : Eng) (o : EOp) (s : State) : StepOut :=
  s.run fun d => d.issue e 1 fun d =>
    if o = ⟨0, 0, 0, 0⟩ then d.engDo e fun x => { x with acc := 0 } else d.engIllegal e

end Sys2Proof.Machine
end

