-- ==== Sys2Proof/Machine/EngineMem.lean ====
section
/-! DEFINITION. Meanings of the memory, Vat, queue and table instructions (R63-R71). -/

namespace Sys2Proof.Machine

/-- The byte address (or queue number) a + imm. -/
def effAddr (x : Engine) (o : EOp) : Nat := (x.rg o.a + immS o).toNat

/-- R31: the address lies in local memory. -/
def isLocal (a : Nat) : Bool := a < 0x1000
/-- R31: the address lies in cluster memory. -/
def isCmem (a : Nat) : Bool := 0x10000 ≤ a && a < 0x50000

/-- R31, R63: an aligned access inside local or cluster memory. -/
def memOk (a w : Nat) : Bool := a % w == 0 && (isLocal a || isCmem a)

/-- Bytes of local or cluster memory as a number, and whether the word is poisoned. -/
def Dev.memRead (d : Dev) (e a w : Nat) : Nat × Bool :=
  if isLocal a then (Memory.readLe 0 (d.eng e).lmem a w, (d.eng e).lue.contains (a / 8))
  else
    let c := d.clus (e / 32)
    (Memory.readLe 0 c.cmem (a - 0x10000) w, c.cue.contains ((a - 0x10000) / 8))

/-- R97: the word of local or cluster memory at a holds a correctable error. -/
def Dev.memCe (d : Dev) (e a : Nat) : Bool :=
  if isLocal a then (d.eng e).lce.contains (a / 8) else (d.clus (e / 32)).cce.contains ((a - 0x10000) / 8)

/-- R31, R63, R98: a store in local or cluster memory: a full double word clears errors and poison; a narrower one corrects a
correctable error and keeps poison. -/
def Dev.memStore (d : Dev) (e a w v : Nat) : Dev :=
  let clr := fun (l : List Nat) (k : Nat) => if w = 8 then l.filter (· != k) else l
  if isLocal a then
    let x := d.eng e
    d.setEng e { x with
      lmem := Memory.writeN 0 x.lmem a (leBytes w v), lue := clr x.lue (a / 8), lce := x.lce.filter (· != a / 8) }
  else
    let c := d.clus (e / 32)
    let b := a - 0x10000
    d.setClus (e / 32) { c with
      cmem := Memory.writeN 0 c.cmem b (leBytes w v), cue := clr c.cue (b / 8), cce := c.cce.filter (· != b / 8) }

/-- R63: a store and what it raises. LOG ENTRY 90: a narrower store that reads an uncorrectable word raises ENG_MEM_UE, and
it and the correctable errors are counted as in the Vat (R98). -/
def Dev.memWrite (d : Dev) (e a w v : Nat) : Dev :=
  let bad := (d.memRead e a w).2
  let ce := d.memCe e a
  let x := d.memStore e a w v
  if w = 8 then x else if bad then (x.fault 41 0 (d.engDetail e)).poisonKept else if ce then x.ceCount else x

/-- R57: ld; ctl[1:0] width, ctl[2] sign-extends. -/
def execLd (e : Eng) (o : EOp) (s : State) : StepOut :=
  s.run fun d =>
    let a := effAddr (d.eng e) o
    let w := 2 ^ (o.b.val % 4)
    d.issue e (if isCmem a then 10 else 2) fun d =>
      if o.b.val ≥ 8 then d.engIllegal e
      else if !memOk a w then d.engFault e 34
      else
        let (v, bad) := d.memRead e a w
        if bad then (d.fault 41 0 (d.engDetail e)).engFault e 35
        else
          let d := if d.memCe e a then d.ceCount else d
          let r : DWord := if bit o.b.val 2 then BitVec.ofInt 64 (toSigned (8 * w) v) else BitVec.ofNat 64 v
          d.engDo e fun x => x.setRg o.d r

/-- R57: st; d names the data register. -/
def execSt (e : Eng) (o : EOp) (s : State) : StepOut :=
  s.run fun d =>
    let a := effAddr (d.eng e) o
    let w := 2 ^ (o.b.val % 4)
    d.issue e (if isCmem a then 8 else 1) fun d =>
      if o.b.val ≥ 4 then d.engIllegal e
      else if !memOk a w then d.engFault e 34
      else (d.memWrite e a w ((d.eng e).rg o.d).toNat).advance e

/-! ## The Vat -/

/-- R64: an aligned access inside the Vat. -/
def vatOk (a w : Nat) : Bool := a % w == 0 && a + w ≤ 2 ^ 26

/-- R64: the double word at a with the engine's own outstanding vputs merged in. -/
def Engine.overlay (x : Engine) (a v : Nat) : Nat :=
  x.vputs.foldl (fun v p =>
    if a ≤ p.addr ∧ p.addr < a + 8 then setBits v (8 * (p.addr - a + p.width) - 1) (8 * (p.addr - a)) p.val else v) v

/-- R64, R98: an outstanding full-word vput replaces an uncorrectable word. -/
def Engine.covers (x : Engine) (a : Nat) : Bool := x.vputs.any fun p => p.addr == a && p.width == 8

/-- R64, R65: the double word an engine reads, and whether it is uncorrectable or poisoned. -/
def Dev.engVat (d : Dev) (e a : Nat) : Dev × Nat × Bool :=
  let d := d.ctxShow a 8
  let x := d.eng e
  if x.covers a then (d, x.overlay a 0, false)
  else (d.vatTouch a 8 0, x.overlay a (d.vraw a 8), d.vbad a 8)

/-- LOG ENTRY 6: a Vat access takes 1 to V cycles. -/
def Dev.vatIssue (d : Dev) (e bound : Nat) (body : Dev → Dev) : Dev :=
  if d.running e then (d.freeNext).issue e (d.latency bound) body else d

/-- R64: vget. -/
def execVget (e : Eng) (o : EOp) (s : State) : StepOut :=
  s.run fun d =>
    let a := effAddr (d.eng e) o
    d.vatIssue e (latV (d.runClass e)) fun d =>
      if o.b != 0 then d.engIllegal e
      else if !vatOk a 8 then d.engFault e 34
      else
        let (d, v, bad) := d.engVat e a
        if bad then d.engFault e 35 else d.engDo e fun x => x.setRg o.d (BitVec.ofNat 64 v)

/-- R65: vpeek; an uncorrectable word reads 0 with S set. -/
def execVpeek (e : Eng) (o : EOp) (s : State) : StepOut :=
  s.run fun d =>
    let a := effAddr (d.eng e) o
    d.vatIssue e (latV (d.runClass e)) fun d =>
      if !pcOk o.b.val then d.engIllegal e
      else if !vatOk a 8 then d.engFault e 34
      else
        let (d, v, bad) := d.engVat e a
        d.engDo e fun x => x.write o.d o.b.val ⟨BitVec.ofNat 64 (if bad then 0 else v), bad⟩

/-- R64, R56: vput; with 8 writes outstanding it first waits for the oldest. -/
def execVput (e : Eng) (o : EOp) (s : State) : StepOut :=
  s.run fun d =>
    let x := d.eng e
    let a := effAddr x o
    let w := 2 ^ (o.b.val % 4)
    let wait := if x.vputs.length < 8 then 0 else (x.vputs.head?.map (·.doneAt)).getD 0 - x.cyc
    let lat := d.latency (latV (d.runClass e))
    d.issue e (1 + wait) fun d =>
      if o.b.val ≥ 4 then d.engIllegal e
      else if !vatOk a w then d.engFault e 34
      else
        let last := ((d.eng e).vputs.getLast?.map (·.doneAt)).getD 0
        (d.engDo e fun x => { x with
          vputs := x.vputs ++ [⟨a, w, (x.rg o.d).toNat % 2 ^ (8 * w), max last (x.cyc - 1 + lat)⟩] }).freeNext

/-! ## Queues -/

/-- Uncommitted operations of an engine's dispatch on a queue. -/
def Engine.qCount (x : Engine) (q : Nat) (push : Bool) : Nat :=
  ((x.qops.find? fun o => o.queue == q && o.push == push).map (·.count)).getD 0

/-- One more uncommitted operation. -/
def Engine.qAdd (x : Engine) (q : Nat) (push : Bool) : Engine :=
  let same := fun (o : QueueOp) => o.queue == q && o.push == push
  if x.qops.any same then { x with qops := x.qops.map fun o => if same o then { o with count := o.count + 1 } else o }
  else { x with qops := x.qops ++ [⟨q, push, 1⟩] }

/-- R66, R89: qpop and qpush: ENG_QUEUE on another party's queue, 0 with S clear on an empty or full one. LOG ENTRY 94: a push
that finds the queue full counts in DROPS with OVERWRITE clear; with OVERWRITE set it finds no slot either, and nothing is lost. -/
def Dev.queueOp (d : Dev) (e : Nat) (o : EOp) (push : Bool) : Dev :=
  let q := effAddr (d.eng e) o
  d.vatIssue e (latQ (d.runClass e)) fun d =>
    if !pcOk o.b.val then d.engIllegal e
    else if q ≥ 4096 then d.engFault e 34
    else
      let y := d.qdesc q
      if (if push then y.prod else y.cons) != e then d.engFault e 38
      else
        let x := d.eng e
        let n := x.qCount q push
        let on := d.qEnabled q
        let room := on && (if push then decide (y.fill + n < y.size) else decide (n < y.fill))
        let addr := y.entryAddr ((if push then y.tail else y.head) + n)
        if room then (d.setEng e (x.qAdd q push)).engDo e fun x => x.write o.d o.b.val ⟨BitVec.ofNat 64 addr, true⟩
        else
          let d := if on && push && !bit y.flags 1 then d.qSetDrops q (y.drops + 1) else d
          d.engDo e fun x => x.write o.d o.b.val ⟨0, false⟩

def execQpop (e : Eng) (o : EOp) (s : State) : StepOut := s.run fun d => d.queueOp e o false
def execQpush (e : Eng) (o : EOp) (s : State) : StepOut := s.run fun d => d.queueOp e o true

/-! ## Tables (R68-R71) -/

/-- R68: point i of a curve. -/
def curvePoint (t : List Byte) (i : Nat) : Int × Int :=
  (toSigned 32 (leAt t (8 + 8 * i) 4), toSigned 32 (leAt t (12 + 8 * i) 4))

/-- R68: COUNT of a curve. -/
def curveCount (t : List Byte) : Nat := leAt t 2 1

/-- R69: the line through points i and i+1 at x, floored. -/
def curveSeg (t : List Byte) (i : Nat) (x : Int) : Int :=
  let (x0, y0) := curvePoint t i
  let (x1, y1) := curvePoint t (i + 1)
  y0 + Int.fdiv ((y1 - y0) * (x - x0)) (x1 - x0)

/-- R69: a curve at x, and whether x lies outside it. -/
def curveAt (t : List Byte) (x : Int) : Int × Bool :=
  let n := curveCount t
  let first := curvePoint t 0
  let last := curvePoint t (n - 1)
  let extrap := bit (leAt t 3 1) 0
  if x < first.1 then (if extrap then satSigned 64 (curveSeg t 0 x) else first.2, true)
  else if last.1 < x then (if extrap then satSigned 64 (curveSeg t (n - 2) x) else last.2, true)
  else
    let i := (List.range (n - 1)).foldl (fun k j => if (curvePoint t j).1 ≤ x then j else k) 0
    (curveSeg t i x, false)

/-- R70, R71: the row of a state table that fires. -/
def stateRow (t : List Byte) (st inp : Nat) : Option Nat :=
  (List.range (leAt t 3 1)).find? fun j =>
    let from' := leAt t (8 + 8 * j) 1
    (from' == 0xFF || (from' == st && st < leAt t 2 1)) && (inp &&& leAt t (10 + 8 * j) 2) == leAt t (12 + 8 * j) 2

/-- R71: what tstep writes to d, and S. -/
def stateStep (t : List Byte) (st inp : Nat) : Nat × Bool :=
  match stateRow t st inp with
  | some j => (leAt t (9 + 8 * j) 1 + j * 2 ^ 8 + leAt t (14 + 8 * j) 2 * 2 ^ 16, true)
  | none => (st + 0xFF * 2 ^ 8, false)

/-- R54, R72: a table instruction reads the live copy in the engine's cluster. -/
def Dev.tableOp (d : Dev) (e cost kind : Nat) (o : EOp) (f : List Byte → Engine → Res) : Dev :=
  d.issue e cost fun d =>
    if !pcOk (pcR o) then d.engIllegal e
    else match Tbl.find? (d.clus (e / 32)).live (func o) with
      | some t => if tableKind t = kind then d.engDo e fun x => x.write o.d (pcR o) (f t x) else d.engFault e 37
      | none => d.engFault e 37

/-- R69: tlook; the b field is zero. -/
def execTlook (e : Eng) (o : EOp) (s : State) : StepOut :=
  s.run fun d =>
    if o.b != 0 then d.issue e 12 fun d => d.engIllegal e
    else d.tableOp e 12 1 o fun t x =>
      let (v, out) := curveAt t (toSigned 32 ((x.rg o.a).toNat % 2 ^ 32))
      ⟨BitVec.ofInt 64 v, out⟩

/-- R71: tstep takes the state from a[7:0] and the inputs from b[15:0]. -/
def execTstep (e : Eng) (o : EOp) (s : State) : StepOut :=
  s.run fun d => d.tableOp e 6 2 o fun t x =>
    let (v, fired) := stateStep t ((x.rg o.a).toNat % 256) ((x.rg o.b).toNat % 2 ^ 16)
    ⟨BitVec.ofNat 64 v, fired⟩

end Sys2Proof.Machine
end

