-- ==== Sys2Proof/Machine/Inputs.lean ====
section
/-! DEFINITION. Reference inputs: activity, frequency and suspect monitors, mask check, monitor words, states and
quality levels (R105-R120). Times are in units of 2^-32 ns on the XO timescale. -/

namespace Sys2Proof.Machine

def Dev.mon (d : Dev) (n : Nat) : InMon := Tbl.getD d.mons n InMon.reset
def Dev.setMon (d : Dev) (n : Nat) (x : InMon) : Dev := { d with mons := Tbl.set d.mons n x }
def Dev.selx (d : Dev) (n : Nat) : Sel := Tbl.getD d.sels n Sel.reset
def Dev.setSelx (d : Dev) (n : Nat) (x : Sel) : Dev := { d with sels := Tbl.set d.sels n x }

/-- One tick on the XO timescale. -/
def tickUnits : Nat := 1000 * 2 ^ 32

/-- NOM of an input, in 2^-16 Hz. -/
def Dev.inNom (d : Dev) (n : Nat) : Nat := d.get64 F.IN_NOM_LO.NOM_LO F.IN_NOM_HI.NOM_HI n

/-- The nominal prescaled period as a fraction in units of 2^-32 ns: numerator (the denominator is NOM). -/
def Dev.inPeriodNum (d : Dev) (n : Nat) : Nat := d.get F.IN_PRESCALE.DIV n * 2 ^ 48 * 10 ^ 9

def Dev.inEnabled (d : Dev) (n : Nat) : Bool := d.flag F.IN_CFG.ENABLE n

/-! ## Reference states -/

def absentS : Nat := 0
def badS : Nat := 1
def observeS : Nat := 2
def goodS : Nat := 3
def suspectS : Nat := 4

def Dev.inState (d : Dev) (n : Nat) : Nat := d.get F.IN_STATE.STATE n

/-- First suspect tick of an input. -/
def Dev.susTick (d : Dev) (n : Nat) : Nat := d.get64 F.IN_SUS_TICK_LO.TICK_LO F.IN_SUS_TICK_HI.TICK_HI n

/-- R112: the latch records the earliest tick, while the state is GOOD or SUSPECT. -/
def Dev.susLatch (d : Dev) (n cause tick : Nat) : Dev :=
  let x := d.mon n
  if (d.inState n = goodS ∨ d.inState n = suspectS) ∧ (!x.susValid ∨ tick < d.susTick n) then
    ((d.put64 F.IN_SUS_TICK_LO.TICK_LO F.IN_SUS_TICK_HI.TICK_HI tick n).put F.IN_SUS_TICK_HI.CAUSE cause n).setMon n
      { x with susValid := true }
  else d

/-! ## Activity monitor (R106, R107) -/

/-- R106: the window length in coarse periods of 400 ps. -/
def Dev.windowLen (d : Dev) (n tol : Nat) : Nat :=
  ceilDiv (d.get F.IN_PRESCALE.DIV n * 2 ^ 16 * 2500000000 * (64 + tol)) (64 * max 1 (d.inNom n))

/-- R107: a present window. LOG ENTRY 96: ACT_FAIL is set by a missed window only, also where REJECT was lowered to or below
the bucket. -/
def Dev.windowPresent (d : Dev) (n : Nat) : Dev :=
  let x := d.mon n
  let b := x.bucket - d.get F.IN_ACT.LEAK n
  let clears := x.actFail && b ≤ d.get F.IN_ACT.ACCEPT n
  d.setMon n { x with
    bucket := b, actFail := x.actFail && !clears, present := x.present || clears,
    lowest := if clears then b else min x.lowest b }

/-- R107, R112: a missed window that ended in the present tick. -/
def Dev.windowMissed (d : Dev) (n : Nat) : Dev :=
  let x := d.mon n
  let b := min 255 (x.bucket + d.get F.IN_ACT.FILL n)
  let rise := if x.bucket = x.lowest then d.tick else x.riseFrom
  let sets := !x.actFail && d.get F.IN_ACT.REJECT n ≤ b
  let d := d.setMon n { x with
    bucket := b, riseFrom := rise, actFail := x.actFail || sets, actSeen := x.actSeen || sets }
  if sets then d.susLatch n 2 rise else d

/-- R106, R119: a window opens at a coarse period, under the TOL in force. -/
def Dev.windowOpen (d : Dev) (n coarse : Nat) : Dev :=
  d.setMon n { d.mon n with windowFrom := some coarse, winTol := d.get F.IN_ACT.TOL n }

/-- R106: the open window has elapsed by a coarse period without an edge. -/
def Dev.windowDue (d : Dev) (n coarse : Nat) : Bool :=
  d.inEnabled n && match (d.mon n).windowFrom with
  | none => false
  | some f => f + d.windowLen n (d.mon n).winTol ≤ coarse

/-- R106: ACTIVITY_WINDOW_MISSED: W has elapsed by the end of the cycle; the next window opens at once. -/
def Dev.activityMissed (d : Dev) (n : Nat) (c : Nat) : Dev :=
  let d := { d with cycle := c }
  if d.windowDue n (d.tick * 2500 + 2 * c + 2) then
    let x := d.mon n
    (d.windowMissed n).windowOpen n ((x.windowFrom.getD 0) + d.windowLen n x.winTol)
  else d

def execActivityWindowMissed (n : Fin 40) (c : Cycle) (s : State) : StepOut := s.run fun d => d.activityMissed n c

/-- R110: an input with fewer than 4 nominal prescaled edges per suspect gate skips the frequency test. -/
def Dev.slowInput (d : Dev) (n : Nat) : Bool :=
  d.get F.IN_SUS_CFG.SUS_GATE n * tickUnits * d.inNom n < 4 * d.inPeriodNum n

/-- R108, R110: the stamp of edge number e at XO time t enters the gate. It is a sample of the suspect detector if it
is the first one of its tick, or the input is slow. -/
def Dev.gateStamp (d : Dev) (n t e : Nat) : Dev :=
  let x := d.mon n
  let x := { x with
    stamps := if x.stamps.isEmpty || d.slowInput n then x.stamps ++ [(t, e)] else x.stamps, gateLast := t }
  d.setMon n (match x.gateFirst with
    | none => { x with gateFirst := some (t, e), gateK := 0 }
    | some f => { x with gateK := e - f.2 })

/-- R108: and the gate of every input whose basis is input n. -/
def Dev.basisStamp (d : Dev) (n t e : Nat) : Dev :=
  (List.range 40).foldl (fun d m =>
    if d.inEnabled m && d.get F.IN_MON_CFG.BASIS m == n + 1 then
      let x := d.mon m
      d.setMon m (match x.basisFirst with
        | none => { x with basisFirst := some (t, e), basisLast := t, basisK := 0 }
        | some f => { x with basisLast := t, basisK := e - f.2 })
    else d) d

/-- R105, R106, R108, R110: a prescaled edge of an enabled input, at XO time t and coarse period k. One that was not
stamped (R194) is counted, and the activity monitor sees it. -/
def Dev.inputEdge (d : Dev) (n t k : Nat) (stamped : Bool) : Dev :=
  if d.inEnabled n then
    let d := if (d.mon n).windowFrom.isSome then d.windowPresent n else d
    let d := d.windowOpen n k
    let e := (d.mon n).edges + 1
    let d := d.setMon n { d.mon n with edges := e }
    if stamped then (d.gateStamp n t e).basisStamp n t e else d
  else d

/-! ## Frequency monitor (R108, R109) -/

/-- R108: a frequency gate starts with tick `from'`. -/
def Dev.gateStart (d : Dev) (n from' : Nat) : Dev :=
  let x := d.mon n
  let b := d.get F.IN_MON_CFG.BASIS n
  let bad := b != 0 && (!d.inEnabled (b - 1) || (d.mon (b - 1)).actFail)
  d.setMon n { x with
    gateFrom := from', gateFirst := none, gateLast := 0, gateK := 0,
    basisFirst := none, basisLast := 0, basisK := 0, basisBad := bad, gateKept := (none, 0, 0), basisKept := (none, 0, 0) }

/-- R108: the fractional offset in ppb of a gate, saturated to 32 bits; none for an invalid gate. A basis input
scales the measured interval by its own rate over its edges in the gate (log entry 11). -/
def Dev.gateOffset (d : Dev) (n : Nat) : Option Int :=
  let x := d.mon n
  let b := d.get F.IN_MON_CFG.BASIS n
  let meas := x.gateLast - (x.gateFirst.map (·.1)).getD 0
  if x.gateK < 1 ∨ meas = 0 then none
  else if b = 0 then
    let e := x.gateK * d.inPeriodNum n
    let m := meas * max 1 (d.inNom n)
    some (satSigned 32 (roundDiv (10 ^ 9 * ((e : Int) - m)) m))
  else
    let bm := x.basisLast - (x.basisFirst.map (·.1)).getD 0
    if x.basisBad ∨ x.basisK < 1 ∨ bm = 0 then none
    else
      -- interval on the basis timescale: meas * (basisK * P_b) / bm
      let e := x.gateK * d.inPeriodNum n * bm * max 1 (d.inNom (b - 1))
      let m := meas * x.basisK * d.inPeriodNum (b - 1) * max 1 (d.inNom n)
      some (satSigned 32 (roundDiv (10 ^ 9 * ((e : Int) - m)) (max 1 m)))

/-- R108: the gate ends with the present tick. -/
def Dev.gateDue (d : Dev) (n : Nat) : Bool :=
  d.inEnabled n && (d.mon n).gateFrom + d.get F.IN_MON_CFG.GATE n * 1000 ≤ d.tick + 1

/-- R109: the limits in force judge a valid result. -/
def Dev.freqJudge (d : Dev) (n : Nat) (off : Int) : Dev :=
  let x := d.mon n
  let out := off < d.gets F.IN_FREJ_MIN.LIMIT n ∨ d.gets F.IN_FREJ_MAX.LIMIT n < off
  let in' := d.gets F.IN_FACC_MIN.LIMIT n ≤ off ∧ off ≤ d.gets F.IN_FACC_MAX.LIMIT n
  let fail := if out then true else if in' then false else x.freqFail
  let d := d.setMon n { x with fmonValid := true, fmonOffset := ofSigned 32 off, freqFail := fail }
  if fail && !x.freqFail then d.susLatch n 3 x.gateFrom else d

/-- R108: the gate in progress is bad if its basis is off, or has ACT_FAIL at any time, in the present tick. -/
def Dev.basisMark (d : Dev) (n : Nat) : Dev :=
  let b := d.get F.IN_MON_CFG.BASIS n
  if b != 0 && (!d.inEnabled (b - 1) || (d.mon (b - 1)).actSeen || (d.mon (b - 1)).actFail) then
    d.setMon n { d.mon n with basisBad := true }
  else d

/-- R108, R109: FREQUENCY_GATE_END, if the gate ends with this tick. -/
def Dev.freqGateEnd (d : Dev) (n : Nat) : Dev :=
  if d.gateDue n then
    let d := match d.gateOffset n with
      | some off => d.freqJudge n off
      | none => d.setMon n { d.mon n with fmonValid := false }
    d.gateStart n (d.tick + 1)
  else d

/-! ## Suspect detector (R110-R112) -/

/-- R110: the phase of the tick's sample against the XO: the edge's time less the nominal time of its number. -/
def Dev.xoPhase (d : Dev) (n t k : Nat) : Int :=
  (t : Int) - roundDiv ((k : Int) * d.inPeriodNum n) (max 1 (d.inNom n))

/-- R110: a sample departs by more than PSTEP ns. -/
def Dev.stepped (d : Dev) (n : Nat) (dev : Int) : Bool :=
  decide (d.get F.IN_SUS_CFG.PSTEP n * 2 ^ 32 < dev.natAbs)

/-- R110: the tick of the first sample that departs from the baseline fit, extrapolated. -/
def Dev.stepTick (d : Dev) (n : Nat) (samples : List (Nat × Int)) : Option Nat :=
  match (d.mon n).baseline with
  | none => none
  | some (slope, phase, t0) =>
    (samples.find? fun p => d.stepped n (p.2 - (phase + slope * ((p.1 : Int) - t0) / 2 ^ 16))).map (·.1)

/-- The last four edges. -/
def lastFour (l : List (Nat × Int)) : List (Nat × Int) := l.drop (l.length - 4)

/-- R110: each edge of a slow input against the extrapolation of its last 4 edges: the tick of the first one that departs,
and the edges that the next one is checked against. After a trigger they are held, as a baseline is (R111). -/
def Dev.slowScan (d : Dev) (n : Nat) (held : Bool) :
    List (Nat × Int) → List (Nat × Int) → Option Nat × List (Nat × Int)
  | h, [] => (none, h)
  | h, p :: r =>
    if h.length = 4 && d.stepped n (p.2 - Config.extrapolate h p.1) then (some p.1, h)
    else d.slowScan n held (if held then h else lastFour (h ++ [p])) r

/-- R110: a suspect gate ends with the present tick: an aligned block of SUS_GATE ticks, whole since `susFrom`. -/
def Dev.susGateDue (d : Dev) (n : Nat) : Bool :=
  let g := d.get F.IN_SUS_CFG.SUS_GATE n
  d.inEnabled n && g != 0 && (d.tick + 1) % g == 0 && (d.mon n).susFrom + g ≤ d.tick + 1

/-- R112: a diverging gate's causes enter the latch: FJUMP with its first tick, PSTEP with the tick of the sample. -/
def Dev.susCauses (d : Dev) (n first : Nat) (step : Option Nat) (jump : Bool) : Dev :=
  let d := if jump then d.susLatch n 0 first else d
  match step with
  | some t => d.susLatch n 1 t
  | none => d

/-- R111: what a judged gate does; `step` is the tick of a stepping sample, `jump` says that its slope differs. LOG ENTRY
86: between CONFIRM and re-arm gates do nothing. -/
def Dev.susJudge (d : Dev) (n first : Nat) (step : Option Nat) (jump : Bool) (fit : Int × Int) : Dev :=
  let x := d.mon n
  let fresh := { x with baseline := some (fit.1, fit.2, first) }
  let diverges := step.isSome || jump
  if x.confirm then d
  else if !x.suspect then
    if diverges then (d.setMon n { x with suspect := true, confirms := 0 }).susCauses n first step jump
    else d.setMon n fresh
  else if diverges then
    let c := x.confirms + 1
    (if d.get F.IN_SUS_CFG.CONFIRM n ≤ c then d.setMon n { x with confirm := true, suspect := false, confirms := c }
     else d.setMon n { x with confirms := c }).susCauses n first step jump
  else d.setMon n { fresh with suspect := false, clear := true }

/-- R110: a skipped gate neither diverges nor is clean nor counts towards CONFIRM; a sample of it that steps triggers the
detector (log entry 86). -/
def Dev.susSkipped (d : Dev) (n first : Nat) (step : Option Nat) : Dev :=
  let x := d.mon n
  if x.confirm || step.isNone then d
  else (if x.suspect then d else d.setMon n { x with suspect := true, confirms := 0 }).susCauses n first step false

/-- R110, R111: a gate of an input that takes the frequency test. -/
def Dev.susFast (d : Dev) (n first : Nat) (samples : List (Nat × Int)) : Dev :=
  let x := d.mon n
  let fit := Config.lineFit samples first
  let step := d.stepTick n samples
  if samples.length < 2 then d.susSkipped n first step
  else match x.baseline with
    | none => d.setMon n { x with baseline := some (fit.1, fit.2, first) }
    | some (slope, _, _) =>
      d.susJudge n first step (decide (d.get F.IN_SUS_CFG.FJUMP n * 2 ^ 48 < (fit.1 - slope).natAbs * 10 ^ 6)) fit

/-- R110, R111: a gate of a slow input. -/
def Dev.susSlow (d : Dev) (n first : Nat) (samples : List (Nat × Int)) : Dev :=
  let x := d.mon n
  let fit := Config.lineFit samples first
  if samples.isEmpty || x.confirm then d
  else if samples.length < 2 then
    let (step, h) := d.slowScan n x.suspect x.last4 samples
    let d := d.susSkipped n first step
    d.setMon n { d.mon n with last4 := h }
  else if x.baseline.isNone then
    d.setMon n { x with baseline := some (fit.1, fit.2, first), last4 := lastFour (x.last4 ++ samples) }
  else
    let (step, h) := d.slowScan n x.suspect x.last4 samples
    let d := d.susJudge n first step false fit
    d.setMon n { d.mon n with last4 := if x.suspect && step.isNone then lastFour (x.last4 ++ samples) else h }

/-- R110, R111: the gate that ends with this tick, if one does, over the samples taken since its first tick. -/
def Dev.suspectGateEnd (d : Dev) (n : Nat) : Dev :=
  if d.susGateDue n then
    let first := d.tick + 1 - d.get F.IN_SUS_CFG.SUS_GATE n
    let samples := (d.mon n).samples.filter fun p => first ≤ p.1
    let d := d.setMon n { d.mon n with samples := [], susFrom := d.tick + 1 }
    if d.slowInput n then d.susSlow n first samples else d.susFast n first samples
  else d

/-- R110: suspect gates restart from a boundary; the next whole gate is the baseline. -/
def Dev.susRestart (d : Dev) (n boundary : Nat) : Dev :=
  d.setMon n { d.mon n with
    susFrom := boundary, samples := [], baseline := none, confirms := 0, last4 := [], susRef := none }

/-- R111: re-arming clears SUSPECT, CONFIRM and the latch. -/
def Dev.rearm (d : Dev) (n : Nat) : Dev :=
  let d := (d.put64 F.IN_SUS_TICK_LO.TICK_LO F.IN_SUS_TICK_HI.TICK_HI 0 n).put F.IN_SUS_TICK_HI.CAUSE 0 n
  (d.setMon n { d.mon n with suspect := false, confirm := false, susValid := false }).susRestart n d.tick

/-! ## Observation (R116) -/

/-- R116: length of the observation timer in ticks. -/
def Dev.obsLen (d : Dev) (n : Nat) : Nat :=
  10 ^ 6 * (if d.flag F.IN_STATE.EVER_GOOD n then d.get F.IN_QUAL.WTR n else d.get F.IN_QUAL.HOLDOFF n)

/-- R116: OBSERVATION_COMPLETE, if the count completes with this tick. -/
def Dev.observation (d : Dev) (n : Nat) : Dev :=
  let x := d.mon n
  match x.obsFrom with
  | some f => if d.inState n = observeS ∧ f + d.obsLen n ≤ d.tick + 1 then d.setMon n { x with obsDone := true } else d
  | none => d

def execObservationComplete (n : Fin 40) (s : State) : StepOut := s.run fun d => d.observation n

/-! ## Mask check (R113, base image) -/

/-- R113: the four observation intervals in ms. -/
def maskTaus : List Nat := [10, 100, 1000, 10000]

/-- The open interval i: its first tick, least and greatest phase; the least exceeds the greatest while it has no sample. -/
def Dev.maskOpen (d : Dev) (n i : Nat) : Nat × Int × Int := (d.mon n).maskWin.getD i (d.tick, 1, 0)

def Dev.maskStore (d : Dev) (n i : Nat) (v : Nat × Int × Int) : Dev :=
  d.setMon n { d.mon n with maskWin := (List.range 4).map fun j => if j = i then v else d.maskOpen n j }

/-- R113: a phase sample enters the four open intervals. DESIGN CHOICE (log entry 106): a change of SUS_REF, or of the fallback,
leaves them open. -/
def Dev.maskTake (d : Dev) (n : Nat) (p : Int) : Dev :=
  (List.range 4).foldl (fun d i =>
    let w := d.maskOpen n i
    d.maskStore n i (if w.2.1 ≤ w.2.2 then (w.1, min w.2.1 p, max w.2.2 p) else (w.1, p, p))) d

/-- R113: an interval of tau ms that ends with this tick is judged against the curve, and the next one opens. LOG ENTRY
86: a curve that is not there limits the wander to 0 ps. -/
def Dev.maskInterval (d : Dev) (n i tau : Nat) : Dev :=
  let w := d.maskOpen n i
  if w.1 + tau * 1000 ≤ d.tick + 1 then
    let limit := match d.table (d.get F.IN_MASK.CURVE n) with
      | some t => (curveAt t tau).1
      | none => 0
    -- limit in ps; phase in 2^-32 ns
    let fails := limit * 2 ^ 32 < (w.2.2 - w.2.1) * 1000
    let d := d.maskStore n i (d.tick + 1, 1, 0)
    let y := d.mon n
    if fails then
      let d := d.setMon n { y with maskFail := true, maskOkFrom := d.tick + 1 }
      if y.maskFail then d else d.susLatch n 4 w.1
    else d
  else d.maskStore n i w

/-- R113: the mask check at the end of a tick, while the base image runs it and ENABLE is 1; only then do ticks count
towards the 10 s that clear MASK_FAIL. DESIGN CHOICE (log entry 106): with ENABLE 0 MASK_FAIL keeps its value. -/
def Dev.maskCheck (d : Dev) (n : Nat) : Dev :=
  if !d.flag F.IN_MASK.ENABLE n || !d.baseRuns then d.setMon n { d.mon n with maskWin := [], maskOkFrom := d.tick + 1 } else
  let d := (List.range 4).foldl (fun d i => d.maskInterval n i (maskTaus.getD i 10)) d
  let y := d.mon n
  if y.maskFail ∧ y.maskOkFrom + 10 ^ 7 ≤ d.tick + 1 then d.setMon n { y with maskFail := false } else d

/-! ## The monitor word (R114) -/

/-- R114: the monitor word of the tick that ends. -/
def Dev.monWord (d : Dev) (n : Nat) : Nat :=
  let x := d.mon n
  if !d.inEnabled n then 0 else
  1 + 2 * b2n x.present + 4 * b2n (x.actFail || x.actSeen) + 8 * b2n x.freqFail + 16 * b2n x.maskFail
    + 32 * b2n (d.flag F.IN_CFG.LOCKOUT n) + 64 * b2n x.suspect + 128 * b2n x.confirm
    + 256 * b2n x.clear + 512 * b2n (x.obsDone && d.inState n == observeS)
    + x.bucket * 2 ^ 16 + b2n x.fmonValid * 2 ^ 24 + b2n x.susValid * 2 ^ 25 + b2n x.fallback * 2 ^ 26
    + x.fmonOffset * 2 ^ 32

/-- R114: the word of input n is written and mirrored; the next tick's "at any time" flags start. -/
def Dev.monWrite (d : Dev) (n : Nat) : Dev :=
  let w := d.monWord n
  let d := d.vatPut (d.get F.MON_WORD_BASE.BASE * 8 + 8 * n) 8 w
  let d := (d.put F.IN_MON_STAT.WORD (w % 2 ^ 32) n).put F.IN_FMON_RESULT.OFFSET (w / 2 ^ 32) n
  let x := d.mon n
  d.setMon n { x with actSeen := x.actFail, clear := false, stamps := [] }

/-! ## States and enables at a boundary (R115, R119) -/

/-- R121: the entry byte k of a loop's priority list. -/
def Dev.prioEntry (d : Dev) (l k : Nat) : Nat :=
  (if k < 4 then d.get F.SEL_PRIO_LO.ENTRIES l / 2 ^ (8 * k)
   else d.get F.SEL_PRIO_HI.ENTRIES l / 2 ^ (8 * (k - 4))) % 256

/-- R142: the entry byte k that selection acts on: a list changed during REPLAY or SPLICE waits for TRACK. -/
def Dev.listByte (d : Dev) (l k : Nat) : Nat :=
  match (d.selx l).kept with
  | some w => (if k < 4 then w.1 / 2 ^ (8 * k) else w.2.1 / 2 ^ (8 * (k - 4))) % 256
  | none => d.prioEntry l k

/-- R142: a field of SEL_MODE as selection acts on it. -/
def Dev.selMode (d : Dev) (f : Fld) (l : Nat) : Nat :=
  bits (((d.selx l).kept.map (·.2.2.1)).getD (d.rd R.SEL_MODE l)) f.hi f.lo

/-- R142: a field of SEL_ENS_CFG as selection and replay act on it. -/
def Dev.selEns (d : Dev) (f : Fld) (l : Nat) : Nat :=
  bits (((d.selx l).kept.map (·.2.2.2)).getD (d.rd R.SEL_ENS_CFG l)) f.hi f.lo

/-- R142: what a boundary keeps for a loop in REPLAY or SPLICE: the words in force before its commit, `b`. -/
def Dev.selKeep (b d : Dev) (l : Nat) : Dev :=
  let x := d.selx l
  let s := d.get F.SEL_STAT.SSTATE l
  let r := d.get F.SEL_RWD_STAT.RSTATE l
  if s == 2 || s == 3 || r == 1 || r == 2 || r == 3 then
    if x.kept.isSome then d
    else d.setSelx l { x with
      kept := some (b.rd R.SEL_PRIO_LO l, b.rd R.SEL_PRIO_HI l, b.rd R.SEL_MODE l, b.rd R.SEL_ENS_CFG l) }
  else if x.kept.isSome then d.setSelx l { x with kept := none } else d

/-- R121: the entry is VALID and names reference `ref`. -/
def Dev.entryNames (d : Dev) (l k ref : Nat) : Bool :=
  let b := d.listByte l k
  bit b 7 && b % 64 == ref

/-- R115: a disabled input's pending flags are dropped and a held entry is no longer held. -/
def Dev.dropFlags (d : Dev) (n : Nat) : Dev :=
  (List.range 32).foldl (fun d l =>
    (List.range 8).foldl (fun d k =>
      if d.entryNames l k n then
        let x := d.selx l
        let d := d.setSelx l { x with
          marked := x.marked.filter (· != k), failed := x.failed.filter (· != k), cleared := x.cleared.filter (· != k) }
        let h := d.get F.SEL_STAT.HELD l
        if bit h k then d.put F.SEL_STAT.HELD (h - 2 ^ k) l else d
      else d) d) d

/-- R115: entering a state takes effect. -/
def Dev.enterState (d : Dev) (n : Nat) : Dev :=
  let st := d.inState n
  let x := d.mon n
  let d := d.setMon n { x with obsFrom := if st = observeS then some d.tick else none, obsDone := false }
  let d := if st = goodS then (d.put F.IN_STATE.EVER_GOOD 1 n).rearm n else d
  if st = badS then d.fault 96 n else if st = suspectS then d.fault 97 n else d

/-- R107, R108, R110: ENABLE = 1 takes effect. -/
def Dev.inputOn (d : Dev) (n : Nat) : Dev :=
  let b := d.get F.IN_ACT.REJECT n
  let d := d.setMon n { InMon.reset with
    bucket := b, lowest := b, actFail := true, actSeen := true, freqFail := true, maskOkFrom := d.tick }
  (d.gateStart n d.tick).susRestart n d.tick

/-- R107, R115: ENABLE = 0 takes effect. -/
def Dev.inputOff (d : Dev) (n : Nat) : Dev :=
  let d := ((d.put F.IN_STATE.STATE 0 n).put F.IN_STATE.EVER_GOOD 0 n)
  let d := (d.put64 F.IN_SUS_TICK_LO.TICK_LO F.IN_SUS_TICK_HI.TICK_HI 0 n).put F.IN_SUS_TICK_HI.CAUSE 0 n
  (d.setMon n InMon.reset).dropFlags n

/-- R111: a change to IN_MON_CFG or IN_SUS_CFG takes effect. -/
def Dev.susReconfig (d : Dev) (n : Nat) : Dev :=
  let x := d.mon n
  (d.setMon n { x with suspect := false, clear := x.clear || x.suspect }).susRestart n d.tick

/-- R115, R119: what the tick-synchronous writes of an input do at the boundary; `old` is the device before they
took effect. -/
def Dev.inputApply (old d : Dev) (n : Nat) : Dev :=
  let wasOn := old.inEnabled n
  let on := d.inEnabled n
  if wasOn && !on then d.inputOff n
  else
    let d := if on && !wasOn then d.inputOn n
      else if on then
        let monCh := old.rd R.IN_MON_CFG n != d.rd R.IN_MON_CFG n
        let susCh := old.rd R.IN_SUS_CFG n != d.rd R.IN_SUS_CFG n
        let d := if old.get F.IN_MON_CFG.GATE n != d.get F.IN_MON_CFG.GATE n ||
            old.get F.IN_MON_CFG.BASIS n != d.get F.IN_MON_CFG.BASIS n then d.gateStart n d.tick else d
        if monCh || susCh then d.susReconfig n else d
      else d
    let written := (Tbl.find? old.acc (R.IN_STATE.key n)).isSome
    if written && (old.inState n != d.inState n || d.inState n == goodS) then d.enterState n else d

/-- R114: the end of a tick for one input: what ends with it, and its word. -/
def Dev.inputTickEnd (d : Dev) (n : Nat) : Dev :=
  if !d.inEnabled n then d.monWrite n else
  ((((d.freqGateEnd n).suspectGateEnd n).observation n).maskCheck n).monWrite n

/-! ## Quality levels (R120) -/

/-- R120: the effective QL of an input. -/
def Dev.effQl (d : Dev) (n : Nat) : Nat :=
  if d.get F.IN_QL.SRC n = 1 ∧ d.get F.SYS_PROFILE.ACTIVE ≠ 3 then d.get F.IN_QL.ESMC_QL n
  else d.get F.IN_QL.HOST_QL n

end Sys2Proof.Machine
end

