-- ==== Sys2Proof/Machine/Selection.lean ====
section
/-! DEFINITION. What selection rests on: references, eligibility, the choice of R124, stamps read from rings, the
feedback period, the folded error and the combiner (R121-R128, R144). Stamps and phases are in 2^-32 ns. -/

namespace Sys2Proof.Machine

/-! ## References (R121-R124) -/

/-- R274: a remote reference as last heard. -/
def Dev.rref (d : Dev) (i : Nat) : RRef := Tbl.getD d.rrefs i RRef.reset

/-- R121: entry k of the loop's list is VALID. -/
def Dev.entryValid (d : Dev) (l k : Nat) : Bool := bit (d.listByte l k) 7

/-- R121: the reference that an entry names. -/
def Dev.entryRef (d : Dev) (l k : Nat) : Nat := d.listByte l k % 64

/-- R121: the state of a reference; a remote one takes its home device's. -/
def Dev.refState (d : Dev) (ref : Nat) : Nat :=
  if ref < 40 then d.inState ref else if ref < 56 then (d.rref (ref - 40)).state else absentS

/-- R120, R121: the effective quality level of a reference. -/
def Dev.refQl (d : Dev) (ref : Nat) : Nat := if ref < 40 then d.effQl ref else (d.rref (ref - 40)).ql

/-- R123: the rank of an SSM code. -/
def Dev.qlRank (d : Dev) (c : Nat) : Nat :=
  (if c < 8 then d.rd R.SEL_QL_RANK_LO / 16 ^ c else d.rd R.SEL_QL_RANK_HI / 16 ^ (c - 8)) % 16

/-- The rank of an entry's reference. -/
def Dev.entryRank (d : Dev) (l k : Nat) : Nat := d.qlRank (d.refQl (d.entryRef l k) % 16)

/-- The rewind of a loop is in progress. -/
def Dev.rewinding (d : Dev) (l : Nat) : Bool :=
  let r := d.get F.SEL_RWD_STAT.RSTATE l
  l < 32 && (r == 1 || r == 2 || r == 3)

/-- R122: an entry excluded by a rewind in progress. -/
def Dev.excluded (d : Dev) (l k : Nat) : Bool := d.rewinding l && bit (d.selx l).exclude k

/-- QL_EN as selection acts on it. -/
def Dev.qlOn (d : Dev) (l : Nat) : Bool := d.selMode F.SEL_MODE.QL_EN l != 0

/-- R122: an entry is eligible for its loop. -/
def Dev.eligible (d : Dev) (l k : Nat) : Bool :=
  d.entryValid l k && d.refState (d.entryRef l k) == goodS &&
  !bit (d.get F.SEL_STAT.HELD l) k && !d.excluded l k &&
  (!d.qlOn l || (d.entryRank l k ≤ 14 && d.entryRank l k ≤ d.selMode F.SEL_MODE.QL_MIN l))

/-- R124: the eligible entries in candidate order. -/
def Dev.candidates (d : Dev) (l : Nat) : List Nat :=
  let es := (List.range 8).filter (d.eligible l)
  if d.qlOn l then
    (List.range 16).foldl (fun acc r => acc ++ es.filter fun k => d.entryRank l k == r) []
  else es

/-- A set of entries as a bitmap. -/
def bitmap (l : List Nat) : Nat := l.foldl (fun m k => m ||| 2 ^ k) 0

/-- R124: the active entry and the members that the mode chooses. -/
def Dev.choose (d : Dev) (l : Nat) : Option Nat × List Nat :=
  let c := d.candidates l
  let first := c.head?
  match d.selMode F.SEL_MODE.MODE l with
  | 0 => (first, first.toList)
  | 1 =>
    let a := d.get F.SEL_STAT.ACTIVE l
    let stays := d.flag F.SEL_STAT.ACTIVE_VALID l && c.contains a &&
      match first with
      | some f => !(d.qlOn l && d.entryRank l f < d.entryRank l a)
      | none => true
    if stays then (some a, [a]) else (first, first.toList)
  | 2 =>
    let f := d.selMode F.SEL_MODE.FORCE l
    if c.contains f then (some f, [f]) else (none, [])
  | _ =>
    let ms := match first with
      | some f => if d.qlOn l then c.filter fun k => d.entryRank l k == d.entryRank l f else c
      | none => []
    (none, ms)

/-- R125: the selection in force is an ensemble: it has no active reference. A new mode acts once the selection
program has written SEL_STAT for it. -/
def Dev.ensemble (d : Dev) (l : Nat) : Bool := !d.flag F.SEL_STAT.ACTIVE_VALID l

/-- R125: the weight of an entry: its WEIGHT in an ensemble, 0x1_0000 for a single active reference. -/
def Dev.weight (d : Dev) (l k : Nat) : Nat :=
  if d.ensemble l then d.get (F.SEL_WEIGHT.WEIGHT.at k) l else 0x10000

/-- The build-out offset of an entry (SEL_BO). -/
def Dev.buildOut (d : Dev) (l k : Nat) : Int :=
  toSigned 64 (d.get64 (F.SEL_BO_LO.BO.at k) (F.SEL_BO_HI.BO.at k) l)

/-- R125: the members whose stamps the combiner mixes; held entries are never members. -/
def Dev.members (d : Dev) (l : Nat) : List Nat :=
  let ms := if d.ensemble l then (List.range 8).filter (bit (d.get F.SEL_STAT.MEMBERS l)) else [d.get F.SEL_STAT.ACTIVE l]
  ms.filter fun k => !bit (d.get F.SEL_STAT.HELD l) k

/-- R148: the active reference, or the member with the largest weight, the lower entry of equals. -/
def Dev.mainEntry (d : Dev) (l : Nat) : Option Nat :=
  (d.members l).foldl (fun b k => match b with
    | none => some k
    | some j => if d.weight l j < d.weight l k then some k else some j) none

/-! ## Stamps in rings (R200-R202) -/

/-- R10: what a reader takes from a stamp record. -/
structure Stamp where
  time : Nat
  flags : Nat
  count : Nat
  deriving DecidableEq, Repr, Inhabited

/-- The queue of a channel's ring (R202). -/
def stampQueue (c : Nat) : Nat := 256 + c

/-- R144: the channel gives stamps to detectors: mode FIRST_PER_TICK or SAMPLE, ring enabled. -/
def Dev.chanGives (d : Dev) (c : Nat) : Bool :=
  let m := d.get F.TDC_CH_CFG.MODE c
  (m == 2 || m == 4) && d.qEnabled (stampQueue c)

/-- Records that a channel's ring still holds. -/
def Dev.stampsHeld (d : Dev) (c : Nat) : Nat :=
  min (Tbl.getD d.vat.pushed (stampQueue c) 0) (d.qdesc (stampQueue c)).size

/-- Vat offset of the i-th newest record. -/
def Dev.stampAddr (d : Dev) (c i : Nat) : Nat :=
  let x := d.qdesc (stampQueue c)
  x.entryAddr ((x.tail + 2 ^ 32 - 1 - i) % 2 ^ 32)

/-- R100: the i-th newest record; a poisoned one counts as absent. -/
def Dev.stampAt (d : Dev) (c i : Nat) : Option Stamp :=
  let a := d.stampAddr c i
  if d.vbad a 16 then none
  else some ⟨d.vraw (a + 4) 4 + d.vraw (a + 8) 8 * 2 ^ 32, d.vraw (a + 1) 1, d.vraw (a + 2) 2⟩

/-- The newest record with a time in [lo, hi), from the i-th newest on, looking at n records. -/
def Dev.stampScan (d : Dev) (c lo hi : Nat) : Nat → Nat → Option Stamp
  | 0, _ => none
  | n + 1, i =>
    match d.stampAt c i with
    | none => d.stampScan c lo hi n (i + 1)
    | some s =>
      if s.time < lo then none
      else if s.time < hi then some s
      else d.stampScan c lo hi n (i + 1)

/-- R144: the newest stamp of a channel with a time in [lo, hi). -/
def Dev.stampIn (d : Dev) (c lo hi : Nat) : Option Stamp :=
  if d.chanGives c then d.stampScan c lo hi (d.stampsHeld c) 0 else none

/-- R97, R100: the reads of `stampScan`: a poisoned record is recorded, counts in LOST and is passed over. Its place in
the ring, which what was stored in it tells, is the producer's knowledge. -/
def Dev.stampReads (d : Dev) (c lo hi : Nat) : Nat → Nat → Dev
  | 0, _ => d
  | n + 1, i =>
    let a := d.stampAddr c i
    let t := d.vraw (a + 4) 4 + d.vraw (a + 8) 8 * 2 ^ 32
    if t < lo then d
    else if t < hi then
      let e := d.vatTouch a 16 4
      if d.vbad a 16 then (e.incSat F.TDC_CH_STAT.LOST c).stampReads c lo hi n (i + 1) else e
    else d.stampReads c lo hi n (i + 1)

/-- R97, R100: a hardware block reads the newest stamp of a channel with a time in [lo, hi). -/
def Dev.stampTouch (d : Dev) (c lo hi : Nat) : Dev :=
  if d.chanGives c then d.stampReads c lo hi (d.stampsHeld c) 0 else d

/-- R100: the frequency monitor at the end of a tick: where the record of the tick's stamp is poisoned, the stamp is absent
from the gates that it entered. -/
def Dev.fmonRead (d : Dev) (n : Nat) : Dev :=
  let x := d.mon n
  if x.gateKept == (x.gateFirst, x.gateLast, x.gateK) then d
  else
    let bad := d.chanGives n && 0 < d.stampsHeld n && d.vbad (d.stampAddr n 0) 16
    let d := d.stampTouch n (d.time.lt / 2 ^ 16) ((d.time.lt + d.time.dlt) / 2 ^ 16)
    if !bad then d else
    let x := d.mon n
    let d := d.setMon n { x with gateFirst := x.gateKept.1, gateLast := x.gateKept.2.1, gateK := x.gateKept.2.2 }
    (List.range 40).foldl (fun d m =>
      if d.get F.IN_MON_CFG.BASIS m == n + 1 then
        let x := d.mon m
        d.setMon m { x with basisFirst := x.basisKept.1, basisLast := x.basisKept.2.1, basisK := x.basisKept.2.2 }
      else d) d

/-- The gates as the tick leaves them. -/
def Dev.fmonKeep (d : Dev) (n : Nat) : Dev :=
  let x := d.mon n
  d.setMon n { x with
    gateKept := (x.gateFirst, x.gateLast, x.gateK), basisKept := (x.basisFirst, x.basisLast, x.basisK) }

/-- FREQUENCY_GATE_END stands in the tick's last cycle (log entry 4): no edge of the tick follows it. -/
def execFrequencyGateEnd (n : Fin 40) (s : State) : StepOut :=
  s.run fun d =>
    let d := (List.range 40).foldl Dev.fmonRead { d with cycle := 1249 }
    (d.basisMark n).freqGateEnd n

/-! ## Periods (R144, R164, R172) -/

/-- The plan that the registers of a synthesizer hold. -/
def Dev.planOf (d : Dev) (n : Nat) : Plan :=
  { nint := d.get F.SYN_PLAN.NINT n
    frac := d.get F.SYN_NFRAC_LO.NFRAC n + d.get F.SYN_NFRAC_HI.NFRAC n % 2 ^ 16 * 2 ^ 32
    rdiv := d.get F.SYN_PLAN.RDIV n, mult := d.get F.SYN_PLAN.MULT n, post := d.get F.SYN_PLAN.POST n }

/-- R167, R186: the plan that a synthesizer runs: one that takes effect while its word is frozen is recorded. -/
def Dev.plan (d : Dev) (n : Nat) : Plan := if (d.syn n).enNow then (d.syn n).planNow else d.planOf n

/-- R164: f_pfd N of a plan in Hz, as a fraction. -/
def Dev.planHz (d : Dev) (p : Plan) : Nat × Nat := (d.xoHz * (p.mult + 1) * (p.nint * 2 ^ 48 + p.frac), p.rdiv * 2 ^ 48)

/-- The VCO frequency of the plan in a synthesizer's registers under the word 0, in Hz as a fraction. -/
def Dev.vco (d : Dev) (n : Nat) : Nat × Nat := d.planHz (d.planOf n)

/-- The nominal VCO frequency of a synthesizer, that of the plan it runs under the word 0. -/
def Dev.vcoNom (d : Dev) (n : Nat) : Nat × Nat := d.planHz (d.plan n)

/-- R164: f_vco with the word in force, in Hz as a fraction. -/
def Dev.vcoHz (d : Dev) (n : Nat) : Nat × Nat :=
  let (a, b) := d.vcoNom n
  (a * (2 ^ 48 + (d.syn n).word).toNat, b * 2 ^ 48)

/-- Units of 2^-32 ns in a second. -/
def secUnits : Nat := 10 ^ 9 * 2 ^ 32

/-- R172: D2 of an output. -/
def Dev.outD2 (d : Dev) (k : Nat) : Nat := d.get F.OUT_DIV_LO.D2 k + d.get F.OUT_DIV_HI.D2 k % 32 * 2 ^ 32

/-- The nominal period of an output's divider, which runs on under every safe state (R177): numerator and denominator in
2^-32 ns. -/
def Dev.outPeriod (d : Dev) (k : Nat) : Nat × Nat :=
  let x := d.outc k
  let (vn, vd) := d.vcoNom x.src
  ((d.plan x.src).post * x.d2 * vd * secUnits, max 1 (2 * vn))

/-- R144: P_c, the nominal period of feedback channel c after its prescaler. -/
def Dev.fbPeriod (d : Dev) (c : Nat) : Nat × Nat :=
  let (n, e) := d.outPeriod (c - 40)
  (n * d.get F.TDC_CH_DIV.DIV c, e)

/-- The nominal prescaled period of a reference; none for a remote one, whose period no frame carries. -/
def Dev.refPeriod (d : Dev) (ref : Nat) : Option (Nat × Nat) :=
  if ref < 40 then some (d.inPeriodNum ref, d.inNom ref) else none

/-- R144, LOG ENTRY 12: the reference's period is an integer multiple of P_c; a remote one is taken to be. -/
def Dev.periodFits (d : Dev) (ref num den : Nat) : Bool :=
  match d.refPeriod ref with
  | some (pn, pd) => pd != 0 && num != 0 && pn * den % (pd * num) == 0
  | none => true

/-! ## The raw error and the combiner (R125, R144) -/

/-- R144: x folded into [-p/2, p/2), all over one denominator. -/
def foldMod (x : Int) (p : Nat) : Int :=
  if 2 * (x % p) ≥ p then x % p - p else x % p

/-- The feedback channel of a loop. -/
def Dev.fbChan (d : Dev) (l : Nat) : Nat := d.get F.LOOP_CTRL.FB l

/-- The synthesizer that drives a feedback channel's output. -/
def Dev.fbSyn (d : Dev) (c : Nat) : Nat := (d.outc (c - 40)).src

/-- The stamp of a reference with a time in [lo, hi); of a remote one, whose stamps come a tick later (R274), the newest of
its ring if it came in the present tick. -/
def Dev.refStamp (d : Dev) (ref lo hi : Nat) : Option Nat :=
  if ref < 40 then (d.stampIn ref lo hi).map (·.time)
  else
    let r := d.rref (ref - 40)
    if r.rxTick = some d.tick ∧ r.stamp.isSome then r.ring.head? else none

/-- R144: the error of a stamp s against feedback channel c, over the denominator of P_c. -/
def Dev.foldStamp (d : Dev) (c s : Nat) : Option Int :=
  let (num, den) := d.fbPeriod c
  let hop := (d.syn (d.fbSyn c)).hopLt
  match d.stampIn c 0 (s + 1) with
  | none => none
  | some f =>
    if bit f.flags 1 ∨ num = 0 ∨ (f.time < hop ∧ hop ≤ s) then none
    else some (foldMod (((s : Int) - f.time) * den) num)

/-- R144: e_k of an entry for stamps in [lo, hi), over the denominator of P_c. -/
def Dev.rawErr (d : Dev) (l k lo hi : Nat) : Option Int :=
  let c := d.fbChan l
  let (num, den) := d.fbPeriod c
  let ref := d.entryRef l k
  if !d.entryValid l k || !d.periodFits ref num den then none
  else match d.refStamp ref lo hi with
  | none => none
  | some s => d.foldStamp c s

/-- R125: the combined error of weighted, corrected errors over `den`; none without weight. -/
def combine (den : Nat) (ms : List (Nat × Int)) : Option Int :=
  let w := (ms.map (·.1)).foldl (· + ·) 0
  if w = 0 then none
  else some (roundDiv ((ms.map fun m => (m.1 : Int) * m.2).foldl (· + ·) 0) (den * w))

/-- R125: the members with a stamp in [lo, hi), with their raw errors. -/
def Dev.stamped (d : Dev) (l : Nat) (ms : List Nat) (lo hi : Nat) : List (Nat × Int) :=
  ms.filterMap fun k => (d.rawErr l k lo hi).map (k, ·)

/-- R97, R100, R144: the records that the detector reads for stamps of [lo, hi): each member's, and for its stamp the
latest of the feedback channel. -/
def Dev.detectorTouch (d : Dev) (l : Nat) (ms : List Nat) (lo hi : Nat) : Dev :=
  ms.foldl (fun d k =>
    let ref := d.entryRef l k
    let e := if ref < 40 then d.stampTouch ref lo hi else d
    match d.refStamp ref lo hi with
    | some s => if 40 ≤ d.fbChan l then e.stampTouch (d.fbChan l) 0 (s + 1) else e
    | none => e) d

/-- R125: e of a loop for stamps in [lo, hi) with given weights and offsets. -/
def Dev.combined (d : Dev) (l : Nat) (st : List (Nat × Int)) (w : Nat → Nat) (b : Nat → Int) : Option Int :=
  let den := (d.fbPeriod (d.fbChan l)).2
  combine den (st.map fun m => (w m.1, m.2 - b m.1 * den))

end Sys2Proof.Machine
end

