-- ==== Sys2Proof/Machine/Synth.lean ====
section
/-! DEFINITION. Synthesizers: words in force, hops, the band memory (R164-R171), and the release from HOLD (R186). -/

namespace Sys2Proof.Machine

/-- R155: the step of a slope in units of 0.001 ppb per tick. -/
def slopeStep (slope : Nat) : Nat := slope * 2 ^ 48 / 10 ^ 12

/-- R155: a word moved towards a target by at most one step. -/
def towards (cur target : Int) (step : Nat) : Int :=
  if (target - cur).natAbs ≤ step then target else if cur < target then cur + step else cur - step

/-- R165: the loop that a synthesizer is bound to. -/
def Dev.synLoop (d : Dev) (n : Nat) : Option Nat :=
  let l := d.get F.SYN_CFG.LOOP n
  if l ≤ 32 then some l else none

/-- R278: a follower, whose TLOOP mirrors the lead's and ignores TLOOP_CFG. -/
def Dev.follower (d : Dev) : Bool := d.get F.KL_GROUP_STAT.ROLE == 2

/-- R222, R278: the TLOOP word that applies: the group's in a joined device, else TLOOP's own. One that is SPLIT keeps the last
(DEDUCED, log entry 53). -/
def Dev.tlWord (d : Dev) : Int :=
  if d.get F.KL_GROUP_STAT.ROLE = 0 then (d.loop 32).applied else d.kl.tword

/-- R147, R278: the word in force of a loop. -/
def Dev.loopWord (d : Dev) (l : Nat) : Int := if l = 32 then d.tlWord else (d.loop l).applied

/-- R165: the word that the bound loop applies; an unbound synthesizer applies 0. -/
def Dev.synTarget (d : Dev) (n : Nat) : Int :=
  match d.synLoop n with
  | some l => d.loopWord l
  | none => 0

/-- R186: the step of a released synthesizer. -/
def Dev.releaseStep (d : Dev) (n : Nat) : Nat :=
  match d.synLoop n with
  | some l => slopeStep (d.get F.LOOP_COAST.GSLOPE l)
  | none => slopeStep 100

/-- R165, R184, R186: the synthesizer takes its word at boundary action 3. -/
def Dev.synApply (d : Dev) (n : Nat) : Dev :=
  let x := d.syn n
  let w := d.synTarget n
  if d.flag F.SYN_STAT.HOLD n then d
  else if x.releasing then
    let v := towards x.word w (d.releaseStep n)
    d.setSyn n { x with word := v, releasing := v != w }
  else d.setSyn n { x with word := w }

/-! ## The band memory (R167, R169) -/

/-- Word k of band memory entry e of synthesizer n: its key in the register file. -/
def bmKey (n e k : Nat) : Nat := R.SYN_BM_DATA.base + 256 * n + 4 * k + copyStride * e

def Dev.bmWord (d : Dev) (n e k : Nat) : Nat := (Tbl.getD d.regs (bmKey n e k) 0).toNat

/-- The 16 bytes of a band memory entry. -/
def Dev.bmBytes (d : Dev) (n e : Nat) : List Byte :=
  (List.range 4).flatMap fun k => leBytes 4 (d.bmWord n e k)

/-- An entry is written in full. -/
def Dev.bmStore (d : Dev) (n e : Nat) (l : List Byte) : Dev :=
  (List.range 4).foldl (fun d k =>
    { d with regs := Tbl.set d.regs (bmKey n e k) (BitVec.ofNat 32 (leAt l (4 * k) 4)) }) d

/-- VALID of an entry. -/
def Dev.bmValid (d : Dev) (n e : Nat) : Bool := bit (leAt (d.bmBytes n e) 3 1) 1

/-- R167: the lookup key of the plan in force: NINT, RDIV, MULT, NFRAC[47:24]. -/
def Dev.bmPlanKey (d : Dev) (n : Nat) : Nat × Nat × Nat × Nat :=
  let p := d.plan n
  (p.nint, p.rdiv, p.mult, p.frac / 2 ^ 24)

/-- The key of an entry. -/
def bmKeyOf (l : List Byte) : Nat × Nat × Nat × Nat := (leAt l 0 2 % 2 ^ 11, leAt l 2 1, leAt l 3 1 % 2, leAt l 4 3)

/-- An entry with the plan's key. -/
def Dev.bmFind (d : Dev) (n : Nat) : Option Nat :=
  (List.range 64).find? fun e => d.bmValid n e && decide (bmKeyOf (d.bmBytes n e) = d.bmPlanKey n)

/-- The reading of sensor TS(n / 4), 1/128 °C (R167, R379). -/
def Dev.synTemp (d : Dev) (n : Nat) : Int := (d.sensors.getD (n / 4) 0).toInt

/-- R167: the lookup is a hit. -/
def Dev.bmHit (d : Dev) (n : Nat) : Option Nat :=
  (List.range 64).find? fun e =>
    d.bmValid n e && decide (bmKeyOf (d.bmBytes n e) = d.bmPlanKey n) &&
    decide ((toSigned 16 (leAt (d.bmBytes n e) 9 2) - d.synTemp n).natAbs ≤ d.get F.SYN_CFG.BM_TWIN n * 128)

/-- R169: the entry that a search result goes to. -/
def Dev.bmPlace (d : Dev) (n : Nat) : Option Nat :=
  let es := List.range 64
  (d.bmFind n).or ((es.find? fun e => !d.bmValid n e).or
    ((es.filter fun e => !bit (leAt (d.bmBytes n e) 3 1) 2).foldl (fun b e => match b with
      | none => some e
      | some a => if leAt (d.bmBytes n e) 12 4 < leAt (d.bmBytes n a) 12 4 then some e else some a) none))

/-- LAST_USE: seconds of TICK_COUNT. -/
def Dev.useSecond (d : Dev) : Nat := d.tick / 10 ^ 6 % 2 ^ 32

/-- R169: a search stores its result. PINNED of a replaced entry with the same key is kept. -/
def Dev.bmResult (d : Dev) (n : Nat) (core : Bool) (band vt : Nat) : Dev :=
  match d.bmPlace n with
  | none => d.put F.SYN_STAT.BM_FULL 1 n
  | some e =>
    let (nint, rdiv, mult, frac) := d.bmPlanKey n
    let pin := if d.bmFind n = some e then b2n (bit (leAt (d.bmBytes n e) 3 1) 2) else 0
    let l := leBytes 2 nint ++ leBytes 1 rdiv ++ leBytes 1 (mult + 2 + 4 * pin) ++ leBytes 3 frac ++ leBytes 1 0 ++
      leBytes 1 (band % 128 + 128 * b2n core) ++ leBytes 2 (ofSigned 16 (d.synTemp n)) ++ leBytes 1 vt ++
      leBytes 4 d.useSecond
    ((d.bmStore n e l).put F.SYN_STAT.BM_FULL 0 n).put F.SYN_STAT.ENTRY e n

/-! ## Hops (R167-R171) -/

/-- R168: every output whose source is the synthesizer has a new hop to align after. -/
def Dev.hopOutputs (d : Dev) (n : Nat) : Dev :=
  (List.range 72).foldl (fun d k =>
    if (d.outc k).src = n then d.setOutc k { d.outc k with aligned := false } else d) d

/-- R167: a hop starts at the present boundary. -/
def Dev.hopStart (d : Dev) (n : Nat) (search : Bool) : Dev :=
  let d := d.setSyn n { d.syn n with
    hopFrom := d.tick, hopLt := d.time.lt / 2 ^ 16, cmdSearch := false, cmdAbort := false,
    planNow := d.planOf n, enNow := true }
  let hit := if search then none else d.bmHit n
  let d := (d.put F.SYN_STAT.LOCK 0 n).levelOff 131 n
  let d := match hit with
    | some e => ((d.put F.SYN_STAT.SEARCH 1 n).put F.SYN_STAT.HIT 1 n).put F.SYN_STAT.ENTRY e n
    | none => (d.put F.SYN_STAT.SEARCH 2 n).put F.SYN_STAT.HIT 0 n
  d.hopOutputs n

/-- R167 and its example: at the boundary after a hit the stored core and band are loaded. -/
def Dev.hopLoad (d : Dev) (n : Nat) : Dev :=
  if d.get F.SYN_STAT.SEARCH n = 1 ∧ (d.syn n).hopFrom + 1 = d.tick then
    let b := leAt (d.bmBytes n (d.get F.SYN_STAT.ENTRY n)) 8 1
    (d.put F.SYN_STAT.CORE (b / 128) n).put F.SYN_STAT.BAND (b % 128) n
  else d

/-- R167: the length of the hop in progress in ticks. -/
def Dev.hopLen (d : Dev) (n : Nat) : Nat := if d.get F.SYN_STAT.SEARCH n = 1 then 8 else 200

/-- R170: the hop declares lock at the present boundary or has already been due. -/
def Dev.hopDue (d : Dev) (n : Nat) : Bool := d.inHop n && (d.syn n).hopFrom + d.hopLen n ≤ d.tick

/-- R167: the hop ends. -/
def Dev.hopEnd (d : Dev) (n code : Nat) (lock : Bool) : Dev :=
  ((d.put F.SYN_STAT.SEARCH code n).putB F.SYN_STAT.LOCK lock n).put F.SYN_TIME.TICKS
    (min 65535 (d.tick - (d.syn n).hopFrom)) n

/-- The core that the target frequency selects: A below 11.1 GHz, B above 11.3 GHz; where the cores' ranges
overlap the search reports which it used. -/
def Dev.hopCore (d : Dev) (n : Nat) (found : Bool) : Bool :=
  let (vn, vd) := d.vcoNom n
  if vn < 11100000000 * vd then false else if 11300000000 * vd < vn then true else found

/-- R167, R169: HOP_LOCK: the hop that is due declares lock, or its search ends FAILED. -/
def Dev.hopLock (d : Dev) (n : Nat) (locked core : Bool) (band vt : Nat) : Dev :=
  if !d.hopDue n then d
  else if d.get F.SYN_STAT.SEARCH n = 1 then
    let e := d.get F.SYN_STAT.ENTRY n
    let l := d.bmBytes n e
    (d.bmStore n e (l.take 12 ++ leBytes 4 d.useSecond)).hopEnd n 3 true
  else if locked then
    let c := d.hopCore n core
    let d := (d.put F.SYN_STAT.CORE (b2n c) n).put F.SYN_STAT.BAND band n
    (d.bmResult n c band vt).hopEnd n 3 true
  else (d.hopEnd n 5 false).levelOn 131 n

def execHopLock (n : Fin 16) (locked core : Bool) (band : Fin 128) (vt : BitVec 8) (s : State) : StepOut :=
  s.run fun d => d.hopLock n locked core band vt.toNat

/-- R170: an ABORT takes effect at the present boundary; at the boundary of the lock it loses. -/
def Dev.hopAbort (d : Dev) (n : Nat) : Dev :=
  let d' := d.setSyn n { d.syn n with cmdAbort := false }
  if !d.inHop n then d'
  else if d.hopDue n then d'.put F.SYN_STAT.ABORT_LATE 1 n
  else ((d'.hopEnd n 4 false).put F.SYN_STAT.ABORT_LATE 0 n).levelOn 131 n

/-- R167, R170, R171: what the boundary does to a synthesizer's hop. A hop waits while the synthesizer's word
is frozen by a safe state (R186). -/
def Dev.synBoundary (d : Dev) (n : Nat) : Dev :=
  let x := d.syn n
  let en := d.flag F.SYN_CFG.ENABLE n
  let d := (if x.cmdAbort then d.hopAbort n else d).hopLoad n
  if !en then
    let d := if x.enNow then
        ((d.put F.SYN_STAT.LOCK 0 n).put F.SYN_STAT.SEARCH (if d.inHop n then 4 else d.get F.SYN_STAT.SEARCH n) n).levelOff 131 n
      else d
    d.setSyn n { d.syn n with enNow := false, cmdSearch := false, planNow := d.planOf n }
  else if d.flag F.SYN_STAT.HOLD n then d
  else if x.cmdSearch then d.hopStart n true
  else if !x.enNow || d.planOf n != x.planNow then d.hopStart n false
  else d

/-- R171: SYN_CMD SEARCH, taken at the next boundary. -/
def Dev.synSearch (d : Dev) (n : Nat) : Dev := d.setSyn n { d.syn n with cmdSearch := true }
/-- R170: SYN_CMD ABORT, taken at the next boundary. -/
def Dev.synAbort (d : Dev) (n : Nat) : Dev := d.setSyn n { d.syn n with cmdAbort := true }

def execSynSearch (p : Path) (n : Fin 16) (s : State) : StepOut := s.runBy p (R.SYN_CMD.off n) fun d => d.synSearch n
def execSynAbort (p : Path) (n : Fin 16) (s : State) : StepOut := s.runBy p (R.SYN_CMD.off n) fun d => d.synAbort n

/-- R169: a host or engine changes PINNED of a VALID entry; any other change is refused. -/
def Dev.bmHostWrite (d : Dev) (n e k v : Nat) : Option Dev :=
  let old := d.bmWord n e k
  let w := BitVec.ofNat 32 v
  if old = v then some d
  else if k = 0 ∧ d.bmValid n e ∧ setBits old 26 26 (bits v 26 26) = v then
    some { d with regs := Tbl.set d.regs (bmKey n e k) w }
  else none

end Sys2Proof.Machine
end

