-- ==== Sys2Proof/Machine/Outputs.lean ====
section
/-! DEFINITION. Outputs: gates, sources, dividers, delays, deterministic phase, banks, safe states
(R172-R186). -/

namespace Sys2Proof.Machine

/-! ## Gates and pins (R176, R178) -/

/-- R178: the swing in mV that SWING selects: LVDS 250 to 550, CML 400 to 1,000. -/
def swingMv (format swing : Nat) : Nat :=
  if format = 1 then 250 + 100 * swing else if format = 3 then 400 + 200 * swing else 0

/-- R176, R178, R305, R324, R370: what an output's pins carry. -/
def Dev.outDrive (d : Dev) (k : Nat) : Drive :=
  let f := d.get F.OUT_CFG.FORMAT k
  let on := d.flag F.OUT_STAT.OPEN k
  if f = 0 || (d.boot.outsHeld && !on) then ⟨.highZ, .highZ, 0, 0⟩
  else if f = 5 then
    let n := match on, d.get F.OUT_CFG.NLEG k with
      | true, 1 => Leg.clock
      | true, 2 => Leg.inverted
      | _, _ => Leg.low
    ⟨if on then .clock else .low, n, 0, d.get F.OUT_CFG.DRIVE k⟩
  else
    let mv := swingMv f (d.get F.OUT_CFG.SWING k)
    if on then ⟨.clock, .inverted, mv, 0⟩ else ⟨.low, .high, mv, 0⟩

/-- The pins take up what the output now drives. -/
def Dev.driveNow (d : Dev) (k : Nat) : Dev :=
  if d.outDrive k = (d.outc k).drive then d
  else (d.setOutc k { d.outc k with drive := d.outDrive k }).emit (.output k (d.outDrive k))

/-- R176: the gate opens during the next low phase, if it should be open. -/
def Dev.gateOpen (d : Dev) (k : Nat) : Dev :=
  if d.gateWant k && !d.flag F.OUT_STAT.OPEN k then (d.put F.OUT_STAT.OPEN 1 k).driveNow k else d

/-- R176: the gate closes during the next low phase, if it should be closed. -/
def Dev.gateClose (d : Dev) (k : Nat) : Dev :=
  if !d.gateWant k && d.flag F.OUT_STAT.OPEN k then (d.put F.OUT_STAT.OPEN 0 k).driveNow k else d

/-- R324, R370: every output is to stop: a running one at its next low phase, or cut after `limit` ticks; one that has stopped goes
to high impedance. -/
def Dev.outsStop (d : Dev) (limit : Nat) : Dev :=
  let d := { d with boot := { d.boot with
    outsHeld := true, stopLeft := if d.boot.stopLeft = 0 then limit else min limit d.boot.stopLeft } }
  (List.range 72).foldl Dev.driveNow d

/-- R324, R370: every output has stopped. -/
def Dev.outsStopped (d : Dev) : Bool := (List.range 72).all fun k => !d.flag F.OUT_STAT.OPEN k

/-- R324, R370: one tick passes while outputs are to stop; at the end of their time the running ones are cut. -/
def Dev.outsCut (d : Dev) : Dev :=
  match d.boot.stopLeft with
  | 0 => d
  | n + 1 =>
    let d := { d with boot := { d.boot with stopLeft := n } }
    if n ≠ 0 then d else
    (List.range 72).foldl (fun (d : Dev) k => if d.flag F.OUT_STAT.OPEN k then (d.put F.OUT_STAT.OPEN 0 k).driveNow k else d) d

/-- R304, R370: after a trip of the power-loss detector or in a save, the synthesizers stop after the last output has stopped. -/
def Dev.lossBoundary (d : Dev) : Dev :=
  if (d.boot.loss || d.boot.halted) && d.outsStopped then
    (List.range 16).foldl (fun (d : Dev) n => d.put F.SYN_STAT.LOCK 0 n) d
  else d

def execOutputGateOpen (k : Fin 72) (s : State) : StepOut := s.run fun d => d.gateOpen k
def execOutputGateClose (k : Fin 72) (s : State) : StepOut := s.run fun d => d.gateClose k

/-! ## Deterministic phase (R180-R183) -/

def Dev.dphState (d : Dev) (k : Nat) : Nat := d.get F.OUT_DPH_STAT.STATE k

/-- Code of a procedure state. -/
def dphOff : Nat := 0
def dphWait : Nat := 1
def dphMeasure : Nat := 2
def dphSlip : Nat := 3
def dphTrim : Nat := 4
def dphAligned : Nat := 5
def dphRange : Nat := 6
def dphRatio : Nat := 7

/-- DPH_STALL holds in RANGE and RATIO. -/
def Dev.dphSet (d : Dev) (k st : Nat) : Dev :=
  let d := d.put F.OUT_DPH_STAT.STATE st k
  let d := if st = dphAligned then d.setOutc k { d.outc k with aligned := true } else d
  d.levelSet 134 k (st == dphRange || st == dphRatio)

/-- A measuring window starts. -/
def Dev.dphWindow (d : Dev) (k : Nat) : Dev := d.setOutc k { d.outc k with pairs := 0, pairSum := 0 }

/-- R182: no trim and no slip goes on. -/
def Dev.dphStill (d : Dev) (k : Nat) : Dev :=
  d.setOutc k { d.outc k with trimmed := false, trimTo := none, slipTo := none }

/-- R174, R181: the alignment is void and the procedure starts again from WAIT. An output that has been ALIGNED since its
enable and its last hop stays one for HOLD_START. -/
def Dev.dphVoid (d : Dev) (k : Nat) : Dev :=
  let d := d.dphStill k
  if d.flag F.OUT_DPH_CFG.ENABLE k then d.dphSet k dphWait
  else (d.setOutc k { d.outc k with aligned := false }).dphSet k dphOff

/-- R180: the loop whose reference or lock the target needs. -/
def Dev.dphLoop (d : Dev) (k : Nat) : Option Nat :=
  if d.flag F.OUT_DPH_CFG.TARGET k then some 32
  else d.synLoop (d.outc k).src

/-- R181: the loop is LOCKED and the synthesizer is locked. -/
def Dev.dphReady (d : Dev) (k : Nat) : Bool :=
  d.flag F.SYN_STAT.LOCK (d.outc k).src &&
  match d.dphLoop k with
  | some l => d.get F.LOOP_STATE.STATE l == 2
  | none => false

/-- R180, R162: the reference that a REF target names and its build-out offset: a loop's main entry, or the PPS channel of
TLOOP. -/
inductive DphRef where
  | entry (ref : Nat) (offset : Int)
  | pps (chan : Nat)
  deriving DecidableEq, Repr, Inhabited

def Dev.dphRef (d : Dev) (k : Nat) : Option DphRef :=
  (d.dphLoop k).bind fun l =>
    if l = 32 then if d.get F.TLOOP_CFG.SRC = 1 ∧ !d.follower then some (.pps (d.get F.TLOOP_CFG.CH)) else none
    else (d.mainEntry l).map fun e => .entry (d.entryRef l e) (d.buildOut l e)

/-- R180: the reference's prescaled nominal period is an integer multiple of num / den. A PPS of an event port has a period
of one second before its prescaler (log entry 89). -/
def Dev.refRelated (d : Dev) (r : DphRef) (num den : Nat) : Bool :=
  match r with
  | .entry ref _ => d.periodFits ref num den
  | .pps c => if c < 40 then d.periodFits c num den else d.get F.TDC_CH_DIV.DIV c * secUnits * den % max 1 num == 0

/-- R180: the target stamp of a REF target in [lo, hi), its build-out offset subtracted. -/
def Dev.dphTarget (d : Dev) (r : DphRef) (lo hi : Nat) : Option (Nat × Int) :=
  match r with
  | .entry ref off => (d.refStamp ref lo hi).map (·, off)
  | .pps c => (d.stampIn c lo hi).map fun s => (s.time, 0)

/-- R180: the target's period is related to T_o. -/
def Dev.dphRelated (d : Dev) (k : Nat) : Bool :=
  let (num, den) := d.outPeriod k
  if num = 0 then false
  else if d.flag F.OUT_DPH_CFG.TARGET k then
    -- a whole number of hertz, or a whole number of seconds
    secUnits * den % num == 0 || num % (secUnits * den) == 0
  else match d.dphRef k with
    | some r => d.refRelated r num den
    | none => false

/-- R180, R181: the procedure at a boundary; the state is RATIO whenever the required relation fails.
With no reference at hand it is not judged anew. -/
def Dev.dphBoundary (d : Dev) (k : Nat) : Dev :=
  let st := d.dphState k
  if !d.flag F.OUT_DPH_CFG.ENABLE k then if st = dphOff then d else d.dphVoid k
  else if !d.dphReady k then if st = dphWait then d else (d.dphStill k).dphSet k dphWait
  else if !d.dphRelated k && (st == dphWait || st == dphOff || d.flag F.OUT_DPH_CFG.TARGET k || (d.dphRef k).isSome) then
    if st = dphRatio then d else (d.dphStill k).dphSet k dphRatio
  else if st = dphRatio && !d.dphRelated k then d
  else if st = dphOff ∨ st = dphWait ∨ st = dphRatio then ((d.dphStill k).dphWindow k).dphSet k dphMeasure
  else if st = dphRange ∧ (d.flag F.OUT_DPH_CFG.SLIP_RUN k ∨ !d.flag F.OUT_STAT.OPEN k) then
    (d.dphWindow k).dphSet k dphMeasure
  else d

/-- OFFSET of an output's alignment, a phase value. -/
def Dev.dphOffset (d : Dev) (k : Nat) : Int :=
  toSigned 64 (d.get64 F.OUT_DPH_OFFSET_LO.OFFSET F.OUT_DPH_OFFSET_HI.OFFSET k)

/-- R180: the folded difference of the tick's pair over the denominator of T_o; stamps of the tick lie in [lo, hi). -/
def Dev.dphPair (d : Dev) (k lo hi : Nat) : Option Int :=
  let (num, den) := d.outPeriod k
  let c := 40 + k
  let fold := fun (x : Int) => foldMod (x * den) num
  if num = 0 then none
  else if d.flag F.OUT_DPH_CFG.TARGET k then
    -- the target edges repeat each T_o from a whole second, so every one gives the same folded difference
    match d.stampIn c lo hi with
    | some s => some (fold ((s.time : Int) - (if num % (secUnits * den) = 0 then 0 else (s.time / secUnits * secUnits : Nat)) -
        d.dphOffset k))
    | none => none
  else match (d.dphRef k).bind fun r => d.dphTarget r lo hi with
    | none => none
    | some (r, off) => (d.stampIn c 0 (r - off + 1).toNat).map fun s => fold ((s.time : Int) - (r - off) - d.dphOffset k)

/-- R97, R100: the stamps that the procedure reads for the tick's pair: the target's and the output's. -/
def Dev.dphTouch (d : Dev) (k lo hi : Nat) : Dev :=
  if d.flag F.OUT_DPH_CFG.TARGET k then d.stampTouch (40 + k) lo hi
  else match d.dphRef k with
    | none => d
    | some r =>
      let e := match r with
        | .entry ref _ => if ref < 40 then d.stampTouch ref lo hi else d
        | .pps c => d.stampTouch c lo hi
      match d.dphTarget r lo hi with
      | some (t, off) => e.stampTouch (40 + k) 0 (t - off + 1).toNat
      | none => e

/-- R181, R182: a window takes the tick's pair. -/
def Dev.dphCollect (d : Dev) (k lo hi : Nat) : Dev :=
  let st := d.dphState k
  let x := d.outc k
  if (st = dphMeasure ∨ st = dphAligned) ∧ x.pairs < d.get F.OUT_DPH_CFG.AVG k then
    let e := d.dphTouch k lo hi
    match d.dphPair k lo hi with
    | some p => e.setOutc k { x with pairs := x.pairs + 1, pairSum := x.pairSum + p }
    | none => e
  else d

/-- POST x D of an output. -/
def Dev.postD (d : Dev) (k : Nat) : Nat := (d.plan (d.outc k).src).post * (d.outc k).d2 / 2

/-- R180, R181: |eps| is at least half a VCO period; eps is the mean over the window's pairs, sum / (pairs den). -/
def Dev.dphFar (d : Dev) (k : Nat) : Bool :=
  let x := d.outc k
  let (vn, vd) := d.vcoHz x.src
  let (_, den) := d.outPeriod k
  -- |sum| / (pairs den) >= vd secUnits / (2 vn)
  vd * secUnits * x.pairs * den ≤ 2 * vn * x.pairSum.natAbs

/-- eps in units of 0.5 ps, rounded to nearest. -/
def Dev.dphHalfPs (d : Dev) (k : Nat) : Int :=
  roundDiv ((d.outc k).pairSum * 2000) (max 1 ((d.outc k).pairs * (d.outPeriod k).2 * 2 ^ 32))

/-- |eps| is within TOL x 0.5 ps. -/
def Dev.dphNear (d : Dev) (k : Nat) : Bool :=
  (d.outc k).pairSum.natAbs * 2000 ≤
    d.get F.OUT_DPH_CFG.TOL k * ((d.outc k).pairs * (d.outPeriod k).2 * 2 ^ 32)

/-- round(eps / T_vco). -/
def Dev.dphSlips (d : Dev) (k : Nat) : Int :=
  let x := d.outc k
  let (vn, vd) := d.vcoHz x.src
  roundDiv (x.pairSum * vn) (max 1 (x.pairs * (d.outPeriod k).2 * (vd * secUnits)))

/-- R181: SLIP: COARSE at the next low phase; above 2^32 the main divider restarts and COARSE stays. -/
def Dev.dphSlipTo (d : Dev) (k : Nat) : Nat :=
  let m := d.postD k
  let c := d.get F.OUT_COARSE.COARSE k
  if 2 ^ 32 < m then c else (((c : Int) - d.dphSlips k) % (max 1 m : Nat)).toNat

/-- OUT_FINE. -/
def Dev.fineReg (d : Dev) (k : Nat) : Int := d.gets F.OUT_FINE.FINE k

/-- R181, R182: DPH_MEASURE_END: a window of AVG pairs ends. -/
def Dev.dphMeasureEnd (d : Dev) (k : Nat) : Dev :=
  let st := d.dphState k
  let x := d.outc k
  if (st = dphMeasure ∨ st = dphAligned) ∧ 0 < x.pairs ∧ d.get F.OUT_DPH_CFG.AVG k ≤ x.pairs then
    let e := d.dphHalfPs k
    let d := d.put F.OUT_DPH_STAT.RESID (ofSigned 16 (satSigned 16 e)) k
    if st = dphAligned then
      let dest := if d.dphNear k then none else some (d.fineReg k - e)
      (d.setOutc k { d.outc k with trimTo := dest }).dphWindow k
    else if d.dphFar k then
      if d.flag F.OUT_STAT.OPEN k && !d.flag F.OUT_DPH_CFG.SLIP_RUN k then d.dphSet k dphRange
      else (d.setOutc k { d.outc k with slipTo := some (d.dphSlipTo k) }).dphSet k dphSlip
    else if x.trimmed && d.dphNear k then ((d.setOutc k { d.outc k with trimTo := none }).dphWindow k).dphSet k dphAligned
    else (d.setOutc k { d.outc k with trimTo := some (d.fineReg k - e), trimTick := d.tick }).dphSet k dphTrim
  else d

def execDphMeasureEnd (k : Fin 72) (s : State) : StepOut := s.run fun d => d.dphMeasureEnd k

/-- R182: at 512 steps of FINE, COARSE takes one VCO period and FINE gives it back, rounded to 0.5 ps. -/
def Dev.dphRecentre (d : Dev) (k : Nat) : Dev :=
  let f := d.fineReg k
  if f.natAbs < 512 then d else
  let (vn, vd) := d.vcoHz (d.outc k).src
  let t := roundDiv (vd * secUnits * 2000 : Nat) (max 1 (vn * 2 ^ 32))
  let m := max 1 (d.postD k)
  let c := d.get F.OUT_COARSE.COARSE k
  let sgn : Int := if 0 ≤ f then 1 else -1
  let d := d.put F.OUT_COARSE.COARSE (((c : Int) + sgn) % (m : Nat)).toNat k
  let d := d.put F.OUT_FINE.FINE (ofSigned 12 (f - sgn * t)) k
  d.setOutc k { d.outc k with trimTo := (d.outc k).trimTo.map (· - sgn * t) }

/-- R181: the trim may move: one step a tick with the gate closed, one per TRIM_RATE with it open. -/
def Dev.trimDue (d : Dev) (k : Nat) : Bool :=
  let x := d.outc k
  x.trimTick + (if d.flag F.OUT_STAT.OPEN k then d.get F.OUT_DPH_RATE.TRIM_RATE k else 1) ≤ d.tick

/-- R181: the trim has arrived: a further window measures. -/
def Dev.trimArrived (d : Dev) (k : Nat) : Dev :=
  let x := d.outc k
  if d.dphState k = dphTrim then
    ((d.setOutc k { x with trimTo := none, trimmed := true }).dphWindow k).dphSet k dphMeasure
  else d.setOutc k { x with trimTo := none }

/-- R181, R182: DPH_TRIM_STEP: FINE moves one step towards its target. -/
def Dev.dphTrimStep (d : Dev) (k : Nat) : Dev :=
  let st := d.dphState k
  match (d.outc k).trimTo with
  | none => d
  | some dest =>
    if st != dphTrim && st != dphAligned then d
    else if d.fineReg k = dest then d.trimArrived k
    else if d.trimDue k then
      let f := if d.fineReg k < dest then d.fineReg k + 1 else d.fineReg k - 1
      let d := d.put F.OUT_FINE.FINE (ofSigned 12 f) k
      let d := d.setOutc k { d.outc k with trimTick := d.tick }
      let d := if f = dest then d.trimArrived k else d
      d.dphRecentre k
    else d

def execDphTrimStep (k : Fin 72) (s : State) : StepOut := s.run fun d => d.dphTrimStep k

/-! ## Divider, source and delay changes (R174, R175) -/

/-- R174: a new D2 takes effect at the start of the next output period, in a safe state too (R186 records none). -/
def Dev.dividerChange (d : Dev) (k : Nat) : Dev :=
  let x := d.outc k
  if x.d2 != d.outD2 k then (d.setOutc k { x with d2 := d.outD2 k }).dphVoid k else d

def execOutputDividerChange (k : Fin 72) (s : State) : StepOut := s.run fun d => d.dividerChange k

/-- R174: the divider takes its new synthesizer, which voids deterministic phase. -/
def Dev.srcTake (d : Dev) (k : Nat) : Dev :=
  let x := d.outc k
  if x.src != d.srcWant k then (d.setOutc k { x with src := d.srcWant k }).dphVoid k else d

/-- R184, R186: the pins change between the divider and the divided XO. -/
def Dev.xoTake (d : Dev) (k : Nat) : Dev := d.setOutc k { d.outc k with xo := d.xoWant k }

/-- R174, R184, R186: the output stops, parks and starts again on its new source. -/
def Dev.sourceSwitch (d : Dev) (k : Nat) : Dev :=
  let x := d.outc k
  if x.src != d.srcWant k || x.xo != d.xoWant k then
    let d := (d.srcTake k).xoTake k
    (d.putB F.OUT_STAT.OPEN (d.gateWant k) k).driveNow k
  else d

def execOutputSourceSwitch (k : Fin 72) (s : State) : StepOut := s.run fun d => d.sourceSwitch k

/-- R175, R181: new FINE and COARSE delays act at the next low phase; a slip ends in a new window. -/
def Dev.delayChange (d : Dev) (k : Nat) : Dev :=
  let d := match (d.outc k).slipTo with
    | some c =>
      let d := d.put F.OUT_COARSE.COARSE c k
      let d := d.setOutc k { d.outc k with slipTo := none }
      if d.dphState k = dphSlip then (d.dphWindow k).dphSet k dphMeasure else d
    | none => d
  d.setOutc k { d.outc k with fine := d.fineReg k, coarse := d.get F.OUT_COARSE.COARSE k }

def execOutputDelayChange (k : Fin 72) (s : State) : StepOut := s.run fun d => d.delayChange k

/-- OUT_STAT.PENDING: a change waits for a low phase or for leaving the safe state. -/
def Dev.outPending (d : Dev) (k : Nat) : Bool :=
  let x := d.outc k
  d.gateWant k != d.flag F.OUT_STAT.OPEN k || x.src != d.srcWant k || x.xo != d.xoWant k || x.d2 != d.outD2 k || x.slipTo.isSome ||
  x.fine != d.fineReg k || x.coarse != d.get F.OUT_COARSE.COARSE k ||
  (d.flag F.OUT_STAT.SAFE k && (d.flag F.OUT_CFG.RUN k != x.safeRun || d.get F.OUT_CFG.SRC k != x.safeSrc))

/-- R174: a change of SRC or D2 acts at the boundary on a divider whose gate is closed, or whose output carries the XO. The
pins follow FORMAT and what else the boundary changed. -/
def Dev.outBoundary (d : Dev) (k : Nat) : Dev :=
  let shut := !d.flag F.OUT_STAT.OPEN k
  let d := if shut then (d.srcTake k).xoTake k else d
  let d := if shut || (d.outc k).xo then d.dividerChange k else d
  d.driveNow k

/-! ## Banks (R179) -/

/-- Nominal supply of a VSEL code in mV. -/
def vselMv (v : Nat) : Nat := if v = 0 then 1800 else if v = 1 then 2500 else 3300

/-- R179: a measurement differs from VSEL by more than 10%. -/
def Dev.bankDiffers (d : Dev) (b mv : Nat) : Bool :=
  let nom := vselMv (d.get F.OB_CFG.VSEL b)
  decide (nom < 10 * ((mv : Int) - nom).natAbs)

/-- R179: the measurement of one tick. The first one within 10% ends the mismatch and the condition of OB_SUPPLY. -/
def Dev.bankMeasure (d : Dev) (b mv : Nat) : Dev :=
  let d := d.put F.OB_STAT.VMEAS mv b
  if d.bankDiffers b mv then { d with bankBad := Tbl.set d.bankBad b (min (Tbl.getD d.bankBad b 0 + 1) 8) }
  else
    let d : Dev := { d with bankBad := Tbl.set d.bankBad b 0 }
    if d.flag F.OB_STAT.MISMATCH b then (d.put F.OB_STAT.MISMATCH 0 b).levelOff 133 b else d

/-- R179: BANK_SUPPLY_MISMATCH: 8 consecutive ticks differed. -/
def Dev.bankMismatch (d : Dev) (b : Nat) : Dev :=
  if 8 ≤ Tbl.getD d.bankBad b 0 then (d.put F.OB_STAT.MISMATCH 1 b).levelOn 133 b else d

def execBankSupplyMismatch (b : Fin 9) (s : State) : StepOut := s.run fun d => d.bankMismatch b

/-! ## Supplies (R368) -/

/-- Table Recommended operating conditions: least and greatest of supplies 0 to 5, in 0.1 mV. -/
def railRange : List (Nat × Nat) := [(7275, 7725), (7760, 8240), (11640, 12360), (8730, 9270), (11640, 12360), (17100, 18900)]

/-- R368: a supply of the given index is inside its range or not in the ended tick; outside for 10 µs, SUPPLY_RANGE holds for
it. -/
def Dev.supplyTake (d : Dev) (i : Nat) (ok : Bool) : Dev :=
  if ok then ({ d with supplyBad := Tbl.set d.supplyBad i 0 } : Dev).levelOff 4 i else
  let n := min 10 (Tbl.getD d.supplyBad i 0 + 1)
  let d : Dev := { d with supplyBad := Tbl.set d.supplyBad i n }
  if n = 10 then d.levelOn 4 i i else d

/-- R368: supplies 0 to 5 in 0.1 mV, and the bank supplies, indices 6 to 14, in mV: within 5% of VSEL. -/
def Dev.suppliesTake (d : Dev) (rails vdd : List Nat) : Dev :=
  let d := railRange.zipIdx.foldl (fun (d : Dev) r =>
    let v := rails.getD r.2 0
    d.supplyTake r.2 (decide (r.1.1 ≤ v ∧ v ≤ r.1.2))) d
  (List.range 9).foldl (fun (d : Dev) b =>
    let v := vdd.getD b 0
    let nom := vselMv (d.get F.OB_CFG.VSEL b)
    d.supplyTake (6 + b) (decide (95 * nom ≤ 100 * v ∧ 100 * v ≤ 105 * nom))) d

/-! ## Leaving safe states (R186) -/

/-- R186: an output that no active SAFE source assigns leaves its safe state; a synthesizer none of whose
outputs is in HOLD is released. -/
def Dev.safeExit (d : Dev) (k : Nat) : Dev :=
  if !d.flag F.OUT_STAT.SAFE k || d.safeNeeded k then d else
  let hold := d.get F.OUT_STAT.SSTATE k == 1
  let x := d.outc k
  let d := d.put F.OUT_STAT.SAFE 0 k
  if hold && (List.range 72).all (fun j =>
      !((d.outc j).src == x.src && d.flag F.OUT_STAT.SAFE j && d.get F.OUT_STAT.SSTATE j == 1)) then
    (d.put F.SYN_STAT.HOLD 0 x.src).setSyn x.src { d.syn x.src with releasing := true }
  else d

end Sys2Proof.Machine
end

