-- ==== Sys2Proof/Machine/Rewind.lean ====
section
/-! DEFINITION. Checkpoints, rewind, replay and the Slalom generators (R134-R142, R157, R187-R190). -/

namespace Sys2Proof.Machine

def Dev.slal (d : Dev) (n : Nat) : Slal := Tbl.getD d.slals n Slal.reset
def Dev.setSlal (d : Dev) (n : Nat) (x : Slal) : Dev := { d with slals := Tbl.set d.slals n x }

/-! ## Checkpoints (R134) -/

/-- R134: W, the records of a ring. -/
def Dev.rwdWindow (d : Dev) : Nat := 2 ^ d.get F.SEL_RWD_WINDOW.LOG2

/-- Rewind is in force for a loop. -/
def Dev.rwdOn (d : Dev) (l : Nat) : Bool := l < 32 && d.flag F.SEL_RWD_CFG.ENABLE l

/-- R134: Vat offset of record t of a loop's ring. -/
def Dev.ckptAddr (d : Dev) (l t : Nat) : Nat :=
  let w := d.rwdWindow
  d.poolBase 1 + (d.get F.SEL_RWD_CFG.SLOT l * w + t % w) * 32

/-- R136: the oldest record that the ring holds at boundary b. -/
def Dev.ckptOldest (d : Dev) (l b : Nat) : Nat := max (d.selx l).ringFrom (b - 1 - d.rwdWindow)

/-- R134: bytes 0-13 of record b - 2, written at boundary action 3 of boundary b. -/
def Dev.ckptWrite (d : Dev) (l b : Nat) : Dev :=
  if d.rwdOn l && (d.selx l).ringFrom + 2 ≤ b && 2 ≤ b then
    let t := b - 2
    let x := d.loop l
    d.vatStore (d.ckptAddr l t) (leBytes 4 (t % 2 ^ 32) ++ leBytes 1 (d.get F.LOOP_STATE.STATE l) ++
      leBytes 1 (b2n x.missed + 2 * b2n x.ramped) ++ leBytes 1 x.membersPrev ++ leBytes 1 x.activePrev ++
      leBytes 6 (ofSigned 48 x.applied))
  else d

/-- CONTROL of a record. -/
def Dev.ckptControl (d : Dev) (l t : Nat) : Int := toSigned 48 (d.vraw (d.ckptAddr l t + 8) 6)

/-- R100: a record reads clean. -/
def Dev.ckptClean (d : Dev) (l t : Nat) : Bool := !d.vbad (d.ckptAddr l t) 32

/-! ## LT at past boundaries (R14) -/

/-- The stamps of tick t lie in [lo, hi), where LT at the boundaries is still known. -/
def Dev.tickWindow (d : Dev) (t : Nat) : Option (Nat × Nat) :=
  if d.tick < t then none
  else
    let i := d.tick - t
    match d.time.hist[i]? with
    | none => none
    | some lo => some (lo, if i = 0 then (d.time.lt + d.time.dlt) / 2 ^ 16 else (d.time.hist[i - 1]?).getD lo)

/-! ## Start and restore (R136, R137) -/

/-- R138: an entry's replay offset: the mean of e_k less the recorded PHASE over the BO_AVG stamp ticks ending at r. -/
def Dev.replayOffset (d : Dev) (l k r oldest : Nat) : Int :=
  let den := (d.fbPeriod (d.fbChan l)).2
  let n := min (d.selEns F.SEL_ENS_CFG.BO_AVG l) (r + 1 - oldest)
  let xs := (List.range n).filterMap fun i =>
    let t := r - i
    match d.tickWindow t with
    | none => none
    | some (lo, hi) =>
      if d.ckptClean l t then
        (d.rawErr l k lo hi).map fun e => e - toSigned 64 (d.vraw (d.ckptAddr l t + 24) 8) * den
      else none
  if xs.isEmpty then 0 else roundDiv (xs.foldl (· + ·) 0) (den * xs.length)

/-- R137: an entry remains a member after the exclusion, or one is eligible. -/
def Dev.rewindHasRef (d : Dev) (l exclude : Nat) : Bool :=
  (d.members l).any (fun k => !bit exclude k) || (List.range 8).any fun k => d.eligible l k && !bit exclude k

/-- R157: EXCLUDED in the records of every second from the one that contains FROM to the last completed one. -/
def Dev.histExclude (d : Dev) (l from' : Nat) : Dev :=
  let now := d.tick / 10 ^ 6
  let s0 := max (from' / 10 ^ 6) (now - 7200)
  let d := (List.range (now - s0)).foldl (fun d i =>
    let s := s0 + i
    let a := d.poolBase 6 + (l * 7200 + s % 7200) * 16
    if d.vraw a 4 = s % 2 ^ 32 then d.vatPut (a + 12) 1 (setBits (d.vraw (a + 12) 1) 1 1 1) else d) d
  let x := d.loop l
  d.setLoop l { x with
    hist := { x.hist with excl := true }, exclAt := some d.tick,
    histPrev := x.histPrev.map fun p => if s0 ≤ p.1 then (p.1, { p.2 with excl := true }) else p }

/-- R97, R100: the records from t down to `oldest` are read, n at most, up to the newest that reads clean. -/
def Dev.ckptFind (d : Dev) (l oldest : Nat) : Nat → Nat → Dev × Option Nat
  | 0, _ => (d, none)
  | n + 1, t =>
    if t < oldest then (d, none)
    else
      let e := d.vatTouch (d.ckptAddr l t) 32 4
      if d.ckptClean l t then (e, some t)
      else if t = 0 then (e, none) else e.ckptFind l oldest n (t - 1)

/-- What a START restores: the word to apply, none for the word in force. -/
structure Restored where
  word : Option Int
  deriving DecidableEq, Repr, Inhabited

/-- R136, R137: a START takes effect at the present boundary t_r. -/
def Dev.rewindRestore (d : Dev) (l excl : Nat) : Dev × Restored :=
  let b := d.tick
  let x := d.selx l
  let reg := d.get64 F.SEL_RWD_FROM_LO.FROM F.SEL_RWD_FROM_HI.FROM l
  let again := d.rewinding l
  let from' := if again then min x.from' reg else reg
  let excl := if again then x.exclude ||| excl else excl
  let oldest := d.ckptOldest l b
  let old := decide (from' ≤ oldest)
  let want := if old then oldest else from' - 1
  let d := (d.histExclude l from').put F.SEL_RWD_STAT.TRUNCATED 0 l
  -- a ring that holds no record yet has none that reads clean
  let (d, found) := if b < want + 3 then (d, none) else d.ckptFind l oldest (d.rwdWindow + 1) want
  let trunc := old || found != some want
  let d := if trunc then (d.put F.SEL_RWD_STAT.TRUNCATED 1 l).fault 100 l else d
  let ref := d.rewindHasRef l excl
  match found with
  | none =>
    let d := (d.put F.SEL_RWD_STAT.RSTATE 6 l).setSelx l { d.selx l with splicing := false }
    (d.fault 101 l, ⟨none⟩)
  | some r =>
    let w := d.ckptControl l r
    let d := (d.put64 F.SEL_RWD_RESTORE_LO.RESTORE F.SEL_RWD_RESTORE_HI.RESTORE r l).put F.SEL_RWD_STAT.BACKLOG
      (min 65535 (b - 1 - r)) l
    if !ref then
      let d := (d.put F.SEL_RWD_STAT.RSTATE 6 l).setSelx l { d.selx l with splicing := false }
      (d.fault 101 l, ⟨some w⟩)
    else
      let d := (d.put F.SEL_RWD_STAT.RSTATE 1 l).setSelx l { d.selx l with
        from' := from', exclude := excl, start := b, next := r + 1, splicing := false, doneSeen := false,
        recLstate := d.vraw (d.ckptAddr l r + 4) 1, ctrl0 := d.ckptControl l (r - 1), lastCtrl := w }
      let (a, ms) := d.choose l
      let d := d.setSelx l { d.selx l with
        choice := bitmap (ms ++ a.toList), weights := (List.range 8).map (d.weight l),
        offsets := (List.range 8).map fun k => d.replayOffset l k r oldest }
      (d, ⟨some w⟩)

/-! ## Replay (R138, R139) -/

/-- R138: the members of stamp tick t: those of record t, or for the last two ticks those just used. -/
def Dev.replayMembers (d : Dev) (l t : Nat) : Nat :=
  let x := d.loop l
  if t + 1 = d.tick then x.membersUsed else d.vraw (d.ckptAddr l t + 6) 1

/-- R138: the word in force during tick t, from the record of tick t - 2. -/
def Dev.replayControl (d : Dev) (l t : Nat) : Int :=
  let x := d.selx l
  let r := d.get64 F.SEL_RWD_RESTORE_LO.RESTORE F.SEL_RWD_RESTORE_HI.RESTORE l
  if t = r + 1 then x.ctrl0 else d.ckptControl l (t - 2)

/-- R138: the replay record of stamp tick t; its CONTROL is kept for R100. -/
def Dev.replayRecord (d : Dev) (l t : Nat) : Dev :=
  let x := d.selx l
  let mine := t + 1 = d.tick
  let bad := !mine && !d.ckptClean l t
  let badCtrl := !d.ckptClean l (t - 2)
  let d := if mine then d else d.vatTouch (d.ckptAddr l t) 32 4
  let ctrl := if bad || badCtrl then x.lastCtrl else d.replayControl l t
  let drop := fun k => bit x.exclude k || bit (d.get F.SEL_STAT.HELD l) k
  let listed := (List.range 8).filter fun k => bit (d.replayMembers l t) k && !drop k
  let ms := if listed.isEmpty then (List.range 8).filter (bit x.choice) else listed
  let (d, st) := match d.tickWindow t with
    | some (lo, hi) => (d.detectorTouch l ms lo hi, d.stamped l ms lo hi)
    | none => (d, [])
  let e := if bad then none else d.combined l st (fun k => x.weights.getD k 0) (fun k => x.offsets.getD k 0)
  let d := d.setSelx l { x with next := t + 1, lastCtrl := ctrl }
  d.qPush (d.get F.SEL_RWD_CFG.QUEUE l) (leBytes 4 (t % 2 ^ 32) ++ leBytes 1 (b2n e.isNone + 2 * b2n mine) ++
    leBytes 1 (bitmap (st.map (·.1))) ++ leBytes 2 0 ++ leBytes 8 (ofSigned 64 (e.getD 0)) ++
    leBytes 6 (ofSigned 48 ctrl) ++ List.replicate 10 0)

/-- R82, R138: the identity of the sequencer lane of a loop. -/
def Dev.laneId (d : Dev) (l : Nat) : Nat := 0x1060 + d.get F.SEL_RWD_CFG.SLOT l

/-- R138: the lane delivers up to n records, never a stamp tick later than the previous tick; it waits while its
queue has no room or does not name it as its producer. -/
def Dev.replayLane (d : Dev) (l : Nat) : Nat → Dev
  | 0 => d
  | n + 1 =>
    let q := d.qdesc (d.get F.SEL_RWD_CFG.QUEUE l)
    let x := d.selx l
    if x.next < d.tick && q.fill < q.size && q.prod == d.laneId l then (d.replayRecord l x.next).replayLane l n else d

/-- R138, R139: the lane's work at a boundary. -/
def Dev.replayBoundary (d : Dev) (l : Nat) : Dev :=
  let r := d.get F.SEL_RWD_STAT.RSTATE l
  if r = 1 ∨ r = 2 then
    let d := d.replayLane l 17
    d.put F.SEL_RWD_STAT.BACKLOG (min 65535 (d.tick - (d.selx l).next)) l
  else d

/-- R139: the lane had delivered the previous tick's stamp tick. -/
def Dev.replayCaught (d : Dev) (l now : Nat) : Bool :=
  d.get F.SEL_RWD_STAT.RSTATE l == 1 && (d.selx l).start < now && now ≤ (d.selx l).next + 1

/-- R139: REPLAY_CAUGHT_UP: RSTATE becomes REPLAYED at the boundary `now`. -/
def Dev.replayCaughtUp (d : Dev) (l now : Nat) : Dev :=
  if d.replayCaught l now then d.put F.SEL_RWD_STAT.RSTATE 2 l else d

def execReplayCaughtUp (l : Fin 32) (s : State) : StepOut := s.run fun d => d.replayCaughtUp l (d.tick + 1)

/-! ## Commands -/

/-- R136: SEL_RWD_CMD START, for the next boundary. -/
def Dev.rewindStart (d : Dev) (l excl : Nat) : Dev := d.setSelx l { d.selx l with cmdStart := some excl }
/-- R141: SEL_RWD_CMD ABORT, for the next boundary. -/
def Dev.rewindAbort (d : Dev) (l : Nat) : Dev := d.setSelx l { d.selx l with cmdAbort := true }
/-- R140: SEL_RWD_CMD SPLICE, for the next boundary. -/
def Dev.rewindSplice (d : Dev) (l : Nat) : Dev := d.setSelx l { d.selx l with cmdSplice := true }

/-- SEL_RWD_CMD of a loop: the BAR0 offset for refusals. -/
def rwdOff (l : Nat) : Nat := R.SEL_RWD_CMD.off l

/-- R136, R387: START is refused while ENABLE is 0, in force or as last accepted, or if FROM is not earlier than
TICK_COUNT. -/
def Dev.rewindStartCmd (d : Dev) (p : Path) (l excl : Nat) : Dev :=
  if !d.rwdOn l ∨ d.getS F.SEL_RWD_CFG.ENABLE l = 0 ∨ d.tick ≤ d.get64 F.SEL_RWD_FROM_LO.FROM F.SEL_RWD_FROM_HI.FROM l then d.refuse p.code (rwdOff l) .state
  else d.rewindStart l excl

/-- R141. -/
def Dev.rewindAbortCmd (d : Dev) (_p : Path) (l : Nat) : Dev := d.rewindAbort l

/-- R140: SPLICE is accepted only in REPLAYED. -/
def Dev.rewindSpliceCmd (d : Dev) (p : Path) (l : Nat) : Dev :=
  if d.get F.SEL_RWD_STAT.RSTATE l = 2 then d.rewindSplice l else d.refuse p.code (rwdOff l) .state

def execRewindStart (p : Path) (l : Fin 32) (excl : BitVec 8) (s : State) : StepOut :=
  s.runBy p (R.SEL_RWD_CMD.off l) fun d => d.rewindStartCmd p l excl.toNat
def execRewindAbort (p : Path) (l : Fin 32) (s : State) : StepOut := s.runBy p (R.SEL_RWD_CMD.off l) fun d => d.rewindAbortCmd p l
def execRewindSplice (p : Path) (l : Fin 32) (s : State) : StepOut := s.runBy p (R.SEL_RWD_CMD.off l) fun d => d.rewindSpliceCmd p l

/-! ## Slalom generators (R187-R190) -/

/-- The table of a number, if it is a profile table. -/
def Dev.profileTable (d : Dev) (t : Nat) : Option (List Byte) :=
  match d.table t with
  | some t => if tableKind t = 4 then some t else none
  | none => none

/-- The profile that SLAL_CFG names. -/
def Dev.profile (d : Dev) (n : Nat) : Option (List Byte) := d.profileTable (d.get F.SLAL_CFG.PROFILE n)

def Dev.slalState (d : Dev) (n : Nat) : Nat := d.get F.SLAL_STAT.RSTATE n

/-- The offset, and its register. -/
def Dev.slalOffset (d : Dev) (n : Nat) (v : Int) : Dev :=
  (d.setSlal n { d.slal n with offset := v }).put64 F.SLAL_OFFSET_LO.OFFSET F.SLAL_OFFSET_HI.OFFSET (ofSigned 64 v) n

/-- R189: a segment's dwell ends by boundary `now`: the next segment, or DONE. -/
def Dev.slalNext (d : Dev) (n now : Nat) : Dev :=
  let seg := d.get F.SLAL_STAT.SEG n
  let segs := match d.profile n with
    | some t => leAt t 2 1
    | none => 0
  let d := d.setSlal n { d.slal n with dwell := none }
  if seg + 1 < segs then d.put F.SLAL_STAT.SEG (seg + 1) n
  else ((d.put F.SLAL_STAT.RSTATE 2 n).put F.SLAL_STAT.OWNER 0 n).setSlal n { d.slal n with doneAt := some now }

/-- R189: SLALOM_DWELL_END: the dwell ends by boundary `now`. -/
def Dev.dwellEnd (d : Dev) (n now : Nat) : Dev :=
  match (d.slal n).dwell with
  | some e => if d.slalState n = 1 ∧ e ≤ now then d.slalNext n now else d
  | none => d

def execSlalomDwellEnd (n : Fin 32) (s : State) : StepOut := s.run fun d => d.dwellEnd n (d.tick + 1)

/-- R189: one step of a running profile at the present boundary. -/
def Dev.slalStep (d : Dev) (n : Nat) : Dev :=
  let d := d.dwellEnd n d.tick
  if d.slalState n != 1 || (d.slal n).dwell.isSome then d else
  match d.profile n with
  | none => (d.put F.SLAL_STAT.RSTATE 3 n).put F.SLAL_STAT.OWNER 0 n
  | some t =>
    let j := d.get F.SLAL_STAT.SEG n
    let target := toSigned 48 (leAt t (8 + 16 * j) 6)
    let dwell := leAt t (20 + 16 * j) 4
    let d := d.slalOffset n (towards (d.slal n).offset target (slopeStep (leAt t (16 + 16 * j) 4)))
    if (d.slal n).offset = target then
      let d := d.setSlal n { d.slal n with dwell := some (d.tick + dwell) }
      let last : Bool := match d.profile n with
        | some t => j + 1 == leAt t 2 1
        | none => true
      if dwell = 0 ∧ last then d.slalNext n d.tick
      else if dwell = 0 then d.setSlal n { d.slal n with dwell := some (d.tick + 1) } else d
    else d

/-- R190: an abort stops the profile; at the boundary of its completion it loses. -/
def Dev.slalAbortNow (d : Dev) (n : Nat) : Dev :=
  if d.slalState n = 1 then ((d.put F.SLAL_STAT.RSTATE 3 n).put F.SLAL_STAT.OWNER 0 n).put F.SLAL_STAT.ABORT_LATE 0 n else d

/-- R187, R189, R190: the generator of a loop that stays in FREE at the present boundary. A completion comes
before an abort, a CLEAR before a step. -/
def Dev.slalFree (d : Dev) (n : Nat) : Dev :=
  let x := d.slal n
  let d := d.setSlal n { x with cmdStart := false, cmdAbort := false, cmdClear := false }
  let d := if x.cmdClear && d.slalState n != 1 then d.slalOffset n 0 else d
  let ran := d.slalState n == 1
  let d := if x.cmdStart then
      (((d.put F.SLAL_STAT.RSTATE 1 n).put F.SLAL_STAT.SEG 0 n).put F.SLAL_STAT.OWNER 1 n).setSlal
        n { d.slal n with dwell := none }
    else d
  let met := d.slalState n == 2 && x.doneAt == some d.tick      -- its last segment completed at this boundary
  if x.cmdAbort && met then d.put F.SLAL_STAT.ABORT_LATE 1 n
  else if x.cmdAbort && ran then
    let e := d.slalStep n
    if e.slalState n = 2 then e.put F.SLAL_STAT.ABORT_LATE 1 n else d.slalAbortNow n
  else d.slalStep n

/-- R190: the loop leaves FREE at the present boundary: the profile is aborted and the offset cleared. -/
def Dev.slalLeave (d : Dev) (n : Nat) : Dev :=
  let e := d.slalStep n
  let d := if d.slalState n = 1 then
      if e.slalState n = 2 then e.put F.SLAL_STAT.ABORT_LATE 1 n else d.slalAbortNow n
    else if d.slalState n = 2 ∧ (d.slal n).doneAt = some d.tick then d.put F.SLAL_STAT.ABORT_LATE 1 n
    else d
  (d.setSlal n { d.slal n with cmdStart := false, cmdAbort := false, cmdClear := false, dwell := none }).slalOffset n 0

/-- SLAL_CMD: the BAR0 offset for refusals. -/
def slalOff (n : Nat) : Nat := R.SLAL_CMD.off n

/-- R187: START is refused while the loop is not FREE, and (SLAL_CFG) unless PROFILE, as last accepted (R387), names a
profile. -/
def Dev.slalStartCmd (d : Dev) (p : Path) (n : Nat) : Dev :=
  match d.profileTable (d.getA F.SLAL_CFG.PROFILE n) with
  | none => d.refuse p.code (slalOff n) .combination
  | some _ =>
    if d.get F.LOOP_STATE.STATE n != 0 then d.refuse p.code (slalOff n) .state
    else d.setSlal n { d.slal n with cmdStart := true }

/-- R190. -/
def Dev.slalAbortCmd (d : Dev) (_p : Path) (n : Nat) : Dev := d.setSlal n { d.slal n with cmdAbort := true }

/-- R190: CLEAR is refused while RSTATE is RUN. -/
def Dev.slalClearCmd (d : Dev) (p : Path) (n : Nat) : Dev :=
  if d.slalState n = 1 then d.refuse p.code (slalOff n) .state else d.setSlal n { d.slal n with cmdClear := true }

def execSlalomStart (p : Path) (n : Fin 32) (s : State) : StepOut := s.runBy p (R.SLAL_CMD.off n) fun d => d.slalStartCmd p n
def execSlalomAbort (p : Path) (n : Fin 32) (s : State) : StepOut := s.runBy p (R.SLAL_CMD.off n) fun d => d.slalAbortCmd p n
def execSlalomClear (p : Path) (n : Fin 32) (s : State) : StepOut := s.runBy p (R.SLAL_CMD.off n) fun d => d.slalClearCmd p n

end Sys2Proof.Machine
end

