-- ==== Sys2Proof/Machine/Loops.lean ====
section
/-! DEFINITION. Loops: the phase detector's work at the end of a tick, lock gates, the sequencer at boundary
action 3, coast, glide, history, and TLOOP (R143-R163). -/

namespace Sys2Proof.Machine

def Dev.loopState (d : Dev) (l : Nat) : Nat := d.get F.LOOP_STATE.STATE l

/-! ## The end of a tick: samples and lock gates (R144, R148-R150) -/

/-- The stamps of the present tick lie in [lo, hi). -/
def Dev.tickLo (d : Dev) : Nat := d.time.lt / 2 ^ 16
def Dev.tickHi (d : Dev) : Nat := (d.time.lt + d.time.dlt) / 2 ^ 16

/-- What the detector and combiner give for one tick. -/
structure Sample where
  e : Option Int
  used : Nat                  -- entries combined
  ratio : Bool                -- a member's period is not a multiple of P_c
  deriving DecidableEq, Repr, Inhabited

/-- R125, R144: the sample of loop l (0-31) for the present tick. -/
def Dev.loopSample (d : Dev) (l : Nat) : Sample :=
  let ms := d.members l
  let st := d.stamped l ms d.tickLo d.tickHi
  let (num, den) := d.fbPeriod (d.fbChan l)
  { e := d.combined l st (d.weight l) (d.buildOut l)
    used := bitmap (st.map (·.1))
    ratio := ms.any fun k => !d.periodFits (d.entryRef l k) num den }

/-- R162: TLOOP's sample with SRC 1: the PPS stamp less the nearest LT second. -/
def Dev.ppsSample (d : Dev) : Option (Nat × Int) :=
  (d.stampIn (d.get F.TLOOP_CFG.CH) d.tickLo d.tickHi).map fun s => (s.time, foldMod (s.time : Int) secUnits)

/-- R278: LOOP_STATE32 of a follower mirrors the lead's. No frame carries it: what the lead's reads is a free value (log entry
53). -/
def Dev.tloopMirror (d : Dev) : Dev :=
  let v := d.freeVal
  let d := ((d.freeNext.put F.LOOP_STATE.STATE (v % 5) 32).put F.LOOP_STATE.CAUSE (v / 8 % 4) 32).put F.LOOP_STATE.INUSE (v / 32 % 2) 32
  ((d.put F.LOOP_STATE.GSRC (v / 64 % 4) 32).put F.LOOP_STATE.CLAMP_PSL (v / 256 % 2) 32).put F.LOOP_STATE.CLAMP_PI (v / 512 % 2) 32

/-- R162: TLOOP's sample of the present tick: its time for gates, and e. -/
def Dev.tloopSample (d : Dev) : Option (Nat × Int) :=
  match d.get F.TLOOP_CFG.SRC with
  | 1 => d.ppsSample
  | 2 =>
    let b := d.loopBlock 32
    if (d.loop 32).servo ∧ d.vraw (b + 8) 1 % 2 = 0 ∧ !d.vbad b 16
    then some (d.tick * tickUnits, toSigned 64 (d.vraw b 8)) else none
  | _ => none

/-- R97, R100: what TLOOP's detector reads for it: the PPS stamp, or the servo task's sample in the loop data block. -/
def Dev.tloopTouch (d : Dev) : Dev :=
  match d.get F.TLOOP_CFG.SRC with
  | 1 => d.stampTouch (d.get F.TLOOP_CFG.CH) d.tickLo d.tickHi
  | 2 => if (d.loop 32).servo then d.vatTouch (d.loopBlock 32) 16 4 else d
  | _ => d

/-- R149: a valid gate's offset counts towards lock and unlock. -/
def Dev.gateResult (d : Dev) (l : Nat) (off : Int) : Dev :=
  let st := d.loopState l
  let d := d.put F.LOOP_FOFF.OFFSET (ofSigned 32 (satSigned 32 off)) l
  let x := d.loop l
  let inLock := decide (off.natAbs ≤ d.get F.LOOP_LOCK.LOCK_PPB l)
  let outLock := decide (d.get F.LOOP_LOCK.UNLOCK_PPB l < off.natAbs)
  let lk := if inLock then x.lockRun + 1 else 0
  let ul := if outLock then x.unlockRun + 1 else 0
  if st = 1 then
    d.setLoop l { x with lockRun := lk, lockDecl := x.lockDecl || d.get F.LOOP_LOCK.LOCK_CNT l ≤ lk }
  else if st = 2 then
    d.setLoop l { x with unlockRun := ul, unlockDecl := x.unlockDecl || d.get F.LOOP_LOCK.UNLOCK_CNT l ≤ ul }
  else d

/-- A lock gate starts with tick `from'`. -/
def Dev.lockGateStart (d : Dev) (l from' : Nat) : Dev :=
  d.setLoop l { d.loop l with
    gateFrom := some from', refFirst := none, refLast := 0, refK := 0,
    fbFirst := none, fbLast := 0, fbK := 0, gateBad := false }

/-- R148: the gate's offset in ppb; none for an invalid gate. The periods of a remote reference between its first
and last stamp are the nearest multiple of P_c (log entry 12). -/
def Dev.lockOffset (d : Dev) (l : Nat) : Option Int :=
  let x := d.loop l
  let (pfn, pfd) := d.fbPeriod (d.fbChan l)
  let ref := match d.mainEntry l with
    | some k => d.entryRef l k
    | none => 63
  let tr := x.refLast - (x.refFirst.map (·.1)).getD 0
  let tf := x.fbLast - (x.fbFirst.map (·.1)).getD 0
  let kr : Nat × Nat := match d.refPeriod ref with   -- kr * pr_nom as a fraction
    | some (pn, pd) => (x.refK * pn, pd)
    | none => ((roundDiv (tr * pfd) (max 1 pfn)).toNat * pfn, pfd)
  if x.gateBad ∨ kr.1 = 0 ∨ kr.2 = 0 ∨ x.fbK = 0 ∨ tr = 0 ∨ tf = 0 then none
  else
    let a := x.fbK * pfn * tr * kr.2
    let b := tf * pfd * kr.1
    some (roundDiv (10 ^ 9 * ((a : Int) - b)) b)

/-- R148: the gate that ends before tick `now` is judged, and the next one starts. -/
def Dev.lockGateClose (d : Dev) (l now : Nat) : Dev :=
  match (d.loop l).gateFrom with
  | none => d
  | some f =>
    if f + d.get F.LOOP_GATE.GATE l * 1000 ≤ now then
      let d := match d.lockOffset l with
        | some off => d.gateResult l off
        | none => d
      d.lockGateStart l now
    else d

/-- R148: edge counts of one stream inside the gate: first and last stamp, edges between them. -/
def gateStep (first : Option (Nat × Nat)) (last k : Nat) (s : Option Stamp) : Option (Nat × Nat) × Nat × Nat :=
  match s, first with
  | none, _ => (first, last, k)
  | some s, none => (some (s.time, s.count), s.time, k)
  | some s, some (t, c) =>
    if s.time ≤ last then (first, last, k) else (some (t, s.count), s.time, k + (s.count + 2 ^ 16 - c) % 2 ^ 16)

/-- The reference's stamp of the present tick with its edge count; a remote stamp counts one. -/
def Dev.refStampFull (d : Dev) (ref : Nat) : Option Stamp :=
  if ref < 40 then d.stampIn ref d.tickLo d.tickHi
  else (d.refStamp ref d.tickLo d.tickHi).map fun t => ⟨t, 0, d.tick % 2 ^ 16⟩

/-- R148, R168: the present tick's part of a gate. -/
def Dev.lockGateTick (d : Dev) (l : Nat) : Dev :=
  let x := d.loop l
  match x.gateFrom with
  | none => d
  | some f =>
    if d.tick < f then d else
    let r := match d.mainEntry l with
      | some k => gateStep x.refFirst x.refLast x.refK (d.refStampFull (d.entryRef l k))
      | none => (x.refFirst, x.refLast, x.refK)
    let c := d.fbChan l
    let g := gateStep x.fbFirst x.fbLast x.fbK (d.stampIn c d.tickLo d.tickHi)
    d.setLoop l { x with
      refFirst := r.1, refLast := r.2.1, refK := r.2.2, fbFirst := g.1, fbLast := g.2.1, fbK := g.2.2,
      gateBad := x.gateBad || x.newref || d.inHop (d.fbSyn c) }

/-- R148: LOCK_GATE_END, if a gate ends with the present tick. -/
def Dev.lockGateEnd (d : Dev) (l : Nat) : Dev :=
  if l < 32 then (d.lockGateTick l).lockGateClose l (d.tick + 1) else d

def execLockGateEnd (l : Fin 33) (s : State) : StepOut := s.run fun d => d.lockGateEnd l

/-- R148: a gate of TLOOP is the interval between two consecutive samples. DESIGN CHOICE (log entry 110): the first gate after an
entry into ACQUIRE may start at a sample before it, and with SRC 2 the nominal length is the TICK_COUNT difference of the two
samples. -/
def Dev.tloopGate (d : Dev) (t : Nat) (e : Int) : Dev :=
  let x := d.loop 32
  let d := d.setLoop 32 { x with tlPrev := some (t, e) }
  match x.tlPrev with
  | none => d
  | some (t0, e0) =>
    let nom : Int := if d.get F.TLOOP_CFG.SRC = 1 then ((t : Int) - t0) - (e - e0) else (t : Int) - t0
    if nom ≤ 0 ∨ x.gateFrom.isNone then d else d.gateResult 32 (roundDiv (10 ^ 9 * (e - e0)) nom.toNat)

/-- R143, R150: PHASE, NOSAMPLE and TICK of the ended tick are written; a sample is noted. -/
def Dev.blockSample (d : Dev) (l : Nat) (e : Option Int) : Dev :=
  let b := d.loopBlock l
  let d := ((d.vatPut b 8 (ofSigned 64 (e.getD 0))).vatPut (b + 8) 1 (b2n e.isNone)).vatPut (b + 12) 4 d.tick32
  if e.isSome then d.setLoop l { d.loop l with lastSample := some d.tick } else d

/-- R144, R148: the end of the present tick for loop l (0-31). -/
def Dev.loopTickEnd (d : Dev) (l : Nat) : Dev :=
  let d := d.detectorTouch l (d.members l) d.tickLo d.tickHi
  let s := d.loopSample l
  let d := d.putB F.LOOP_STATE.RATIO s.ratio l
  let x := d.loop l
  let act := d.get F.SEL_STAT.ACTIVE l + 8 * d.get F.SEL_STAT.ACTIVE_VALID l
  let d := d.setLoop l { x with
    membersPrev := x.membersUsed, membersUsed := s.used, activePrev := x.activeUsed, activeUsed := act }
  (d.blockSample l s.e).lockGateEnd l

/-- R162: the sample (t, e) as the LT that it steps by -e shows it. -/
def tlStepped (src t : Nat) (e : Int) : Nat × Int := (if src = 1 then ((t : Int) - e).toNat else t, 0)

/-- R148, R162: the end of the present tick for TLOOP, with its LT step for the next boundary; not on a follower (R278). -/
def Dev.tloopTickEnd (d : Dev) : Dev :=
  if d.follower then d else
  let s := d.tloopSample
  let d := d.tloopTouch
  let d := if d.get F.TLOOP_CFG.SRC = 2 then
      d.setLoop 32 { d.loop 32 with servo := false, lastSample := if s.isSome then some d.tick else (d.loop 32).lastSample }
    else d.blockSample 32 (s.map (·.2))
  match s with
  | none => d
  | some (t, e) =>
    let d := d.tloopGate t e
    let x := d.loop 32
    let limit := d.get F.TLOOP_CFG.STEP
    if d.loopState 32 = 1 ∧ x.stepped.isNone ∧ limit ≠ 0 ∧ limit * 2 ^ 32 < e.natAbs then
      { d.setLoop 32 { x with stepped := some d.tick, tlPrev := some (tlStepped (d.get F.TLOOP_CFG.SRC) t e) } with
        time := { d.time with tlStep := some (-e) } }
    else d

/-! ## The reference in use (R150) -/

/-- R150: within GAP ms of tick t. -/
def Dev.withinGap (d : Dev) (l : Nat) (from' : Option Nat) (t : Nat) : Bool :=
  match from' with
  | some f => t ≤ f + d.get F.LOOP_GATE.GAP l * 1000
  | none => false

/-- R150, R162: the reference is in use for a loop during tick t; for a follower's TLOOP as the lead shows it (R278). -/
def Dev.inUse (d : Dev) (l t : Nat) : Bool :=
  let x := d.loop l
  if l = 32 then
    if d.follower then d.flag F.LOOP_STATE.INUSE 32
    else (d.get F.TLOOP_CFG.SRC == 1 || d.get F.TLOOP_CFG.SRC == 2) && d.withinGap 32 x.lastSample t
  else
    (d.flag F.SEL_STAT.ACTIVE_VALID l || d.get F.SEL_STAT.MEMBERS l != 0) &&
    (d.withinGap l x.lastSample t || d.withinGap l x.selTick t)

/-- R150: REFERENCE_GAP_EXPIRY: no sample or selection within GAP ms. -/
def Dev.gapExpiry (d : Dev) (l : Nat) : Dev := if d.inUse l d.tick then d else d.put F.LOOP_STATE.INUSE 0 l

def execReferenceGapExpiry (l : Fin 33) (s : State) : StepOut := s.run fun d => d.gapExpiry l

/-- R154: the coast timer has elapsed by boundary `now`. -/
def Dev.coastExpiry (d : Dev) (l now : Nat) : Dev :=
  let x := d.loop l
  if d.loopState l = 3 ∧ x.coastFrom < now ∧ x.coastFrom + d.get F.LOOP_COAST.COAST l * 1000 ≤ now then
    d.setLoop l { x with coastOver := true }
  else d

def execCoastTimerExpiry (l : Fin 33) (s : State) : StepOut := s.run fun d => d.coastExpiry l (d.tick + 1)

/-! ## The sequencer (R147, R151-R155) -/

/-- What the transition table looks at. -/
structure Conds where
  st : Nat
  enable : Bool
  start : Bool
  spliceEnd : Bool
  lstate : Nat
  abort : Bool
  force : Bool
  inUse : Bool
  unlock : Bool
  lock : Bool
  coastOver : Bool
  cause : Nat
  deriving DecidableEq, Repr, Inhabited

/-- R152: the table Loop transitions: the new state, and the cause where the row names one. -/
def Conds.next (c : Conds) : Nat × Option Nat :=
  if !c.enable then (0, none)
  else if c.st != 0 && c.start then (5, none)
  else if c.st == 5 && c.spliceEnd then (c.lstate, none)
  else if c.st == 5 && c.abort then (3, some 1)
  else if c.st == 5 then (5, none)
  else if (c.st == 1 || c.st == 2 || c.st == 3) && c.force then (4, some 3)
  else if (c.st == 1 || c.st == 2) && !c.inUse then (3, some 1)
  else if c.st == 2 && c.unlock then (3, some 2)
  else if c.st == 1 && c.lock then (2, none)
  else if c.st == 3 && c.cause == 1 && c.inUse then (1, none)
  else if c.st == 3 && c.coastOver && c.inUse then (1, none)
  else if c.st == 3 && c.coastOver then (4, none)
  else if c.st == 4 && !c.force && c.inUse then (1, none)
  else if c.st == 0 && c.inUse then (1, none)
  else (c.st, none)

/-- R147: floor(PULLIN * 100 * 2^48 / 10^9). -/
def Dev.pullinLimit (d : Dev) (l : Nat) : Int := (d.get F.LOOP_LIMIT.PULLIN l * 100 * 2 ^ 48 / 10 ^ 9 : Nat)

/-- R147: floor(PSL * 2^48 / 10^9). -/
def Dev.pslLimit (d : Dev) (l : Nat) : Int := (d.get F.LOOP_LIMIT.PSL l * 2 ^ 48 / 10 ^ 9 : Nat)

def clampTo (lo hi x : Int) : Int := max lo (min hi x)

/-- R147 steps 2-4: the word, and whether the pull-in and the phase-slope clamp acted. -/
def Dev.clampWord (d : Dev) (l : Nat) (src : Int) (psl : Bool) : Int × Bool × Bool :=
  let w := satSigned 48 src
  let p := d.pullinLimit l
  let w1 := clampTo (-p) p w
  if psl && d.get F.LOOP_LIMIT.PSL l != 0 then
    let h := (d.loop l).lastAvg
    let w2 := clampTo (h - d.pslLimit l) (h + d.pslLimit l) w1
    (w2, w1 != w, w2 != w1)
  else (w1, w1 != w, false)

/-- LOOP_FREE. -/
def Dev.freeWord (d : Dev) (l : Nat) : Int :=
  toSigned 48 (d.get F.LOOP_FREE_LO.WORD l + d.get F.LOOP_FREE_HI.WORD l * 2 ^ 32)

/-- LOOP_GLIDE. -/
def Dev.glideWord (d : Dev) (l : Nat) : Int :=
  toSigned 48 (d.get F.LOOP_GLIDE_LO.WORD l + d.get F.LOOP_GLIDE_HI.WORD l * 2 ^ 32)

/-- R276: the remote loop word bound to a loop, if a binding holds and a word has arrived. -/
def Dev.remoteWord (d : Dev) (l : Nat) : Option Int :=
  ((List.range 8).find? fun m => d.flag F.KL_RLOOP.VALID m && d.get F.KL_RLOOP.LOOP m == l).bind fun m =>
    Tbl.find? d.rwords m

/-- R189, R276: the source word in FREE. -/
def Dev.freeSource (d : Dev) (l : Nat) : Int :=
  match d.remoteWord l with
  | some w => w
  | none => d.freeWord l + (if l < 32 then (d.slal l).offset else 0)

/-- R143, R145: the control-word slot, none where a word of it is poisoned (R100). -/
def Dev.slotWord (d : Dev) (l : Nat) : Option Int :=
  let a := d.loopBlock l + 16
  if d.vbad a 8 then none else some (toSigned 64 (d.vraw a 8))

/-- R145: the tick ended with a usable slot write. -/
def Dev.slotFresh (d : Dev) (l : Nat) : Bool := (d.loop l).slotWritten && (d.slotWord l).isSome

/-- R140: the splice moves the applied word towards the slot's word, before the clamps of R147; whether the clamped word
has arrived. -/
def Dev.spliceMove (d : Dev) (l : Nat) : Int × Bool :=
  let x := d.loop l
  match d.slotWord l with
  | none => (x.applied, false)
  | some s =>
    let t := satSigned 48 s
    let w := towards x.applied t (slopeStep (d.get F.SEL_RWD_CFG.SLOPE l))
    (w, (d.clampWord l w true).1 == t)

/-- R140, R141: what the boundary finds of a rewind, before the transition. -/
structure RwdBoundary where
  restored : Option Restored   -- a START takes effect
  splice : Option (Int × Bool) -- a splice runs: its word, and whether it ends here
  abort : Bool                 -- an ABORT is taken
  deriving DecidableEq, Repr, Inhabited

/-- R155: where the glide ramp stands: at the last source word, on entry at the word applied. -/
def Dev.glideAt (d : Dev) (l : Nat) : Int := if d.loopState l = 4 then (d.loop l).source else (d.loop l).applied

/-- R155: the glide ramp's next source word. -/
def Dev.glideMove (d : Dev) (l : Nat) : Int :=
  if d.get F.LOOP_GLIDE_HI.SRC l = 0 then d.glideAt l
  else towards (d.glideAt l) (d.glideWord l) (slopeStep (d.get F.LOOP_COAST.GSLOPE l))

/-- R190: an abort that ends a splice or a glide ramp at the present boundary: ABORT_LATE says whether it met the
completion. `sp` is the splice's move, if one runs. -/
def Dev.rampAborted (d : Dev) (l : Nat) (sp : Option (Int × Bool)) : Dev :=
  match sp with
  | some (_, ends) => d.putB F.SLAL_STAT.ABORT_LATE ends l
  | none =>
    if d.loopState l = 4 ∧ d.get F.LOOP_GLIDE_HI.SRC l ≠ 0 ∧ d.glideAt l ≠ d.glideWord l then
      d.putB F.SLAL_STAT.ABORT_LATE (d.glideMove l == d.glideWord l) l
    else d

/-- R136-R141: the rewind commands and the splice of a loop at the present boundary. -/
def Dev.rwdBoundary (d : Dev) (l : Nat) (enabled : Bool) : Dev × RwdBoundary :=
  let x := d.selx l
  let d := d.setSelx l { x with cmdStart := none, cmdAbort := false, cmdSplice := false }
  if l = 32 ∨ d.loopState l = 0 ∨ !enabled then (d, ⟨none, none, false⟩) else
  let r := d.get F.SEL_RWD_STAT.RSTATE l
  let caught := d.replayCaught l d.tick
  let d := if caught then d.put F.SEL_RWD_STAT.RSTATE 2 l else d
  let d := if x.cmdSplice && r = 2 && !x.cmdAbort && x.cmdStart.isNone then
      (d.put F.SEL_RWD_STAT.RSTATE 3 l).setSelx l { d.selx l with splicing := true }
    else d
  let sp := if (d.selx l).splicing then some (d.spliceMove l) else none
  let ends := (sp.map (·.2)).getD false
  let d := if ends then
      (d.put F.SEL_RWD_STAT.RSTATE 4 l).setSelx l { d.selx l with splicing := false, doneSeen := false }
    else d
  match x.cmdStart with
  | some ex =>
    -- R141: only a START that restarts a rewind says whether it met a completion
    let d := (if ends || r == 1 || r == 3 then d.putB F.SEL_RWD_STAT.ABORT_LATE ends l else d).rampAborted l sp
    let (d, res) := d.rewindRestore l ex
    (d, ⟨some res, none, false⟩)
  | none =>
    if x.cmdAbort && (r == 1 || r == 2 || r == 3) then
      let d := d.rampAborted l sp
      if caught || ends then (d.put F.SEL_RWD_STAT.ABORT_LATE 1 l, ⟨none, sp, false⟩)
      else
        let d := (d.put F.SEL_RWD_STAT.RSTATE 5 l).put F.SEL_RWD_STAT.ABORT_LATE 0 l
        let d := d.setSelx l { d.selx l with splicing := false }
        (d.fault 101 l, ⟨none, none, true⟩)
    else (d, ⟨none, sp, false⟩)

/-- R147 step 1, R151: the source word in the new state, and whether step 4 applies. -/
def Dev.sourceWord (d : Dev) (l old new : Nat) (rw : RwdBoundary) : Int × Bool :=
  let x := d.loop l
  let kept := if d.slotFresh l then (d.slotWord l).getD x.applied else x.applied
  match rw.splice.filter (·.2) with
  -- R140: the splice ends at this boundary, and the word equals the slot's in whatever state follows
  | some (w, _) => (w, true)
  | none =>
  match new with
  | 0 => (d.freeSource l, false)
  | 1 => (if old = 1 then kept else x.applied, true)
  | 2 => (if old = 5 then x.applied else kept, true)
  | 3 => if old = 3 then (x.coastWord, true) else (x.applied, old != 5)
  | 4 => (d.glideMove l, true)
  | _ =>
    match rw.restored with
    | some ⟨some w⟩ => (w, false)
    | _ => match rw.splice with
      | some (w, _) => (w, true)
      -- R136, R147: the restored word is held, and step 4 does not apply to it
      | none => (if old = 5 then x.source else x.applied, false)

/-- R97, R100: the sequencer reads the control-word slot. -/
def Dev.slotTouch (d : Dev) (l : Nat) : Dev := d.vatTouch (d.loopBlock l + 16) 8 4

/-- R145: a tick in ACQUIRE or LOCKED ended without a slot write. -/
def Dev.countMissed (d : Dev) (l : Nat) (missed : Bool) : Dev :=
  let d := d.setLoop l { d.loop l with missed := missed }
  if missed then (d.incSat F.LOOP_CNT.MISSED l).fault 130 l else d

/-- R153, R155: entries into COAST and GLIDE. -/
def Dev.noteEntry (d : Dev) (l old new : Nat) (cause : Option Nat) : Dev :=
  let forced := new = 4 && cause = some 3
  let d := match cause with
    | some c => d.put F.LOOP_STATE.CAUSE c l
    | none => d
  let d := if old != new && (new = 3 || forced) then
      (d.put64 F.LOOP_LOSS_LO.TICK F.LOOP_LOSS_HI.TICK d.tick l).incSat F.LOOP_CNT.COASTS l
    else d
  let d := if old != new && new = 3 then d.fault 128 l else d
  if old != new && new = 4 then d.fault 129 l else d

/-- R148, R153, R154, R163: what a loop starts on entering a state. -/
def Dev.enterLoop (d : Dev) (l old new : Nat) (word : Int) : Dev :=
  let x := d.loop l
  let d := d.setLoop l { x with
    entry := new = 1 && (old = 0 || old = 3 || old = 4),
    lockDecl := false, unlockDecl := false, coastOver := false,
    lockRun := if old = new then x.lockRun else 0, unlockRun := if old = new then x.unlockRun else 0,
    stepped := if old != new && new = 1 then none else x.stepped,
    coastFrom := if old != new && new = 3 then d.tick else x.coastFrom,
    coastWord := if old != new && new = 3 then word else x.coastWord }
  if old = new then d
  else if new = 1 || old = 5 then d.lockGateStart l d.tick
  else if new = 5 then d.setLoop l { d.loop l with gateFrom := none }
  else d

/-- R187: the generator's owner after the transition. -/
def Dev.slalOwner (d : Dev) (l new : Nat) : Dev :=
  if l = 32 then d
  else if new = 4 then d.put F.SLAL_STAT.OWNER 2 l
  else if (d.selx l).splicing then d.put F.SLAL_STAT.OWNER 3 l
  else if d.slalState l = 1 then d.put F.SLAL_STAT.OWNER 1 l
  else d.put F.SLAL_STAT.OWNER 0 l

/-- R140: SPLICE_END stands at a boundary, in cycle 0: the applied word equals the slot's word; RSTATE becomes DONE and row 3
of the table Loop transitions acts. -/
def Dev.spliceEnd (d : Dev) (l : Nat) : Dev :=
  let x := d.selx l
  let w := (d.loop l).applied
  if d.cycle = 0 ∧ x.splicing ∧ d.loopState l = 5 ∧ (d.slotWord l).map (satSigned 48) = some w then
    let d := (d.put F.SEL_RWD_STAT.RSTATE 4 l).setSelx l { x with splicing := false, doneSeen := false }
    let d := ((d.put F.LOOP_STATE.STATE x.recLstate l).noteEntry l 5 x.recLstate none).enterLoop l 5 x.recLstate w
    let d := d.slalOwner l x.recLstate
    if x.recLstate = 5 then d else d.trHit 2 l
  else d

def execSpliceEnd (l : Fin 32) (s : State) : StepOut := s.run fun d => d.spliceEnd l

/-- R147: the sequencer's source word, and the word it applies. -/
def Dev.applyWord (d : Dev) (l : Nat) (src w : Int) (pi psl ramped : Bool) : Dev :=
  let x := d.loop l
  let d := d.setLoop l { x with prevApplied := x.applied, source := src, applied := w, ramped := ramped, slotWritten := false }
  (d.putB F.LOOP_STATE.CLAMP_PI pi l).putB F.LOOP_STATE.CLAMP_PSL psl l

/-- R143, R147: the word in force is shown in LOOP_APPLIED and in APPLIED of the loop's block. -/
def Dev.showWord (d : Dev) (l : Nat) : Dev :=
  let w := ofSigned 64 (d.loopWord l)
  (d.put64 F.LOOP_APPLIED_LO.WORD F.LOOP_APPLIED_HI.WORD w l).vatPut (d.loopBlock l + 24) 8 w

/-- R156: the tick that starts at this boundary enters the history with its applied word. -/
def Dev.histTick (d : Dev) (l : Nat) : Dev :=
  let x := d.loop l
  let h := x.hist
  let clamped := d.flag F.LOOP_STATE.CLAMP_PI l || d.flag F.LOOP_STATE.CLAMP_PSL l
  let src := d.get F.LOOP_CTRL.TSRC l
  let temp : Option Int := if src < 4 then some (d.sensors.getD src 0).toInt
    else if d.flag F.LOOP_XTEMP.VALID (src - 4) then some (d.gets F.LOOP_XTEMP.TEMP (src - 4)) else none
  d.setLoop l { x with hist := { h with
    sum := h.sum + d.loopWord l, n := h.n + 1,
    valid := h.valid && d.loopState l == 2 && !clamped,
    tempSum := h.tempSum + temp.getD 0, tempN := h.tempN + b2n temp.isSome, state := d.loopState l } }

/-- R156: a second ends at this boundary: its accumulators wait for the history writer. -/
def Dev.histSecond (d : Dev) (l : Nat) : Dev :=
  if d.tick % 10 ^ 6 != 0 ∨ d.tick = 0 then d else
  let x := d.loop l
  d.setLoop l { x with
    histPrev := some (d.tick / 10 ^ 6 - 1, x.hist),
    lastAvg := if x.hist.n = 0 then x.lastAvg else roundDiv x.hist.sum x.hist.n,
    hist := { sum := 0, n := 0, valid := true, excl := x.exclAt == some d.tick, tempSum := 0, tempN := 0, state := 0 } }

/-- R143-R163: boundary action 3 for loop l. `enable` and `force` are those of the previous tick. -/
def Dev.sequence (d : Dev) (l : Nat) (enable force : Bool) : Dev :=
  let old := d.loopState l
  let x := d.loop l
  let used := d.flag F.LOOP_STATE.INUSE l
  let d := d.coastExpiry l d.tick
  -- R152: in COAST with cause UNLOCK a loss changes the cause to REF
  let cause := d.get F.LOOP_STATE.CAUSE l
  let d := if old = 3 && cause = 2 && !used then d.put F.LOOP_STATE.CAUSE 1 l else d
  let en := if l = 32 then enable && d.get F.TLOOP_CFG.SRC != 0 else enable
  let (d, rw) := d.rwdBoundary l en
  let c : Conds := {
    st := old, enable := en, start := rw.restored.isSome, spliceEnd := (rw.splice.map (·.2)).getD false,
    lstate := (d.selx l).recLstate, abort := rw.abort || (old = 5 && d.get F.SEL_RWD_STAT.RSTATE l = 6), force := force, inUse := used,
    unlock := x.unlockDecl, lock := x.lockDecl, coastOver := (d.loop l).coastOver, cause := cause }
  let (new, why) := c.next
  -- log entry 13: a loop that is disabled during a rewind leaves it ABORTED
  let d := if old = 5 && new = 0 then
      (((d.put F.SEL_RWD_STAT.RSTATE 5 l).setSelx l { d.selx l with splicing := false }).fault 101 l) else d
  let ran := d.slalState l == 1
  let d := if l < 32 && old = 0 then (if new = 0 then d.slalFree l else d.slalLeave l)
    else if l < 32 && new = 0 then d.put F.SLAL_STAT.RSTATE 0 l else d
  -- R136: the word that a START discards is not missed
  let missed := (old = 1 || old = 2) && !d.slotFresh l && (rw.restored.isNone || !x.slotWritten)
  let (src, psl) := d.sourceWord l old new rw
  let (w, pi, cl) := d.clampWord l src psl
  let ramped := (new = 4 && src != d.glideAt l) || rw.splice.isSome || (l < 32 && new = 0 && (ran || d.slalState l == 1))
  let d := if (old = 1 || old = 2) && x.slotWritten || rw.splice.isSome then d.slotTouch l else d
  let d := d.countMissed l missed
  -- R153: the coast word is the last one applied before COAST, and after a rewind the one of this boundary
  let d := ((d.put F.LOOP_STATE.STATE new l).noteEntry l old new why).enterLoop l old new (if old = 5 then w else x.applied)
  let d := d.put F.LOOP_STATE.GSRC (d.get F.LOOP_GLIDE_HI.SRC l) l
  (d.slalOwner l new).applyWord l src w pi cl ramped

/-- R143, R147, R156, R134: what follows from a loop's word in force, in every state: registers, block, history and
checkpoint. -/
def Dev.wordOut (d : Dev) (l : Nat) : Dev := (((d.histSecond l).showWord l).histTick l).ckptWrite l d.tick

/-! ## After the boundary actions -/

/-- What R150 and NEWREF watch: members, active entry, and the weights. -/
def Dev.selView (d : Dev) (l : Nat) : List Nat :=
  [d.get F.SEL_STAT.MEMBERS l, d.get F.SEL_STAT.ACTIVE_VALID l, d.get F.SEL_STAT.ACTIVE l] ++
    (List.range 8).map fun k => d.get (F.SEL_WEIGHT.WEIGHT.at k) l

/-- The loop has an active reference or members. -/
def selAny (v : List Nat) : Bool := v.getD 0 0 != 0 || v.getD 1 0 != 0

/-- R143, R150: a change of selection at this boundary: NEWREF, SEL_SWITCH, SEL_NO_REF. -/
def Dev.selWatch (d : Dev) (l : Nat) : Dev :=
  let v := d.selView l
  let x := d.loop l
  let was := if x.pairSel.isEmpty then List.replicate 11 0 else x.pairSel
  let switched := v.take 3 != was.take 3
  let d := d.setLoop l { x with
    newref := v != was, pairSel := v, selTick := if switched && selAny v then some d.tick else x.selTick }
  let d := if switched then d.fault 99 l else d
  if switched && selAny was && !selAny v then d.fault 98 l else d

/-- R143, R150, R163: the block's FLAGS and STATE after the boundary, and INUSE for the new tick. -/
def Dev.loopBoundaryEnd (d : Dev) (l : Nat) : Dev :=
  let d := if l < 32 then d.selWatch l else d
  let b := d.loopBlock l
  let x := d.loop l
  let d := if l = 32 ∧ d.get F.TLOOP_CFG.SRC = 2 then d
    else d.vatPut (b + 8) 1 (d.vraw (b + 8) 1 % 2 + 2 * b2n x.newref + 4 * b2n x.entry)
  (d.vatPut (b + 9) 3 (d.loopState l)).putB F.LOOP_STATE.INUSE (d.inUse l d.tick) l

/-! ## History (R156) -/

/-- R156: the 16 bytes of a history record. -/
def histRecord (s : Nat) (h : HistAcc) : List Byte :=
  leBytes 4 (s % 2 ^ 32) ++ leBytes 6 (ofSigned 48 (roundDiv h.sum (max 1 h.n))) ++
  leBytes 2 (ofSigned 16 (roundDiv h.tempSum (max 1 h.tempN))) ++
  leBytes 1 (b2n (h.valid && h.n == 10 ^ 6) + 2 * b2n h.excl + 4 * b2n (h.tempN != 0)) ++ leBytes 1 h.state ++ leBytes 2 0

/-- R156: one loop's record of the completed second. -/
def Dev.histWrite (d : Dev) (l : Nat) : Dev :=
  let x := d.loop l
  match x.histPrev with
  | none => d
  | some (s, h) =>
    (d.setLoop l { x with histPrev := none }).vatStore (d.poolBase 6 + (l * 7200 + s % 7200) * 16) (histRecord s h)

/-- R156: HISTORY_RECORD_WRITE: every loop's record of the completed second. -/
def Dev.historyWrite (d : Dev) : Dev := (List.range 33).foldl (fun d l => d.histWrite l) d

def execHistoryRecordWrite (s : State) : StepOut := s.run fun d => d.historyWrite

end Sys2Proof.Machine
end

