-- ==== Sys2Proof/Machine/Contexts.lean ====
section
/-! DEFINITION. Local time steps and the time contexts (R222-R233). Context times are in 2^-32 ns modulo 2^96. -/

namespace Sys2Proof.Machine

/-! ## Local time (R222, R223) -/

/-- R222: dlt(b) of a TLOOP word, in 2^-48 ns. -/
def dltOf (w : Int) : Nat := (1000 * ((2 ^ 48 : Int) + w)).toNat

/-- R222: LT advances across the tick that ends; LT at the boundaries is kept for replay. -/
def Dev.ltAdvance (d : Dev) : Dev :=
  let lt := d.time.lt + d.time.dlt
  let on := (List.range 32).any d.rwdOn
  { d with time := { d.time with
      past := ((d.time.lt, d.time.dlt) :: d.time.past).take 16, prev := d.time.lt, lt := lt, hist := if on then (lt / 2 ^ 16 :: d.time.hist).take 16640 else [] } }

/-- R223: a step is added to LT; the next record of every channel carries STEP. R208: a step of TLOOP is kept apart. -/
def Dev.ltStepBy (d : Dev) (tloop : Bool) (e : Int) : Dev :=
  { d with time := { d.time with
      lt := ((d.time.lt : Int) + e * 2 ^ 16).toNat, stepPend := List.range 136
      stepSum := if tloop then d.time.stepSum + e else d.time.stepSum } }.fault 162

/-- R222, R223: LT's part of boundary action 3, once TLOOP's word is applied. -/
def Dev.ltBoundary (d : Dev) : Dev :=
  let host := d.time.step.toList
  let own := d.time.tlStep.toList
  let d := { d with time := { d.time with step := none, tlStep := none, dltPrev := d.time.dlt, dlt := dltOf d.tlWord } }
  let d := own.foldl (Dev.ltStepBy · true ·) (host.foldl (Dev.ltStepBy · false ·) d)
  { d with time := { d.time with hist := if d.time.hist.isEmpty then [] else d.time.lt / 2 ^ 16 :: d.time.hist.tail } }

/-- R223, R387: a write of TIME_LT_STEP is refused unless TLOOP_CFG.SRC is 0, in force and as last accepted. -/
def Dev.ltStepCmd (d : Dev) (p : Path) (e : Int) : Dev :=
  if d.get F.TLOOP_CFG.SRC != 0 || d.getA F.TLOOP_CFG.SRC != 0 || d.getS F.TLOOP_CFG.SRC != 0 then d.refuse p.code R.TIME_LT_STEP_HI.off .combination
  else { d with time := { d.time with step := some e } }

def execLtStep (p : Path) (e : BitVec 64) (s : State) : StepOut := s.runBy p R.TIME_LT_STEP_HI.off fun d => d.ltStepCmd p e.toInt

/-! ## Values of a context (R225-R227) -/

/-- R226: c modulo the width of T96. -/
def wrap96 (x : Int) : Nat := (x % 2 ^ 96).toNat

def Dev.ctxEnabled (d : Dev) (n : Nat) : Bool := d.flag F.CTX_STAT.ENABLE n
/-- R226: inc(b). -/
def Dev.incNow (d : Dev) (n : Nat) : Nat := if 0 < d.slewLeft n then d.ctxSlewInc n else d.ctxInc n

/-- UTC_OFFSET. -/
def Dev.utcOffset (d : Dev) (n : Nat) : Int := d.gets F.CTX_UTC.OFFSET n

/-- R231: the leap waits. -/
def Dev.leapPending (d : Dev) (n : Nat) : Bool := d.get F.CTX_STAT.LEAP n == 1

/-- Seconds in 2^-32 ns. -/
def secs (s : Int) : Int := s * (10 ^ 9 * 2 ^ 32)

/-- R230: a is at or after b, both in 2^-32 ns. -/
def atOrAfter (a b : Nat) : Bool := 0 ≤ wrapDiff 64 (a / 2 ^ 32) (b / 2 ^ 32) && (a / 2 ^ 32 != b / 2 ^ 32 || b ≤ a)

/-- R227: the context's value at an LT time s (2^-48 ns) inside the present tick. -/
def Dev.ctxAt (d : Dev) (n s : Nat) : Nat :=
  let x := d.ctx n
  if d.ctxEnabled n then wrap96 (x.c + Int.fdiv (x.curInc * ((s : Int) - d.time.lt)) (max 1 d.time.dlt)) else x.c

/-- CTX_TIME at the present cycle. -/
def Dev.ctxNow (d : Dev) (n : Nat) : Nat := d.ctxAt n (d.ltAt d.cycle)

/-- R227: a conversion of an LT time in 2^-32 ns: valid in the current or the previous tick. -/
def Dev.ctxConvert (d : Dev) (n s : Nat) : Option Nat :=
  let x := d.ctx n
  let s48 := s * 2 ^ 16
  if d.time.lt ≤ s48 ∧ s48 < d.time.lt + d.time.dlt then some (d.ctxAt n s48)
  else if d.time.prev ≤ s48 ∧ s48 < d.time.lt then
    if x.prevOn then
      some (wrap96 (x.cPrev + Int.fdiv (x.prevInc * ((s48 : Int) - d.time.prev)) (max 1 d.time.dltPrev)))
    else some x.cPrev
  else none

/-- R239: a captured stamp in the context. A stamp that its channel's delay puts outside the two ticks of R227 is converted as
the nearer of them goes on (DEDUCED, log entry 111). -/
def Dev.ctxCapture (d : Dev) (n s : Nat) : Nat :=
  (d.ctxConvert n s).getD
    (if d.time.lt ≤ s * 2 ^ 16 then d.ctxAt n (s * 2 ^ 16)
     else
      let x := d.ctx n
      wrap96 (x.cPrev + Int.fdiv (x.prevInc * (((s * 2 ^ 16 : Nat) : Int) - d.time.prev)) (max 1 d.time.dltPrev)))

/-- R227: CONTEXT_CONVERSION: CTX_CONV_IN of a path converts to its selected context. -/
def Dev.conversion (d : Dev) (path s : Nat) : Dev :=
  let n := d.get F.CTX_SEL.INDEX path
  let v := d.ctxConvert n s
  let d := d.putB F.CTX_STAT.CONV_RANGE v.isNone n
  (d.put64 F.CTX_CONV_OUT_NS_LO.VALUE F.CTX_CONV_OUT_NS_HI.VALUE (v.getD 0 / 2 ^ 32) path).put
    F.CTX_CONV_OUT_FRAC.VALUE (v.getD 0 % 2 ^ 32) path

/-- CTX_CONV_IN is written whole, then converted. -/
def Dev.convertCmd (d : Dev) (p : Path) (s : Nat) : Dev :=
  let d := (d.put64 F.CTX_CONV_IN_NS_LO.VALUE F.CTX_CONV_IN_NS_HI.VALUE (s / 2 ^ 32) p.code).put
    F.CTX_CONV_IN_FRAC.VALUE (s % 2 ^ 32) p.code
  d.conversion p.code s

def execContextConversion (p : Path) (t : BitVec 96) (s : State) : StepOut := s.runBy p R.CTX_CONV_IN_NS_HI.off fun d => d.convertCmd p t.toNat

/-! ## Commands (R228, R229) -/

/-- R229: a context holds one pending command; a later one replaces it. -/
def Dev.ctxCmd (d : Dev) (n : Nat) (c : CtxCmd) : Dev := d.setCtx n { d.ctx n with cmd := some c }

/-- The context that a path's commands act on. -/
def Dev.ctxSel (d : Dev) (p : Path) : Nat := d.get F.CTX_SEL.INDEX p.code

/-- CTX_SET of a context. -/
def Dev.ctxSetValue (d : Dev) (n : Nat) : Nat :=
  d.get64 F.CTX_SET_NS_LO.VALUE F.CTX_SET_NS_HI.VALUE n * 2 ^ 32 + d.get F.CTX_SET_FRAC.VALUE n

/-- CTX_STEP of a context. -/
def Dev.ctxStepValue (d : Dev) (n : Nat) : Int := toSigned 64 (d.get64 F.CTX_STEP_LO.STEP F.CTX_STEP_HI.STEP n)

def Dev.ctxSetCmd (d : Dev) (p : Path) : Dev := d.ctxCmd (d.ctxSel p) (.set (d.ctxSetValue (d.ctxSel p)))
def Dev.ctxStepCmd (d : Dev) (p : Path) : Dev := d.ctxCmd (d.ctxSel p) (.step (d.ctxStepValue (d.ctxSel p)))
def Dev.ctxSlewCmd (d : Dev) (p : Path) : Dev := d.ctxCmd (d.ctxSel p) (.slew (d.get F.CTX_SLEW_TICKS.TICKS (d.ctxSel p)))
def Dev.ctxCancelCmd (d : Dev) (p : Path) : Dev := d.ctxCmd (d.ctxSel p) .cancel
def Dev.ctxDisableCmd (d : Dev) (p : Path) : Dev := d.ctxCmd (d.ctxSel p) .disable

def execCtxSet (p : Path) (s : State) : StepOut := s.runBy p R.CTX_CMD.off fun d => d.ctxSetCmd p
def execCtxStep (p : Path) (s : State) : StepOut := s.runBy p R.CTX_CMD.off fun d => d.ctxStepCmd p
def execCtxSlew (p : Path) (s : State) : StepOut := s.runBy p R.CTX_CMD.off fun d => d.ctxSlewCmd p
def execCtxCancel (p : Path) (s : State) : StepOut := s.runBy p R.CTX_CMD.off fun d => d.ctxCancelCmd p
def execCtxDisable (p : Path) (s : State) : StepOut := s.runBy p R.CTX_CMD.off fun d => d.ctxDisableCmd p

/-! ## Leaps (R231, R232) -/

/-- R231: while the leap is pending, its flag is set exactly when the announce instant has passed. -/
def Dev.leapAnnounce (d : Dev) (n : Nat) (c : Nat) : Dev :=
  let at' := secs (d.leapAt n) - (d.get F.CTX_UTC.ANNOUNCE n : Int) * secs 60
  let on := atOrAfter c (wrap96 at')
  if d.leapPending n then
    (d.putB F.CTX_STAT.LEAP59 (on && d.leapDel n) n).putB F.CTX_STAT.LEAP61 (on && !d.leapDel n) n
  else d

def execLeapAnnounce (n : Fin 4096) (s : State) : StepOut := s.run fun d => d.leapAnnounce n (d.ctxNow n)

/-- R232: an applied leap: the offset moves by one second. -/
def Dev.leapDo (d : Dev) (n : Nat) (late : Bool) : Dev :=
  let o := d.utcOffset n + (if d.leapDel n then -1 else 1)
  let d := d.put F.CTX_UTC.OFFSET (ofSigned 16 o) n
  let d := (d.put F.CTX_STAT.LEAP61 0 n).put F.CTX_STAT.LEAP59 0 n
  let d := d.put F.CTX_STAT.LEAP (if late then 3 else 2) n
  let d := d.setCtx n { d.ctx n with leapNow := true }
  if late then d.fault 163 n else d

/-- R226, R232: c(b) of the stepper as actions 4 and 5 see it. -/
def Dev.ctxNext (d : Dev) (n : Nat) : Nat :=
  let x := d.ctx n
  if d.ctxEnabled n then wrap96 (x.c + x.curInc) else x.c

/-- R232: boundary action 4 for one context. -/
def Dev.leapBoundary (d : Dev) (n : Nat) : Dev :=
  let d := d.setCtx n { d.ctx n with leapNow := false }
  if d.leapPending n && atOrAfter (d.ctxNext n) (wrap96 (secs (d.leapAt n))) then d.leapDo n (d.ctx n).fresh else d

/-- R232: a leap that is due at action 4 of the present boundary, and that no SET or STEP of this boundary brought about. -/
def Dev.leapDueNow (d : Dev) (n : Nat) : Bool :=
  d.leapPending n && !(d.ctx n).fresh && atOrAfter (d.ctx n).c (wrap96 (secs (d.leapAt n)))

/-- R231: CTX_LEAP as accepted: its 64 bits, LO below HI. -/
def Dev.leapWrite (d : Dev) (n v : Nat) : Dev :=
  let a := Tbl.set d.acc (R.CTX_LEAP_LO.key n) (BitVec.ofNat 32 v)
  { d with acc := Tbl.set a (R.CTX_LEAP_HI.key n) (BitVec.ofNat 32 (v / 2 ^ 32)) }

/-- R231: LEAP_ARM: refused unless LEAP_AT lies after the context's current time. -/
def Dev.leapArmCmd (d : Dev) (p : Path) (at' : Nat) (del : Bool) : Dev :=
  let n := d.ctxSel p
  if atOrAfter (d.ctxNow n) (wrap96 (secs at')) then d.refuse p.code R.CTX_LEAP_HI.off .combination
  else (d.leapWrite n (at' + b2n del * 2 ^ 48 + 2 ^ 63)).setCtx n { d.ctx n with leapCmd := some true }

/-- R231: ARM clear cancels the schedule. -/
def Dev.leapDisarmCmd (d : Dev) (p : Path) (at' : Nat) (del : Bool) : Dev :=
  let n := d.ctxSel p
  (d.leapWrite n (at' + b2n del * 2 ^ 48)).setCtx n { d.ctx n with leapCmd := some false }

def execLeapArm (p : Path) (at' : BitVec 48) (del : Bool) (s : State) : StepOut :=
  s.runBy p R.CTX_LEAP_HI.off fun d => d.leapArmCmd p at'.toNat del
def execLeapDisarm (p : Path) (at' : BitVec 48) (del : Bool) (s : State) : StepOut :=
  s.runBy p R.CTX_LEAP_HI.off fun d => d.leapDisarmCmd p at'.toNat del

/-- R231: an accepted write of CTX_LEAP takes effect. -/
def Dev.leapTake (d : Dev) (n : Nat) : Dev :=
  let x := d.ctx n
  match x.leapCmd with
  | none => d
  | some on =>
    let d := d.setCtx n { x with leapCmd := none }
    let d := (d.put F.CTX_STAT.LEAP61 0 n).put F.CTX_STAT.LEAP59 0 n
    d.putB F.CTX_STAT.LEAP on n

/-! ## The stepper (R226, R228, R229) -/

/-- R228: a slew ends: the context returns to INC. -/
def Dev.slewEnd (d : Dev) (n : Nat) : Dev := (d.put F.CTX_SLEW_LEFT.TICKS 0 n).put F.CTX_STAT.SLEWING 0 n

/-- R228: SLEW_COMPLETE, if the slew's last tick is the present one. -/
def Dev.slewComplete (d : Dev) (n : Nat) : Dev :=
  if d.slewLeft n = 1 then (d.slewEnd n).setCtx n { d.ctx n with slewOver := true } else d

def execSlewComplete (n : Fin 4096) (s : State) : StepOut := s.run fun d => d.slewComplete n

/-- R228: one tick of a slew has passed. -/
def Dev.slewTick (d : Dev) (n : Nat) : Dev :=
  let l := d.slewLeft n
  if l ≤ 1 then d.slewComplete n else d.put F.CTX_SLEW_LEFT.TICKS (l - 1) n

/-- R228, R229: what a pending command does at action 7. `done` says that a slew completes at this boundary. -/
def Dev.ctxAct (d : Dev) (n : Nat) (done : Bool) : CtxCmd → Dev
  | .set v =>
    let d := ((d.slewEnd n).put F.CTX_STAT.ENABLE 1 n).setW1c F.CTX_STAT.STEPPED n
    d.setCtx n { d.ctx n with c := v % 2 ^ 96, fresh := true }
  | .step e =>
    if d.ctxEnabled n then
      (d.setW1c F.CTX_STAT.STEPPED n).setCtx n { d.ctx n with c := wrap96 ((d.ctx n).c + e), fresh := true }
    else d
  | .slew t => (d.put F.CTX_SLEW_LEFT.TICKS t n).put F.CTX_STAT.SLEWING 1 n
  | .cancel =>
    if done then d.put F.CTX_STAT.ABORT_LATE 1 n
    else (if d.flag F.CTX_STAT.SLEWING n then d.slewEnd n else d).put F.CTX_STAT.ABORT_LATE 0 n
  | .disable => d.put F.CTX_STAT.ENABLE 0 n

/-- R100: a poisoned entry disables its context. -/
def Dev.ctxPoison (d : Dev) (n : Nat) : Dev :=
  if d.ctxEnabled n && d.vbad (d.ctxAddr n) 64 then (d.vatTouch (d.ctxAddr n) 64 4).put F.CTX_STAT.ENABLE 0 n else d

/-- R225, R226, R229: boundary action 7 for one context. -/
def Dev.ctxBoundary (d : Dev) (n : Nat) : Dev :=
  let d := d.leapTake n
  let x := d.ctx n
  let c := d.ctxNext n
  let on := d.ctxEnabled n
  let d := (d.ctxPoison n).slewTick n
  let done := (d.ctx n).slewOver
  let d := d.setCtx n { d.ctx n with c := c, cPrev := x.c, prevInc := x.curInc, prevOn := on, fresh := false, cmd := none, slewOver := false }
  let d := match x.cmd with
    | some k => d.ctxAct n done k
    | none => d
  let d := d.setCtx n { d.ctx n with curInc := d.incNow n }
  let d := (d.put F.CTX_STAT.UTC_VALID (d.get F.CTX_UTC.VALID n) n).leapAnnounce n (d.ctx n).c
  let set := match x.cmd with
    | some (.set _) => true
    | _ => false
  if d.vbad (d.ctxAddr n) 64 && !set then d else d.ctxMirror n

/-- R226: boundary action 7 for every context in use. -/
def Dev.ctxStepAll (d : Dev) : Dev := d.ctxs.foldl (fun d e => d.ctxBoundary e.1) d

/-- R232: boundary action 4 for every context in use. -/
def Dev.leapAll (d : Dev) : Dev := d.ctxs.foldl (fun d e => d.leapBoundary e.1) d

end Sys2Proof.Machine
end

