-- ==== Sys2Proof/Machine/Ports.lean ====
section
/-! DEFINITION. Event ports (R234-R241), performance intervals (R242-R245) and the leap that they note (R232, R243). -/

namespace Sys2Proof.Machine

def Dev.evtState (d : Dev) (p : Nat) : Nat := d.get F.EVT_STAT.STATE p
def Dev.evtSet (d : Dev) (p st : Nat) : Dev := d.put F.EVT_STAT.STATE st p
def Dev.evtCtx (d : Dev) (p : Nat) : Nat := d.get F.EVT_CFG.CTX p

/-! ## Pulse trains (R234-R237) -/

def Dev.evtPeriod (d : Dev) (p : Nat) : Nat :=
  (d.get F.EVT_PERIOD_LO.PERIOD p + d.get F.EVT_PERIOD_HI.PERIOD p * 2 ^ 32) * 2 ^ 32

/-- R234: the context time of edge k. -/
def Dev.edgeTime (d : Dev) (p k : Nat) : Nat :=
  wrap96 (d.get64 F.EVT_START_NS_LO.START F.EVT_START_NS_HI.START p * 2 ^ 32 + d.get F.EVT_START_FRAC.START p +
    k * d.evtPeriod p : Nat)

/-- R235: the context value and increment that place an edge: those of the previous tick, extended, within the
first 32 system cycles after a boundary. -/
def Dev.edgeBase (d : Dev) (n t : Nat) : Nat × Nat :=
  let x := d.ctx n
  let c' := wrap96 (x.cPrev + x.prevInc)
  let ahead := wrapDiff 96 t c'
  if 0 ≤ ahead ∧ ahead * 1250 < 32 * x.prevInc then (c', x.prevInc) else (x.c, x.curInc)

/-- R235: the edge's LT, rounded to the nearest 10 ps. -/
def Dev.edgeAt (d : Dev) (n t : Nat) : Int :=
  let (c, inc) := d.edgeBase n t
  roundDiv (100 * (d.time.lt * inc + wrapDiff 96 t c * d.time.dlt)) (max 1 inc * 2 ^ 48)

/-- R235, R236: a SET or STEP has carried the context past the edge before the generator takes the change up. -/
def Dev.edgePassed (d : Dev) (n t : Nat) : Bool :=
  let x := d.ctx n
  let (c, _) := d.edgeBase n t
  x.fresh && c == x.c && decide (wrapDiff 96 t c * 1250 < 32 * x.curInc)

/-- The edge lies before the tick (negative), inside it, or after it. -/
def Dev.edgeIn (d : Dev) (n t : Nat) : Ordering :=
  let (c, inc) := d.edgeBase n t
  let a := wrapDiff 96 t c
  if a < 0 ∨ d.edgePassed n t then .lt else if a < inc then .eq else .gt

/-- R236: an edge earlier than 32 system cycles after the arm boundary. -/
def Dev.edgeEarly (d : Dev) (p n t : Nat) : Bool :=
  let x := d.ctx n
  (d.evt p).armAt == d.tick && decide (wrapDiff 96 t x.c * 1250 < 32 * x.curInc)

/-- R236: edges of a train that lie before the tick, at least one. -/
def Dev.edgesPast (d : Dev) (p n t : Nat) : Nat :=
  let (c, _) := d.edgeBase n t
  max 1 (ceilDiv (wrapDiff 96 c t).toNat (max 1 (d.evtPeriod p)))

/-- R236: edges are skipped and counted. -/
def Dev.edgeSkip (d : Dev) (p n : Nat) : Dev :=
  let d := (d.incSat F.EVT_STAT.SKIPPED p n).fault 164 p
  if d.flag F.EVT_CFG.PERIODIC p then d.setEvt p { d.evt p with k := (d.evt p).k + n } else d.evtSet p 5

/-- R234, R237: WIDTH is a length: the end `e` of an active phase lies so far after the present boundary, in 2^-32 ns, with
the increment that places it (R235). A SET, a STEP or a disabled context does not move it (Dev.phaseShift). -/
def Dev.phaseBase (d : Dev) (p e : Nat) : Int × Nat :=
  let x := d.ctx (d.evtCtx p)
  let a := wrapDiff 96 e x.c
  (a, if a * 1250 < 32 * x.prevInc then x.prevInc else x.curInc)

/-- The end of an active phase lies before the tick, inside it, or after it. -/
def Dev.phaseIn (d : Dev) (p e : Nat) : Ordering :=
  let (a, inc) := d.phaseBase p e
  if a < 0 then .lt else if a < inc then .eq else .gt

/-- R235: the end's LT, rounded to the nearest 10 ps. -/
def Dev.phaseAt (d : Dev) (p e : Nat) : Int :=
  let (a, inc) := d.phaseBase p e
  roundDiv (100 * (d.time.lt * inc + a * d.time.dlt)) (max 1 inc * 2 ^ 48)

/-- R237: at a boundary the end of an active phase moves with what its context did other than run on. -/
def Dev.phaseShift (d : Dev) (p : Nat) : Dev :=
  let x := d.ctx (d.evtCtx p)
  match (d.evt p).active with
  | none => d
  | some e => d.setEvt p { d.evt p with active := some (wrap96 (e + wrapDiff 96 x.c (wrap96 (x.cPrev + x.prevInc)))) }

/-- R234, R237: the active phase ends. A port that was armed again keeps the state of that arm. -/
def Dev.pulseEnd (d : Dev) (p : Nat) (at' : Int) : Dev :=
  let x := d.evt p
  let park := if x.func = 16 ∧ (x.want = 4 ∨ x.want = 5) then max x.parkEnd (d.tick + 3) else x.parkEnd
  let d := (d.setEvt p { x with active := none, stopping := false, rearmed := false, parkEnd := park }).evtDrive p (!x.level) at'
  if x.stopping then d.evtSet p 4
  else if d.flag F.EVT_CFG.PERIODIC p || x.rearmed then d else d.evtSet p 3

/-- R236: the port's next edge, if it falls in the present tick, is emitted or skipped. -/
def Dev.trainEdge (d : Dev) (p : Nat) : Dev :=
  let x := d.evt p
  let n := d.evtCtx p
  let st := d.evtState p
  if x.func != 1 || !(st = 1 || st = 2) then d else
  let t := d.edgeTime p x.k
  if d.edgeIn n t = .lt then d.edgeSkip p (if d.flag F.EVT_CFG.PERIODIC p then d.edgesPast p n t else 1)
  else if d.edgeIn n t = .gt then d
  else if d.edgeEarly p n t then d.edgeSkip p 1
  else
    let d := d.setEvt p { x with
      k := x.k + 1, active := some (wrap96 (t + d.get F.EVT_WIDTH.WIDTH p * 2 ^ 32)), rearmed := false }
    ((d.evtSet p 2).incWrap F.EVT_COUNT.COUNT p).evtDrive p (d.activeLevel p) (d.edgeAt n t)

/-- R235-R237: PULSE_EDGE: the active phase ends, if it does in the present tick, or the next edge comes. LOG ENTRY 100: an
edge of a new arm inside the active phase of an earlier one goes on with that phase. -/
def Dev.pulseEdge (d : Dev) (p : Nat) : Dev :=
  let x := d.evt p
  match x.active with
  | some e =>
    if x.rearmed && !x.stopping && d.edgeIn (d.evtCtx p) (d.edgeTime p x.k) == .eq &&
        decide (d.edgeAt (d.evtCtx p) (d.edgeTime p x.k) ≤ d.phaseAt p e) then d.trainEdge p
    else if d.phaseIn p e = .gt then d else d.pulseEnd p (d.phaseAt p e)
  | none => d.trainEdge p

def execPulseEdge (p : Fin 16) (s : State) : StepOut := s.run fun d => d.pulseEdge p

/-- The BAR0 offset of a port's EVT_CMD. -/
def evtOff (p : Nat) : Nat := R.EVT_CMD.off p

/-- R234, R376, R387: each phase lasts at least 2.4 ns, the period at least 5 ns, and WIDTH + 1 ns fits into PERIOD. -/
def Dev.evtRateOk (d : Dev) (p : Nat) : Bool :=
  let w := d.get F.EVT_WIDTH.WIDTH p
  let t := d.evtPeriod p / 2 ^ 32
  3 ≤ w && (d.getA F.EVT_CFG.PERIODIC p == 0 || (w + 3 ≤ t && 5 ≤ t))

/-- R234, R387: ARM is refused while the context, as last accepted, is disabled. -/
def Dev.evtArmCmd (d : Dev) (path : Path) (p : Nat) : Dev :=
  if !d.ctxEnabled (d.getA F.EVT_CFG.CTX p) then d.refuse path.code (evtOff p) .state
  else if !d.evtRateOk p then d.refuse path.code (evtOff p) .combination
  else d.setEvt p { d.evt p with cmdArm := true, cmdStop := false }

/-- R237. -/
def Dev.evtStopCmd (d : Dev) (_path : Path) (p : Nat) : Dev :=
  d.setEvt p { d.evt p with cmdStop := true, cmdArm := false }

def execEvtArm (path : Path) (p : Fin 16) (s : State) : StepOut := s.runBy path (R.EVT_CMD.off p) fun d => d.evtArmCmd path p
def execEvtStop (path : Path) (p : Fin 16) (s : State) : StepOut := s.runBy path (R.EVT_CMD.off p) fun d => d.evtStopCmd path p

/-- R237: STOP, a disabled context or a function change stops the port; an active phase completes first. -/
def Dev.evtStop (d : Dev) (p : Nat) : Dev :=
  let x := d.evt p
  let st := d.evtState p
  if st != 1 && st != 2 then d
  else if x.active.isSome then d.setEvt p { x with stopping := true }
  else d.evtSet p 4

/-- R237: a one-shot's pulse ends in the boundary's own cycle. -/
def Dev.endsNow (d : Dev) (p : Nat) : Bool :=
  match (d.evt p).active with
  | some e => !d.flag F.EVT_CFG.PERIODIC p && !(d.evt p).rearmed && decide ((d.phaseBase p e).1 * 1250 < (d.phaseBase p e).2)
  | none => false

/-- R237: a STOP in the cycle in which a one-shot's pulse ends loses. -/
def Dev.evtStopAt (d : Dev) (p : Nat) : Dev :=
  if d.endsNow p then (d.pulseEnd p (d.phaseAt p ((d.evt p).active.getD 0))).put F.EVT_STAT.ABORT_LATE 1 p
  else (d.put F.EVT_STAT.ABORT_LATE 0 p).evtStop p

/-! ## Functions (R238-R241) -/

/-- The idle level of an output function (table Event port functions). -/
def Dev.idleLevel (d : Dev) (p f : Nat) : Bool :=
  if f = 5 then d.flag F.EVT_AUX.GPIO_OUT p else !d.activeLevel p

/-- R241: the park of a new function starts at the present boundary: an active phase completes, the pad keeps the old
idle level, for 2 cycles of the slower clock from there on. LOG ENTRY 100: a FAULT port has no phase of a length of its
own; it moves to its idle level at once. -/
def Dev.evtPark (d : Dev) (p : Nat) : Dev :=
  let x := d.evt p
  let f := d.get F.EVT_CFG.FUNC p
  let gpio := x.func = 4 || x.func = 5 || f = 4 || f = 5 || (x.func = 16 && x.parkEnd > d.tick)
  let from' := max d.tick (ceilDiv (x.pulseTo + 2) 1250)
  let d := if x.func = 1 then d.evtStop p else if x.func = 6 then d.evtDrive p (!d.activeLevel p) d.lt10ps else d
  (d.setEvt p { d.evt p with func := 16, want := f, clean := 0, parkEnd := if gpio then from' + 2 else from' }).put
    F.EVT_STAT.PARK 1 p

/-- The function takes its input from the pad. -/
def inputFunc (f : Nat) : Bool := f == 2 || f == 4

/-- Table Event port functions: the idle level of an input function; none is any stable level. -/
def Dev.inputIdle (d : Dev) (p f : Nat) : Option Bool :=
  if f = 2 then
    match d.get F.TDC_CH_CFG.EDGE (112 + p) with
    | 0 => some false
    | 1 => some true
    | _ => none
  else none

/-- R241: the clean samples at idle after one more. -/
def cleanNext (x : Evt) (idle : Option Bool) (pad : Bool) : Nat :=
  match idle with
  | some l => if pad = l then x.clean + 1 else 0
  | none => if x.clean = 1 ∧ pad = x.pad then 2 else 1

/-- R240, R241: one sample of the pad: an input function presents idle until two clean ones, and GPIO_IN then follows two
that agree. -/
def Dev.evtSample (d : Dev) (p : Nat) (pad : Bool) : Dev :=
  let x := d.evt p
  let f := if x.func = 16 then x.want else x.func
  let counts := inputFunc f && x.clean < 2 && (x.func != 16 || decide (x.parkEnd ≤ d.tick))
  let clean := if counts then cleanNext x (d.inputIdle p f) pad else x.clean
  let d := if x.func = 4 ∧ clean = 2 ∧ pad = x.pad then d.putB F.EVT_AUX.GPIO_IN pad p else d
  d.setEvt p { d.evt p with pad := pad, clean := clean }

/-- R241: EVT_PARK_END: the new function is connected; an input function only while its pad is at idle. -/
def Dev.evtParkEnd (d : Dev) (p : Nat) : Dev :=
  let x := d.evt p
  let f := x.want
  if d.pinsLive ∧ d.flag F.EVT_STAT.PARK p ∧ x.parkEnd ≤ d.tick ∧ x.active.isNone ∧ (inputFunc f → 0 < x.clean) then
    let d := ((d.setEvt p { x with func := f, k := 0, stopping := false, cmdArm := false, cmdStop := false }).put
      F.EVT_STAT.PARK 0 p).evtSet p 0
    let d := if f = 1 ∨ f = 3 ∨ f = 5 ∨ f = 6 then d.evtDrive p (d.idleLevel p f) d.lt10ps else d
    d.evtFaults
  else d

def execEvtParkEnd (p : Fin 16) (s : State) : StepOut := s.run fun d => d.evtParkEnd p

/-- R238: a TICK port's pulse at a boundary: whole slots of 0.8 ns, at least one. -/
def Dev.tickPort (d : Dev) (p : Nat) : Dev :=
  if (d.evt p).func = 3 ∧ d.tick % max 1 (d.get F.EVT_AUX.TICKDIV p) = 0 then
    let slots := max 1 (d.get F.EVT_WIDTH.WIDTH p * 10 / 8)
    let d := d.setEvt p { d.evt p with pulseTo := d.tick * 1250 + slots }
    ((d.incWrap F.EVT_COUNT.COUNT p).emit (.edge p (d.activeLevel p) d.lt10ps)).emit
      (.edge p (!d.activeLevel p) (d.lt10ps + slots * 80))
  else d

/-- R234, R237: ARM and STOP at a boundary, and a disabled context. -/
def Dev.pulseBoundary (d : Dev) (p : Nat) (arm stop : Bool) : Dev :=
  let d := if arm then
      (d.setEvt p { d.evt p with
        cmdArm := false, k := 0, rearmed := (d.evt p).active.isSome, stopping := false, armAt := d.tick }).evtSet p 1
    else d
  let d := if stop then (d.setEvt p { d.evt p with cmdStop := false }).evtStopAt p else d
  let d := if d.ctxEnabled (d.evtCtx p) then d else d.evtStop p
  if (d.evt p).active.isNone then d.evtDrive p (!d.activeLevel p) d.lt10ps else d

/-- R237: an active phase whose end lies before the present boundary has ended. -/
def Dev.phaseSettle (d : Dev) (p : Nat) : Dev :=
  match (d.evt p).active with
  | some e => if d.phaseIn p e = .lt then d.pulseEnd p (d.phaseAt p e) else d
  | none => d

/-- R234-R241: an event port at a boundary, after action 7. Until boot step 12 takes effect it is at FUNC OFF (R366). -/
def Dev.evtBoundary (d : Dev) (p : Nat) (pad : Bool) : Dev :=
  if !d.pinsLive then d else
  let d := (d.phaseShift p).phaseSettle p
  let x := d.evt p
  let n := d.evtCtx p
  let d := if d.get F.EVT_CFG.FUNC p != x.want then (d.setEvt p { x with pad := pad }).evtPark p
    else (d.evtSample p pad).evtParkEnd p
  let d := if (d.evt p).func = 1 then d.pulseBoundary p x.cmdArm x.cmdStop
    else d.setEvt p { d.evt p with cmdArm := false, cmdStop := false }
  let f := (d.evt p).func
  let d := if (f = 1 ∨ f = 2) ∧ (d.ctx n).fresh then d.setW1c F.EVT_STAT.STEPPED p else d
  let d := d.putB F.EVT_STAT.NOCTX (f == 2 && !d.ctxEnabled n) p
  let d := if f = 5 then d.evtDrive p (d.flag F.EVT_AUX.GPIO_OUT p) d.lt10ps
    else if f = 3 ∧ (d.evt p).pulseTo ≤ d.tick * 1250 then d.evtDrive p (!d.activeLevel p) d.lt10ps else d
  d.tickPort p

/-- R239: a stamp of channel 112 + p is converted to the port's context. -/
def Dev.evtCapture (d : Dev) (p s : Nat) : Dev :=
  if (d.evt p).func != 2 then d else
  let n := d.evtCtx p
  let d := d.incWrap F.EVT_COUNT.COUNT p
  if !d.ctxEnabled n then d else
  let v := d.ctxCapture n s
  (d.put64 F.EVT_CAPT_NS_LO.VALUE F.EVT_CAPT_NS_HI.VALUE (v / 2 ^ 32) p).put F.EVT_CAPT_FRAC.VALUE (v % 2 ^ 32) p

/-- R192, R241: the port presents edges to its TDC channel: not OFF, not parked, and as an input after its clean samples. -/
def Dev.evtPresents (d : Dev) (p : Nat) : Bool :=
  let x := d.evt p
  x.func != 0 && x.func != 16 && (!inputFunc x.func || x.clean == 2)

/-! ## Performance intervals (R242-R245) -/

/-- R243: the UTC time of the PI context at context time c, in 2^-32 ns. -/
def Dev.piUtc (d : Dev) (n c : Nat) : Int :=
  let o := d.utcOffset n
  let ins := d.leapPending n && !d.leapDel n && atOrAfter c (wrap96 (secs (d.leapAt n - 1)))
  (c : Int) - secs (if ins then o + 1 else o)

/-- The UTC second at which the aligned interval of `len` seconds begins. -/
def piStart (u : Int) (len : Nat) : Nat := (Int.fdiv u (secs len) * len).toNat

/-- R242: LENGTH of a bin, in ms, rounded to nearest. -/
def Bin.length (b : Bin) : Nat := (roundDiv b.len (2 ^ 32 * 10 ^ 6)).toNat

/-- R242: the 32 bytes of a bin record. -/
def binRecord (kind : Nat) (b : Bin) : List Byte :=
  leBytes 6 b.start ++ leBytes 1 kind ++ leBytes 1 b.flags ++ leBytes 4 b.length ++
  leBytes 4 (b.ta / 1000) ++ leBytes 4 (b.tb / 1000) ++ leBytes 2 (min b.na 65535) ++ leBytes 2 (min b.nb 65535) ++
  leBytes 4 (min b.peak (2 ^ 32 - 1)) ++ leBytes 4 b.missed

/-- R242: Vat offset of an object's granule. -/
def Dev.piGranule (d : Dev) (o : Nat) : Nat := (d.get F.TIME_PI_BASE.GRANULE + o) * 4096

/-- A new bin. -/
def Bin.new (start flags : Nat) : Bin := ⟨start, flags, 0, 0, 0, 0, 0, 0, 0⟩

/-- R242: the open bins of an object in the Vat. -/
def Dev.piShow (d : Dev) (o : Nat) : Dev :=
  match d.pi.objs[o]? with
  | none => d
  | some x => (d.vatStore (d.piGranule o) (binRecord 0 x.b15)).vatStore (d.piGranule o + 32) (binRecord 1 x.b24)

/-- R242: where in its object's granule a closed bin lies. -/
def binSlot (kind start : Nat) : Nat := if kind = 0 then 64 + 32 * (start / 900 % 96) else 3136 + 32 * (start / 86400 % 7)

/-- R242, R244: a bin goes into its slot; one of LENGTH 0 is not recorded. -/
def Dev.binClose (d : Dev) (o kind : Nat) (b : Bin) : Dev :=
  if b.length = 0 then d else d.vatStore (d.piGranule o + binSlot kind b.start) (binRecord kind b)

def Dev.setPi (d : Dev) (x : PiUnit) : Dev := { d with pi := x }

/-- R242: the state code whose time T_A, T_B and entries an object counts. -/
def Dev.piState (d : Dev) (o : Nat) : Nat := if o < 40 then d.inState o else d.loopState (o - 40)

/-- The counts of one object for the present tick, added to a bin. -/
def Dev.piCount (d : Dev) (o : Nat) (x : PiObj) (inc : Nat) (b : Bin) : Bin :=
  let st := d.piState o
  if o < 40 then
    let m := d.mon o
    { b with
      len := b.len + inc
      ta := b.ta + b2n (st == badS || st == absentS)
      tb := b.tb + b2n (st == suspectS)
      na := b.na + b2n (st == badS && x.state != badS)
      nb := b.nb + b2n (m.suspect && !x.sus)
      peak := if m.fmonValid then max b.peak (d.gets F.IN_FMON_RESULT.OFFSET o).natAbs else b.peak }
  else
    let l := o - 40
    let e := (toSigned 64 (d.vraw (d.loopBlock l) 8)).natAbs
    { b with
      len := b.len + inc
      ta := b.ta + b2n (st == 2)
      tb := b.tb + b2n (st == 3 || st == 4)
      na := b.na + b2n ((st == 3 && x.state != 3) || (st == 4 && x.state != 4 && d.get F.LOOP_STATE.CAUSE l == 3))
      nb := b.nb + b2n (st == 5 && (d.selx l).start == d.tick)
      peak := max b.peak (e * 1000 / 2 ^ 32)
      missed := b.missed + b2n (d.loop l).missed }

/-- R242: the present tick enters the open bins, once. -/
def Dev.piAccum (d : Dev) : Dev :=
  let p := d.pi
  if !p.isOpen ∨ p.counted = some d.tick then d else
  let inc := (d.ctx p.ctx).curInc
  d.setPi { p with
    counted := some d.tick
    objs := (List.range 72).map fun o =>
      let x := p.objs.getD o default
      { b15 := d.piCount o x inc x.b15, b24 := d.piCount o x inc x.b24, state := d.piState o,
        sus := o < 40 && (d.mon o).suspect } }

/-- R243: the open bins carry more flags. -/
def Dev.piFlag (d : Dev) (f : Nat) : Dev :=
  d.setPi { d.pi with objs := d.pi.objs.map fun x =>
    { x with b15 := { x.b15 with flags := x.b15.flags ||| f }, b24 := { x.b24 with flags := x.b24.flags ||| f } } }

/-- R232, R243: LEAP_APPLY: a leap that is due at the present boundary is applied, and the open bins of its context carry
LEAP. -/
def Dev.leapApply (d : Dev) (n : Nat) : Dev :=
  if !d.leapDueNow n then d else
  let d := d.leapDo n false
  if d.pi.isOpen ∧ d.pi.ctx = n then d.piFlag 1 else d

def execLeapApply (n : Fin 4096) (s : State) : StepOut := s.run fun d => d.leapApply n

/-- R243, R244: bins of one kind close with extra flags, and new ones open at `start`. -/
def Dev.piCloseKind (d : Dev) (kind flags start newFlags : Nat) : Dev :=
  let p := d.pi
  let len : Nat := ((p.objs.head?.map fun x => if kind = 0 then x.b15.length else x.b24.length)).getD 0
  let d := (List.range 72).foldl (fun d o =>
    let x := p.objs.getD o default
    let b := if kind = 0 then x.b15 else x.b24
    d.binClose o kind { b with flags := b.flags ||| flags }) d
  let d := if kind = 0 ∧ len ≠ 0 then
      (d.incWrap F.TIME_PI_STAT.CLOSES).putB F.TIME_PI_STAT.POWER_INT (bit flags 1) else d
  d.setPi { p with objs := p.objs.map fun x =>
    if kind = 0 then { x with b15 := Bin.new start newFlags } else { x with b24 := Bin.new start newFlags } }

/-- Both kinds close and open again at context time c. -/
def Dev.piReopen (d : Dev) (flags newFlags c : Nat) : Dev :=
  let u := d.piUtc d.pi.ctx c
  (d.piCloseKind 0 flags (piStart u 900) newFlags).piCloseKind 1 flags (piStart u 86400) newFlags

/-- R242: bytes 0-63 of an object's granule keep its bins as they close. -/
def Dev.piLast (d : Dev) (flags o : Nat) : Dev :=
  match d.pi.objs[o]? with
  | none => d
  | some x =>
    (d.vatStore (d.piGranule o) (binRecord 0 { x.b15 with flags := x.b15.flags ||| flags })).vatStore (d.piGranule o + 32)
      (binRecord 1 { x.b24 with flags := x.b24.flags ||| flags })

/-- The bins close and none opens. -/
def Dev.piShut (d : Dev) (flags : Nat) : Dev :=
  let d := (List.range 72).foldl (fun (d : Dev) o => d.piLast flags o) d
  let d := d.piReopen flags 0 (d.ctx d.pi.ctx).c
  (d.setPi { d.pi with isOpen := false, objs := [] }).put F.TIME_PI_STAT.OPEN 0

/-- R242, R245: bins open at context time c. -/
def Dev.piOpen (d : Dev) (n c : Nat) : Dev :=
  let u := d.piUtc n c
  let f := 4 + (if d.pi.restored then 16 else 0)
  let objs := (List.range 72).map fun o =>
    ({ b15 := Bin.new (piStart u 900) f, b24 := Bin.new (piStart u 86400) f, state := d.piState o,
       sus := o < 40 && (d.mon o).suspect } : PiObj)
  (d.setPi { d.pi with isOpen := true, ctx := n, restored := false, objs := objs }).put F.TIME_PI_STAT.OPEN 1

/-- R242: the unit's bins are open while its context is enabled with UTC_VALID. -/
def Dev.piWanted (d : Dev) : Bool :=
  let n := d.get F.TIME_PI_CFG.CTX
  d.flag F.TIME_PI_CFG.ENABLE && d.ctxEnabled n && d.flag F.CTX_UTC.VALID n

/-- R243: bins whose interval has ended at context time c close and open again. -/
def Dev.piDue (d : Dev) (c : Nat) : Dev :=
  let n := d.pi.ctx
  let u := d.piUtc n c
  let first := d.pi.objs.head?
  let d := match first with
    | some x => if x.b15.start != piStart u 900 then d.piCloseKind 0 0 (piStart u 900) 0 else d
    | none => d
  match first with
  | some x => if x.b24.start != piStart u 86400 then d.piCloseKind 1 0 (piStart u 86400) 0 else d
  | none => d

/-- R100: a poisoned open bin is closed unrecorded, and a new one opens with PARTIAL. -/
def Dev.piPoison (d : Dev) (o : Nat) : Dev :=
  let bad := fun k => d.vbad (d.piGranule o + 32 * k) 32
  if !bad 0 && !bad 1 then d else
  let p := d.pi
  let d := d.vatTouch (d.piGranule o) 64 4
  d.setPi { p with objs := (List.range 72).map fun i =>
    let x := p.objs.getD i default
    if i = o then { x with
      b15 := if bad 0 then Bin.new x.b15.start 4 else x.b15, b24 := if bad 1 then Bin.new x.b24.start 4 else x.b24 }
    else x }

/-- R242-R244: boundary action 5. -/
def Dev.piBoundary (d : Dev) : Dev :=
  let n := d.get F.TIME_PI_CFG.CTX
  let d := if d.pi.isOpen then (List.range 72).foldl Dev.piPoison d else d
  let d := if d.pi.isOpen && (!d.piWanted || d.pi.ctx != n) then d.piShut 8 else d
  if !d.piWanted then d
  else if d.pi.isOpen then
    -- a bin in which a leap was applied carries LEAP
    (if (d.ctx n).leapNow then d.piFlag 1 else d).piDue (d.ctxNext n)
  else d.piOpen n (d.ctxNext n)

/-- R244: after action 7: a SET, STEP or DISABLE of the PI context closes the bins at its boundary. -/
def Dev.piAfter (d : Dev) : Dev :=
  if !d.pi.isOpen then d
  else
    let d := if !d.piWanted then d.piShut 8
      else if (d.ctx d.pi.ctx).fresh then d.piReopen 8 4 (d.ctx d.pi.ctx).c else d
    if d.pi.isOpen then (List.range 72).foldl Dev.piShow d else d

/-- R243: PERFORMANCE_INTERVAL_CLOSE stands at a boundary, in cycle 0: bins whose interval has ended by then close. -/
def Dev.piClose (d : Dev) : Dev := if d.pi.isOpen ∧ d.cycle = 0 then d.piDue (d.ctx d.pi.ctx).c else d

def execPerformanceIntervalClose (s : State) : StepOut := s.run fun d => d.piClose

/-- R245: at action 6 every open bin closes with POWER_INT. -/
def Dev.piPower (d : Dev) : Dev := if d.pi.isOpen then d.piShut 2 else d

end Sys2Proof.Machine
end

