-- ==== Sys2Proof/Machine/Tdc.lean ====
section
/-! DEFINITION. The TDC array: interpolators and calibration, stamps, stamp records and rings (R192-R204). Times are
in 2^-32 ns; the XO timescale counts from TICK_COUNT 0 (R108). -/

namespace Sys2Proof.Machine

def Dev.tdc (d : Dev) (c : Nat) : TdcCh := Tbl.getD d.tdcs c TdcCh.reset
def Dev.setTdc (d : Dev) (c : Nat) (x : TdcCh) : Dev := { d with tdcs := Tbl.set d.tdcs c x }
def Dev.ms (d : Dev) (s : Nat) : MsSlot := Tbl.getD d.mss s MsSlot.reset
def Dev.setMs (d : Dev) (s : Nat) (x : MsSlot) : Dev := { d with mss := Tbl.set d.mss s x }
def Dev.msState (d : Dev) (s : Nat) : Nat := d.get F.TDC_MS_STAT.STATE s

def Dev.tdcMode (d : Dev) (c : Nat) : Nat := d.get F.TDC_CH_CFG.MODE c

/-- R196: a slot in CAL, ARMED or WAIT uses the channel. -/
def Dev.slotUses (d : Dev) (c : Nat) : Bool :=
  (List.range 64).any fun s =>
    (d.msState s == 1 || d.msState s == 2 || d.msState s == 3) &&
    (d.get F.TDC_MS_CFG.START_CH s == c || d.get F.TDC_MS_CFG.STOP_CH s == c)

/-- R192, R196: the channel's source is active (log entry 88): an enabled input, an output divider that runs (R177), a
connected event port, a link that receives. -/
def Dev.sourceActive (d : Dev) (c : Nat) : Bool :=
  if c < 40 then d.inEnabled c
  else if c < 112 then d.flag F.SYN_STAT.LOCK (d.outc (c - 40)).src && d.get F.OUT_CFG.FORMAT (c - 40) != 0
  else if c < 128 then d.evtPresents (c - 112)
  else d.flag F.KL_LINK_CFG.ENABLE (c - 128)

/-- R196: the channel calibrates continuously. -/
def Dev.calibrating (d : Dev) (c : Nat) : Bool := (d.tdcMode c != 0 && d.sourceActive c) || d.slotUses c

/-! ## Calibration (R195-R198) -/

/-- R198: a pair of mean codes is accepted beside the previous accepted pair of its interpolator. The gain is
400 ps over C2 - C1, so a gain within 1% is a difference of C2 - C1 within 1% of the new one. -/
def calAccepted (prev : Option (Nat × Nat)) (c1 c2 : Nat) : Bool :=
  decide (c1 + 900 ≤ c2 ∧ c2 ≤ c1 + 1150) &&
  match prev with
  | none => true
  | some (p1, p2) => decide ((((p2 : Int) - p1) - ((c2 : Int) - c1)).natAbs * 100 ≤ c2 - c1)

/-- R198: a calibration of interpolator ip (0 A, 1 B) is accepted or rejected. -/
def Dev.calibrate (d : Dev) (c ip c1 c2 : Nat) : Dev :=
  let x := d.tdc c
  let prev := if ip = 0 then x.calA else x.calB
  if calAccepted prev c1 c2 then
    let x := if ip = 0 then { x with calA := some (c1, c2), staleA := false }
      else { x with calB := some (c1, c2), staleB := false }
    let d := (d.setTdc c x).put F.TDC_CH_CAL.IP ip c
    ((d.put F.TDC_CH_CAL.C1 c1 c).put F.TDC_CH_CAL.C2 c2 c).put F.TDC_CH_CAL.STALE 0 c
  else
    let x := if ip = 0 then { x with staleA := true } else { x with staleB := true }
    ((d.setTdc c x).put F.TDC_CH_CAL.STALE 1 c).fault 160 c

/-- R196, R198: the calibration that ran in the present tick ends with it: A in even ticks, B in odd ones. -/
def Dev.tdcCalibration (d : Dev) (c c1 c2 : Nat) : Dev :=
  if d.calibrating c then d.calibrate c (d.tick % 2) c1 c2 else d

def execTdcCalibration (c : Fin 136) (c1 c2 : BitVec 12) (s : State) : StepOut :=
  s.run fun d => d.tdcCalibration c c1.toNat c2.toNat

/-- R197: both interpolators of a channel calibrated at an arm boundary are done; slots in CAL go on. -/
def Dev.armCalDone (d : Dev) (c a1 a2 b1 b2 : Nat) : Dev :=
  let waits := (List.range 64).filter fun s => d.msState s == 1 && (d.ms s).cal.contains c
  if waits.isEmpty then d else
  let d := (d.calibrate c 0 a1 a2).calibrate c 1 b1 b2
  waits.foldl (fun d s =>
    let x := { d.ms s with cal := (d.ms s).cal.filter (· != c) }
    let d := d.setMs s x
    if x.cal.isEmpty then d.put F.TDC_MS_STAT.STATE (if x.start.isSome || x.stop.isSome then 3 else 2) s else d) d

def execArmCalibrationDone (c : Fin 136) (a1 a2 b1 b2 : BitVec 12) (s : State) : StepOut :=
  s.run fun d => d.armCalDone c a1.toNat a2.toNat b1.toNat b2.toNat

/-! ## The edge time (R195, R199) -/

/-- R195: the interval I from the edge to its reference coarse edge as a fraction of 2^-32 ns, and the CALSTALE
flag, for the interpolator that stamps in the present tick: B in even ticks. A channel that was never calibrated
measures an interval of 400 to 800 ps that nothing gives (log entry 2). -/
def Dev.interval (d : Dev) (c code : Nat) : Int × Nat × Bool :=
  let x := d.tdc c
  let (cal, stale) := if d.tick % 2 = 0 then (x.calB, x.staleB) else (x.calA, x.staleA)
  match cal with
  | some (c1, c2) => (((code : Int) - (2 * c1 - c2)) * (2 * 2 ^ 32), 5 * (c2 - c1), stale)
  | none => ((2 * 2 ^ 32 + d.freeVal % (2 * 2 ^ 32) : Nat), 5, stale)

/-- The edge time on the XO timescale, as a fraction of 2^-32 ns: the second coarse edge after the edge, less I. -/
def Dev.edgeXo (d : Dev) (c coarse code : Nat) : Int × Nat :=
  let (i, q, _) := d.interval c code
  -- 400 ps are 2^33 / 5
  ((((d.tick * 2500 + coarse + 2 : Nat) : Int) * 2 ^ 33 * q - i * 5), 5 * q)

/-- R104: what the glitch filter of an input takes for a glitch, in 0.2 ns; 0 where it is off or unavailable. -/
def Dev.glitch (d : Dev) (c : Nat) : Nat :=
  if c < 40 ∧ d.flag F.IN_CFG.MODE c = true then d.get F.IN_CFG.GLITCH c else 0

/-- R199: what is subtracted from a channel's stamps, in 2^-32 ns. The fixed path delay includes the glitch filter's, which
delays by GLITCH x 0.2 ns (R104). -/
def Dev.chDelay (d : Dev) (c : Nat) : Int :=
  Config.pathDelay c + (d.glitch c * 2 ^ 32 / 5 : Nat) + d.gets F.TDC_CH_DELAY.DELAY c * 2 ^ 16

/-- R195, R199: the edge time mapped to LT, less the delays, rounded to 2^-32 ns. -/
def Dev.edgeLt (d : Dev) (xo : Int × Nat) (c : Nat) : Int :=
  let inTick := xo.1 - (d.tick : Int) * tickUnits * xo.2
  roundDiv ((d.time.lt : Int) * tickUnits * xo.2 + d.time.dlt * inTick) (tickUnits * xo.2 * 2 ^ 16) - d.chDelay c

/-! ## Records (R200-R203) -/

/-- R200: the 16 bytes of a stamp record. -/
def stampBytes (c flags count time : Nat) : List Byte :=
  leBytes 1 c ++ leBytes 1 flags ++ leBytes 2 (count % 2 ^ 16) ++ leBytes 4 (time % 2 ^ 32) ++ leBytes 8 (time / 2 ^ 32)

/-- R202: a record reaches the ring of its channel, or is discarded where the descriptor is disabled: the next record that
is written then carries LOST, and the discarded one's STEP (R200). -/
def Dev.stampWrite (d : Dev) (c : Nat) (bytes : List Byte) : Dev :=
  let q := stampQueue c
  let d := d.qCheck q
  let x := d.tdc c
  let flags := leAt bytes 1 1
  if d.qEnabled q then
    let bytes := bytes.take 1 ++ leBytes 1 (flags ||| x.carry) ++ bytes.drop 2
    let d := ((d.setTdc c { x with carry := 0 }).qPush q bytes).trStream 0 c bytes
    if bit (leAt bytes 1 1) 2 then d.fault 161 else d
  else (d.setTdc c { x with carry := x.carry ||| 4 ||| (flags &&& 16) }).incSat F.TDC_CH_STAT.LOST c

/-- R200, R204: a record is formed: its stamp's own flags with LOST, STEP and REDUCED. -/
def Dev.stampForm (d : Dev) (c : Nat) (x : Stamp) : Dev × List Byte :=
  let t := d.tdc c
  let step := d.time.stepPend.contains c
  let red := d.get F.SYS_PROFILE.ACTIVE == 1 && !d.flag F.TDC_CH_CFG.FULLRATE c
  let d := { d.setTdc c { t with lost := false } with
    time := { d.time with stepPend := d.time.stepPend.filter (· != c) } }
  (d, stampBytes c (x.flags + 4 * b2n t.lost + 16 * b2n step + 32 * b2n red) x.count x.time)

/-- R203: a record enters the channel's burst buffer, or finds it full. -/
def Dev.burstPut (d : Dev) (c : Nat) (x : Stamp) : Dev :=
  if (d.tdc c).burst.length < 4096 then
    let (d, b) := d.stampForm c x
    d.setTdc c { d.tdc c with burst := (d.tdc c).burst ++ [b] }
  else (d.setTdc c { d.tdc c with lost := true }).incSat F.TDC_CH_STAT.LOST c

/-- R203: BURST_BUFFER_DRAIN: the oldest record of a buffer reaches its ring. -/
def Dev.burstDrain (d : Dev) (c : Nat) : Dev :=
  match (d.tdc c).burst with
  | [] => d
  | b :: r => (d.setTdc c { d.tdc c with burst := r }).stampWrite c b

def execBurstBufferDrain (c : Fin 136) (s : State) : StepOut := s.run fun d => d.burstDrain c

/-- The tick in which a stamp falls by LT (R14, R201). -/
def Dev.stampTick (d : Dev) (t : Nat) : Nat :=
  if t * 2 ^ 16 < d.time.lt then d.tick - 1
  else if d.time.lt + d.time.dlt ≤ t * 2 ^ 16 then d.tick + 1 else d.tick

/-- R204: a channel at reduced rate records only edges of ticks that are a multiple of 8. LOG ENTRY 88: every channel with
FULLRATE stamps each tick, also where a commit in DEEP has marked more than 64 (R20, R21). -/
def Dev.rateOk (d : Dev) (c t : Nat) : Bool :=
  d.get F.SYS_PROFILE.ACTIVE != 1 || d.flag F.TDC_CH_CFG.FULLRATE c || t % 8 == 0

/-- R201: a SAMPLE channel writes the record of tick t. -/
def Dev.sampleRecord (d : Dev) (c : Nat) (x : Stamp) (t : Nat) : Dev :=
  let d := d.setTdc c { d.tdc c with sampled := some t }
  let (d, b) := d.stampForm c x
  d.stampWrite c b

/-- R214: the newest record of a stream is replaced in its ring: every recorder that has copied it takes the new one for it, in
its buffer or at its place in the capture ring. -/
def Dev.trReplace (d : Dev) (kind src : Nat) (old new : List Byte) : Dev :=
  (List.range 4).foldl (fun d r =>
    let x := d.tr r
    let last := d.trBase r + 32 + 16 * ((x.next - 1) % max 1 (d.trRing r))
    if d.get F.TDC_TR_CFG.SRC_KIND r != kind || d.get F.TDC_TR_CFG.SRC r != src then d
    else if x.fifo.any fun e => e.2 == old then
      d.setTr r { x with fifo := x.fifo.map fun e => if e.2 == old then (e.1, new) else e }
    else if 0 < x.next && (d.trState r == 1 || d.trState r == 2) && d.vbytes last 16 == old then d.vatStore last new
    else d) d

/-- R14, R201: an edge that falls by LT, less the channel's delay, in the tick t that has ended. Until cycle 50 the record
of that tick can still become its own, in the ring and with the recorders that copy it; it keeps the flags of the record that it
replaces and takes those that have come since (R200). After that the tick keeps its one record (log entry 88). -/
def Dev.sampleLate (d : Dev) (c : Nat) (x : Stamp) (t : Nat) : Dev :=
  if (d.tdc c).sampled != some t then d.sampleRecord c x t
  else if d.cycle < 50 && d.qEnabled (stampQueue c) && 0 < d.stampsHeld c then
    let a := d.stampAddr c 0
    let old := d.vbytes a 16
    let (d, b) := d.stampForm c x
    let new := b.take 1 ++ leBytes 1 (leAt b 1 1 ||| (leAt old 1 1 &&& 0x34)) ++ b.drop 2
    let d := (d.vatStore a new).trReplace 0 c old new
    if bit (leAt new 1 1) 2 && !bit (leAt old 1 1) 2 then d.fault 161 else d
  else d

/-- R201: a stamped edge is recorded as MODE says. `nth` says that it is an N-th prescaled edge. -/
def Dev.stampRecord (d : Dev) (c : Nat) (x : Stamp) (nth : Bool) : Dev :=
  let t := d.stampTick x.time
  if !d.rateOk c t then d else
  match d.tdcMode c with
  | 1 => d.burstPut c x
  | 2 =>
    if (d.tdc c).recTick = some t then d else
    let d := d.setTdc c { d.tdc c with recTick := some t }
    let (d, b) := d.stampForm c x
    d.stampWrite c b
  | 3 => if nth then d.burstPut c x else d
  | 4 =>
    if t < d.tick then d.sampleLate c x t
    else
      let y := d.tdc c
      d.setTdc c { y with pend := (y.pend.filter fun p => p.1 != t) ++ [(t, x.time, x.flags, x.count)] }
  | _ => d

/-- R201: at the end of a tick a SAMPLE channel writes the record of the tick's last prescaled edge. -/
def Dev.sampleWrite (d : Dev) (c : Nat) : Dev :=
  let x := d.tdc c
  let due := x.pend.filter fun p => p.1 ≤ d.tick
  let d := if x.pend.isEmpty then d else d.setTdc c { x with pend := x.pend.filter fun p => d.tick < p.1 }
  due.foldl (fun d p => d.sampleRecord c ⟨p.2.1, p.2.2.1, p.2.2.2⟩ p.1) d

/-- R200: MODE leaves OFF at the boundary: stamping starts with no edge counted. A mode change drops what the old
mode held back. -/
def Dev.tdcApply (old d : Dev) (c : Nat) : Dev :=
  let m := d.tdcMode c
  let m0 := old.tdcMode c
  if m = m0 then d else
  let x := d.tdc c
  let d := d.setTdc c { x with pend := [], nth := 0, recTick := none, sampled := none }
  if m0 = 0 then d.put F.TDC_CH_STAT.EDGES 0 c else d

/-- TDC_SUMMARY counts the channels with STALE set, in EVERY or NTH, and with FULLRATE set. -/
def Dev.tdcSummary (d : Dev) : Nat :=
  let n := fun (p : Nat → Bool) => ((List.range 136).filter p).length
  min 255 (n fun c => d.flag F.TDC_CH_CAL.STALE c) + (n fun c => d.tdcMode c == 1 || d.tdcMode c == 3) * 2 ^ 8 +
    (n fun c => d.flag F.TDC_CH_CFG.FULLRATE c) * 2 ^ 16

end Sys2Proof.Machine
end

