-- ==== Sys2Proof/Machine/Measure.lean ====
section
/-! DEFINITION. Measurement and statistics slots (R205-R213) and TDC_STAMP, which feeds them. Stamps are compared on
LT less the LT steps made so far, so that a step between two edges drops out (R208). -/

namespace Sys2Proof.Machine

def Dev.st (d : Dev) (s : Nat) : StSlot := Tbl.getD d.sts s StSlot.reset
def Dev.setSt (d : Dev) (s : Nat) (x : StSlot) : Dev := { d with sts := Tbl.set d.sts s x }
def Dev.stState (d : Dev) (s : Nat) : Nat := d.get F.TDC_ST_STAT.STATE s

/-! ## Statistics (R211-R213) -/

/-- R212: the exact sums of a run give MEAN and STD, in result units. -/
def stMean (n : Nat) (sum : Int) : Int := roundDiv sum (max 1 n)
def stStd (n : Nat) (sum : Int) (sq : Nat) : Nat := sqrtRound ((n * sq : Int) - sum * sum).toNat (n * (n - 1))

/-- R211: a run begins. -/
def Dev.stBegin (d : Dev) (s : Nat) : Dev :=
  (((d.put F.TDC_ST_STAT.STATE 1 s).put F.TDC_ST_STAT.COUNT 0 s).put F.TDC_ST_SKIP.SKIPPED 0 s).setSt s
    StSlot.reset

/-- R212: one sample; the N-th writes MEAN, STD, MIN and MAX. -/
def Dev.stSample (d : Dev) (s : Nat) (v : Int) : Dev :=
  let x := d.st s
  let n := d.get F.TDC_ST_STAT.COUNT s + 1
  let x := { x with
    sum := x.sum + v, sq := x.sq + v.natAbs * v.natAbs,
    least := if n = 1 then v else min x.least v, greatest := if n = 1 then v else max x.greatest v }
  let d := (d.setSt s x).put F.TDC_ST_STAT.COUNT n s
  if n < d.get F.TDC_ST_CFG.N s then d else
  let d := d.put64 F.TDC_ST_MEAN_LO.VALUE F.TDC_ST_MEAN_HI.VALUE (ofSigned 64 (stMean n x.sum)) s
  let d := d.put64 F.TDC_ST_STD_LO.VALUE F.TDC_ST_STD_HI.VALUE (stStd n x.sum x.sq % 2 ^ 64) s
  let d := d.put64 F.TDC_ST_MIN_LO.VALUE F.TDC_ST_MIN_HI.VALUE (ofSigned 64 x.least) s
  let d := d.put64 F.TDC_ST_MAX_LO.VALUE F.TDC_ST_MAX_HI.VALUE (ofSigned 64 x.greatest) s
  ((d.put F.TDC_ST_STAT.STATE 2 s).setSt s { x with doneAt := some d.absCycle, again := true }).event (0x300 + s)

/-- R211: an end of a measurement slot reaches the runs that take their samples from it. -/
def Dev.stFeed (d : Dev) (slot : Nat) (result : Option Int) : Dev :=
  (List.range 16).foldl (fun d s =>
    if d.stState s == 1 && d.get F.TDC_ST_CFG.SRC s == slot then
      match result with
      | some v => d.stSample s v
      | none => d.incSat F.TDC_ST_SKIP.SKIPPED s
    else d) d

/-- R211: START takes effect at the next boundary; in RUN it is refused. -/
def Dev.stStartCmd (d : Dev) (p : Path) (s : Nat) : Dev :=
  if d.stState s = 1 then d.refuse p.code (R.TDC_ST_CMD.off s) .state
  else d.setSt s { d.st s with cmdStart := true }

/-- R213: ABORT ends a run at once; in the cycle of the N-th sample it loses. -/
def Dev.stAbortCmd (d : Dev) (s : Nat) : Dev :=
  if d.stState s = 1 then (d.put F.TDC_ST_STAT.STATE 3 s).setSt s { d.st s with again := false, cmdStart := false }
  else if d.stState s = 2 ∧ (d.st s).doneAt = some d.absCycle then d.put F.TDC_ST_STAT.ABORT_LATE 1 s
  else d

/-- R211, R212: at a boundary a START takes effect, and a run with AUTO starts again. -/
def Dev.stBoundary (d : Dev) (s : Nat) : Dev :=
  let x := d.st s
  if x.cmdStart || (x.again && d.flag F.TDC_ST_CFG.AUTO s) then (d.put F.TDC_ST_STAT.ABORT_LATE 0 s).stBegin s
  else if x.again then d.setSt s { x with again := false } else d

def execStStart (p : Path) (k : Fin 16) (s : State) : StepOut := s.runBy p (R.TDC_ST_CMD.off k) fun d => d.stStartCmd p k
def execStAbort (p : Path) (k : Fin 16) (c : Cycle) (s : State) : StepOut :=
  s.runBy p (R.TDC_ST_CMD.off k) fun d => ({ d with cycle := c.val }).stAbortCmd k

/-! ## Measurement slots (R205-R210) -/

/-- LT of the end of a cycle on the stepless scale, in 2^-32 ns. -/
def Dev.ltEnd (d : Dev) (cyc : Nat) : Int := (d.ltAt (cyc + 1) / 2 ^ 16 : Nat) - d.time.stepSum

/-- R205, R197: the slot arms at the present boundary; `busy` tells the channels that calibrate already. -/
def Dev.msArm (d : Dev) (busy : Nat → Bool) (s : Nat) : Dev :=
  let sc := d.get F.TDC_MS_CFG.START_CH s
  let pc := d.get F.TDC_MS_CFG.STOP_CH s
  let chans := if sc = pc then [sc] else [sc, pc]
  let need := chans.filter fun c => !busy c
  let d := d.put F.TDC_MS_STAT.STATE (if need.isEmpty then 2 else 1) s
  let d := (d.put F.TDC_MS_STAT.IGNORED 0 s).put F.TDC_MS_STAT.ABORT_LATE 0 s
  d.setMs s { MsSlot.reset with base := (ceilDiv d.time.lt (2 ^ 16) : Nat) - d.time.stepSum, cal := need }

/-- R205, R209: at a boundary an ARM takes effect, and a slot with REPEAT set arms again after its end. -/
def Dev.msBoundary (d : Dev) (busy : Nat → Bool) (s : Nat) : Dev :=
  let x := d.ms s
  if x.cmdArm || (x.rearm && d.flag F.TDC_MS_CFG.REPEAT s) then d.msArm busy s
  else if x.rearm then d.setMs s { x with rearm := false } else d

/-- R209: a slot reaches a terminal state. -/
def Dev.msEnd (d : Dev) (s st : Nat) (result : Option Int) : Dev :=
  let d := (d.put F.TDC_MS_STAT.STATE st s).setMs s { d.ms s with rearm := st != 7, doneAt := some d.absCycle }
  let d := if st = 7 then d else d.event (0x2C0 + s)
  (d.stFeed s result).trHit 4 s

/-- R208: the result of two edges in units of 2^-16 ns: 0 below 0.390625 ps, else rounded, ties away from zero. -/
def msResult (diff : Int) : Int := if diff.natAbs * 10 < 16777216 then 0 else roundDiv diff (2 ^ 16)

/-- R206-R209: both edges are taken. -/
def Dev.msDone (d : Dev) (s : Nat) (a b : MsEdge) : Dev :=
  let diff := b.adj - a.adj
  let r := msResult diff
  let co := diff.natAbs * 10 < 16777216
  let d := d.put64 F.TDC_MS_RES_LO.RESULT F.TDC_MS_RES_HI.RESULT (ofSigned 64 r) s
  let d := d.put F.TDC_MS_START_S32.S32 (a.time / 2 ^ 32 % 2 ^ 32) s
  let d := (d.putB F.TDC_MS_STAT.COINCIDENT co s).putB F.TDC_MS_STAT.ORDER (!co && decide (diff < 0)) s
  let d := (d.putB F.TDC_MS_STAT.CALSTALE (a.stale || b.stale) s).incWrap F.TDC_MS_STAT.RESULTS s
  d.msEnd s 4 (some r)

/-- A slot that has both edges ends; one with its first edge waits. -/
def Dev.msSettle (d : Dev) (s : Nat) : Dev :=
  let x := d.ms s
  match x.start, x.stop with
  | some a, some b => d.msDone s a b
  | none, none => d
  | _, _ => if d.msState s = 2 then d.put F.TDC_MS_STAT.STATE 3 s else d

/-- R206, R207: TIMEOUT of a slot, in 2^-32 ns. -/
def Dev.msLimit (d : Dev) (s : Nat) : Int := (d.ms s).base + d.get F.TDC_MS_TIMEOUT.VALUE s * 2 ^ 32

/-- R206: a stamped edge in native mode. -/
def Dev.msNative (d : Dev) (s c : Nat) (e : MsEdge) : Dev :=
  let x := d.ms s
  let sc := d.get F.TDC_MS_CFG.START_CH s
  let pc := d.get F.TDC_MS_CFG.STOP_CH s
  if d.msLimit s < e.adj then d.msEnd s 5 none
  else if c = sc ∧ x.start.isNone then (d.setMs s { x with start := some e }).msSettle s
  else if c = pc ∧ x.stop.isNone then
    let n := x.count + 1
    let taken := n = d.get F.TDC_MS_STOPN.VALUE s
    (d.setMs s { x with count := n, stop := if taken then some e else none }).msSettle s
  else d

/-- R207: the stops that a slot has ignored, of which IGNORED shows 255 at most. -/
def Dev.msIgnored (d : Dev) (s n : Nat) : Dev :=
  (d.setMs s { d.ms s with ignored := n }).put F.TDC_MS_STAT.IGNORED (min n 255) s

/-- R207: a stop edge in Deckle mode once the start is known: ignored before the window, counted inside it. -/
def Dev.msWindow (d : Dev) (s : Nat) (a e : MsEdge) : Dev :=
  let x := d.ms s
  if x.stop.isSome then d
  else if e.adj < a.adj + d.get F.TDC_MS_WOPEN.VALUE s * 2 ^ 32 then d.msIgnored s (x.ignored + 1)
  else if e.adj < a.adj + d.get F.TDC_MS_WCLOSE.VALUE s * 2 ^ 32 then
    let n := x.count + 1
    let taken := n = d.get F.TDC_MS_STOPN.VALUE s
    (d.setMs s { x with count := n, stop := if taken then some e else none }).msSettle s
  else d

/-- R207, R210: a stamped edge in Deckle mode. The stamps decide what lies in the window: a stop that arrived before the start
is ignored only until the start shows that its stamp lies later. -/
def Dev.msDeckle (d : Dev) (s c : Nat) (e : MsEdge) : Dev :=
  let x := d.ms s
  let sc := d.get F.TDC_MS_CFG.START_CH s
  let pc := d.get F.TDC_MS_CFG.STOP_CH s
  match x.start with
  | some a => if c = pc then d.msWindow s a e else d
  | none =>
    if c = sc then
      if d.msLimit s < e.adj then d.msEnd s 5 none else
      let late := x.early.filter fun f => e.adj + d.get F.TDC_MS_WOPEN.VALUE s * 2 ^ 32 ≤ f.adj
      let d := (d.setMs s { x with start := some e, early := [] }).msIgnored s (x.ignored - late.length)
      late.foldl (fun d f => if d.msState s = 4 then d else d.msWindow s e f) (d.msSettle s)
    else if c = pc then
      (d.setMs s { x with early := x.early ++ [e] }).msIgnored s (x.ignored + 1)
    else d

/-- R205-R207: a stamped edge of channel c reaches a slot. -/
def Dev.msStamp (d : Dev) (c : Nat) (e : MsEdge) (s : Nat) : Dev :=
  let st := d.msState s
  let uses := d.get F.TDC_MS_CFG.START_CH s == c || d.get F.TDC_MS_CFG.STOP_CH s == c
  if !uses || !(st == 1 || st == 2 || st == 3) || (d.ms s).cal.contains c || e.adj < (d.ms s).base then d
  else if d.flag F.TDC_MS_CFG.MODE s then d.msDeckle s c e else d.msNative s c e

/-- R206, R207: MEASUREMENT_TIMEOUT, if it is due by the end of the cycle. In Deckle mode only the start can be
missing. -/
def Dev.msTimeout (d : Dev) (s cyc : Nat) : Dev :=
  let st := d.msState s
  let waits := (st == 1 || st == 2 || st == 3) && !(d.flag F.TDC_MS_CFG.MODE s && (d.ms s).start.isSome)
  if waits && decide (d.msLimit s < d.ltEnd cyc) then ({ d with cycle := cyc }).msEnd s 5 none else d

/-- R207: DECKLE_NOSTOP, if it is due by the end of the cycle: LT has passed the window's end by 50 ns. -/
def Dev.deckleNostop (d : Dev) (s cyc : Nat) : Dev :=
  let st := d.msState s
  match (d.ms s).start with
  | some a =>
    let passed := a.adj + (d.get F.TDC_MS_WCLOSE.VALUE s + 50) * 2 ^ 32 < d.ltEnd cyc
    if (st == 1 || st == 3) && d.flag F.TDC_MS_CFG.MODE s && passed then ({ d with cycle := cyc }).msEnd s 6 none else d
  | none => d

/-- R205: ARM takes effect at the next boundary; in CAL, ARMED or WAIT it is refused. -/
def Dev.msArmCmd (d : Dev) (p : Path) (s : Nat) : Dev :=
  let st := d.msState s
  if st = 1 ∨ st = 2 ∨ st = 3 then d.refuse p.code (R.TDC_MS_CMD.off s) .state
  else d.setMs s { d.ms s with cmdArm := true }

/-- R210: ABORT ends a slot at once, also one whose re-arm under REPEAT is pending, and clears its pending arms; in the cycle
of a completion it loses. -/
def Dev.msAbortCmd (d : Dev) (s : Nat) : Dev :=
  let st := d.msState s
  if st = 1 ∨ st = 2 ∨ st = 3 then (d.setMs s { d.ms s with cmdArm := false }).msEnd s 7 none
  else
    let x := d.ms s
    let d := d.setMs s { x with rearm := false, cmdArm := false }
    if x.doneAt = some d.absCycle ∧ st ≠ 7 ∧ st ≠ 0 then d.put F.TDC_MS_STAT.ABORT_LATE 1 s
    else if x.rearm && d.flag F.TDC_MS_CFG.REPEAT s then d.put F.TDC_MS_STAT.STATE 7 s
    else d

def execMsArm (p : Path) (k : Fin 64) (s : State) : StepOut := s.runBy p (R.TDC_MS_CMD.off k) fun d => d.msArmCmd p k
def execMsAbort (p : Path) (k : Fin 64) (c : Cycle) (s : State) : StepOut :=
  s.runBy p (R.TDC_MS_CMD.off k) fun d => ({ d with cycle := c.val }).msAbortCmd k
def execMeasurementTimeout (k : Fin 64) (c : Cycle) (s : State) : StepOut := s.run fun d => d.msTimeout k c
def execDeckleNostop (k : Fin 64) (c : Cycle) (s : State) : StepOut := s.run fun d => d.deckleNostop k c

/-! ## TDC_STAMP (R192-R201, R239) -/

/-- R193: the edge selection of a channel passes a rising or falling edge. -/
def Dev.edgePasses (d : Dev) (c : Nat) (falling : Bool) : Bool :=
  if c < 40 then (d.flag F.IN_CFG.MODE c && d.flag F.IN_CFG.POL c) == falling
  else if 112 ≤ c ∧ c < 128 then
    match d.get F.TDC_CH_CFG.EDGE c with
    | 0 => !falling
    | 1 => falling
    | _ => true
  else !falling

/-- R168, R200: the feedback synthesizer of the channel is in a hop. -/
def Dev.chanHops (d : Dev) (c : Nat) : Bool :=
  decide (40 ≤ c ∧ c < 112) && d.inHop (d.outc (c - 40)).src

/-- A prescaled edge of a channel that is stamped at LT time t. -/
def Dev.edgeStamped (d : Dev) (c t : Nat) (falling stale nth : Bool) : Dev :=
  let flags := b2n falling + 2 * b2n (d.chanHops c) + 8 * b2n stale
  let d := d.setTdc c { d.tdc c with stamp := t }
  let d := d.stampRecord c ⟨t, flags, d.get F.TDC_CH_STAT.EDGES c⟩ nth
  let e : MsEdge := ⟨t, (t : Int) - d.time.stepSum, stale, d.absCycle⟩
  let d := (List.range 64).foldl (fun d s => d.msStamp c e s) d
  let d := if 112 ≤ c ∧ c < 128 then d.evtCapture (c - 112) t else d
  d.trHit 1 c

/-- R194-R201: a prescaled edge in coarse period `coarse` of the present tick: it is stamped unless it follows the previous
stamped one by less than 2.5 ns. -/
def Dev.prescaledEdge (d : Dev) (c coarse code : Nat) (falling : Bool) : Dev :=
  let xo := d.edgeXo c coarse code
  let t := (d.edgeLt xo c).toNat
  let stale := (d.interval c code).2.2
  let x := d.tdc c
  let open' := if d.tick % 2 = 0 then x.calB.isNone else x.calA.isNone
  let d := if open' then d.freeNext else d
  let at' := (roundDiv xo.1 xo.2).toNat
  let nth := (x.nth + 1) % max 1 (d.get F.TDC_CH_NTH.N c)
  let tooSoon := match x.last with
    | some l => decide (at' < l + 10737418240)   -- 2.5 ns
    | none => false
  let d := d.incWrap F.TDC_CH_STAT.EDGES c
  let d := d.setTdc c { x with nth := nth, last := if tooSoon then x.last else some at', lost := x.lost || tooSoon }
  let d := if c < 40 then d.inputEdge c at' (d.tick * 2500 + coarse) !tooSoon else d
  if tooSoon then d.incSat F.TDC_CH_STAT.LOST c else d.edgeStamped c t falling stale (nth == 0)

/-- R105, R192: DIV of a channel's prescaler; markers of tick frames are not prescaled. -/
def Dev.chDiv (d : Dev) (c : Nat) : Nat :=
  if c < 40 then d.get F.IN_PRESCALE.DIV c else if c < 128 then d.get F.TDC_CH_DIV.DIV c else 1

/-- R104: the glitch filter, if it works, changes its output with an edge: the pulse that the edge begins, `pulse` x 0.2 ns long, is not
removed, and the output has not that level yet. -/
def Dev.filterPasses (d : Dev) (c : Nat) (falling : Bool) (pulse : Nat) : Bool :=
  d.glitch c == 0 || decide (d.glitch c ≤ pulse) && (d.tdc c).level != some (!falling)

/-- R357: the test source, at f_XO / DIV, has an edge in a coarse period of the present tick: the rising one of its period k at
k x DIV / f_XO; the falling one half a period later (PRESUMED, log entry 116). -/
def Dev.sourceEdge (d : Dev) (coarse : Nat) (falling : Bool) : Bool :=
  let q := 5 * 10 ^ 9 * d.get F.TST_SRC.DIV   -- half a period, in 0.1 ns / f_XO
  let a := 4 * (d.tick * 2500 + coarse) * d.xoHz
  let m := ceilDiv a (max 1 q)
  let m := if m % 2 = b2n falling then m else m + 1
  decide (m * q < a + 4 * d.xoHz)

/-- R192, R357, R366: an edge that the channel sees comes from its source. An input's pin counts while the receiver is on; in
loop-back the test source takes its place ahead of the receiver, behind it, or behind the glitch filter, and at D4 nothing
is stamped. An output's channel sees the divider, in loop-back the pad or the driver's input. -/
def Dev.edgeComes (d : Dev) (c coarse : Nat) (falling : Bool) (pulse : Nat) : Bool :=
  if c < 40 then
    match d.loopDepth 0 c with
    | none => d.pinsLive && d.filterPasses c falling pulse
    | some 0 => d.pinsLive && d.sourceEdge coarse falling && d.filterPasses c falling pulse
    | some 1 => d.sourceEdge coarse falling && d.filterPasses c falling pulse
    | some 2 => d.sourceEdge coarse falling
    | some _ => false
  else if c < 112 then
    match d.loopDepth 1 (c - 40) with
    | none => true
    | some 0 => (d.outc (c - 40)).drive.p == .clock
    | some _ => d.flag F.OUT_STAT.OPEN (c - 40)
  else true

/-- R193: an edge behind the glitch filter reaches the prescaler: the channel's source and edge selection pass it, and the
channel is not in self-stamping. -/
def Dev.edgeReaches (d : Dev) (c : Nat) (falling : Bool) : Bool :=
  !d.selfStamping c && d.edgePasses c falling && (decide (c < 112 ∨ 128 ≤ c) || d.evtPresents (c - 112))

/-- TDC_STAMP: an edge in coarse period `coarse` of the present tick, with its interpolator code. The prescaler passes every
DIV-th one (R105), and what it passes is stamped. DESIGN CHOICE (log entry 106): an enable or a change of DIV leaves the
prescaler's count as it is; the manual does not say which edge passes first. -/
def Dev.tdcStamp (d : Dev) (c coarse code : Nat) (falling : Bool) (pulse : Nat) : Dev :=
  let d := { d with cycle := coarse / 2 }
  if !d.edgeComes c coarse falling pulse then d else
  let d := d.setTdc c { d.tdc c with level := some (!falling) }
  if !d.edgeReaches c falling then d
  else if (d.tdc c).pre + 1 < d.chDiv c then d.setTdc c { d.tdc c with pre := (d.tdc c).pre + 1 }
  else (d.setTdc c { d.tdc c with pre := 0 }).prescaledEdge c coarse code falling

def execTdcStamp (c : Fin 136) (coarse : Fin 2500) (code : BitVec 12) (edge : EdgeForm) (s : State) : StepOut :=
  s.run fun d => d.tdcStamp c coarse code.toNat edge.falling edge.pulse.toNat

end Sys2Proof.Machine
end

