-- ==== Sys2Proof/Machine/Trace.lean ====
section
/-! DEFINITION. The trace recorders' commands, capture ring and header (R214-R220). -/

namespace Sys2Proof.Machine

/-- R217, R219: the oldest record of the buffer reaches the capture ring. -/
def Dev.trWrite (d : Dev) (r : Nat) : Dev :=
  let x := d.tr r
  match x.fifo with
  | [] => d
  | (post, b) :: rest =>
    let n := max 1 (d.trRing r)
    let d := d.vatStore (d.trBase r + 32 + 16 * (x.next % n)) b
    d.setTr r { x with
      fifo := rest, next := x.next + 1,
      pre := if post then x.pre else min (x.pre + 1) (d.get F.TDC_TR_PRE.COUNT r),
      post := if post then x.post + 1 else x.post }

/-- R216: the trace header. -/
def Dev.trHeader (d : Dev) (r : Nat) : Dev :=
  let x := d.tr r
  let n := max 1 (d.trRing r)
  let early := x.pre < d.get F.TDC_TR_PRE.COUNT r
  let flags := b2n early + 2 * b2n x.queuedRun + 4 * b2n (0 < x.lost)
  let first := (x.next - x.post - x.pre) % n
  d.vatStore (d.trBase r) (leBytes 4 (d.get F.TDC_TR_SEQ.SEQ r) ++ leBytes 1 flags ++
    leBytes 1 (d.get F.TDC_TR_CFG.SRC_KIND r) ++ leBytes 2 (d.get F.TDC_TR_CFG.SRC r) ++ leBytes 4 x.pre ++
    leBytes 4 x.post ++ leBytes 4 first ++ leBytes 4 x.trigTick ++ leBytes 4 x.trigS32 ++ leBytes 2 x.trigSrc ++
    leBytes 2 (min x.lost 65535))

/-- R217: TRACE_CAPTURE_DONE, once POST records are written: header, DONE, event. REARM follows at the next
boundary (R218). -/
def Dev.trDone (d : Dev) (r : Nat) : Dev :=
  let x := d.tr r
  if d.trState r = 2 ∧ d.get F.TDC_TR_POST.COUNT r ≤ x.post then
    let d := (d.trHeader r).incWrap F.TDC_TR_SEQ.SEQ r
    ((d.put F.TDC_TR_STAT.STATE 3 r).setTr r { x with fifo := [], rearmEnd := some (d.tick + 3), doneAt := some d.absCycle }).event
      (0x310 + r)
  else d

/-- R218: PRE begins after REARM or at an ARM's boundary; a queued trigger acts at that moment. -/
def Dev.trStart (d : Dev) (r : Nat) : Dev :=
  let d := (d.trPre r).setTr r { (d.trPre r).tr r with cmdArm := false }
  match (d.tr r).queue with
  | some (t, s32, src) =>
    ((d.trPost r src t s32 true).put F.TDC_TR_STAT.QUEUED 0 r).setTr r
      { (d.trPost r src t s32 true).tr r with queue := none }
  | none => d

/-- R218: REARM is over by the present boundary: PRE with AUTO or a waiting ARM, else DONE again. -/
def Dev.trRearmEnd (d : Dev) (r : Nat) : Dev :=
  let x := d.tr r
  match x.rearmEnd with
  | some e =>
    if d.trState r = 4 ∧ e ≤ d.tick + 1 then
      let d := d.setTr r { x with rearmEnd := none }
      if d.flag F.TDC_TR_CFG.AUTO r || x.cmdArm then d.trStart r else d.put F.TDC_TR_STAT.STATE 3 r
    else d
  | none => d

/-- R217, R218: what a boundary does to a recorder: DONE becomes REARM, an ARM takes effect outside REARM. -/
def Dev.trBoundary (d : Dev) (r : Nat) : Dev :=
  let x := d.tr r
  if d.trState r = 3 ∧ x.rearmEnd.isSome then d.put F.TDC_TR_STAT.STATE 4 r
  else if x.cmdArm && d.trState r != 4 then (d.put F.TDC_TR_STAT.ABORT_LATE 0 r).trStart r
  else d

/-- R217: ARM takes effect at the next boundary; it is refused while SIZE is 0 (R386). -/
def Dev.trArmCmd (d : Dev) (p : Path) (r : Nat) : Dev :=
  if d.get F.TDC_TR_BUF.SIZE r = 0 then d.refuse p.code (R.TDC_TR_CMD.off r) .combination
  else d.setTr r { d.tr r with cmdArm := true }

/-- R215: TDC_TR_CMD TRIGGER. -/
def Dev.trTriggerCmd (d : Dev) (r : Nat) : Dev :=
  let (d, m) := d.trTrigger r 0xFFFF
  if m then d.trMissed [r] else d

/-- R220: a trigger of the abort's cycle was queued: it counts in MISSED instead. -/
def Dev.trUnqueue (d : Dev) (r : Nat) : Dev :=
  let x := d.tr r
  if x.queue.isSome ∧ x.queueAt = some d.absCycle then
    (((d.put F.TDC_TR_STAT.QUEUED 0 r).setTr r { x with queue := none }).incSat F.TDC_TR_STAT.MISSED r).trMissed [r]
  else d

/-- R220: the recorder becomes IDLE. -/
def Dev.trStop (d : Dev) (r : Nat) : Dev :=
  (d.put F.TDC_TR_STAT.STATE 0 r).setTr r
    { d.tr r with fifo := [], cmdArm := false, rearmEnd := none, abortAt := some d.absCycle }

/-- R220: ABORT. From POST the header is written with the records reached; a trigger of the same cycle, which found the
recorder in PRE or was queued, loses and counts in MISSED. -/
def Dev.trAbortCmd (d : Dev) (r : Nat) : Dev :=
  let x := d.tr r
  match d.trState r with
  | 1 => d.trStop r
  | 2 =>
    if x.trigAt = some d.absCycle then ((d.trStop r).incSat F.TDC_TR_STAT.MISSED r).trMissed [r]
    else ((d.trHeader r).trStop r).trUnqueue r
  | 3 => if x.doneAt = some d.absCycle then d.put F.TDC_TR_STAT.ABORT_LATE 1 r else d
  | _ => d

/-- R143, R214: the phase record of a loop's stamp tick; a poisoned block gives NOSAMPLE and PHASE 0 (R100). -/
def Dev.trPhase (d : Dev) (l : Nat) : Dev :=
  if !(List.range 4).any (fun r => d.get F.TDC_TR_CFG.SRC_KIND r == 1 && d.get F.TDC_TR_CFG.SRC r == l) then d else
  let b := d.loopBlock l
  let bad := d.vbad b 16
  let d := d.vatTouch b 16 4
  let bytes := leBytes 4 (d.vraw (b + 12) 4) ++ leBytes 1 (d.vraw (b + 8) 1 ||| b2n bad) ++
    leBytes 1 (d.get F.LOOP_STATE.STATE l) ++ leBytes 2 0 ++ leBytes 8 (if bad then 0 else d.vraw b 8)
  d.trStream 1 l bytes

def execTraceArm (p : Path) (r : Fin 4) (s : State) : StepOut := s.runBy p (R.TDC_TR_CMD.off r) fun d => d.trArmCmd p r

/-- TRACE_TRIGGER: the command, or a trigger source of code 1 to 4 with its INDEX. -/
def execTraceTrigger (r : Fin 4) (src : Option (Fin 4 × Fin 288)) (c : Cycle) (s : State) : StepOut :=
  s.run fun d =>
    let d := { d with cycle := c.val }
    match src with
    | none => d.trTriggerCmd r
    | some (k, ix) => if d.get F.TDC_TR_CFG.TRIG r == k.val + 1 && d.get F.TDC_TR_CFG.INDEX r == ix.val then
        let (d, m) := d.trTrigger r (k.val + 1 + 8 * ix.val)
        if m then d.trMissed [r] else d
      else d
def execTraceAbort (p : Path) (r : Fin 4) (c : Cycle) (s : State) : StepOut :=
  s.runBy p (R.TDC_TR_CMD.off r) fun d => ({ d with cycle := c.val }).trAbortCmd r
def execTraceRecordWrite (r : Fin 4) (s : State) : StepOut := s.run fun d => d.trWrite r
def execTraceCaptureDone (r : Fin 4) (s : State) : StepOut := s.run fun d => d.trDone r
def execTraceRearmEnd (r : Fin 4) (s : State) : StepOut := s.run fun d => d.trRearmEnd r

end Sys2Proof.Machine
end

