-- ==== Sys2Proof/Machine/Frames.lean ====
section
/-! DEFINITION. The frame path: ports, parser, policer, residence correction, checksums, egress (R246-R263, R267).
Frames are bytes from the steering header to the last byte before the FCS; what a port sends ends with the FCS. -/

namespace Sys2Proof.Machine

/-! ## Counters -/

def cntRx := 0
def cntTx := 1
def cntCorrected := 2
def cntPoliced := 3
def cntFormat := 4
def cntLength := 5
def cntPool := 6
def cntReasm := 7
def cntNoMatch := 8
def cntMacsec := 9
def cntNoCtx := 10
def cntBadRes := 11
def cntFuMiss := 12
def cntV6NoPad := 13
def cntOffDrop := 14
def cntDrainLoss := 15

/-- Counter i of a port (Frame counters). -/
def Dev.frmCount (d : Dev) (p i : Nat) (by' : Nat := 1) : Dev := d.incSat (F.FRM_CNT.COUNT.at i) p by'

/-- STATE of a port: 0 OFF, 1 UP, 2 DRAINING. -/
def Dev.portState (d : Dev) (p : Nat) : Nat := d.get F.FRM_PORT_STAT.STATE p

/-- FRM_PCS_LOSS: an enabled port lacks PCS_LOCK. -/
def Dev.pcsLoss (d : Dev) (p : Nat) : Dev :=
  d.levelSet 193 p (d.portState p == 1 && !d.flag F.FRM_PORT_STAT.PCS_LOCK p)

/-! ## What the parser reads (R252, R253) -/

/-- Big-endian number of n bytes at an offset of a frame. -/
def beAt (l : List Byte) (i n : Nat) : Nat := ofBe (sliceB l i n)

/-- R249: the steering header. -/
def hdrCtx (f : List Byte) : Nat := beAt f 12 2 % 4096
def hdrClass (f : List Byte) : Nat := beAt f 14 1 / 64
def hdrStampValid (f : List Byte) : Bool := bit (beAt f 14 1) 5
def hdrEdelay (f : List Byte) : Nat := beAt f 14 2 % 1024

/-- R250: the header and length checks of a received frame with a good FCS. -/
def formatOk (f : List Byte) : Bool :=
  76 ≤ f.length && beAt f 12 1 / 16 == 1 && !bit (beAt f 14 1) 4 && hdrClass f != 1 && beAt f 8 4 < 1000000000

/-- Number of VLAN tags (0x8100 or 0x88A8) at an offset, at most n. -/
def vlanTags (f : List Byte) : Nat → Nat → Nat
  | 0, _ => 0
  | n + 1, o => if beAt f o 2 == 0x8100 || beAt f o 2 == 0x88A8 then vlanTags f n (o + 4) + 1 else 0

/-- The offset of the EtherType behind the tags. -/
def etypeOff (f : List Byte) : Nat := 28 + 4 * vlanTags f (f.length / 4) 28

def etype (f : List Byte) : Nat := beAt f (etypeOff f) 2

/-- Offset of the UDP header of an unfragmented IPv4 UDP packet, with any options. -/
def udp4Off (f : List Byte) : Option Nat :=
  let i := etypeOff f + 2
  let b := beAt f i 1
  if etype f = 0x0800 ∧ b / 16 = 4 ∧ 5 ≤ b % 16 ∧ beAt f (i + 6) 2 % 2 ^ 14 = 0 ∧ beAt f (i + 9) 1 = 17 then some (i + 4 * (b % 16))
  else none

/-- Offset of the UDP header of an IPv6 packet without extension headers. -/
def udp6Off (f : List Byte) : Option Nat :=
  let i := etypeOff f + 2
  if etype f = 0x86DD ∧ beAt f i 1 / 16 = 6 ∧ beAt f (i + 6) 1 = 17 then some (i + 40) else none

/-- R252: the offset of the PTP header that a PTP encapsulation (0 L2, 1 UDP4, 2 UDP6) gives. -/
def ptpAt (f : List Byte) (encap : Nat) : Option Nat :=
  let o := match encap with
    | 0 => if etype f = 0x88F7 then some (etypeOff f + 2) else none
    | 1 => (udp4Off f).map (· + 8)
    | 2 => (udp6Off f).map (· + 8)
    | _ => none
  o.bind fun o => if o + 34 ≤ f.length ∧ beAt f (o + 1) 1 % 16 = 2 then some o else none

/-- The PTP header of a frame, whatever its encapsulation. -/
def ptpOff (f : List Byte) : Option Nat := ((ptpAt f 0).or (ptpAt f 1)).or (ptpAt f 2)

def ptpType (f : List Byte) (o : Nat) : Nat := beAt f o 1 % 16
def ptpDomain (f : List Byte) (o : Nat) : Nat := beAt f (o + 4) 1
def ptpTwoStep (f : List Byte) (o : Nat) : Bool := bit (beAt f (o + 6) 1) 1
def ptpCorr (f : List Byte) (o : Nat) : Int := toSigned 64 (beAt f (o + 8) 8)
def ptpIdentity (f : List Byte) (o : Nat) : List Byte := sliceB f (o + 20) 10
def ptpSeq (f : List Byte) (o : Nat) : Nat := beAt f (o + 30) 2

/-- R252: row j of a parser table fires for a frame; the offset of the PTP header, 0 if none. -/
def rowFires (t f : List Byte) (j : Nat) : Option Nat :=
  let r := fun i n => leAt t (8 + 16 * j + i) n
  let encap := r 0 1
  if r 1 1 < vlanTags f (f.length / 4) 28 then none
  else if encap ≤ 2 then
    let port := match encap with
      | 1 => (udp4Off f).map fun u => beAt f (u + 2) 2
      | 2 => (udp6Off f).map fun u => beAt f (u + 2) 2
      | _ => some 0
    match ptpAt f encap, port with
    | some o, some dp =>
      if (r 4 2 = 0 ∨ encap = 0 ∨ r 4 2 = dp) ∧ bit (r 6 2) (ptpType f o) ∧ r 8 1 ≤ ptpDomain f o ∧ ptpDomain f o ≤ r 9 1
      then some o else none
    | _, _ => none
  else if encap = 3 then
    let o := etypeOff f + 2
    if etype f = 0x8809 ∧ beAt f o 1 = 0x0A ∧ beAt f (o + 1) 3 = 0x0019A7 then some 0 else none
  else if encap = 4 then (if etype f = 0x88E5 then some 0 else none)
  else if r 2 2 = 0 ∨ r 2 2 = etype f then some 0 else none

/-- What the parser gives for a frame. -/
structure Parsed where
  row : Nat
  cls : Nat
  action : Nat
  queue : Nat
  ptp : Nat
  deriving DecidableEq, Repr, Inhabited

/-- R246: a PAUSE or PFC frame: MAC control (0x8808) with opcode 0x0001 or 0x0101. -/
def pauseFrame (f : List Byte) : Bool :=
  etype f == 0x8808 && (beAt f (etypeOff f + 2) 2 == 0x0001 || beAt f (etypeOff f + 2) 2 == 0x0101)

/-- R253: the first matching row, poisoned rows aside (R100). PAUSE and PFC frames match none (R246). -/
def Dev.parse (d : Dev) (f : List Byte) : Option Parsed :=
  let n := d.get F.FRM_CFG.PARSER
  let (o, _) := d.dirEntry n
  match d.table n with
  | none => none
  | some t =>
    if pauseFrame f then none else
    (List.range (leAt t 2 1)).findSome? fun j =>
      if d.vbad (o + 8 + 16 * j) 16 then none else
      (rowFires t f j).map fun ptp =>
        ⟨j, max (hdrClass f) (leAt t (8 + 16 * j + 10) 1), leAt t (8 + 16 * j + 11) 1, leAt t (8 + 16 * j + 12) 2, ptp⟩

/-- R97, R100: the parser reads its table. -/
def Dev.parseTouch (d : Dev) : Dev :=
  let (o, l) := d.dirEntry (d.get F.FRM_CFG.PARSER)
  d.vatTouch o l 4

/-! ## Policer and cells (R92, R257) -/

/-- R257: the tokens of a port now, in 10^-4 bytes: A_RATE Mb/s are A_RATE units a cycle. -/
def Dev.tokens (d : Dev) (p : Nat) : Nat :=
  let cap := d.get F.FRM_POLICE.A_BURST p * 10000
  match Tbl.find? d.frm.tokens p with
  | none => cap
  | some (n, c) => min cap (n + (d.absCycle - c) * d.get F.FRM_POLICE.A_RATE p)

/-- R257: the buckets of a port as they stand, before its FRM_POLICE changes. -/
def Dev.tokensSettle (d : Dev) (p : Nat) : Dev :=
  { d with frm := { d.frm with tokens := Tbl.set d.frm.tokens p (d.tokens p, d.absCycle) } }

/-- R257: a Class A frame asks for its length with FCS plus 20 bytes. -/
def Dev.police (d : Dev) (p len : Nat) : Dev × Bool :=
  let have' := d.tokens p
  let cost := (len + 24) * 10000
  let ok := decide (cost ≤ have')
  let left := if ok then have' - cost else have'
  ({ d with frm := { d.frm with tokens := Tbl.set d.frm.tokens p (left, d.absCycle) } }, ok)

/-- The cells of the FRAME pool (pool 2): first and count. -/
def Dev.frameCells (d : Dev) : Nat × Nat := ((d.pool 2).1 * 16, (d.pool 2).2 * 16)

/-- The n cells from k on are free and inside the pool. -/
def Dev.cellsFit (d : Dev) (k n : Nat) : Bool :=
  let (b, c) := d.frameCells
  decide (b ≤ k ∧ k + n ≤ b + c) && d.frm.allocs.all fun x => decide (k + n ≤ x.first ∨ x.first + x.count ≤ k)

/-- Cells held by frames of one kind. -/
def Dev.cellsHeld (d : Dev) (reserved : Bool) : Nat :=
  (d.frm.allocs.filter fun x => x.reserved == reserved).foldl (fun n x => n + x.count) 0

/-- R92: consecutive cells for a frame of `len` bytes. LOG ENTRY 51: the reservation is the last 24 cells of the pool, and a
frame takes the first run that fits at or after the cell `from'` of the cells it may take, then from their start. Class A
frames of at most 256 bytes take the reservation first. -/
def Dev.cellsTake (d : Dev) (len : Nat) (classA : Bool) (from' : Nat) : Option FrmCells :=
  let (b, c) := d.frameCells
  let n := ceilDiv (max 1 len) 256
  let open' := c - 24
  let general := (List.range (open' + 1 - n)).map fun i => b + (i + from') % max 1 (open' + 1 - n)
  let reserve := if classA && len ≤ 256 then (List.range (c - open')).map fun i => b + open' + i else []
  match reserve.find? fun k => d.cellsFit k n with
  | some k => some ⟨k, n, true⟩
  | none => (general.find? fun k => d.cellsFit k n).map fun k => ⟨k, n, false⟩

/-! ## Reception (R250, R253, R263) -/

/-- R263: the 32 bytes of a frame queue entry. -/
def frameEntry (addr len port flags stamp row ptp : Nat) : List Byte :=
  leBytes 4 addr ++ leBytes 2 len ++ leBytes 1 port ++ leBytes 1 flags ++ leBytes 4 (stamp % 2 ^ 32) ++
  leBytes 8 (stamp / 2 ^ 32) ++ leBytes 1 row ++ leBytes 1 ptp ++ leBytes 10 0

/-- R89, R263: a frame entry is pushed; where the queue drops it, or loses its oldest, cells are released. -/
def Dev.framePush (d : Dev) (q : Nat) (entry : List Byte) : Dev :=
  let addr := leAt entry 0 4
  let d := d.qCheck q
  let x := d.qdesc q
  if !d.qEnabled q then d.cellsFree addr
  else if x.fill ≥ x.size then
    if bit x.flags 1 then (d.cellsFree (d.vraw (x.entryAddr x.head) 4)).qPush q entry
    else (d.cellsFree addr).qPush q entry
  else d.qPush q entry

/-- A frame joins those that wait to leave. -/
def Dev.txPut (d : Dev) (x : FrmTx) : Dev := { d with frm := { d.frm with txs := d.frm.txs ++ [x] } }

/-- A frame goes into the cells that it takes. -/
def Dev.cellsFill (d : Dev) (c : FrmCells) (f : List Byte) : Dev :=
  let a := cellAddr c.first
  let d := { d with frm := { d.frm with
    allocs := d.frm.allocs ++ [c], handed := if d.inIngress a then d.frm.handed else d.frm.handed.filter (· != a) } }
  d.vatStore a f

/-- A frame takes cells and goes to its port's Class A queue or to a frame queue. -/
def Dev.frameAdmit (d : Dev) (p : Nat) (f : List Byte) (x : Parsed) (stamp from' : Nat) : Dev :=
  match d.cellsTake f.length (x.cls == 0) from' with
  | none => (d.frmCount p cntPool).fault 195
  | some c =>
    let a := cellAddr c.first
    let d := d.cellsFill c f
    if x.cls = 0 ∧ x.action ≠ 0 then
      d.txPut ⟨p, 0, a, f.length, true, false, x.ptp, x.action, none, []⟩
    else d.framePush x.queue (frameEntry a f.length p x.cls stamp x.row x.ptp)

/-- R253-R257: a frame that passed the format checks. -/
def Dev.frameParse (d : Dev) (p : Nat) (f : List Byte) (stamp from' : Nat) : Dev :=
  let d := d.parseTouch
  match d.parse f with
  | none => d.frmCount p cntNoMatch
  | some x =>
    if x.action = 4 then d.frmCount p cntNoMatch
    else if x.cls ≠ 0 then d.frameAdmit p f x stamp from'
    else if x.action ≠ 0 ∧ 2048 < f.length then d.frmCount p cntLength
    else
      let (d, ok) := d.police p f.length
      if ok then d.frameAdmit p f x stamp from' else (d.frmCount p cntPoliced).fault 194

/-- R250, R267: FRAME_RECEIVE: a whole frame has arrived. `before` says that its first byte came before the boundary
at which the port entered DRAINING. -/
def Dev.frameReceive (d : Dev) (p : Nat) (f : List Byte) (fcsOk before : Bool) (stamp from' : Nat) : Dev :=
  if d.stopped then d
  else if d.portState p != 1 && !(d.portState p == 2 && before) then d.frmCount p cntOffDrop
  else
    let d := d.frmCount p cntRx
    if !fcsOk then d.frmCount p cntFormat
    else if 10240 < f.length then d.frmCount p cntLength
    else if !formatOk f then d.frmCount p cntFormat
    else d.frameParse p f stamp from'

/-- R357: a frame that a port in loop-back sends comes back to it: at D4 to ingress parsing, its egress stamp its ingress stamp,
else through the ingress side, which finds DIR 1 (R250; DEDUCED, log entry 116). -/
def Dev.frameLoop (d : Dev) (p : Nat) (f : List Byte) (stamp : Nat) : Dev :=
  match d.loopDepth 2 p with
  | none => d
  | some 3 => (d.freeNext.frmCount p cntRx).frameParse p f stamp (d.freeVal % 65536)
  | some _ => d.frameReceive p f true true stamp 0

/-- FRAME_RECEIVE: the port checks the FCS (R246), and in loop-back its receive side is joined to its own transmit side (R357). The stamp point (R248)
lies `c.back` ticks before the present one, at its cycle; `from'` is where the allocator looks for cells first. -/
def execFrameReceive (p : Fin 8) (f : List Byte) (fcs : BitVec 32) (before : Bool) (c : PastCycle) (from' : BitVec 16)
    (s : State) : StepOut :=
  s.run fun d =>
    let d := if c.back.val = 0 then { d with cycle := c.cycle.val } else d
    if (d.loopDepth 2 p).isSome then d else d.frameReceive p f (fcs.toNat == crc32 f) before (d.ltBack c.back c.cycle / 2 ^ 16 % 2 ^ 96) from'.toNat

/-- R26: a wait on the outside world has expired; detail: its row of Time-outs on external waits, from 1. -/
def Dev.waitTimeout (d : Dev) (row : Nat) : Dev := d.fault 8 0 row

/-- R250, R26: a partial frame is dropped. -/
def execFrameReassemblyTimeout (p : Fin 8) (s : State) : StepOut :=
  s.run fun d => if d.portState p = 0 then d else (d.frmCount p cntReasm).waitTimeout 6

/-! ## Checksums (R262) -/

/-- One's-complement addition of 16-bit words. -/
def onesAdd (a b : Nat) : Nat := if 65535 < a + b then a + b - 65535 else a + b

/-- The 16-bit words of bytes. -/
def wordsBe : List Byte → List Nat
  | a :: b :: r => (a.toNat * 256 + b.toNat) :: wordsBe r
  | [a] => [a.toNat * 256]
  | [] => []

/-- The one's-complement sum of what words gain: the new ones less the old ones. -/
def onesDelta (old new : List Byte) : Nat :=
  (wordsBe new).foldl onesAdd ((wordsBe old).foldl (fun s w => onesAdd s (65535 - w)) 0)

/-- Bytes replaced at an offset. -/
def replaceAt (f : List Byte) (i : Nat) (b : List Byte) : List Byte := f.take i ++ b ++ f.drop (i + b.length)

/-- R262: an incremental update of the checksum field at an offset. -/
def sumUpdate (f : List Byte) (i delta : Nat) : List Byte :=
  replaceAt f i (beBytes 2 (65535 - onesAdd (65535 - beAt f i 2) delta))

/-- R262: bytes of the PTP message at offset i are replaced; the UDP checksum follows. The second answer counts in
V6_NOPAD. -/
def Dev.ptpReplace (d : Dev) (f : List Byte) (o i : Nat) (new : List Byte) : List Byte × Bool :=
  let delta := onesDelta (sliceB f i new.length) new
  let g := replaceAt f i new
  if ptpAt f 1 = some o then
    let u := o - 8
    if beAt f (u + 6) 2 = 0 then (g, false)
    else if d.flag F.FRM_CFG.UDP4 then (sumUpdate g (u + 6) delta, false)
    else (replaceAt g (u + 6) [0, 0], false)
  else if ptpAt f 2 = some o then
    let u := o - 8
    let ulen := beAt f (u + 4) 2
    let e := u + ulen
    if beAt f (o + 2) 2 + 2 ≤ ulen - 8 ∧ e ≤ f.length then
      -- the last two payload bytes lose what the words gained; at an odd offset the sum sees them swapped
      let odd := (e - 2 - u) % 2 = 1
      let back := 65535 - delta
      let back := if odd then back % 256 * 256 + back / 256 else back
      (replaceAt g (e - 2) (beBytes 2 (onesAdd (beAt g (e - 2) 2) back)), false)
    else (sumUpdate g (u + 6) delta, true)
  else (g, false)

/-! ## Correction (R259-R261) -/

/-- The frame's egress time in its context at stamp s (2^-32 ns). -/
def Dev.frameTime (d : Dev) (f : List Byte) (s : Nat) : Option Nat :=
  if d.ctxEnabled (hdrCtx f) then d.ctxConvert (hdrCtx f) s else none

/-- R259: the residence in 2^-32 ns. -/
def Dev.residence (d : Dev) (f : List Byte) (out : Nat) : Int :=
  let tin : Int := beAt f 2 6 * 1000000000 + beAt f 8 4
  (out : Int) + d.gets F.FRM_EDELAY.DELAY (hdrEdelay f) * 2 ^ 16 - tin * 2 ^ 32

/-- R259, R261: the sum in the correctionField. -/
def corrSum (a b : Int) : Nat :=
  if a + b < -(2 ^ 63) ∨ 2 ^ 63 ≤ a + b then 2 ^ 63 - 1 else ofSigned 64 (a + b)

/-- The correctionField gains a residence in 2^-16 ns. -/
def Dev.correct (d : Dev) (p : Nat) (f : List Byte) (o : Nat) (res : Int) : Dev × List Byte :=
  let (g, nopad) := d.ptpReplace f o (o + 8) (beBytes 8 (corrSum (ptpCorr f o) res))
  let d := d.frmCount p cntCorrected
  (if nopad then d.frmCount p cntV6NoPad else d, g)

/-- R260: a stored residence; a full table loses its oldest entry, an equal key its old one. -/
def Dev.twoStepPut (d : Dev) (e : TwoStep) : Dev :=
  let key := fun (x : TwoStep) => (x.port, x.domain, x.identity, x.seq, x.pair)
  let l := d.frm.two.filter fun x => key x != key e
  let l := if 512 ≤ l.length then l.drop 1 else l
  { d with frm := { d.frm with two := l ++ [e] } }

/-- R259-R261: a CORRECT frame. -/
def Dev.doCorrect (d : Dev) (p : Nat) (f : List Byte) (o : Nat) (s : Nat) : Dev × List Byte :=
  match (if hdrStampValid f then d.frameTime f s else none) with
  | none => (d.frmCount p cntNoCtx, f)
  | some out =>
    let res := d.residence f out
    if res < 0 ∨ 1000000 * 2 ^ 32 < res then ((d.frmCount p cntBadRes).fault 196, f)
    else
      let r := roundDiv res (2 ^ 16)
      let t := ptpType f o
      if ptpTwoStep f o && (t == 0 || t == 3) then
        (d.twoStepPut ⟨p, ptpDomain f o, ptpIdentity f o, ptpSeq f o, if t = 0 then 0 else 1, r, d.tick⟩, f)
      else d.correct p f o r

/-- R260, R261: a FOLLOW frame. -/
def Dev.doFollow (d : Dev) (p : Nat) (f : List Byte) (o : Nat) (s : Nat) : Dev × List Byte :=
  if !hdrStampValid f || (d.frameTime f s).isNone then (d.frmCount p cntNoCtx, f) else
  let pair := if ptpType f o = 8 then 0 else 1
  match d.frm.two.find? fun x => x.port == p && x.domain == ptpDomain f o && x.identity == ptpIdentity f o &&
      x.seq == ptpSeq f o && x.pair == pair with
  | none => (d.frmCount p cntFuMiss, f)
  | some e => ({ d with frm := { d.frm with two := d.frm.two.filter (· != e) } }).correct p f o e.res

/-- R251, R259-R261: what a Class A frame becomes at its launch. -/
def Dev.transit (d : Dev) (x : FrmTx) (f : List Byte) (s : Nat) : Dev × List Byte :=
  match x.action with
  | 1 => d.doCorrect x.port f x.ptp s
  | 2 => d.doFollow x.port f x.ptp s
  | _ => (d.frmCount x.port cntMacsec, f)

/-- R251: DIR 1 and the egress stamp in the header. -/
def Dev.egressHeader (d : Dev) (f : List Byte) (s : Nat) : List Byte :=
  let t := (d.frameTime f s).map (· / 2 ^ 32)
  let ns := t.getD 0
  let b := beAt f 14 1
  replaceAt f 2 (beBytes 6 (ns / 1000000000) ++ beBytes 4 (ns % 1000000000) ++ sliceB f 12 2 ++
    beBytes 1 (setBits (setBits b 4 4 1) 5 5 (b2n t.isSome)))

/-- R265: INSERT writes the egress time into the originTimestamp. -/
def Dev.insertTime (d : Dev) (p : Nat) (f : List Byte) (o s : Nat) : Dev × List Byte :=
  match d.frameTime f s with
  | none => (d, f)
  | some t =>
    let ns := t / 2 ^ 32
    let (g, nopad) := d.ptpReplace f o (o + 34) (beBytes 6 (ns / 1000000000) ++ beBytes 4 (ns % 1000000000))
    (if nopad then d.frmCount p cntV6NoPad else d, g)

/-! ## Egress (R256, R263) -/

/-- R263: an entry of the egress queue as a frame that waits; a length that may not leave a port is counted. -/
def Dev.egressEntry (d : Dev) (e : List Byte) : Dev :=
  let p := leAt e 6 1 % 8
  let fl := leAt e 7 1
  let x : FrmTx := ⟨p, fl % 4, leAt e 0 4, leAt e 4 2, bit fl 2, bit fl 3, leAt e 21 1, 0, none, []⟩
  let d := if x.free then d.handOver x.addr else d
  if x.len < 76 ∨ 2048 < x.len then (if x.free then d.cellsFree x.addr else d).frmCount p cntLength
  else d.txPut x

/-- R263: the frame block takes what engines pushed to the egress queue. -/
def Dev.egressPull (d : Dev) : Dev :=
  let q := d.get F.FRM_EGQ.QUEUE
  if d.flag F.FRM_EGQ.ENABLE && (d.qdesc q).cons == 0x1030 then
    (List.range (d.qdesc q).fill).foldl (fun d _ =>
      match d.qPop q with
      | (d, some e) => d.egressEntry e
      | (d, none) => d) d
  else d

/-- R256: the next frame of a port: Class A, then B, C, D, the oldest of a class first. -/
def Dev.nextFrame (d : Dev) (p : Nat) : Option FrmTx :=
  (List.range 4).findSome? fun c => d.frm.txs.find? fun x => x.port == p && x.cls == c

/-- The frame leaves its list, and its cells are released if it was to free them. -/
def Dev.txDrop (d : Dev) (x : FrmTx) : Dev :=
  let d := { d with frm := { d.frm with txs := d.frm.txs.erase x } }
  if x.free then d.cellsFree x.addr else d

/-- DMA descriptor write-back (R264-R266): status, ABORT_LATE and what else it holds. -/
def descBytes (desc : List Byte) (port : Option Nat) (stamp : Option Nat) (rlen status : Nat) : List Byte :=
  let fl := leAt desc 11 1
  let s := stamp.getD (leAt desc 16 4 + leAt desc 20 8 * 2 ^ 32)
  desc.take 10 ++ leBytes 1 (port.getD (leAt desc 10 1)) ++ leBytes 1 (fl - fl % 2) ++ sliceB desc 12 4 ++
  leBytes 4 (s % 2 ^ 32) ++ leBytes 8 (s / 2 ^ 32) ++ leBytes 2 rlen ++ leBytes 1 status ++ leBytes 1 0

/-- The host address of a ring's descriptor i. -/
def Dev.descAddr (d : Dev) (r i : Nat) : Nat := d.get64 F.FRM_RING_ADDR_LO.ADDR F.FRM_RING_ADDR_HI.ADDR r + 32 * i

/-- R264, R265: the descriptor at HEAD completes: write-back, HEAD, counts, interrupt. -/
def Dev.descDone (d : Dev) (r : Nat) (desc : List Byte) (port : Option Nat) (stamp : Option Nat) (rlen status : Nat) : Dev :=
  let h := d.get F.FRM_RING_HEAD.INDEX r
  let fn := d.get F.FRM_RING_CFG.FUNC r
  let b := descBytes desc port stamp rlen status
  let d := d.emit (.hostWrite fn (d.descAddr r h) b)
  let d := d.put F.FRM_RING_HEAD.INDEX ((h + 1) % 2 ^ d.get F.FRM_RING_CFG.LOG2 r) r
  let ld := if status = 0 then Tbl.set d.frm.lastDone r (d.absCycle, d.descAddr r h, b) else Tbl.del d.frm.lastDone r
  let d := { d with frm := { d.frm with lastDone := ld } }
  let d := if status = 0 then d.incWrap F.FRM_RING_STAT.DONE r else (d.incSat F.FRM_RING_STAT.ERRORS r).fault 197 r
  if bit (leAt desc 11 1) 3 then d.msixSend fn (d.get F.FRM_RING_CFG.VECTOR r) else d

/-- R256-R262: a frame is launched at the present cycle. -/
def Dev.launch (d : Dev) (x : FrmTx) : Dev :=
  let s := d.t96
  let f := d.vbytes x.addr x.len
  let (d, f) := if x.cls = 0 then d.transit x f s
    else if x.insert then
      match (if x.ring.isSome then ptpOff f else if x.ptp = 0 then none else some x.ptp) with
      | some o => d.insertTime x.port f o s
      | none => (d, f)
    else (d, f)
  let out := d.egressHeader f s
  -- R246: the port generates the FCS
  let d := (if d.pinsDriven 2 x.port then d.emit (.frame x.port (out ++ leBytes 4 (crc32 out))) else d).frmCount x.port cntTx
  let d := d.txDrop x
  let d := match x.ring with
    | some r => d.descDone r x.desc none (if bit (leAt x.desc 11 1) 1 then some s else none) 0 0
    | none => d
  d.frameLoop x.port out s

/-- R256, R100: FRAME_TRANSMIT: the next frame of a port leaves; a frame whose cells read poisoned does not. -/
def Dev.frameTransmit (d : Dev) (p : Nat) : Dev :=
  if d.portState p = 0 ∨ d.stopped ∨ d.boot.halted then d else
  let d := d.egressPull
  match d.nextFrame p with
  | none => d
  | some x =>
    let bad := d.vbad x.addr x.len
    let d := d.vatTouch x.addr x.len 4
    if !bad then d.launch x
    else
      let d := ((d.txDrop x).cellsFree x.addr).frmCount p cntFormat
      match x.ring with
      | some r => d.descDone r x.desc none none 0 6
      | none => d

def execFrameTransmit (p : Fin 8) (c : Cycle) (s : State) : StepOut :=
  s.run fun d => ({ d with cycle := c.val }).frameTransmit p

/-! ## Two-step entries and ports (R260, R267) -/

/-- R260: entries older than FU_AGE ms are freed. -/
def Dev.twoStepAge (d : Dev) : Dev :=
  let live := d.frm.two.filter fun e => !decide (e.since + d.get F.FRM_CFG.FU_AGE * 1000 < d.tick)
  { d with frm := { d.frm with two := live } }

def execTwoStepEntryAge (s : State) : StepOut := s.run fun d => d.twoStepAge

/-- R267: at the end of DRAINING what remains is discarded and the port is OFF. -/
def Dev.portOff (d : Dev) (p : Nat) : Dev :=
  let d := d.egressPull
  let left := d.frm.txs.filter fun x => x.port == p
  let d := left.foldl (fun d x =>
    let d := d.txDrop x
    match x.ring with
    | some r => d.descDone r x.desc none none 0 1
    | none => d) d
  let d := { d with frm := { d.frm with two := d.frm.two.filter fun e => e.port != p } }
  let d := if left.isEmpty then d else (d.frmCount p cntDrainLoss left.length).fault 192 p
  ((d.put F.FRM_PORT_STAT.STATE 0 p).put F.FRM_PORT_STAT.DRAIN_LEFT 0 p).pcsLoss p

/-- R267: PORT_DRAIN_END, if the 64 ticks end with the present one. -/
def Dev.portDrainEnd (d : Dev) (p : Nat) : Dev :=
  if d.portState p = 2 ∧ d.get F.FRM_PORT_STAT.DRAIN_LEFT p ≤ 1 then d.portOff p else d

def execPortDrainEnd (p : Fin 8) (s : State) : StepOut := s.run fun d => d.portDrainEnd p

/-- R267: a port that is UP powers down. -/
def Dev.portDown (d : Dev) (p : Nat) : Dev :=
  if d.portState p = 1 then ((d.put F.FRM_PORT_STAT.STATE 2 p).put F.FRM_PORT_STAT.DRAIN_LEFT 64 p).pcsLoss p else d

/-- R304, R312, R335, R366: a port may come UP. -/
def Dev.portMayRun (d : Dev) : Bool := !d.stopped && !d.boot.halted && !d.boot.switching && d.pinsLive

/-- R247, R267: a port at a boundary, once its ENABLE is in force. -/
def Dev.portBoundary (d : Dev) (p : Nat) : Dev :=
  let on := d.flag F.FRM_PORT_CFG.ENABLE p
  match d.portState p with
  | 0 => if on && d.portMayRun then (d.put F.FRM_PORT_STAT.STATE 1 p).pcsLoss p else d
  | 1 => if on then d else d.portDown p
  | _ => d.put F.FRM_PORT_STAT.DRAIN_LEFT (d.get F.FRM_PORT_STAT.DRAIN_LEFT p - 1) p

/-- R246: PCS_LOCK_GAINED: block lock and alignment, with FEC alignment when FEC is set. -/
def execPcsLockGained (p : Fin 8) (s : State) : StepOut :=
  s.run fun d =>
    ((d.put F.FRM_PORT_STAT.PCS_LOCK 1 p).put F.FRM_PORT_STAT.FEC_LOCK (d.get F.FRM_PORT_CFG.FEC p) p).pcsLoss p

/-- R246: PCS_LOCK_LOST. -/
def execPcsLockLost (p : Fin 8) (s : State) : StepOut :=
  s.run fun d => ((d.put F.FRM_PORT_STAT.PCS_LOCK 0 p).put F.FRM_PORT_STAT.FEC_LOCK 0 p).pcsLoss p

end Sys2Proof.Machine
end

