-- ==== Sys2Proof/Machine/RegMap.lean ====
section
/-! DEFINITION. The register map as a map: which register an offset names, which copy a path reaches (R32, R337,
R338), the formats of the tables (R68, R70, R185, R188, R252), and the configuration that the writes accepted so far
will put in force (R387, R284). -/

namespace Sys2Proof.Machine

/-! ## Offsets -/

/-- What an offset names: the register of the table (the group's first), its two indices and its fields. -/
structure Site where
  reg : Reg
  n : Nat
  k : Nat
  fields : List FieldSpec
  deriving DecidableEq, Repr, Inhabited

/-- The indices at which an offset lies in a group. -/
def Reg.indices (r : Reg) (off : Nat) : Option (Nat × Nat) :=
  if off < r.base then none else
  let x := off - r.base
  let n := if r.stride = 0 then 0 else x / r.stride
  let y := x - n * r.stride
  let k := if r.stride2 = 0 then 0 else y / r.stride2
  if y = k * r.stride2 ∧ n < r.count ∧ k < r.count2 then some (n, k) else none

/-- R337: the register that an offset names; HOST_VF_APT begins at index 1. -/
def siteAt (off : Nat) : Option Site :=
  RegSpec.all.findSome? fun e => match e.1.indices off with
    | some (n, k) => if e.1.base = R.HOST_VF_APT.base ∧ n = 0 then none else some ⟨e.1, n, k, e.2⟩
    | none => none

/-- The site's register, its base moved to its indices where copies are told apart otherwise. -/
def Site.own (x : Site) : Reg :=
  match x.reg.kind with
  | .plain => x.reg.at x.k
  | _ => { x.reg.at x.k with base := x.reg.base + x.reg.stride * x.n + x.reg.stride2 * x.k }

/-- R32, R338: the copy that a path reaches: its own, or that of the object its select register names. -/
def Dev.copyOf (d : Dev) (p : Path) (x : Site) : Nat :=
  let c := p.code
  match x.reg.kind with
  | .plain => x.n
  | .path => c
  | .sel .pool => d.get F.VAT_POOL_SEL.POOL c
  | .sel .task => 16 * d.get F.ENG_TASK_SEL.ENGINE c + d.get F.ENG_TASK_SEL.SLOT c
  | .sel .ti => 16 * d.get F.ENG_TI_SEL.ENGINE c + d.get F.ENG_TI_SEL.INPUT c
  | .sel .rgn => d.get F.REAM_RGN_SEL.REGION c
  | .sel .wear => d.get F.REAM_WEAR_SEL.SECTOR c
  | .sel .src => d.get F.FLT_SRC_SEL.SOURCE c
  | .sel .lb => 128 * d.get F.TST_LB_SEL.KIND c + d.get F.TST_LB_SEL.INDEX c
  | .sel .ctx => d.get F.CTX_SEL.INDEX c
  | .sel .bm => d.get { F.SYN_BM_SEL.ENTRY with reg := { R.SYN_BM_SEL with base := R.SYN_BM_SEL.base + 256 * x.n } } c

/-- The place in the register file of what a path reaches. -/
def Dev.keyOf (d : Dev) (p : Path) (x : Site) : Nat := x.own.key (d.copyOf p x)

/-! ## Masks -/

/-- The bits of a field. -/
def FieldSpec.mask (f : FieldSpec) : Nat := (2 ^ (f.hi + 1 - f.lo) - 1) * 2 ^ f.lo

/-- The bits of the fields that meet a condition. -/
def maskOf (fs : List FieldSpec) (p : FieldSpec → Bool) : Nat := fs.foldl (fun m f => if p f then m ||| f.mask else m) 0

/-- A word with the bits of a mask replaced. -/
def mergeWord (mask old new : Nat) : Nat := (old &&& (2 ^ 32 - 1 - mask)) ||| (new &&& mask)

/-- R385: a field with access RW or "engine writes only". -/
def FieldSpec.rw (f : FieldSpec) : Bool := f.acc == .rw || f.acc == .eng

/-- R19: tick-synchronous fields. -/
def FieldSpec.sync (f : FieldSpec) : Bool := f.rw && f.tick

/-- Fields of access RWL. -/
def FieldSpec.locked (f : FieldSpec) : Bool := f.acc == .rwl

/-- The register file with the waiting words of `t` merged in, in the fields that meet a condition. -/
def mergeTbl (p : FieldSpec → Bool) (regs t : Tbl Word) : Tbl Word :=
  t.foldl (fun regs e => match siteAt (e.1 % copyStride) with
    | none => regs
    | some x =>
      let old := (Tbl.getD regs e.1 (BitVec.ofNat 32 x.reg.reset)).toNat
      Tbl.set regs e.1 (BitVec.ofNat 32 (mergeWord (maskOf x.fields p) old e.2.toNat))) regs

/-! ## Tables -/

/-- Bytes [i, i + n) are zero. -/
def zeroAt (t : List Byte) (i n : Nat) : Bool := leAt t i n == 0

/-- Consecutive numbers rise strictly. -/
def ascending : List Int → Bool
  | a :: b :: r => decide (a < b) && ascending (b :: r)
  | _ => true

/-- No number occurs twice. -/
def distinct : List Nat → Bool
  | [] => true
  | a :: r => !r.contains a && distinct r

/-- R68, R70, R185, R188, R252: the length that a table's header implies, none if its format is refused. -/
def tableLen (t : List Byte) : Option Nat :=
  let rows := fun (n : Nat) (ok : Nat → Bool) => (List.range n).all ok
  match tableKind t with
  | 1 =>
    let n := leAt t 2 1
    if 2 ≤ n ∧ n ≤ 64 ∧ leAt t 3 1 ≤ 1 ∧ zeroAt t 4 4 ∧
        ascending ((List.range n).map fun i => toSigned 32 (leAt t (8 + 8 * i) 4)) then some (8 + 8 * n) else none
  | 2 =>
    let n := leAt t 3 1
    let st := leAt t 2 1
    if 1 ≤ n ∧ n ≤ 64 ∧ 1 ≤ st ∧ st ≤ 64 ∧ zeroAt t 4 4 ∧ rows n (fun j =>
        leAt t (12 + 8 * j) 2 &&& (2 ^ 16 - 1 - leAt t (10 + 8 * j) 2) == 0 && decide (leAt t (9 + 8 * j) 1 < st))
    then some (8 + 8 * n) else none
  | 3 =>
    let n := leAt t 2 2
    let src := fun j => leAt t (8 + 16 * j) 2
    if 1 ≤ n ∧ n ≤ 289 ∧ zeroAt t 4 4 ∧ distinct ((List.range n).map src) ∧ rows n (fun j =>
        (decide (src j ≤ 287) || src j == 0xFFFF) && zeroAt t (10 + 16 * j) 2 && zeroAt t (21 + 16 * j) 3)
    then some (8 + 16 * n) else none
  | 4 =>
    let n := leAt t 2 1
    if 1 ≤ n ∧ n ≤ 64 ∧ zeroAt t 3 5 ∧ rows n (fun j =>
        decide ((toSigned 48 (leAt t (8 + 16 * j) 6)).natAbs ≤ 70368744177) && zeroAt t (14 + 16 * j) 2 &&
        decide (1 ≤ leAt t (16 + 16 * j) 4 ∧ leAt t (16 + 16 * j) 4 ≤ 10000000))
    then some (8 + 16 * n) else none
  | 5 =>
    let n := leAt t 2 1
    let b := fun j i => leAt t (8 + 16 * j + i) 1
    if 1 ≤ n ∧ n ≤ 64 ∧ zeroAt t 3 5 ∧ rows n (fun j =>
        decide (b j 0 ≤ 5 ∧ b j 1 ≤ 2 ∧ b j 11 ≤ 4 ∧ leAt t (20 + 16 * j) 2 ≤ 255) &&
        (b j 10 == 0 || b j 10 == 2 || b j 10 == 3) && zeroAt t (22 + 16 * j) 2)
    then some (8 + 16 * n) else none
  | _ => none

/-- R388: the place of the directory entry of a table. -/
def Dev.dirAddr (d : Dev) (n : Nat) : Nat := d.get F.TBL_DIR_BASE.GRANULE * 4096 + 8 * n

/-- R389: a directory entry written. -/
def Dev.dirSet (d : Dev) (n o l : Nat) : Dev := (d.vatPut (d.dirAddr n) 4 o).vatPut (d.dirAddr n + 4) 4 l

/-- R388, R389: the staged tables enter the directory, which moves with TBL_DIR_BASE; `old` is the device before. -/
def Dev.tableSwap (old d : Dev) : Dev :=
  let moved := old.get F.TBL_DIR_BASE.GRANULE != d.get F.TBL_DIR_BASE.GRANULE
  let d := if moved then d.vatStore (d.dirAddr 0) (old.vbytes (old.dirAddr 0) 8192) else d
  let d := d.stagedTabs.foldl (fun d t => d.dirSet t.1 (if t.2.length = 0 then 0 else t.2.offset) t.2.length) d
  { d with stagedTabs := [] }

/-! ## The configuration that a write is judged against (R387, R284) -/

/-- R387, R284: the device with every write accepted so far in force: waiting tick-synchronous words, the staged
copies, tables and profile of the open change. -/
def Dev.view (d : Dev) : Dev :=
  let regs := mergeTbl FieldSpec.locked (mergeTbl FieldSpec.sync d.regs d.acc) d.staged
  let v := { d with regs := regs, acc := [], staged := [] }
  let v := if (Tbl.find? d.staged R.SYS_PROFILE.base).isSome
    then v.put F.SYS_PROFILE.ACTIVE (v.get F.SYS_PROFILE.PROFILE) else v
  if d.stagedTabs.isEmpty && (Tbl.find? d.staged R.TBL_DIR_BASE.base).isNone then v else Dev.tableSwap d v

/-- 0 none, 1 OPEN, 2 ARMED. -/
def Dev.stage (d : Dev) : Nat := d.get F.KL_STAGE_STAT.STATE

end Sys2Proof.Machine
end

