-- ==== Sys2Proof/Machine/Sched.lean ====
section
/-! DEFINITION. The scheduler (R35, R40-R47), clusters (R47, R325), admission (R34), instruction stores (R49). -/

namespace Sys2Proof.Machine

/-! ## Aging and dispatch -/

/-- R45: the age limit of an effective class, in cycles. -/
def Dev.ageLimit (d : Dev) (eff : Nat) : Nat :=
  8 * (if eff = 3 then d.get F.ENG_AGE.AGE3 else d.get F.ENG_AGE.AGE2)

/-- R45: the absolute cycle at which the waiting task is promoted: its limit has passed, under the ENG_AGE then in force. -/
def Dev.promoteAt (d : Dev) (t : Nat) : Nat := max ((d.task t).aged + d.ageLimit (d.task t).eff) d.ageFrom

/-- R45: a waiting task of effective class 2 or 3 is promoted by absolute cycle `now`. -/
def Dev.promoteDue (d : Dev) (t now : Nat) : Bool :=
  let x := d.task t
  x.ready && (x.eff == 2 || x.eff == 3) && d.promoteAt t ≤ now

/-- R45: one promotion, if it is due. -/
def Dev.promote (d : Dev) (t now : Nat) : Dev :=
  let x := d.task t
  if d.promoteDue t now then
    d.setTask t { x with eff := x.eff - 1, promoted := true, aged := d.promoteAt t }
  else d

/-- Promotions of an engine's tasks that are due and have not been made: a task of class 3 may be due twice. -/
def Dev.promoteAll (d : Dev) (e now : Nat) : Dev :=
  (List.range 16).foldl (fun d s => (d.promote (16 * e + s) now).promote (16 * e + s) now) d

/-- R45: before ENG_AGE changes, every promotion that the limits in force have brought is made; the new ones hold from here on. -/
def Dev.agesSettle (d : Dev) : Dev :=
  let now := d.absCycle
  { d.tasks.foldl (fun (d : Dev) t => (d.promote t.1 now).promote t.1 now) d with ageFrom := now }

/-- Dispatches a task has had in the present tick. -/
def Dev.dispatches (d : Dev) (t : Nat) : Nat :=
  let x := d.task t
  if x.dispTick = d.tick then x.disp else 0

/-- R40, R44: a ready task that may still be dispatched in this tick. -/
def Dev.candidate (d : Dev) (t : Nat) : Bool :=
  let x := d.task t
  x.ready && d.taskBound t && d.dispatches t < d.get F.ENG_TASK_CFG.MAXDISP t && x.deferred != some d.tick

/-- R43: the order in which ready tasks are taken: effective class, ready time, slot. -/
def Dev.before (d : Dev) (t u : Nat) : Bool :=
  let x := d.task t
  let y := d.task u
  x.eff < y.eff || (x.eff == y.eff && (x.since < y.since || (x.since == y.since && t < u)))

/-- R43: the next task that the dispatcher takes. -/
def Dev.nextTask (d : Dev) (e : Nat) : Option Nat :=
  ((List.range 16).map (16 * e + ·)).foldl (fun best t =>
    if d.candidate t then
      match best with
      | none => some t
      | some u => if d.before t u then some t else best
    else best) none

/-- R30, R40: a task's dispatch starts at the present cycle. -/
def Dev.startTask (d : Dev) (e t : Nat) : Dev :=
  let x := d.task t
  let trig := d.get F.ENG_TASK_CFG.TRIGGER t
  let i := 16 * e + trig
  let q := d.tin i
  let input := trig < 16
  let late := x.since / 1250 < d.tick
  let ts := (if input then q.count + trig * 2 ^ 8 + b2n q.ovf * 2 ^ 12 else 0) +
    b2n late * 2 ^ 13 + b2n x.promoted * 2 ^ 14 + t % 16 * 2 ^ 15
  let d := if input then d.setTin i { q with count := 0, ovf := false } else d
  let d := d.setTask t { x with
    ready := false, promoted := false, eff := d.get F.ENG_TASK_CFG.CLASS t,
    disp := d.dispatches t + 1, dispTick := d.tick, again := false, cancelled := false }
  let d := (d.putB F.ENG_TASK_STAT.LATE late t).putB F.ENG_TASK_STAT.PROMOTED x.promoted t
  let g := d.eng e
  d.setEng e { g with
    g := Vector.replicate 16 0, acc := 0, p := Vector.replicate 4 false, ts := ts,
    pc := d.get F.ENG_TASK_CFG.ENTRY t, stack := [], run := some (t % 16),
    start := d.cycle, cyc := d.cycle + 2, vputs := [], qops := [], ioDone := 0 }

/-- R43, R44: the dispatcher at cycle c: it takes the next ready task; one that does not fit in the rest of the
tick waits for the next tick, and the dispatcher goes on to the next (log entry 9). -/
def Dev.dispatchFrom : Nat → Dev → Nat → Dev
  | 0, d, _ => d
  | n + 1, d, e =>
    match d.nextTask e with
    | none => d
    | some t =>
      if d.cycle + d.get F.ENG_TASK_BUDGET.BUDGET t ≤ 1250 then d.startTask e t
      else Dev.dispatchFrom n (d.setTask t { d.task t with deferred := some d.tick }) e

/-- R43: the dispatcher of an idle engine from cycle 50 on. -/
def Dev.dispatch (d : Dev) (e c : Nat) : Dev :=
  let d := { d with cycle := c }
  if 50 ≤ c ∧ !d.running e ∧ d.clusterOn (e / 32) ∧ d.dispatchOn then
    Dev.dispatchFrom 16 (d.promoteAll e d.absCycle) e
  else d

def execTaskDispatch (e : Eng) (c : Cycle) (s : State) : StepOut := s.run fun d => d.dispatch e c

/-- R36: the dispatch has reached the last cycle of its budget. -/
def execTaskOverrun (e : Eng) (s : State) : StepOut :=
  s.run fun d => if d.running e then d.overrun e else d

def execTaskPromotion (e : Eng) (slot : Fin 16) (c : Cycle) (s : State) : StepOut :=
  s.run fun d => let d := { d with cycle := c }; d.promote (16 * e + slot) d.absCycle

/-- R38, R39: an event from a source reaches a task input. -/
def execTaskInputEvent (e : Eng) (i : Fin 16) (source : BitVec 12) (c : Cycle) (s : State) : StepOut :=
  s.run fun d => ({ d with cycle := c } : Dev).taskEvent e i source.toNat

/-- R35: the tick-triggered tasks whose tick this is fall due: they become ready at its cycle 50. -/
def Dev.readyTick (d : Dev) : Dev :=
  d.boundTasks.foldl (fun d t =>
    let p := d.get F.ENG_TASK_PERIOD.PERIOD t
    if d.get F.ENG_TASK_CFG.TRIGGER t == 16 && p != 0 &&
      ((d.tick : Int) - d.get F.ENG_TASK_PERIOD.PHASE t) % p == 0
    then d.setTask t { d.task t with due := some (d.tick * 1250 + 50) } else d) d

/-- R41: a cancel removes the ready state and empties the trigger input; a running task's dispatch goes on, and no ready
state is left when it ends. -/
def Dev.cancelTask (d : Dev) (t : Nat) : Dev :=
  let d := d.setTask t { d.task t with
    ready := false, promoted := false, cancelled := decide ((d.eng (t / 16)).run = some (t % 16))
    cancelAt := some d.absCycle }
  let trig := d.get F.ENG_TASK_CFG.TRIGGER t
  let i := 16 * (t / 16) + trig
  let d := if trig < 16 then d.setTin i { d.tin i with count := 0, fifo := [] } else d
  d.incSat F.ENG_TASK_CNT.CANCELS t

/-- R32: ENG_TASK_CANCEL accepts every host path and every engine. -/
def execTaskCancel (p : Path) (e : Eng) (slot : SlotAt) (s : State) : StepOut :=
  s.runBy p R.ENG_TASK_CANCEL.off fun d => ({ d with cycle := slot.cycle.val } : Dev).cancelTask (16 * e + slot.slot)

/-- R75: an armed timer delivers its event at cycle 0 of the tick that its deadline equals. -/
def Dev.timerExpire (d : Dev) (e : Nat) (t : Fin 4) : Dev :=
  let x := d.eng e
  match x.timers[t] with
  | none => d
  | some dl =>
    if dl = d.tick32 then
      (({ d with cycle := 0 } : Dev).setEng e { x with timers := x.timers.set t none }).taskEvent e x.timerIn[t] (0x400 + e)
    else d

/-- R75: every timer whose deadline the tick equals, at cycle 0. -/
def Dev.timersExpire (d : Dev) : Dev :=
  d.engs.foldl (fun (d : Dev) x =>
    ([0, 1, 2, 3] : List (Fin 4)).foldl (fun d t => if (d.eng x.1).timers[t].isSome then d.timerExpire x.1 t else d) d) d

def execTickTimerExpiry (e : Eng) (t : Fin 4) (s : State) : StepOut := s.run fun d => d.timerExpire e t

/-! ## Admission (R33, R34) -/

/-- R34: per-tick cycles that the enabled tasks of an engine may use, by last accepted values. -/
def Dev.admitUsed (d : Dev) (e : Nat) : Nat :=
  ((List.range 16).map fun s =>
    let t := 16 * e + s
    if d.getS F.ENG_TASK_CFG.ENABLE t = 1
    then d.getS F.ENG_TASK_BUDGET.BUDGET t * d.getS F.ENG_TASK_CFG.MAXDISP t else 0).foldl (· + ·) 0

/-- Table Admission codes: the first code that the engine's enabled tasks break; 0 for none. DESIGN CHOICE (log entry 91): PATH
against BUDGET and MAXDISP 1 of a tick-triggered task (R33) are judged for enabled tasks only. -/
def Dev.admitCode (d : Dev) (e : Nat) : Nat :=
  let on := (List.range 16).filterMap fun s =>
    if d.getS F.ENG_TASK_CFG.ENABLE (16 * e + s) = 1 then some (16 * e + s) else none
  let b := fun t => d.getS F.ENG_TASK_BUDGET.BUDGET t
  if d.admitUsed e > 1200 then 1
  else if on.any fun t => b t < 3 || b t > 1200 || b t < d.getS F.ENG_TASK_BUDGET.PATH t + 2 then 2
  else if on.any fun t => d.getS F.ENG_TASK_CFG.TRIGGER t == 16 && d.getS F.ENG_TASK_CFG.MAXDISP t != 1 then 3
  else if !on.isEmpty && !bit (d.getA F.ENG_CLUSTER_PWR.ON) (e / 32) then 4
  else 0

/-- R34: ENG_ADMIT records the refusal of configuration `v` on engine e. DESIGN CHOICE (log entry 91): of a need above 2,047
cycles USED keeps the low 11 bits. -/
def Dev.admitNote (d v : Dev) (e code : Nat) : Dev :=
  ((d.put F.ENG_ADMIT.CODE code).put F.ENG_ADMIT.ENGINE e).put F.ENG_ADMIT.USED (v.admitUsed e)

/-! ## Clusters (R47, R325) -/

/-- A task is bound on the cluster (in force or as last accepted). -/
def Dev.clusterBound (d : Dev) (c : Nat) : Bool :=
  (List.range 512).any fun s =>
    d.getS F.ENG_TASK_CFG.ENABLE (512 * c + s) == 1 || d.get F.ENG_TASK_CFG.ENABLE (512 * c + s) == 1

/-- R47: a cluster that is switched off loses its memories, timers and dispatches. -/
def Dev.clusterOff (d : Dev) (c : Nat) : Dev :=
  let d := d.setClus c { d.clus c with
    istore := [], cmem := [], cue := [], cce := [], live := [], staged := [], waiting := false, startedAt := none }
  let d := { d with engs := d.engs.filter fun e => e.1 / 32 != c }
  d.put F.ENG_CLUSTER_STAT.POWERED (d.get F.ENG_CLUSTER_STAT.POWERED &&& (2 ^ 16 - 1 - 2 ^ c))

/-- R47: a change of ENG_CLUSTER_PWR.ON takes effect: clusters go off, or wait for their turn to start. -/
def Dev.clusterApply (d : Dev) (old : Nat) : Dev :=
  let new := d.get F.ENG_CLUSTER_PWR.ON
  (List.range 16).foldl (fun d c =>
    if bit old c && !bit new c then d.clusterOff c
    else if !bit old c && bit new c then d.setClus c { d.clus c with waiting := true }
    else d) d

/-- R325: clusters start one at a time, in ascending order, 500 ticks apart. -/
def Dev.clusterStart (d : Dev) (c : Nat) : Dev :=
  let first := (List.range c).all fun b => !(d.clus b).waiting
  if (d.clus c).waiting && first && (d.lastStart.map fun t => decide (t + 500 ≤ d.tick)).getD true then
    { d.setClus c { d.clus c with waiting := false, startedAt := some d.tick } with lastStart := some d.tick }
  else d

def execClusterStart (c : Fin 16) (s : State) : StepOut := s.run fun d => d.clusterStart c

/-- R47: a started cluster completes its power-up. -/
def Dev.clusterDone (d : Dev) (c : Nat) : Dev :=
  if (d.clus c).startedAt.isSome then
    (d.setClus c { d.clus c with startedAt := none }).put F.ENG_CLUSTER_STAT.POWERED
      (d.get F.ENG_CLUSTER_STAT.POWERED ||| 2 ^ c)
  else d

def execClusterPowerUpDone (c : Fin 16) (s : State) : StepOut := s.run fun d => d.clusterDone c

/-! ## Instruction stores (R49) -/

/-- An instruction word of a cluster's store. -/
def Dev.instr (d : Dev) (c i : Nat) : Nat := Memory.readLe 0 (d.clus c).istore (4 * i) 4

/-- R50, R57: the instruction that an engine executes next, as the command that executes it. -/
def Dev.nextInstr (d : Dev) (e : Eng) : Instr :=
  decodeEngine e (BitVec.ofNat 32 (d.instr (e.val / 32) (d.eng e).pc))

/-- R79: the indices that may follow an instruction. -/
def successors (w i : Nat) : List Nat :=
  let op := w / 2 ^ 26
  let t := ((i : Int) + toSigned 14 w).toNat
  if op = 0x31 then [t]
  else if op = 0x32 ∨ op = 0x33 ∨ op = 0x34 ∨ op = 0x35 then [i + 1, t]
  else if op = 0x36 ∨ op = 0x38 ∨ op = 0x39 then []
  else [i + 1]

/-- The indices that control flow can reach, with at most `n` visits. -/
def Dev.reach (d : Dev) (c : Nat) : Nat → List Nat → List Nat → List Nat
  | 0, _, seen => seen
  | _, [], seen => seen
  | n + 1, i :: todo, seen =>
    if i ≥ 16384 ∨ seen.contains i then Dev.reach d c n todo seen
    else Dev.reach d c n (successors (d.instr c i) i ++ todo) (i :: seen)

/-- R49: an enabled task of the cluster can reach the word, as its registers are in force or as the open change leaves them
(R387). -/
def Dev.reachable (d : Dev) (c i : Nat) : Bool :=
  let entries := (List.range 512).flatMap fun s =>
    let t := 512 * c + s
    (if d.taskBound t then [d.get F.ENG_TASK_CFG.ENTRY t] else []) ++
      (if d.getS F.ENG_TASK_CFG.ENABLE t = 1 then [d.getS F.ENG_TASK_CFG.ENTRY t] else [])
  !entries.isEmpty && (d.reach c 50000 entries []).contains i

/-- R49, R32: a write of an instruction word: refused for engines, and LOCKED where an enabled task can reach it.
A cluster without power keeps nothing. -/
def Dev.istoreWrite (d : Dev) (p : Path) (c i v : Nat) : Dev :=
  let off := 0x0A000000 + 0x10000 * c + 4 * i
  if !p.isHost then d.refuse p.code off .access
  else if d.reachable c i then d.refuse p.code off .locked
  else if d.clusterOn c then
    d.setClus c { d.clus c with istore := Memory.writeN 0 (d.clus c).istore (4 * i) (leBytes 4 v) }
  else d

def execInstructionStoreWrite (p : Path) (c : Fin 16) (i : Fin 16384) (w : Word) (s : State) : StepOut :=
  s.runBy p (0x0A000000 + 0x10000 * c + 4 * i) fun d => d.istoreWrite p c i w.toNat

end Sys2Proof.Machine
end

