-- ==== Sys2Proof/Machine/Dma.lean ====
section
/-! DEFINITION. DMA rings (R264-R266), which do not run in LEAN (R20). The descriptor that the NV9640 reads from host memory
is the command's operand, as is the frame that it reads for a transmit descriptor. -/

namespace Sys2Proof.Machine

/-- R264: the host has given descriptors to the ring. -/
def Dev.ringReady (d : Dev) (r : Nat) (rx : Bool) : Bool :=
  d.get F.SYS_PROFILE.ACTIVE != 3 && d.flag F.FRM_RING_CFG.ENABLE r && d.flag F.FRM_RING_CFG.DIR r == rx &&
  d.get F.FRM_RING_HEAD.INDEX r != d.get F.FRM_RING_TAIL.INDEX r

/-- A transmit descriptor of the ring is in progress. -/
def Dev.ringBusy (d : Dev) (r : Nat) : Bool := d.frm.txs.any fun x => x.ring == some r

/-- R266: the descriptor in progress of a ring, whose frame is being read. -/
def Dev.ringRead (d : Dev) (r : Nat) : Option (List Byte) := Tbl.find? d.frm.reads r

/-- R266: a descriptor's frame is read from here on, or no longer. -/
def Dev.setRead (d : Dev) (r : Nat) (desc : Option (List Byte)) : Dev :=
  { d with frm := { d.frm with reads := match desc with
    | some b => Tbl.set d.frm.reads r b
    | none => Tbl.del d.frm.reads r } }

/-- R265: the frame that the host's memory gave goes into cells, poisoned where it came poisoned, and waits to leave. Where
the FRAME pool has no room the read stays outstanding (log entry 51). -/
def Dev.dmaFrame (d : Dev) (r : Nat) (desc f : List Byte) (poison : Bool) (from' : Nat) : Dev :=
  let len := leAt desc 8 2
  let p := leAt desc 10 1
  match d.cellsTake len false from' with
  | none => d.setRead r (some desc)
  | some c =>
    let a := cellAddr c.first
    let d := (d.setRead r none).cellsFill c (sliceB f 0 len)
    let d := if poison then { d with vat := { d.vat with ue := d.vat.ue ++ [a / 8] } } else d
    d.txPut ⟨p, 1, a, len, true, bit (leAt desc 11 1) 2, 0, 0, some r, desc⟩

/-- R264: DMA_DESCRIPTOR_FETCH: the transmit descriptor at HEAD is read, and `got` says that its frame has come with it; or
the frame of the descriptor in progress has come. -/
def Dev.dmaFetch (d : Dev) (r : Nat) (desc f : List Byte) (got poison : Bool) (from' : Nat) : Dev :=
  let desc := (d.ringRead r).getD (sliceB desc 0 32)
  if !d.ringReady r false || d.ringBusy r || !bit (leAt desc 11 1) 0 then d else
  let len := leAt desc 8 2
  let p := leAt desc 10 1
  if len < 76 ∨ 2048 < len then (d.setRead r none).descDone r desc none none 0 5
  else if 8 ≤ p ∨ d.portState p ≠ 1 then (d.setRead r none).descDone r desc none none 0 1
  else if got then d.dmaFrame r desc f poison from'
  else d.setRead r (some desc)

def execDmaDescriptorFetch (r : Fin 256) (desc : List Byte) (f : HostFrame) (poison : Bool) (c : Cycle) (s : State) : StepOut :=
  s.run fun d => ({ d with cycle := c.val }).dmaFetch r desc f.data f.got poison f.left.toNat

/-- R264, R265: DMA_RECEIVE: the ring takes a frame from its queue into the buffer of the descriptor at HEAD. -/
def Dev.dmaReceive (d : Dev) (r : Nat) (desc : List Byte) : Dev :=
  let desc := sliceB desc 0 32
  let q := d.get F.FRM_RING_CFG.QUEUE r
  if !d.ringReady r true || !bit (leAt desc 11 1) 0 || (d.qdesc q).cons != 0x1100 + r then d else
  let x := d.qdesc q
  let e := d.vbytes (x.entryAddr x.head) 32
  let bad := d.vbad (leAt e 0 4) (leAt e 4 2)
  let f := d.vbytes (leAt e 0 4) (leAt e 4 2)
  let d := if d.qEnabled q && 0 < x.fill then d.vatTouch (leAt e 0 4) (leAt e 4 2) 4 else d
  match d.qPop q with
  | (d, none) => d
  | (d, some _) =>
    let stamp := leAt e 8 4 + leAt e 12 8 * 2 ^ 32
    let size := leAt desc 8 2
    let n := min size f.length
    let port := some (leAt e 6 1)
    if bad then d.descDone r desc port (some stamp) 0 6
    else
      let d := d.emit (.hostWrite (d.get F.FRM_RING_CFG.FUNC r) (leAt desc 0 8) (f.take n))
      d.descDone r desc port (some stamp) n (if size < f.length then 3 else 0)

def execDmaReceive (r : Fin 256) (desc : List Byte) (c : Cycle) (s : State) : StepOut :=
  s.run fun d => ({ d with cycle := c.val }).dmaReceive r desc

/-- R26, R265: a read completion is missing after 50 ms. -/
def Dev.dmaTimeout (d : Dev) (r : Nat) (desc : List Byte) : Dev :=
  if d.ringReady r (d.flag F.FRM_RING_CFG.DIR r) && !d.ringBusy r then
    ((d.setRead r none).descDone r ((d.ringRead r).getD (sliceB desc 0 32)) none none 0 2).waitTimeout 7
  else d

def execDmaReadTimeout (r : Fin 256) (desc : List Byte) (s : State) : StepOut := s.run fun d => d.dmaTimeout r desc

/-- R266: clearing ENABLE aborts the descriptor in progress, its frame waiting or still being read; one that completed in
this cycle is DONE with ABORT_LATE. -/
def Dev.ringDisable (d : Dev) (r : Nat) : Dev :=
  let late := match Tbl.find? d.frm.lastDone r with
    | some (c, a, b) =>
      if c = d.absCycle then d.emit (.hostWrite (d.get F.FRM_RING_CFG.FUNC r) a (replaceAt b 30 [BitVec.ofNat 8 0x80])) else d
    | none => d
  let d := match d.frm.txs.find? fun x => x.ring == some r with
    | some x => (d.txDrop x).descDone r x.desc none none 0 4
    | none =>
      match d.ringRead r with
      | some desc => (d.setRead r none).descDone r desc none none 0 4
      | none => late
  d.put F.FRM_RING_CFG.ENABLE 0 r

def execRingDisable (p : Path) (r : Fin 256) (c : Cycle) (s : State) : StepOut :=
  s.runBy p (R.FRM_RING_CFG.off r) fun d => ({ d with cycle := c.val }).ringDisable r

end Sys2Proof.Machine
end

