-- ==== Sys2Proof/Machine/LinkCode.lean ====
section
/-! DEFINITION. The coding of a Keanmar link (R269, R270): the scrambler, control blocks, and the blocks of a tick frame
and of a bulk burst. -/

namespace Sys2Proof.Machine

/-- R269: 64 payload bits through the scrambler x^58 + x^39 + 1 with the last 58 bits sent, the oldest at bit 0: the bits
sent and the last 58 after them. -/
def scramble (s : BitVec 58) (p : BitVec 64) : BitVec 64 × BitVec 58 :=
  let low : BitVec 39 := p.setWidth 39 ^^^ (s >>> 19).setWidth 39 ^^^ s.setWidth 39
  let w : BitVec 97 := low ++ s
  let high : BitVec 25 := (p >>> 39).setWidth 25 ^^^ (w >>> 58).setWidth 25 ^^^ (w >>> 39).setWidth 25
  let r : BitVec 64 := high ++ low
  (r, (r >>> 6).setWidth 58)

/-- R269: 64 received bits through the descrambler with the last 58 bits received. -/
def descramble (s : BitVec 58) (r : BitVec 64) : BitVec 64 × BitVec 58 :=
  let w : BitVec 122 := r ++ s
  (r ^^^ (w >>> 19).setWidth 64 ^^^ w.setWidth 64, (r >>> 6).setWidth 58)

/-- A block as it is before scrambling or after descrambling: control or data, and its 8 bytes. -/
structure LinkBlock where
  control : Bool
  data : List Byte
  deriving DecidableEq, Repr, Inhabited

/-- Table Control block types. -/
def blockIdle : Nat := 0x1E
def blockSync : Nat := 0x78
def blockEnd : Nat := 0x87
def blockBulk : Nat := 0x4B

/-- A control block: its type and its bytes 1 to 7. -/
def controlBlock (type : Nat) (l : List Byte) : LinkBlock := ⟨true, leBytes 1 type ++ sliceB l 0 7⟩

/-- A control block of a type. -/
def LinkBlock.isType (b : LinkBlock) (type : Nat) : Bool := b.control && leAt b.data 0 1 == type

/-- Bytes as n data blocks, zero past their end. -/
def dataBlocks (n : Nat) (l : List Byte) : List LinkBlock := (List.range n).map fun i => ⟨false, sliceB l (8 * i) 8⟩

/-- The bytes of data blocks. -/
def blockBytes (l : List LinkBlock) : List Byte := l.flatMap fun b => b.data

/-- R269: a sync header that marks a block: 0b01 a data block, 0b10 a control block. -/
def headValid (h : BitVec 2) : Bool := h == 0b01 || h == 0b10

/-- R269: blocks onto the link. -/
def sendBlocks : BitVec 58 → List LinkBlock → List Block × BitVec 58
  | s, [] => ([], s)
  | s, b :: r =>
    let (p, s) := scramble s (BitVec.ofNat 64 (leAt b.data 0 8))
    let (l, s) := sendBlocks s r
    (⟨if b.control then 0b10 else 0b01, p⟩ :: l, s)

/-- R270: a tick frame of its 8 SYNC bytes and its 440-byte body: SYNC, 55 data blocks, END. -/
def frameBlocks (f : List Byte) : List LinkBlock :=
  ⟨true, sliceB f 0 8⟩ :: dataBlocks 55 (f.drop 8) ++ [controlBlock blockEnd []]

/-- R282: a bulk burst: BULK, its data blocks, and a data block that holds the CRC-32 of the burst's data. -/
def burstBlocks (i : Nat) (l : List Byte) : List LinkBlock :=
  let n := ceilDiv l.length 8
  let b := sliceB l 0 (8 * n)
  controlBlock blockBulk (leBytes 3 i ++ leBytes 1 n) :: dataBlocks n b ++ [⟨false, leBytes 8 (crc32 b)⟩]

/-- A control block of a type that is seen under block lock. -/
def opens (type : Nat) (b : LinkBlock × Bool) : Bool := b.2 && b.1.isType type

/-- R270, R271: the frame that received blocks hold, each with the block lock after it: none where no SYNC came under block lock,
else its 8 SYNC bytes and its body, and whether it is whole: 55 data blocks, END, and block lock throughout. -/
def frameOf (l : List (LinkBlock × Bool)) : Option (List Byte × List Byte × Bool) :=
  match l.dropWhile fun b => !opens blockSync b with
  | [] => none
  | b :: r =>
    let f := r.take 55
    let whole := (b :: r.take 56).all (fun x => x.2) && f.all (fun x => !x.1.control) &&
      (match (r.drop 55).head? with
       | some e => e.1.isType blockEnd
       | none => false)
    some (b.1.data, sliceB (blockBytes (f.map (·.1))) 0 440, whole)

/-- R271: how many of the received blocks come up to a frame's END. -/
def frameEnd (l : List (LinkBlock × Bool)) : Nat := (l.takeWhile fun b => !opens blockSync b).length + 57

/-- R282: the bulk burst that received blocks hold, each with the block lock after it: its index, its data, and whether it is
whole and its CRC-32 right. -/
def burstOf (l : List (LinkBlock × Bool)) : Option (Nat × List Byte × Bool) :=
  match l.dropWhile fun b => !opens blockBulk b with
  | [] => none
  | b :: r =>
    let n := leAt b.1.data 4 1
    let f := (r.take n).map (·.1)
    let whole := decide (1 ≤ n ∧ n ≤ 64) && decide (n < r.length) && (r.take (n + 1)).all fun x => x.2 && !x.1.control
    let crc := match (r.drop n).head? with
      | some e => leAt e.1.data 0 4
      | none => 0
    some (leAt b.1.data 1 3, blockBytes f, whole && crc == crc32 (blockBytes f))

end Sys2Proof.Machine
end

