-- ==== Sys2Proof/Machine/Watermark.lean ====
section
/-! DEFINITION. The configuration watermark (R283). -/

namespace Sys2Proof.Machine

/-- R283: registers that hold no field that counts although it is RW or RWL. -/
def uncounted : List Reg := [R.SYN_BM_DATA, R.OUT_FINE, R.OUT_COARSE, R.SEL_RWD_FROM_LO, R.SEL_RWD_FROM_HI, R.KL_LINK_ASYM]

/-- R283: the bits of a register that count. -/
def countMask (x : Site) : Nat :=
  if x.reg.kind == .path || uncounted.any (fun r => r.base == x.reg.base) then 0
  else
    let m := maskOf x.fields fun f => f.acc == .rw || f.acc == .rwl
    if x.reg.base = R.KL_CFG.base then m &&& (2 ^ 32 - 1 - 0xF07) else m

/-- R283: the indices of a register that a select register indexes: the select register's value and the copy's
number, indices ascending. -/
def selIndices (r : Reg) : List (Nat × Nat) :=
  match r.kind with
  | .sel .task => (List.range 16).flatMap fun s => (List.range 512).map fun e => (512 * s + e, 16 * e + s)
  | .sel .ctx => (List.range 4096).map fun i => (i, i)
  | .sel .pool => (List.range 16).map fun i => (i, i)
  | .sel .rgn => (List.range 26).map fun i => (i, i)
  | .sel .lb => (List.range 5).flatMap fun k =>
      (List.range ([40, 72, 8, 8, 4].getD k 0)).map fun i => (256 * k + i, 128 * k + i)
  | _ => []

/-- The offsets of a group with their sites; HOST_VF_APT begins at index 1. -/
def groupSites (e : Reg × List FieldSpec) : List (Nat × Site) :=
  ((List.range e.1.count).drop (if e.1.base = R.HOST_VF_APT.base then 1 else 0)).flatMap fun n => (List.range e.1.count2).map fun k =>
    (e.1.base + e.1.stride * n + e.1.stride2 * k, ⟨e.1, n, k, e.2⟩)

/-- R283: every register with a field that counts, offsets ascending. -/
def countSites : List (Nat × Site) :=
  ((RegSpec.all.flatMap groupSites).filter fun p => countMask p.2 != 0).mergeSort fun a b => decide (a.1 ≤ b.1)

/-- The value of a register's copy; TDC_CH_DIV of an input channel reads the input's prescaler. -/
def Dev.shownWord (v : Dev) (x : Site) (i : Nat) : Nat :=
  if x.reg.base = R.TDC_CH_DIV.base ∧ i < 40 then v.get F.IN_PRESCALE.DIV i else v.rd x.own i

/-- The entries that a register contributes. -/
def Dev.wmEntry (v : Dev) (off : Nat) (x : Site) : List Byte :=
  let m := countMask x
  match x.reg.kind with
  | .sel _ => (selIndices x.reg).flatMap fun i =>
      leBytes 4 off ++ leBytes 4 i.1 ++ leBytes 4 (v.shownWord x i.2 &&& m)
  | _ => leBytes 4 off ++ leBytes 4 (v.shownWord x x.n &&& m)

/-- R283: the watermark of the configuration in force of a device. -/
def Dev.watermark (v : Dev) : Nat :=
  let scope := v.get F.KL_WM_SCOPE.BLOCKS
  let regs := countSites.flatMap fun p => if bit scope (p.1 / 2 ^ 20 - 0x80) then v.wmEntry p.1 p.2 else []
  let tabs := (List.range 1024).flatMap fun t => match v.table t with
    | some b => leBytes 2 t ++ leBytes 4 b.length ++ b
    | none => []
  crc64 (leBytes 2 v.boot.imageId ++ regs ++ tabs)

/-- R283: the configuration of the staged watermark: staged RWL fields and tables, all else in force. -/
def Dev.stagedView (d : Dev) : Dev :=
  Dev.tableSwap d { d with regs := mergeTbl FieldSpec.locked d.regs d.staged }

end Sys2Proof.Machine
end

