-- ==== Sys2Proof/Machine/Links.lean ====
section
/-! DEFINITION. Keanmar links: tick frames, delay and offset, the swap procedure, remote references and loops, lead,
joining and failover, bulk bursts (R268-R282, R285). -/

namespace Sys2Proof.Machine

def Dev.klink (d : Dev) (k : Nat) : KlLink := Tbl.getD d.kl.links k KlLink.reset
def Dev.setKlink (d : Dev) (k : Nat) (x : KlLink) : Dev := { d with kl := { d.kl with links := Tbl.set d.kl.links k x } }

/-- STATE of a link: 0 DOWN, 1 LOCK, 2 ALIGN, 3 UP. -/
def Dev.linkState (d : Dev) (k : Nat) : Nat := d.get F.KL_LINK_STAT.STATE k
def Dev.linkUp (d : Dev) (k : Nat) : Bool := d.linkState k == 3 && !d.klLooped k

/-- ROLE: 0 STANDALONE, 1 LEAD, 2 FOLLOWER, 3 SPLIT. -/
def Dev.role (d : Dev) : Nat := d.get F.KL_GROUP_STAT.ROLE

/-- R279: a device with GROUP set waits to join; its TICK_COUNT does not run. -/
def Dev.joining (d : Dev) : Bool := d.flag F.KL_CFG.GROUP && d.role == 0

/-! ## What a received frame shows (R270) -/

def klDev (x : KlLink) : Nat := leAt x.sync 1 1 % 8
def klLead (x : KlLink) : Bool := bit (leAt x.sync 1 1) 6
def klTick (x : KlLink) : Nat := leAt x.sync 2 4
def klHops (x : KlLink) : Nat := leAt x.body 20 1 % 16
def klDirect (x : KlLink) : Bool := bit (leAt x.body 20 1) 4

/-- The links whose last good frame arrived in a tick. -/
def Dev.framesOf (d : Dev) (t : Nat) : List Nat := (List.range 8).filter fun k => (d.klink k).rxTick == some t && !d.klLooped k

/-! ## What a tick frame holds (R270, R274, R276) -/

/-- A T96 time as the 8 bytes of TX_T and ECHO_T: fraction, S32. -/
def klStamp (t : Nat) : List Byte := leBytes 8 (t % 2 ^ 64)

/-- R274: export record j; `tx` is TX_T. -/
def Dev.exportRecord (d : Dev) (tx j : Nat) : List Byte :=
  let n := d.get F.KL_EXPORT.SRC j
  let v := d.flag F.KL_EXPORT.VALID j
  if !v || 40 ≤ n then leBytes 16 (n % 64) else
  let st := if d.tdcMode n = 4 then d.stampIn n (d.time.prev / 2 ^ 16) (d.time.lt / 2 ^ 16) else none
  let phase := match st with
    | some s => (s.time : Int) - tx
    | none => 0
  leBytes 1 (n + 128) ++ leBytes 1 (d.inState n + 16 * (d.effQl n % 16)) ++
  leBytes 1 (b2n st.isSome + 2 * b2n (d.mon n).susValid) ++ leBytes 1 0 ++ leBytes 4 (d.susTick n % 2 ^ 32) ++
  leBytes 8 (ofSigned 64 phase)

/-- R276: loop export record j. -/
def Dev.loopRecord (d : Dev) (j : Nat) : List Byte :=
  let l := d.get F.KL_LEXPORT.SRC j
  let v := d.flag F.KL_LEXPORT.VALID j
  if !v || 32 ≤ l then leBytes 8 (l % 64) else
  leBytes 1 (l + 128) ++ leBytes 1 (d.get F.LOOP_STATE.STATE l) ++ leBytes 6 (ofSigned 48 (d.loop l).applied)

/-- R280: the sender received a good frame from the lead in the previous tick. -/
def Dev.leadDirect (d : Dev) : Bool :=
  d.role == 2 && (d.framesOf (d.tick - 1)).any fun k =>
    klLead (d.klink k) && klDev (d.klink k) == d.get F.KL_GROUP_STAT.LEAD

/-- R278: the newest TLOOP word of the group, TAPPLY first. -/
def Dev.klTword (d : Dev) : Nat × Int := (d.kl.tqueue.getLast?).getD (d.tick % 2 ^ 16, d.kl.tword)

/-- R270: bytes 0-435 of the body for link k with the transmit stamp `tx`. -/
def Dev.klBody (d : Dev) (k tx : Nat) : List Byte :=
  let x := d.klink k
  let armed := d.get F.KL_STAGE_STAT.STATE == 2
  let hops := if d.role = 1 then 0 else if d.role = 2 then d.get F.KL_GROUP_STAT.HOPS else 15
  let up := d.role == 2 && d.get F.KL_GROUP_STAT.UPSTREAM == k
  let (tapply, tword) := d.klTword
  klStamp tx ++ klStamp x.rxStamp ++ leBytes 4 (klTick x) ++
  leBytes 1 (hops + 16 * b2n d.leadDirect + 32 * b2n up) ++
  leBytes 1 (d.get F.KL_GROUP_STAT.LEAD + 8 * d.get F.KL_GROUP_STAT.NEXT + 64 * d.get F.KL_GROUP_STAT.NEXT_VALID) ++
  leBytes 1 (d.get F.KL_GROUP_STAT.LEPOCH) ++ leBytes 1 (d.get F.KL_CFG.PRIO) ++
  leBytes 12 (d.time.lt / 2 ^ 16) ++ leBytes 6 (ofSigned 48 tword) ++ leBytes 2 tapply ++
  leBytes 8 d.watermark ++ leBytes 2 (d.get F.KL_GEN.GEN) ++
  leBytes 1 (b2n armed) ++ leBytes 1 0 ++
  leBytes 4 (if armed then d.get F.KL_STAGE_TICK_LO.TICK else 0) ++
  leBytes 8 (if armed then d.get64 F.KL_SWM_LO.VALUE F.KL_SWM_HI.VALUE else 0) ++
  leBytes 8 (d.groupsActive 3 + d.groupsActive 2 * 2 ^ 16 + d.groupsActive 1 * 2 ^ 32 + d.groupsActive 0 * 2 ^ 48) ++
  leBytes 4 0 ++ (List.range 8).flatMap (fun i => leBytes 4 (d.get F.KL_MBOX.DATA i)) ++
  (List.range 16).flatMap (d.exportRecord tx) ++ (List.range 8).flatMap d.loopRecord ++ leBytes 4 0

/-- R100: a stamp record that a frame exports reads poisoned. -/
def Dev.exportBad (d : Dev) : Bool :=
  (List.range 16).any fun j =>
    let n := d.get F.KL_EXPORT.SRC j
    d.flag F.KL_EXPORT.VALID j && n < 40 && d.chanGives n && 0 < d.stampsHeld n && d.vbad (d.stampAddr n 0) 16

/-- R97, R100: the exported stamp records are read; a poisoned one is recorded. -/
def Dev.exportTouch (d : Dev) : Dev :=
  (List.range 16).foldl (fun d j =>
    let n := d.get F.KL_EXPORT.SRC j
    if d.flag F.KL_EXPORT.VALID j && n < 40 && d.chanGives n && 0 < d.stampsHeld n then d.vatTouch (d.stampAddr n 0) 16 4
    else d) d

/-- R270: the tick frame of link k: SYNC and body with its CRC, inverted where a word read poisoned (R100). -/
def Dev.klFrame (d : Dev) (k tx : Nat) : List Byte :=
  let b := d.klBody k tx
  let c := if d.exportBad then crc32 b ^^^ 0xFFFFFFFF else crc32 b
  leBytes 1 blockSync ++ leBytes 1 (d.get F.KL_CFG.DEV + 8 * k + 64 * b2n (d.role == 1)) ++ leBytes 4 d.tick32 ++
  leBytes 2 (d.klink k).count ++ b ++ leBytes 4 c

/-- R282: the burst that a lead sends next on link k, before the frame of the present tick, and the link after it: one that the
peer has named bad first. -/
def Dev.burstNext (d : Dev) (k : Nat) : Option Nat × KlLink :=
  let x := d.klink k
  match d.role, x.serve with
  | 1, some n =>
    match x.again with
    | i :: r => (some i, { x with again := r, resent := some (i, d.tick) })
    | [] => if 512 * n < d.kl.served.length then (some n, { x with serve := some (n + 1) }) else (none, x)
  | _, _ => (none, x)

/-- R269, R271: the blocks of one tick between two frames: a bulk burst if a boot transfer uses the link, and IDLE. A tick
has 156 blocks of 6.4 ns and a quarter: every fourth has one more (DEDUCED, log entry 101), so at least 8 IDLE come before
SYNC. -/
def Dev.linkFill (d : Dev) (burst : Option Nat) (frame : Nat) : List LinkBlock :=
  let b := match burst with
    | some i => burstBlocks i ((d.kl.served.drop (512 * i)).take 512)
    | none => []
  b ++ List.replicate (156 + b2n (d.tick % 4 == 0) - frame - b.length) (controlBlock blockIdle [])

/-- R269-R271: what link k sends up to the end of the tick's frame: fill, and the frame `f` where it has block lock; and the
link after it. -/
def Dev.linkPlan (d : Dev) (k : Nat) (f : Option (List Byte)) : List LinkBlock × KlLink :=
  let (burst, x) := if f.isSome then d.burstNext k else (none, d.klink k)
  let frame := (f.map frameBlocks).getD []
  (d.linkFill burst frame.length ++ frame, x)

/-- R269: blocks leave on the pins of link k. -/
def Dev.linkEmit (d : Dev) (k : Nat) (l : List LinkBlock) : Dev :=
  let (w, s) := sendBlocks (d.klink k).txScr l
  (d.setKlink k { d.klink k with txScr := s }).emit (.blocks k w)

/-! ## Receiving (R271-R276) -/

/-- Signed difference of two 64-bit times. -/
def klDiff (a b : Nat) : Int := wrapDiff 64 (a % 2 ^ 64) (b % 2 ^ 64)

/-- R272: twice the delay and twice the offset of the last frame, before ASYM. A device that waits to join sends every frame with
TICK 0 (R279): of the frames that the echo may name, it takes the one of the least delay (DEDUCED, log entry 112). -/
def Dev.klSample (d : Dev) (k : Nat) : Option (Int × Int) :=
  let x := d.klink k
  let l := (x.txs.filter fun p => p.1 == leAt x.body 16 4).map fun p =>
    let a := klDiff x.rxStamp (leAt x.body 0 8)
    let b := klDiff (leAt x.body 8 8) p.2
    (a + b, a - b)
  l.foldl (fun (m : Option (Int × Int)) v => match m with
    | none => some v
    | some w => if v.1.natAbs < w.1.natAbs then some v else some w) none

/-- R272: the means of the last 2^DAVG good frames. -/
def Dev.klMeasure (d : Dev) (k : Nat) : Dev :=
  match d.klSample k with
  | none => d
  | some v =>
    let x := d.klink k
    let l := (v :: x.samples).take 256
    let n := l.take (2 ^ d.get F.KL_LINK_CFG.DAVG k)
    let m := 2 * n.length * 2 ^ 16
    let delay := roundDiv ((n.map (·.1)).foldl (· + ·) 0) (max 1 m)
    let asym := d.gets F.KL_LINK_ASYM.VALUE k
    let raw := roundDiv ((n.map (·.2)).foldl (· + ·) 0) (max 1 m)
    let cal := d.get F.KL_LINK_STAT.CAL k
    let one := roundDiv v.2 (2 * 2 ^ 16) - asym
    let x := { x with
      samples := l
      calSum := if cal = 1 ∨ cal = 2 then x.calSum + one else x.calSum
      calN := if cal = 1 ∨ cal = 2 then x.calN + 1 else x.calN }
    ((d.setKlink k x).put F.KL_LINK_DELAY.VALUE (ofSigned 32 (satSigned 32 delay)) k).put F.KL_LINK_OFFSET.VALUE
      (ofSigned 32 (satSigned 32 (raw - asym))) k

/-- R274, R275: remote reference i from the last frame of its link. The manual gives its ring no size: the model keeps
the last 64 stamps (DESIGN CHOICE, log entry 104). -/
def Dev.rrefReceive (d : Dev) (k i : Nat) : Dev :=
  if !d.flag F.KL_RREF.VALID i || d.get F.KL_RREF.LINK i != k then d else
  let x := d.klink k
  let r := sliceB x.body (112 + 16 * d.get F.KL_RREF.SLOT i) 16
  let ring := (Tbl.getD d.rrefs i RRef.reset).ring
  let y : RRef :=
    if klDev x != d.get F.KL_RREF.DEV i || !bit (leAt r 0 1) 7 then { RRef.reset with ring := ring }
    else
      let back := (d.gets F.KL_LINK_DELAY.VALUE k + d.gets F.KL_LINK_ASYM.VALUE k) * 2 ^ 16
      let t := if bit (leAt r 2 1) 0 then some ((x.rxStamp : Int) - back + toSigned 64 (leAt r 8 8)).toNat else none
      ⟨leAt r 1 1 % 8, leAt r 1 1 / 16, leAt r 4 4, bit (leAt r 2 1) 1, t,
        (match t with
         | some v => (v :: ring).take 64
         | none => ring), some d.tick⟩
  { d with rrefs := Tbl.set d.rrefs i y }

/-- R276: remote loop binding m from the last frame of its link. -/
def Dev.rloopReceive (d : Dev) (k m : Nat) : Dev :=
  let x := d.klink k
  let r := sliceB x.body (368 + 8 * d.get F.KL_RLOOP.SLOT m) 8
  if d.flag F.KL_RLOOP.VALID m && d.get F.KL_RLOOP.LINK m == k && klDev x == d.get F.KL_RLOOP.DEV m && bit (leAt r 0 1) 7
  then { d with rwords := Tbl.set d.rwords m (toSigned 48 (leAt r 2 6)) } else d

/-- R278, R280: what a follower takes from a frame of the lead's epoch. -/
def Dev.epochReceive (d : Dev) (k : Nat) : Dev :=
  let b := (d.klink k).body
  if d.role != 2 || klHops (d.klink k) == 15 then d else
  let ep := leAt b 22 1
  let d := if later 8 ep (d.get F.KL_GROUP_STAT.LEPOCH) then
      (d.put F.KL_GROUP_STAT.LEPOCH ep).put F.KL_GROUP_STAT.LEAD (leAt b 21 1 % 8) else d
  if ep ≠ d.get F.KL_GROUP_STAT.LEPOCH then d else
  let d := (d.put F.KL_GROUP_STAT.NEXT (leAt b 21 1 / 8 % 8)).put F.KL_GROUP_STAT.NEXT_VALID (leAt b 21 1 / 64 % 2)
  let w := (leAt b 42 2, toSigned 48 (leAt b 36 6))
  let q := if d.kl.tqueue.contains w then d.kl.tqueue else (d.kl.tqueue.filter fun e => e.1 != w.1) ++ [w]
  { d with kl := { d.kl with lastLead := d.tick, tqueue := q } }

/-- R285: link k does not differ, or is not UP. -/
def Dev.wmAgree (d : Dev) (k : Nat) : Dev :=
  let m := d.get F.KL_GEN.MISMATCH
  (d.put F.KL_GEN.MISMATCH (if bit m k then m - 2 ^ k else m)).levelOff 227 k

/-- R285: the frame's watermark and generation against the device's own, on a link that is UP. -/
def Dev.wmReceive (d : Dev) (k : Nat) : Dev :=
  let x := d.klink k
  let same := leAt x.body 44 8 == d.watermark && leAt x.body 52 2 == d.get F.KL_GEN.GEN
  if same then (d.setKlink k { x with mism := 0 }).wmAgree k
  else d.setKlink k { x with mism := if d.linkUp k then x.mism + 1 else 0 }

/-- R282: burst i is sent again: not while it waits for that, nor before the peer's frame can answer the last time. -/
def KlLink.askAgain (x : KlLink) (i : Nat) : KlLink :=
  let answered := match x.resent with
    | some (j, t) => j != i || later 32 (klTick x) (t % 2 ^ 32)
    | none => true
  if x.again.contains i || !answered then x else { x with again := x.again ++ [i] }

/-- R282: the peer's mailbox: a lead takes a new BOOT request, or the name of a bad burst, in the forms of log entry 2. -/
def Dev.mboxReceive (d : Dev) (k : Nat) : Dev :=
  let x := d.klink k
  let m := sliceB x.body 80 32
  let w := BitVec.ofNat 256 (leAt m 0 32)
  let fresh := decide (m ≠ x.mbox)
  let x := { x with mbox := m }
  d.setKlink k (
    if d.role ≠ 1 then x
    else if w = Config.bootRequest then if fresh then { x with serve := some 0, again := [], resent := none } else x
    else match x.serve with
      | none => x
      | some n => match (List.range n).find? fun i => Config.badBurst (BitVec.ofNat 24 i) == w with
        | some i => x.askAgain i
        | none => x)

/-- R270, R11: the link frame count of a good frame against that of the one before. -/
def KlLink.counted (x : KlLink) (count : Nat) : KlLink :=
  { x with rxCount := some count, gap := (x.rxCount.map fun c => wrapDiff 16 count c).getD 0 }

/-- R271: a good frame. -/
def Dev.frameGood (d : Dev) (k : Nat) (sync body : List Byte) : Dev :=
  let x := d.klink k
  let d := d.setKlink k { x with
    sync := sync, body := body, rxTick := some d.tick
    -- R357, R359: in loop-back at D3 and D4 the egress stamp is the ingress stamp
    rxStamp := if d.klLooped k then d.t96 else (d.tdc (128 + k)).stamp, good := x.good + 1, missed := 0,
    seen := true }
  let d := d.setKlink k ((d.klink k).counted (leAt sync 6 2))
  let x := d.klink k
  let d := if d.linkState k = 1 then d.put F.KL_LINK_STAT.STATE 2 k else d
  let d := (d.put F.KL_LINK_STAT.PEER (klDev x) k).put F.KL_LINK_STAT.PEER_HOPS (klHops x) k
  let d := d.vatStore (d.get F.KL_RX_BASE.BASE * 512 + 512 * k) body
  let h := (leAt body 23 1 % 16, klDev x)
  let d := if d.klLooped k then d else { d with kl := { d.kl with
    heard := if d.kl.heard.contains h then d.kl.heard else d.kl.heard ++ [h]
    wait := if klHops x < 15 then 0 else d.kl.wait } }
  let d := d.klMeasure k
  let d := (List.range 16).foldl (fun d i => d.rrefReceive k i) d
  let d := (List.range 8).foldl (fun d m => d.rloopReceive k m) d
  if d.klLooped k then d else ((d.epochReceive k).wmReceive k).mboxReceive k

/-- R271: a missed frame; R285: consecutive ticks with another watermark end with it. -/
def Dev.frameMissed (d : Dev) (k : Nat) : Dev :=
  let x := d.klink k
  d.setKlink k { x with good := 0, missed := x.missed + 1, seen := true, mism := 0 }

/-! ## Blocks received (R269) -/

/-- R269: a block enters the descrambler, and its header counts. -/
def KlLink.take (x : KlLink) (b : Block) : KlLink × LinkBlock :=
  let (p, s) := descramble x.rxScr b.payload
  let good := headValid b.head
  ({ x with
      rxScr := s, run := if good then min 64 (x.run + 1) else 0
      heads := x.heads <<< 1 ||| (if good then 0 else 1) },
    ⟨b.head == 0b10, leBytes 8 p.toNat⟩)

/-- R269: 64 consecutive valid headers: block lock is gained. -/
def Dev.lockGained (d : Dev) (k : Nat) : Dev :=
  let d := d.setKlink k { d.klink k with lock := true, heads := 0 }
  if d.linkState k = 0 then d.put F.KL_LINK_STAT.STATE 1 k else d

/-- R269: 16 invalid headers within 64: block lock is lost. A frame in progress then counts as missed (R271): it has no whole
frame, and where no SYNC came before, none is seen in the tick. -/
def Dev.lockLost (d : Dev) (k : Nat) : Dev :=
  let d := d.setKlink k { d.klink k with lock := false, run := 0 }
  if d.linkState k = 1 then d.put F.KL_LINK_STAT.STATE 0 k else d

/-- R269: one block on link k; the 64 headers of a loss are the last 64 (DEDUCED, log entry 101). -/
def Dev.blockTake (d : Dev) (k : Nat) (b : Block) : Dev × LinkBlock :=
  let held := (d.klink k).lock
  let (x, v) := (d.klink k).take b
  let d := d.setKlink k x
  (if !held && x.run == 64 then d.lockGained k
   else if held && 16 ≤ (List.range 64).countP (fun i => x.heads.getLsbD i) then d.lockLost k
   else d, v)

/-- Blocks on link k: each with the block lock after it. -/
def Dev.blocksTake (k : Nat) : Dev → List Block → Dev × List (LinkBlock × Bool)
  | d, [] => (d, [])
  | d, b :: r =>
    let (d, v) := d.blockTake k b
    let held := (d.klink k).lock
    let (d, l) := Dev.blocksTake k d r
    (d, (v, held) :: l)

/-- A link that is on receives from its pins; in loop-back its receive side is joined to its own transmit side (R357). -/
def Dev.linkHears (d : Dev) (k : Nat) : Bool := d.flag F.KL_LINK_CFG.ENABLE k && (d.loopDepth 3 k).isNone

/-- R270, R271: a frame on link k has ended. -/
def Dev.frameJudge (d : Dev) (k : Nat) (sync body : List Byte) (whole : Bool) : Dev :=
  if d.linkState k = 0 then d
  else if !whole then d.frameMissed k
  else if leAt body 436 4 ≠ crc32 (body.take 436) then (d.frameMissed k).fault 230
  else d.frameGood k sync body

/-- R270, R271: blocks that hold a frame reach the receive side of link k; the frame is judged at its END. -/
def Dev.frameBlocksTake (d : Dev) (k : Nat) (l : List Block) : Dev :=
  let (d', v) := Dev.blocksTake k d l
  match frameOf v with
  | none => d'
  | some (sync, body, whole) =>
    let n := frameEnd v
    (Dev.blocksTake k ((Dev.blocksTake k d (l.take n)).1.frameJudge k sync body whole) (l.drop n)).1

/-- TICK_FRAME_RECEIVE: blocks arrive on link k, with a frame among them. -/
def Dev.tickFrameReceive (d : Dev) (k : Nat) (l : List Block) : Dev :=
  if d.linkHears k then d.frameBlocksTake k l else d

def execTickFrameReceive (k : Fin 8) (fill frame rest : List Block) (s : State) : StepOut :=
  s.run fun d => d.tickFrameReceive k (fill ++ frame ++ rest)

/-! ## Sending a tick's frame, and loop-backs (R270, R357-R359) -/

/-- R357-R359: link k sends a tick's blocks, with the frame `f` where it has block lock. In loop-back they come back to it: at D1 and
D2 as blocks, at D3 and D4 as the frame, whose body D4 does not check. From D2 on its pins carry IDLE. -/
def Dev.linkSend (d : Dev) (k : Nat) (f : Option (List Byte)) : Dev :=
  let (l, x) := d.linkPlan k f
  let d := d.setKlink k x
  let idle := d.linkFill none 0
  match d.loopDepth 3 k with
  | none => d.linkEmit k l
  | some 0 => (d.linkEmit k l).frameBlocksTake k (sendBlocks x.rxScr l).1
  | some 1 => (d.linkEmit k idle).frameBlocksTake k (sendBlocks x.rxScr l).1
  | some n =>
    let d := d.linkEmit k idle
    match f with
    | none => d
    | some f =>
      if n = 2 then d.frameJudge k (f.take 8) (f.drop 8) true else d.frameGood k (f.take 8) (f.drop 8)

/-- R270, R312: a frame leaves on every link with block lock, at cycle 64; a link without it sends IDLE blocks. -/
def Dev.tickFrameSend (d : Dev) : Dev :=
  if d.stopped ∨ d.boot.low ∨ d.boot.halted then d else
  let d := ({ d with cycle := 64 } : Dev).exportTouch
  let tx := d.t96
  (List.range 8).foldl (fun d k =>
    if !d.flag F.KL_LINK_CFG.ENABLE k then d
    else if d.linkState k = 0 then d.linkSend k none
    else
      let d := d.linkSend k (some (d.klFrame k tx))
      let x := d.klink k
      d.setKlink k { x with count := (x.count + 1) % 2 ^ 16, txs := ((d.tick32, tx) :: x.txs).take 64 }) d

def execTickFrameSend (s : State) : StepOut := s.run fun d => d.tickFrameSend

/-! ## Link states (R269, R271) -/

/-- R271: 16 consecutive good frames bring a link UP. -/
def Dev.linkUpNow (d : Dev) (k : Nat) : Dev :=
  let x := d.klink k
  if d.linkState k = 2 ∧ x.lock ∧ 16 ≤ x.good then (d.put F.KL_LINK_STAT.STATE 3 k).setKlink k { x with newUp := true } else d

/-- R273: the swap procedure of a link that goes DOWN has failed. -/
def Dev.calFail (d : Dev) (k : Nat) : Dev :=
  let c := d.get F.KL_LINK_STAT.CAL k
  if c = 1 ∨ c = 2 then (d.put F.KL_LINK_STAT.CAL 4 k).fault 229 else d

/-- The references of a link that is DOWN read ABSENT. -/
def Dev.rrefsLost (d : Dev) (k : Nat) : Dev :=
  (List.range 16).foldl (fun d i =>
    if d.flag F.KL_RREF.VALID i && d.get F.KL_RREF.LINK i == k then { d with rrefs := Tbl.del d.rrefs i } else d) d

/-- R271, R26: 3 consecutive missed frames take a link DOWN. -/
def Dev.linkDownNow (d : Dev) (k : Nat) : Dev :=
  let x := d.klink k
  if d.linkState k ≠ 0 ∧ 3 ≤ x.missed then
    let d := (d.put F.KL_LINK_STAT.STATE 0 k).setKlink k { x with good := 0, missed := 0, lock := false, mism := 0 }
    ((((d.wmAgree k).calFail k).rrefsLost k).fault 224 k).waitTimeout 5
  else d

def execLinkUp (k : Fin 8) (s : State) : StepOut := s.run fun d => d.linkUpNow k
def execLinkDown (k : Fin 8) (s : State) : StepOut := s.run fun d => d.linkDownNow k

/-- R269: the blocks that arrive on link k without a frame. -/
def Dev.blocksReceive (d : Dev) (k : Nat) (l : List Block) : Dev :=
  if d.linkHears k then (Dev.blocksTake k d l).1 else d

/-- R269: BLOCK_LOCK_GAINED: the blocks up to the one at which block lock is gained. -/
def execBlockLockGained (x : LinkIn) (s : State) : StepOut := s.run fun d => d.blocksReceive x.link x.blocks

/-- R269, R271: BLOCK_LOCK_LOST: the blocks up to the one at which block lock is lost. -/
def execBlockLockLost (x : LinkIn) (s : State) : StepOut := s.run fun d => d.blocksReceive x.link x.blocks

/-- R269-R271: a link at a boundary: a frame that did not come is missed; ENABLE off takes the link down. -/
def Dev.linkBoundary (d : Dev) (k : Nat) : Dev :=
  if !d.flag F.KL_LINK_CFG.ENABLE k then
    if d.linkState k = 0 then d
    else (((d.put F.KL_LINK_STAT.STATE 0 k).setKlink k { KlLink.reset with count := (d.klink k).count }).wmAgree k).calFail k |>.rrefsLost k
  else if d.klLooped k then
    -- R359: UP, with its own DEV as PEER
    (d.put F.KL_LINK_STAT.STATE 3 k).put F.KL_LINK_STAT.PEER (d.get F.KL_CFG.DEV) k
  else
    let d := if 2 ≤ d.linkState k ∧ !(d.klink k).seen then d.frameMissed k else d
    let d := d.setKlink k { d.klink k with seen := false }
    (d.linkUpNow k).linkDownNow k

/-! ## The swap procedure (R273) -/

/-- R273, R29: S of a CAL command: the tick whose low 30 bits are given, at least 16 ticks ahead. R29 gives 32-bit ticks
only: the model takes the tick ahead within half of 2^30, and refuses the others (DESIGN CHOICE, log entry 95). -/
def Dev.calTick (d : Dev) (s30 : Nat) : Option Nat :=
  let ahead := (s30 + 2 ^ 30 - d.tick % 2 ^ 30) % 2 ^ 30
  if 16 ≤ ahead ∧ ahead < 2 ^ 29 then some (d.tick + ahead) else none

def Dev.linkCalCmd (d : Dev) (p : Path) (k s30 : Nat) : Dev :=
  match d.calTick s30 with
  | none => d.refuse p.code (R.KL_LINK_CMD.off k) .range
  | some t => d.setKlink k { d.klink k with cmdCal := some t }

def Dev.linkAbortCmd (d : Dev) (k : Nat) : Dev := d.setKlink k { d.klink k with cmdAbort := true }

/-- R273: the mean offset of a part. -/
def calMean (x : KlLink) : Int := roundDiv x.calSum (max 1 x.calN)

/-- R273: S has come: the normal part begins. -/
def Dev.calBegin (d : Dev) (k : Nat) : Dev :=
  (d.put F.KL_LINK_STAT.CAL 1 k).setKlink k { d.klink k with calSum := 0, calN := 0 }

/-- R273: the pairs are swapped, if S + 1,024 is `t` or has passed. -/
def Dev.calSwap (d : Dev) (k t : Nat) : Dev :=
  let x := d.klink k
  if d.get F.KL_LINK_STAT.CAL k = 1 ∧ x.calS + 1024 ≤ t then
    (d.put F.KL_LINK_STAT.CAL 2 k).setKlink k { x with thetaN := calMean x, calSum := 0, calN := 0 }
  else d

/-- R273: the pairs are restored and ASYM moves, if S + 2,048 is `t` or has passed. -/
def Dev.calEnd (d : Dev) (k t : Nat) : Dev :=
  let x := d.klink k
  if d.get F.KL_LINK_STAT.CAL k = 2 ∧ x.calS + 2048 ≤ t then
    let a := d.gets F.KL_LINK_ASYM.VALUE k + roundDiv (x.thetaN - calMean x) 2
    (d.put F.KL_LINK_ASYM.VALUE (ofSigned 32 (satSigned 32 a)) k).put F.KL_LINK_STAT.CAL 3 k
  else d

/-- R273: the procedure at boundary `d.tick`; an ABORT at S + 2,048 loses. -/
def Dev.calBoundary (d : Dev) (k : Nat) : Dev :=
  let x := d.klink k
  let d := d.setKlink k { x with cmdCal := none, cmdAbort := false, calS := x.cmdCal.getD x.calS }
  let d := if x.cmdCal.isSome then (d.put F.KL_LINK_STAT.CAL 0 k).put F.KL_LINK_STAT.ABORT_LATE 0 k else d
  let c := d.get F.KL_LINK_STAT.CAL k
  let d := if c = 0 ∧ (d.klink k).calS = d.tick ∧ d.linkUp k then d.calBegin k else d
  let d := (d.calSwap k d.tick).calEnd k d.tick
  if x.cmdAbort then
    -- LINK_CAL_END may have closed the run in the tick that has just ended
    if d.get F.KL_LINK_STAT.CAL k = 3 ∧ (d.klink k).calS + 2048 = d.tick then d.put F.KL_LINK_STAT.ABORT_LATE 1 k
    else if (c = 0 ∧ d.tick ≤ (d.klink k).calS) ∨ c = 1 ∨ c = 2 then
      (d.put F.KL_LINK_STAT.CAL 5 k).setKlink k { d.klink k with calS := 0 }
    else d
  else d

def execLinkCal (p : Path) (k : Fin 8) (s30 : BitVec 30) (s : State) : StepOut := s.runBy p (R.KL_LINK_CMD.off k) fun d => d.linkCalCmd p k s30.toNat
def execLinkCalAbort (p : Path) (k : Fin 8) (s : State) : StepOut := s.runBy p (R.KL_LINK_CMD.off k) fun d => d.linkAbortCmd k
def execLinkCalSwap (k : Fin 8) (s : State) : StepOut := s.run fun d => d.calSwap k (d.tick + 1)
def execLinkCalEnd (k : Fin 8) (s : State) : StepOut := s.run fun d => d.calEnd k (d.tick + 1)

/-! ## Lead, joining, failover (R277-R281) -/

/-- R277: the UP link whose last frame shows the lowest HOPS, the lower link number of equals. -/
def Dev.bestUp (d : Dev) : Option Nat :=
  (List.range 8).foldl (fun b k =>
    if d.linkUp k && klHops (d.klink k) < 15 then
      match b with
      | some j => if klHops (d.klink k) < klHops (d.klink j) then some k else b
      | none => some k
    else b) none

/-- R277: the upstream and HOPS of a follower at a boundary. -/
def Dev.upstream (d : Dev) : Dev :=
  if d.role != 2 then d else
  match d.bestUp with
  | some k => (d.put F.KL_GROUP_STAT.UPSTREAM k).put F.KL_GROUP_STAT.HOPS (min 15 (klHops (d.klink k) + 1))
  | none => d

/-- R280: the lead publishes the lowest (PRIO, DEV) among those whose frames show LEAD_DIRECT. -/
def Dev.publishNext (d : Dev) : Dev :=
  if d.role != 1 then d else
  let c := ((d.framesOf (d.tick - 1)).filter fun k => klDirect (d.klink k)).map fun k =>
    leAt (d.klink k).body 23 1 % 16 * 8 + klDev (d.klink k)
  match c.foldl (fun b v => match b with
      | some w => some (min v w)
      | none => some v) none with
  | some v => (d.put F.KL_GROUP_STAT.NEXT (v % 8)).put F.KL_GROUP_STAT.NEXT_VALID 1
  | none => d.put F.KL_GROUP_STAT.NEXT_VALID 0

/-- The device becomes lead. -/
def Dev.becomeLead (d : Dev) : Dev :=
  let d := (d.put F.KL_GROUP_STAT.ROLE 1).put F.KL_GROUP_STAT.LEAD (d.get F.KL_CFG.DEV)
  let d := (d.put F.KL_GROUP_STAT.HOPS 0).incWrap F.KL_GROUP_STAT.LEPOCH
  { d.put F.KL_GROUP_STAT.NEXT_VALID 0 with kl := { d.kl with wait := 0 } }

/-- R279, R222: LEAD_ELECTION: JOIN_WAIT has passed without a lead, and the own (PRIO, DEV) is the lowest heard. TICK_COUNT and
LT start at 0. -/
def Dev.leadElection (d : Dev) : Dev :=
  let own := d.get F.KL_CFG.PRIO * 8 + d.get F.KL_CFG.DEV
  if d.joining ∧ d.get F.KL_CFG.JOIN_WAIT * 1000 ≤ d.kl.wait ∧ d.kl.heard.all (fun h => decide (own ≤ h.1 * 8 + h.2)) then
    { d.becomeLead with tickOn := true, time := Time.reset }
  else d

/-- R279: JOIN: the upstream is UP: TICK_COUNT, LT and LEPOCH come from its frame plus one tick. -/
def Dev.join (d : Dev) : Dev :=
  if !d.joining then d else
  match d.bestUp with
  | none => d
  | some k =>
    let x := d.klink k
    let w := toSigned 48 (leAt x.body 36 6)
    let off := d.gets F.KL_LINK_OFFSET.VALUE k
    let d := { d with
      tick := klTick x + 1, tickOn := true
      time := { d.time with lt := leAt x.body 24 12 * 2 ^ 16 + dltOf w, prev := leAt x.body 24 12 * 2 ^ 16, dlt := dltOf w, dltPrev := dltOf w }
      kl := { d.kl with
        tword := w, tqueue := [], lastLead := klTick x + 1, wait := 0, pll := .steer, adj := if d.kl.phased then 0 else -off
        phased := false } }
    let d := (d.put F.KL_GROUP_STAT.ROLE 2).put F.KL_GROUP_STAT.LEPOCH (leAt x.body 22 1)
    (d.put F.KL_GROUP_STAT.LEAD (leAt x.body 21 1 % 8)).upstream

/-- R279: the upstream of a device that waits to join is UP: it steps its tick phase once, and joins at the next boundary. -/
def Dev.joinStep (d : Dev) : Dev :=
  if !d.joining then d else
  match d.bestUp with
  | none => d
  | some k =>
    if d.kl.phased then d.join
    else { d with kl := { d.kl with phased := true, adj := -(d.gets F.KL_LINK_OFFSET.VALUE k) } }

/-- R280: LEAD_FAILOVER: at a boundary, by the frames of the previous tick. The new lead runs from its XO at the frequency held. -/
def Dev.failover (d : Dev) : Dev :=
  let lead := d.get F.KL_GROUP_STAT.LEAD
  let linkDown := (List.range 8).all fun k => !(d.linkUp k && klDev (d.klink k) == lead)
  let direct := (d.framesOf (d.tick - 1)).any fun k => klDirect (d.klink k)
  if d.role = 2 ∧ d.flag F.KL_GROUP_STAT.NEXT_VALID ∧ d.get F.KL_GROUP_STAT.NEXT = d.get F.KL_CFG.DEV ∧ linkDown ∧ !direct
  then
    let d := d.becomeLead
    ({ d with kl := { d.kl with pll := .xoHeld, adj := 0 } }).fault 225
  else d

/-- R281: SPLIT: no link is UP, or no frame of the lead's epoch came in the last DEPTH + 3 ticks. -/
def Dev.splitNow (d : Dev) : Dev :=
  if d.role = 2 ∧ ((List.range 8).all (fun k => !d.linkUp k) ∨ d.kl.lastLead + d.get F.KL_CFG.DEPTH + 3 < d.tick)
  then (d.put F.KL_GROUP_STAT.ROLE 3).levelOn 226 else d

/-- R281: REJOIN: a link has come UP, its peer's TICK of the previous tick is the device's own, and the offset is within 500 ns. -/
def Dev.rejoin (d : Dev) : Dev :=
  if d.role ≠ 3 then d else
  let t := d.tick - 1
  let ok := (List.range 8).any fun k =>
    d.linkUp k && (d.klink k).newUp && (d.klink k).rxTick == some t && klTick (d.klink k) == t % 2 ^ 32 &&
    klHops (d.klink k) < 15 && decide ((d.gets F.KL_LINK_OFFSET.VALUE k).natAbs ≤ 500 * 2 ^ 16)
  if ok then
    let d := (d.put F.KL_GROUP_STAT.ROLE 2).levelOff 226
    ({ d with kl := { d.kl with lastLead := d.tick, pll := .pullIn } }).upstream
  else d

def execLeadElection (s : State) : StepOut := s.run fun d => d.leadElection
def execJoin (s : State) : StepOut := s.run fun d => d.join
def execLeadFailover (s : State) : StepOut := s.run fun d => d.failover
def execSplit (s : State) : StepOut := s.run fun d => d.splitNow
def execRejoin (s : State) : StepOut := s.run fun d => d.rejoin

/-- R278: the group's TLOOP word at boundary `d.tick`, after the sequencer formed TLOOP's own. -/
def Dev.klWord (d : Dev) : Dev :=
  let r := d.role
  if r != 1 && r != 2 then d else
  let t16 := d.tick % 2 ^ 16
  let q := if r = 1 then d.kl.tqueue ++ [((d.tick + d.get F.KL_CFG.DEPTH) % 2 ^ 16, (d.loop 32).applied)] else d.kl.tqueue
  let live := q.filter fun e => decide (0 < wrapDiff 16 e.1 t16)
  match q.find? fun e => e.1 == t16 with
  | some (_, w) => { d with kl := { d.kl with tword := w, tqueue := live } }
  | none =>
    let d := { d with kl := { d.kl with tqueue := live } }
    if r = 2 then (d.incSat F.LOOP_CNT.MISSED 32).fault 130 32 else d

/-- R277, R273, R280, R281: the system PLL of a follower: it holds while the pairs of its upstream link are swapped, and in
a tick that brought no frame on it; else it steers the offset to 0, after a split by at most 1 ns a tick. -/
def Dev.pllFollow (d : Dev) : Pll × Int :=
  let k := d.get F.KL_GROUP_STAT.UPSTREAM
  let off := d.gets F.KL_LINK_OFFSET.VALUE k
  if d.get F.KL_LINK_STAT.CAL k = 2 ∨ !d.linkUp k ∨ (d.klink k).rxTick ≠ some (d.tick - 1) then
    (if d.kl.pll = .pullIn then .pullIn else .hold, 0)
  else if d.kl.pll = .pullIn ∧ 2 ^ 16 < off.natAbs then (.pullIn, if 0 < off then -(2 ^ 16) else 2 ^ 16)
  else (.steer, -off)

/-- R277, R279, R281: what drives the system clock from this boundary on. -/
def Dev.pllNow (d : Dev) : Pll × Int :=
  match d.role with
  | 2 => d.pllFollow
  | 3 => (.hold, 0)
  | 1 => (if d.kl.pll = .xoHeld then .xoHeld else .xo, 0)
  | _ => if d.joining then (.free, 0) else (.xo, 0)

def Dev.pllBoundary (d : Dev) : Dev := { d with kl := { d.kl with pll := d.pllNow.1, adj := d.pllNow.2 } }

/-- A link that came UP has been considered (R281). -/
def Dev.linksKnown (d : Dev) : Dev :=
  { d with kl := { d.kl with links := d.kl.links.map fun (e : Nat × KlLink) => (e.1, { e.2 with newUp := false }) } }

/-- The group at a boundary: failover, split, rejoining, upstream, successor, system clock. -/
def Dev.groupBoundary (d : Dev) : Dev := d.failover.splitNow.rejoin.linksKnown.upstream.publishNext.pllBoundary

/-! ## Bulk bursts (R282) -/

/-- The mailbox of 32 bytes. -/
def Dev.mailbox (d : Dev) (w : BitVec 256) : Dev :=
  (List.range 8).foldl (fun d i => d.put F.KL_MBOX.DATA (w.toNat / 2 ^ (32 * i) % 2 ^ 32) i) d

/-- R282: the mailbox names the first burst that is bad, or 0 once none is (DESIGN CHOICE, log entry 113). -/
def Dev.badName (d : Dev) : Dev :=
  d.mailbox (match d.kl.badBursts with
    | [] => 0
    | i :: _ => Config.badBurst (BitVec.ofNat 24 i))

/-- R282: a burst has come: a good one is kept; a bad one is named in the mailbox, in a form that the manual does not
give (log entry 2). -/
def Dev.bulkReceive (d : Dev) (index : Nat) (data : List Byte) (good : Bool) : Dev :=
  let l := d.kl.badBursts
  if good then
    let e := { d with kl := { d.kl with bulk := Tbl.set d.kl.bulk index data, badBursts := l.filter (· != index) } }
    if l.contains index then e.badName else e
  else ({ d with kl := { d.kl with badBursts := if l.contains index then l else l ++ [index] } } : Dev).badName

/-- R282: BULK_BURST_RECEIVE: blocks arrive on link k, with a bulk burst among them. -/
def Dev.bulkBurstReceive (d : Dev) (k : Nat) (l : List Block) : Dev :=
  if !d.linkHears k then d else
  let (d, l) := Dev.blocksTake k d l
  match burstOf l with
  | none => d
  | some (i, data, good) => d.bulkReceive i data good

def execBulkBurstReceive (k : Fin 8) (fill burst rest : List Block) (s : State) : StepOut :=
  s.run fun d => d.bulkBurstReceive k (fill ++ burst ++ rest)

/-! ## Watermark mismatch (R285) -/

/-- R285: an UP link has differed for 3 consecutive ticks. -/
def Dev.wmMismatch (d : Dev) (k : Nat) : Dev :=
  if d.linkUp k && 3 ≤ (d.klink k).mism then
    (d.put F.KL_GEN.MISMATCH (d.get F.KL_GEN.MISMATCH ||| 2 ^ k)).levelOn 227 k
  else d

def execWatermarkMismatch (k : Fin 8) (s : State) : StepOut := s.run fun d => d.wmMismatch k

end Sys2Proof.Machine
end

