-- ==== Sys2Proof/Machine/Ream.lean ====
section
/-! DEFINITION. The Ream controller: groups, erase log, commands, journals and the power-fail save (R286-R305). -/

namespace Sys2Proof.Machine

/-! ## Groups and sectors (R286, R287) -/

def Dev.reamRead (d : Dev) (a n : Nat) : List Byte := Memory.readN 0xFF d.ream.mem a n

/-- R287: group g is blank. -/
def Dev.groupBlank (d : Dev) (g : Nat) : Bool :=
  (d.reamRead (8 * g) 8).all (· == 0xFF) && !d.ream.ones.contains g && !d.ream.ue.contains g

/-- R287: group g is programmed whole. -/
def Dev.groupPut (d : Dev) (g : Nat) (l : List Byte) : Dev :=
  let l := sliceB l 0 8
  let r := d.ream
  let ones := if l.all (· == 0xFF) then r.ones ++ [g] else r.ones
  { d with ream := { r with mem := Memory.writeN 0xFF r.mem (8 * g) l, ones := ones } }

/-- A group whose programming or erase was cut: its data and check bits are left to nothing (log entry 2). -/
def Dev.groupIndet (d : Dev) (g : Nat) : Dev :=
  let e := d.freeNext
  let d' := d.groupPut g (leBytes 8 d.freeVal)
  let bad := e.freeVal % 2 = 1
  { d' with
    free := d.free + 2
    ream := { d'.ream with ue := if bad then d'.ream.ue ++ [g] else d'.ream.ue.filter (· != g) } }

/-- Bytes programmed from an aligned address on. -/
def Dev.reamPut (d : Dev) (a : Nat) (l : List Byte) : Dev :=
  (List.range ((l.length + 7) / 8)).foldl (fun d i => d.groupPut (a / 8 + i) (sliceB l (8 * i) 8)) d

/-- A sector reads blank. -/
def Dev.sectorBlank (d : Dev) (s : Nat) : Dev :=
  let r := d.ream
  let out := fun (l : List Nat) => l.filter fun g => g / 512 != s
  { d with ream := { r with
    mem := r.mem.filter fun c => c.1 / 4096 != s
    ones := out r.ones, ce := out r.ce, ue := out r.ue } }

def Dev.erases (d : Dev) (s : Nat) : Nat := Tbl.getD d.ream.erases s 0

/-- R288: the spare group takes the count plus 1; REAM_WEAR at 100,000. -/
def Dev.erasesUp (d : Dev) (s count : Nat) : Dev :=
  let d := { d with ream := { d.ream with erases := Tbl.set d.ream.erases s (count + 1) } }
  if count + 1 = 100000 then d.fault 70 s else d

/-- HALF and HALF_SECTOR of REAM_STAT. -/
def Dev.halfShow (d : Dev) : Dev :=
  match d.ream.half.head? with
  | some s => (d.put F.REAM_STAT.HALF 1).put F.REAM_STAT.HALF_SECTOR s
  | none => (d.put F.REAM_STAT.HALF 0).put F.REAM_STAT.HALF_SECTOR 0

/-! ## The erase log (R296, R297) -/

/-- R296: an erase-log record. -/
def logRecord (seq sector kind count : Nat) : List Byte :=
  let b := leBytes 4 seq ++ leBytes 1 sector ++ leBytes 1 kind ++ leBytes 2 0 ++ leBytes 4 count
  b ++ leBytes 4 (crc32 b)

/-- R296: a record of the erase log as it lies in slot i of log sector b: SEQ, sector, kind and count, if it is valid. -/
def Dev.logAt (d : Dev) (b i : Nat) : Option (Nat × Nat × Nat × Nat) :=
  let a := 4096 * b + 16 * i
  if d.groupBlank (a / 8) then none else
  let r := d.reamRead a 16
  if d.ream.ue.any (fun g => g == a / 8 || g == a / 8 + 1) || leAt r 12 4 != crc32 (r.take 12) then none
  else some (leAt r 0 4, leAt r 4 1, leAt r 5 1, leAt r 8 4)

/-- R297: the valid records of both log sectors with their places: sector and slot. -/
def Dev.logRecords (d : Dev) : List ((Nat × Nat) × Nat × Nat × Nat × Nat) :=
  (List.range 512).filterMap fun i => (d.logAt (i / 256) (i % 256)).map fun r => ((i / 256, i % 256), r)

/-- R297: the latest of two records by SEQ. -/
def logLater (b : Option ((Nat × Nat) × Nat × Nat × Nat × Nat)) (r : (Nat × Nat) × Nat × Nat × Nat × Nat) :
    Option ((Nat × Nat) × Nat × Nat × Nat × Nat) :=
  match b with
  | some x => if later 32 r.2.1 x.2.1 then some r else b
  | none => some r

/-- R297: the latest record of each sector that the log names. -/
def Dev.logLatest (d : Dev) : List ((Nat × Nat) × Nat × Nat × Nat × Nat) :=
  let l := d.logRecords
  (List.range 256).filterMap fun s => (l.filter fun r => r.2.2.1 == s).foldl logLater none

/-- R296, R297: the half-erased sectors that the log shows, with ERASES of their INTENT. -/
def Dev.halfScan (d : Dev) : Tbl Nat :=
  (d.logLatest.filter fun r => r.2.2.2.1 == 1).map fun r => (r.2.2.1, r.2.2.2.2)

/-- R297: the boot scan of the erase log: the half-erased sectors, and where the log goes on: behind the last slot in use of
the sector that holds its latest record. -/
def Dev.logScan (d : Dev) : Dev :=
  let half := d.halfScan
  let last := d.logRecords.foldl logLater none
  let b := (last.map (·.1.1)).getD 0
  let used := (List.range 256).filter fun i => !d.groupBlank (512 * b + 2 * i) || !d.groupBlank (512 * b + 2 * i + 1)
  { d with ream := { d.ream with
    half := half.map (·.1), intents := half, logSect := b, logSlot := (used.getLast?.map (· + 1)).getD 0
    logSeq := (last.map fun r => (r.2.1 + 1) % 2 ^ 32).getD 0 } }

/-- R298: the count that an erase of sector s goes on from: ERASES of an open INTENT, or the spare group's. -/
def Dev.eraseCount (d : Dev) (s : Nat) : Nat := (Tbl.find? d.ream.intents s).getD (d.erases s)

/-- A record goes into the next slot of the current log sector. -/
def Dev.logSlotPut (d : Dev) (sector kind count : Nat) : Dev :=
  let r := d.ream
  let d := d.reamPut (4096 * r.logSect + 16 * r.logSlot) (logRecord r.logSeq sector kind count)
  { d with ream := { d.ream with logSlot := r.logSlot + 1, logSeq := (r.logSeq + 1) % 2 ^ 32 } }

/-- R297: with two slots left, the log goes on in its other sector; an open INTENT is carried forward. -/
def Dev.logRotate (d : Dev) : Dev :=
  let r := d.ream
  if r.logSlot < 254 then d else
  let other := 1 - r.logSect
  let n := d.eraseCount other
  let d := ((d.logSlotPut other 1 n).sectorBlank other).erasesUp other n
  let d := { d with ream := { d.ream with logSect := other, logSlot := 0 } }
  let d := d.logSlotPut other 2 (n + 1)
  d.ream.half.foldl (fun d s => d.logSlotPut s 1 (d.eraseCount s)) d

/-- R296: a record is appended to the erase log. -/
def Dev.logAppend (d : Dev) (sector kind count : Nat) : Dev := d.logRotate.logSlotPut sector kind count

/-- R296: an erase begins: INTENT; the sector is half-erased from here on. -/
def Dev.eraseBegin (d : Dev) (s : Nat) : Dev :=
  let n := d.eraseCount s
  let d := d.logAppend s 1 n
  let h := if d.ream.half.contains s then d.ream.half else d.ream.half ++ [s]
  ({ d with ream := { d.ream with half := h, intents := Tbl.set d.ream.intents s n } }).halfShow

/-- R296: the erase, the spare group, the verify and the VERIFIED record. -/
def Dev.eraseFinish (d : Dev) (s : Nat) : Dev :=
  let n := d.eraseCount s
  let d := (d.sectorBlank s).erasesUp s n
  let d := d.logAppend s 2 (n + 1)
  ({ d with ream := { d.ream with half := d.ream.half.filter (· != s), intents := Tbl.del d.ream.intents s } }).halfShow

/-- R296: an erase of the controller's own. -/
def Dev.eraseOwn (d : Dev) (s : Nat) : Dev := (d.eraseBegin s).eraseFinish s

/-- R295, R298: an erase of sector s is cut: its groups and its spare group are left to nothing (log entry 2). -/
def Dev.eraseCut (d : Dev) (s : Nat) : Dev :=
  let d := (List.range 512).foldl (fun d i => d.groupIndet (512 * s + i)) d
  { d.freeNext with ream := { d.freeNext.ream with erases := Tbl.set d.ream.erases s (d.freeVal % 2 ^ 32) } }

/-- A sector holds something. -/
def Dev.sectorUsed (d : Dev) (s : Nat) : Bool := (List.range 512).any fun i => !d.groupBlank (512 * s + i)

/-- R317: a fault-log record is being written. -/
def Dev.logBusy (d : Dev) : Bool := d.ream.writing.any fun w => decide (d.tick < w.done)

/-! ## Regions (R289, R290) -/

/-- First sector and sector count of a region. -/
def Dev.region (d : Dev) (r : Nat) : Nat × Nat := (d.get F.REAM_RGN_CFG.FIRST r, d.get F.REAM_RGN_CFG.COUNT r)

/-- The region that holds a sector. -/
def Dev.regionOf (d : Dev) (s : Nat) : Option Nat :=
  (List.range 26).find? fun r => let (f, n) := d.region r; decide (f ≤ s ∧ s < f + n)

/-- R387: the region that holds a sector as the open change leaves the regions. -/
def Dev.regionOfS (d : Dev) (s : Nat) : Option Nat :=
  (List.range 26).find? fun r =>
    let f := d.getS F.REAM_RGN_CFG.FIRST r
    decide (f ≤ s ∧ s < f + d.getS F.REAM_RGN_CFG.COUNT r)

/-! ## Commands (R291-R295) -/

/-- R387: the regions that hold an address, in force and as the open change leaves them. -/
def Dev.reamRegions (d : Dev) (addr : Nat) : List Nat := (d.regionOf (addr / 4096)).toList ++ (d.regionOfS (addr / 4096)).toList

/-- Table Ream refusal codes: a PROGRAM or ERASE has its target in region 0 or 9. -/
def Dev.reamReserved (d : Dev) (op addr : Nat) : Bool :=
  op != 1 && ((d.reamRegions addr).contains 0 || (d.reamRegions addr).contains 9)

/-- R291, R317: the refusal code of a command, 0 if it is accepted: in the order of the codes. DESIGN CHOICE (log entry 55): while
the controller's own erase arms a save area, a READ of that very sector finds it BUSY. -/
def Dev.reamCheck (d : Dev) (op addr len vat : Nat) : Nat :=
  let range := match op with
    | 1 => len < 8 || 65536 < len || len % 8 != 0 || addr % 8 != 0 || vat % 8 != 0 || 2 ^ 20 < addr + len || 2 ^ 26 < vat + len
    | 2 => len < 8 || 256 < len || len % 8 != 0 || addr % 8 != 0 || vat % 8 != 0 || 2 ^ 26 < vat + len
    | _ => addr % 4096 != 0
  let s := addr / 4096
  let rgns := d.reamRegions addr
  let guarded := fun (r : Nat) => d.flag F.REAM_RGN_CFG.PROTECT r || d.getS F.REAM_RGN_CFG.PROTECT r == 1
  if range then 1
  else if d.ream.cmd.isSome || d.ream.save.isSome || d.logBusy then 2
  else if op != 1 && d.flag F.REAM_STAT.NVWP && rgns.any guarded then 3
  else if d.reamReserved op addr then 4
  else if !d.ream.half.isEmpty && !(op != 2 && d.ream.half.contains s && (op == 3 || (addr + len - 1) / 4096 == s)) then 5
  else if d.ream.arm.isSome then 2
  else 0

/-- A refused Ream command, with its code and the reason of R339. -/
def Dev.reamRefuse (d : Dev) (p : Path) (code : Nat) (r : Reason) : Dev :=
  (d.put F.REAM_STAT.REFUSE code).refuse p.code R.REAM_CMD.off r

/-- R291: READ, PROGRAM or ERASE with the path's own REAM_ADDR and REAM_VAT. -/
def Dev.reamCmd (d : Dev) (p : Path) (op len : Nat) : Dev :=
  let addr := d.get F.REAM_ADDR.ADDR p.code
  let vat := d.get F.REAM_VAT.OFFSET p.code
  let c := d.reamCheck op addr len vat
  -- R339: RANGE comes before STATE, also where the code is BUSY or PROTECTED
  let r : Reason := if c = 1 || d.reamReserved op addr then .range else .state
  let halted := d.stopped && d.flt.stopLogged
  if c ≠ 0 || halted then d.reamRefuse p (if halted && r == .state then 2 else c) r
  else
    let d := (d.put F.REAM_STAT.STATE 1).put F.REAM_STAT.ABORT_LATE 0
    let d := { d with ream := { d.ream with cmd := some ⟨op, addr, len, vat⟩ } }
    if op = 3 then d.eraseBegin (addr / 4096) else d

def execReamRead (p : Path) (len : BitVec 17) (s : State) : StepOut := s.runBy p R.REAM_CMD.off fun d => d.reamCmd p 1 len.toNat
def execReamProgram (p : Path) (len : BitVec 17) (s : State) : StepOut := s.runBy p R.REAM_CMD.off fun d => d.reamCmd p 2 len.toNat
def execReamErase (p : Path) (s : State) : StepOut := s.runBy p R.REAM_CMD.off fun d => d.reamCmd p 3 0

/-- A command ends with a state and a result code. -/
def Dev.reamEnd (d : Dev) (st code : Nat) : Dev :=
  let d := (d.put F.REAM_STAT.STATE st).put F.REAM_STAT.CODE code
  let d := { d with ream := { d.ream with cmd := none, doneAt := some d.absCycle } }
  if code = 6 then d.fault 68 else d

/-- R292: the groups of a PROGRAM, wrapping inside their page. -/
def programGroups (c : ReamCmd) : List Nat :=
  let page := c.addr / 256
  (List.range (c.len / 8)).map fun i => 32 * page + (c.addr / 8 % 32 + i) % 32

/-- R294: one group is read into the Vat; the code so far. -/
def Dev.readGroup (d : Dev) (g vat code : Nat) : Dev × Nat :=
  if d.ream.ue.contains g then
    (((d.vatUserPoison vat (d.reamRead (8 * g) 8)).incSat F.REAM_ECC.UE).fault 71, 3)
  else
    let d := d.vatUser vat (d.reamRead (8 * g) 8)
    if d.ream.ce.contains g then (d.incSat F.REAM_ECC.CE, max code 2) else (d, code)

/-- R294: REAM_READ_DONE. -/
def Dev.reamReadDone (d : Dev) : Dev :=
  match d.ream.cmd with
  | some ⟨1, addr, len, vat⟩ =>
    let (d, code) := (List.range (len / 8)).foldl
      (fun (p : Dev × Nat) i => p.1.readGroup (addr / 8 + i) (vat + 8 * i) p.2) (d, 1)
    d.reamEnd 2 code
  | _ => d

/-- R293: the checks of a PROGRAM before it writes: source, then target. -/
def Dev.programCheck (d : Dev) (c : ReamCmd) : Nat :=
  let gs := programGroups c
  if d.vbad c.vat c.len then 7
  else if gs.any fun g => d.ream.ue.contains g then 5
  else if gs.any fun g => !d.groupBlank g then 4 else 0

/-- R293: REAM_PROGRAM_DONE; `ok` is what the verify found. -/
def Dev.reamProgramDone (d : Dev) (ok : Bool) : Dev :=
  match d.ream.cmd with
  | some ⟨2, addr, len, vat⟩ =>
    let c : ReamCmd := ⟨2, addr, len, vat⟩
    let d := (d.ctxShow vat len).vatTouch vat len 4
    let e := d.programCheck c
    if e ≠ 0 then d.reamEnd 4 e
    else
      let l := d.vbytes vat len
      let d := (programGroups c).zipIdx.foldl (fun d p => d.groupPut p.1 (sliceB l (8 * p.2) 8)) d
      if ok then d.reamEnd 2 1 else d.reamEnd 4 6
  | _ => d

/-- R296: REAM_ERASE_DONE; `ok` is what the blank verify found. -/
def Dev.reamEraseDone (d : Dev) (ok : Bool) : Dev :=
  match d.ream.cmd with
  | some ⟨3, addr, _, _⟩ =>
    if ok then (d.eraseFinish (addr / 4096)).reamEnd 2 1
    else ((d.sectorBlank (addr / 4096)).erasesUp (addr / 4096) (d.eraseCount (addr / 4096))).reamEnd 4 6
  | _ => d

def execReamReadDone (s : State) : StepOut := s.run fun d => d.reamReadDone
def execReamProgramDone (ok : Bool) (s : State) : StepOut := s.run fun d => d.reamProgramDone ok
def execReamEraseDone (ok : Bool) (s : State) : StepOut := s.run fun d => d.reamEraseDone ok

/-- R295: a command stops with n groups programmed; the next one is indeterminate. A cut erase leaves its sector
indeterminate and half-erased. -/
def Dev.reamCut (d : Dev) (n : Nat) : Dev :=
  match d.ream.cmd with
  | some ⟨2, addr, len, vat⟩ =>
    let c : ReamCmd := ⟨2, addr, len, vat⟩
    let d := d.ctxShow vat len
    if d.programCheck c ≠ 0 then d else
    let l := d.vbytes vat len
    (programGroups c).zipIdx.foldl (fun d p =>
      if p.2 < n then d.groupPut p.1 (sliceB l (8 * p.2) 8) else if p.2 = n then d.groupIndet p.1 else d) d
  | some ⟨3, addr, _, _⟩ => d.eraseCut (addr / 4096)
  | _ => d

/-- R291: a READ that is stopped has copied n of its groups. -/
def Dev.readCut (d : Dev) (n : Nat) : Dev :=
  match d.ream.cmd with
  | some ⟨1, addr, len, vat⟩ =>
    (List.range (min n (len / 8))).foldl (fun (d : Dev) i => (d.readGroup (addr / 8 + i) (vat + 8 * i) 1).1) d
  | _ => d

/-- R291, R295: ABORT; in the cycle of a completion it loses; with no command running it is refused with code RANGE. -/
def Dev.reamAbort (d : Dev) (p : Path) (n : Nat) : Dev :=
  match d.ream.cmd with
  | some _ =>
    let d := (d.readCut n).reamCut n
    { d.put F.REAM_STAT.STATE 3 with ream := { d.ream with cmd := none } }
  | none =>
    if d.ream.doneAt = some d.absCycle then d.put F.REAM_STAT.ABORT_LATE 1 else d.reamRefuse p 1 .range

/-- REAM_ABORT: `n` groups of a running PROGRAM or READ are already done. -/
def execReamAbort (p : Path) (n : BitVec 6) (c : Cycle) (s : State) : StepOut :=
  s.runBy p R.REAM_CMD.off fun d => ({ d with cycle := c.val }).reamAbort p n.toNat

/-! ## Journals (R299, R300) -/

/-- R299: the bytes of a journal record. -/
def journalRecord (id seq : Nat) (payload : List Byte) : List Byte :=
  let h := leBytes 2 id ++ leBytes 2 payload.length ++ leBytes 4 seq
  h ++ leBytes 4 (crc32 (h ++ payload)) ++ leBytes 4 0 ++ payload

/-- R300: the record at a Ream address, inside its sector: ID, SEQ, length and validity. -/
structure JRec where
  addr : Nat
  id : Nat
  seq : Nat
  len : Nat
  valid : Bool
  deriving DecidableEq, Repr, Inhabited

/-- A range of groups holds an uncorrectable error. -/
def Dev.reamBad (d : Dev) (a n : Nat) : Bool := d.ream.ue.any fun g => decide (8 * g < a + n ∧ a < 8 * g + 8)

/-- R300: the records of a sector from an address on, up to the first blank or unreadable header. -/
def Dev.journalScan (d : Dev) : Nat → Nat → List JRec
  | 0, _ => []
  | n + 1, a =>
    let e := (a / 4096 + 1) * 4096
    if d.groupBlank (a / 8) || d.reamBad a 16 then [] else
    let h := d.reamRead a 16
    let len := leAt h 2 2
    if len < 8 ∨ len % 8 ≠ 0 ∨ e < a + 16 + len then [] else
    let ok := !d.reamBad a (16 + len) && leAt h 8 4 == crc32 (h.take 8 ++ d.reamRead (a + 16) len)
    let rest := if a + 32 + len ≤ e then d.journalScan n (a + 16 + len) else []
    ⟨a, leAt h 0 2, leAt h 4 4, len, ok⟩ :: rest

/-- Every record of a region. -/
def Dev.journalAll (d : Dev) (rgn : Nat) : List JRec :=
  let (f, n) := d.region rgn
  (List.range n).flatMap fun i => d.journalScan 200 ((f + i) * 4096)

/-- The record with the latest SEQ. -/
def latestRec (l : List JRec) : Option JRec :=
  l.foldl (fun b r => match b with
    | some x => if later 32 r.seq x.seq then some r else b
    | none => some r) none

/-- R300: the newest valid record of an ID among those of a scan. -/
def newestOf (l : List JRec) (id : Nat) : Option JRec := latestRec (l.filter fun r => r.valid && r.id == id)

/-- R300: the newest valid record of an ID. -/
def Dev.journalNewest (d : Dev) (rgn id : Nat) : Option JRec := newestOf (d.journalAll rgn) id

/-- R299, R300: where a journal goes on: sector, offset in it and SEQ. It does so behind the last record of the sector with the
latest SEQ, which a record counts for though it is not valid; a header that cannot be read leaves the rest of the sector used. -/
def Dev.journalPlace (d : Dev) (rgn : Nat) : Nat × Nat × Nat :=
  let f := (d.region rgn).1
  let all := d.journalAll rgn
  match latestRec all with
  | none => (f, if d.groupBlank (512 * f) then 0 else 4096, 0)
  | some r =>
    let s := r.addr / 4096
    let last := (all.filter fun x => x.addr / 4096 == s).getLast?.getD r
    let o := last.addr % 4096 + 16 + last.len
    (s, if o < 4096 && !d.groupBlank ((4096 * s + o) / 8) then 4096 else o, (r.seq + 1) % 2 ^ 32)

/-- The sector behind sector s in a region, the first behind the last. -/
def Dev.journalNext (d : Dev) (rgn s : Nat) : Nat :=
  let (f, n) := d.region rgn
  f + (s + 1 - f) % max 1 n

/-- R299: records are put into sector s from offset 0 on; the offset behind them. -/
def Dev.recordsPut (d : Dev) (s : Nat) (l : List (List Byte)) : Dev × Nat :=
  l.foldl (fun p b =>
    if p.2 + b.length ≤ 4096 then (p.1.reamPut (4096 * s + p.2) b, p.2 + b.length) else p) (d, 0)

/-- R299, R316: the writer of a journal goes on in sector s: what is the newest valid record of its ID in it, or in the sector
behind it, is copied forward into it, and the sector behind it is erased (DEDUCED, log entry 114). -/
def Dev.journalEnter (d : Dev) (rgn s : Nat) : Dev × Nat :=
  let e := d.journalNext rgn s
  let all := d.journalAll rgn
  let keep := all.filter fun r => (r.addr / 4096 == s || r.addr / 4096 == e) && newestOf all r.id == some r
  let kept := keep.map fun r => d.reamRead r.addr (16 + r.len)
  let d := if d.sectorUsed s then d.eraseOwn s else d
  let (d, o) := d.recordsPut s kept
  (if e ≠ s && d.sectorUsed e then d.eraseOwn e else d, o)

/-- R299: the place of the next record of `need` bytes; the writer goes on in further sectors while it does not fit. -/
def Dev.journalRoom (d : Dev) (rgn need : Nat) : Nat → Nat → Nat → Dev × Nat × Nat
  | 0, s, o => (d, s, o)
  | k + 1, s, o =>
    if o + need ≤ 4096 then (d, s, o) else
    let s := d.journalNext rgn s
    let (e, o) := d.journalEnter rgn s
    Dev.journalRoom e rgn need k s o

/-- R299: a record is appended to a journal region, behind what a scan of it finds. -/
def Dev.journalAppend (d : Dev) (rgn id : Nat) (payload : List Byte) : Dev :=
  let (s, o, q) := d.journalPlace rgn
  let need := 16 + payload.length
  let (d, s, o) := d.journalRoom rgn need (d.region rgn).2 s o
  if o + need ≤ 4096 then d.reamPut (4096 * s + o) (journalRecord id q payload) else d

/-! ## The power-fail save (R303-R305) -/

/-- R303: the context save record of context n. -/
def Dev.ctxSave (d : Dev) (n : Nat) : List Byte :=
  leBytes 6 (ofSigned 48 ((d.ctxInc n : Int) - 1000 * 2 ^ 32)) ++ leBytes 2 (d.get F.CTX_UTC.OFFSET n) ++
  leBytes 2 (d.get F.CTX_UTC.ANNOUNCE n % 2 ^ 11 + d.get F.CTX_UTC.VALID n * 2 ^ 11 + d.get F.CTX_STAT.LEAP n * 2 ^ 12 +
    b2n (d.leapDel n) * 2 ^ 14 + d.get F.CTX_STAT.ENABLE n * 2 ^ 15) ++ leBytes 6 (d.leapAt n)

/-- R303: the Vat ranges of the save image behind its header and context records: performance granules, shadow. -/
def Dev.savePi (d : Dev) : List Byte :=
  if d.flag F.TIME_PI_CFG.ENABLE then (List.range 72).flatMap fun o => d.vbytes (d.piGranule o) 64 else []

def Dev.saveShadow (d : Dev) : List Byte :=
  d.vbytes (d.get F.REAM_SAVE_CFG.GRANULE * 4096) (d.get F.REAM_SAVE_CFG.SHADOW * 4096)

/-- R303: the parts of a context's entry from which the two words of its save record are made (R225). -/
def Dev.ctxSaveBad (d : Dev) (n : Nat) : List Nat :=
  let a := d.ctxAddr n
  (if d.vbad (a + 12) 8 || d.vbad (a + 32) 2 then [2 * n] else []) ++ (if d.vbad (a + 34) 10 then [2 * n + 1] else [])

/-- R97, R100: the save reads its sources: performance granules, context entries and the shadow. -/
def Dev.saveTouch (d : Dev) : Dev :=
  let d := if d.flag F.TIME_PI_CFG.ENABLE then (List.range 72).foldl (fun (d : Dev) o => d.vatTouch (d.piGranule o) 64 4) d else d
  let d := (List.range (d.get F.REAM_SAVE_CFG.CTXN)).foldl (fun (d : Dev) n => d.vatTouch (d.ctxAddr n) 44 4) d
  d.vatTouch (d.get F.REAM_SAVE_CFG.GRANULE * 4096) (d.get F.REAM_SAVE_CFG.SHADOW * 4096) 4

/-- R100: the words of the image that read poisoned. -/
def Dev.saveBad (d : Dev) : List Nat :=
  let pi := d.flag F.TIME_PI_CFG.ENABLE
  let piWords := if pi then (List.range 576).filter fun i => d.vbad (d.piGranule (i / 8) + 8 * (i % 8)) 8 else []
  let cx := 8 + (if pi then 576 else 0)
  let cxWords := (List.range (d.get F.REAM_SAVE_CFG.CTXN)).flatMap d.ctxSaveBad
  let g := d.get F.REAM_SAVE_CFG.GRANULE * 4096
  let shWords := (List.range (d.get F.REAM_SAVE_CFG.SHADOW * 512)).filter fun i => d.vbad (g + 8 * i) 8
  piWords.map (· + 8) ++ cxWords.map (· + cx) ++ shWords.map (· + cx + 2 * d.get F.REAM_SAVE_CFG.CTXN)

/-- R303: the save image. -/
def Dev.saveImage (d : Dev) : List Byte :=
  let pi := d.savePi
  let n := d.get F.REAM_SAVE_CFG.CTXN
  let body := pi ++ (List.range n).flatMap d.ctxSave ++ d.saveShadow
  let head := fun (crc : Nat) =>
    [0x52, 0x45, 0x41, 0x4D] ++ leBytes 4 ((d.ream.saveSeq + 1) % 2 ^ 32) ++ leBytes 4 (64 + body.length) ++ leBytes 4 crc ++
    leBytes 8 d.tick ++ leBytes 12 (d.time.lt / 2 ^ 16) ++ leBytes 2 n ++ leBytes 1 (d.get F.REAM_SAVE_CFG.SHADOW) ++
    leBytes 1 (b2n (d.flag F.TIME_PI_CFG.ENABLE)) ++ leBytes 24 0
  head (crc32 (head 0 ++ body)) ++ body

/-- R303: the first sector of a save area. -/
def areaSector (a : Nat) : Nat := 58 + 16 * a

/-- R303: the Ream address of page i of an area's image: pages go round the 16 planes. -/
def areaPage (a i : Nat) : Nat := (areaSector a + i % 16) * 4096 + i / 16 * 256

/-- R304: the order in which an image's pages are programmed: rounds of 16, the one with page 0 last. -/
def saveOrder (pages : Nat) : List Nat :=
  (List.range pages).drop 16 ++ ((List.range pages).take 16).drop 1 ++ (List.range pages).take 1

/-- R304: the groups of a save in programming order: page and group in it. -/
def saveGroups (len : Nat) : List (Nat × Nat) :=
  (saveOrder (ceilDiv len 256)).flatMap fun p =>
    ((List.range 32).filter fun i => decide (256 * p + 8 * i < len)).map fun i => (p, i)

/-- R304: the first n groups of a save are programmed, and the next one is indeterminate where the save is cut. -/
def Dev.saveProgram (d : Dev) (r : SaveRun) (n : Nat) (cut : Bool) : Dev :=
  (saveGroups r.image.length).zipIdx.foldl (fun d e =>
    let w := 32 * e.1.1 + e.1.2
    let g := areaPage r.area e.1.1 / 8 + e.1.2
    if e.2 < n then
      let d := d.groupPut g (sliceB r.image (8 * w) 8)
      if r.bad.contains w then { d with ream := { d.ream with ue := d.ream.ue ++ [g] } } else d
    else if e.2 = n && cut then d.groupIndet g else d) d

/-- R304: the blocks that the save stops at once: dispatch, frame ports, links, PCIe. The synthesizers stop after the last output
(R370). -/
def Dev.saveStop (d : Dev) : Dev :=
  let d := ({ d with dispatchOn := false }).framesStop
  let d := (List.range 8).foldl (fun d k => (d.put F.KL_LINK_STAT.STATE 0 k).setKlink k KlLink.reset) d
  d.put F.HOST_PCIE_STAT.L0 0

/-- R304, R370: a save into area `a` begins: a running command is aborted after any number of its groups, the blocks and the
outputs stop, and the image is taken. -/
def Dev.saveInto (d : Dev) (a : Nat) : Dev :=
  let d := if d.ream.cmd.isSome then
      let e := d.freeNext.reamCut (d.freeVal % 33)
      { e.put F.REAM_STAT.STATE 3 with ream := { e.ream with cmd := none } } else d
  let d := d.saveStop
  let d := ({ d with boot := { d.boot with halted := true } } : Dev).outsStop 20
  let run : SaveRun := ⟨a, d.saveImage, d.saveBad⟩
  let d := d.saveTouch
  { d.put F.REAM_SAVE_STAT.ARMED 0 with ream := { d.ream with save := some run, armed := none } }

/-- R305: a power failure starts no save. -/
def Dev.saveSkip (d : Dev) : Dev := { d.fault 73 with ream := { d.ream with skipped := true } }

/-- R304, R305, R317: power-fail handling at boundary action 6. The entries still queued are discarded; without
ENABLE or an armed area no save starts and the device runs on. -/
def Dev.saveStart (d : Dev) : Dev :=
  let d := { d with flt := { d.flt with saveBegun := true, log := [], overflow := false }, boot := { d.boot with pfail := false } }
  let d := d.put F.FLT_LOG_STAT.LEVEL 0
  match d.ream.armed with
  | some a => if d.flag F.REAM_SAVE_CFG.ENABLE then d.saveInto a else d.saveSkip
  | none => d.saveSkip

/-- R305: the header round completes. -/
def Dev.saveDone (d : Dev) : Dev :=
  match d.ream.save with
  | none => d
  | some r =>
    let d := d.saveProgram r (saveGroups r.image.length).length false
    { d with ream := { d.ream with save := none, saved := true, skipped := false, saveSeq := (d.ream.saveSeq + 1) % 2 ^ 32 } }

/-- R304: PFAIL_N is recognised; power-fail handling is due at the next boundary. In STOPPED, and before boot step 11
completes, no save starts (R305, R313); an image restart is no such start. -/
def Dev.pfailRecognised (d : Dev) : Dev :=
  let d := d.fault 9
  if d.stopped ∨ (d.get F.BOOT_STAT.STEP < 12 ∧ !d.boot.live) then d.saveSkip
  else { d with boot := { d.boot with pfail := true } }

def execPfailRecognised (s : State) : StepOut := s.run fun d => (d.pinSee 2 false).pfailRecognised

/-- R306, R336: the erase that arms a save area is cut. -/
def Dev.armCut (d : Dev) : Dev :=
  match d.ream.arm with
  | none => d
  | some x => let e := d.eraseCut x.sector; { e with ream := { e.ream with arm := none } }

/-- R324, R334: a reset cuts what the controller does: n groups of its command are programmed. A log write completes. -/
def Dev.reamHalt (d : Dev) (n : Nat) : Dev :=
  let d := if d.ream.cmd.isSome then
      let e := d.reamCut n
      { e with ream := { e.ream with cmd := none } } else d
  d.armCut

/-- R317: power goes while a log record of four groups is written: the first j of them stay, the next is indeterminate. -/
def Dev.logTorn (d : Dev) : Dev :=
  match d.ream.writing with
  | none => d
  | some w =>
    let d := { d with ream := { d.ream with writing := none } }
    if w.done ≤ d.tick then d else
    let j := d.freeVal % 4
    let g := w.addr / 8
    let gone := fun (x : Nat) => decide (g + j ≤ x ∧ x < g + 4)
    let r := d.ream
    ({ d.freeNext with ream := { r with
      mem := r.mem.filter fun c => !gone (c.1 / 8), ones := r.ones.filter fun x => !gone x } } : Dev).groupIndet (g + j)

/-- The Ream when power goes: n groups of the running save or command are programmed. -/
def Dev.reamPowerCut (d : Dev) (n : Nat) : Dev :=
  let d := match d.ream.save with
    | some r => d.saveProgram r n true
    | none => d.reamCut n
  let d := d.armCut.logTorn
  { d with ream := { d.ream with save := none, cmd := none } }

end Sys2Proof.Machine
end

