-- ==== Sys2Proof/Machine/Faults.lean ====
section
/-! DEFINITION. The fault block's commands (R307-R321): detection, log, FAULT_N, forcing, clearing. -/

namespace Sys2Proof.Machine

/-- Table Fault sources: the named sources. -/
def namedSources : List Nat :=
  [0, 1, 2, 3, 4, 5, 6, 7, 8, 9, 10] ++ [32, 33, 34, 35, 36, 37, 38, 39, 40, 41] ++
  [64, 65, 66, 67, 68, 69, 70, 71, 72, 73] ++ [96, 97, 98, 99, 100, 101, 102] ++
  [128, 129, 130, 131, 132, 133, 134] ++ [160, 161, 162, 163, 164, 165] ++ [192, 193, 194, 195, 196, 197] ++
  [224, 225, 226, 227, 228, 229, 230] ++ [256, 257, 258, 259, 260, 261, 263]

/-- R307, R308: a block raises a source: a level condition begins to hold, or an event occurs. Hardware never raises a
reserved source. R368: SUPPLY_RANGE holds for the supply that its detail word names, 0 to 14. -/
def Dev.collect (d : Dev) (s inst detail : Nat) : Dev :=
  if !namedSources.contains s then d
  else if s = 4 then (if detail ≤ 14 then d.levelOn 4 detail detail else d)
  else if levelSources.contains s then d.levelOn s inst detail
  else d.fault s inst detail

def execFaultCollection (s' : Fin 288) (inst : BitVec 16) (detail : Word) (c : Cycle) (s : State) : StepOut :=
  s.run fun d => ({ d with cycle := c.val }).collect s' inst.toNat detail.toNat

/-- R308: a level condition ceases to hold; of SUPPLY_RANGE, `inst` is the supply. -/
def execFaultConditionEnd (s' : Fin 288) (inst : BitVec 16) (s : State) : StepOut := s.run fun d => d.levelOff s' inst.toNat

/-! ## The fault log (R316, R317) -/

/-- R316: the 16-byte payload of an entry. -/
def LogEntry.bytes (e : LogEntry) : List Byte :=
  leBytes 6 e.tick ++ leBytes 2 e.source ++ leBytes 1 e.cls ++ leBytes 1 e.flags ++ leBytes 2 e.inst ++ leBytes 4 e.detail

/-- R312, R317, R327: the log can be written: the Ream is free, boot step 2 is complete, the STOP entry is not written. -/
def Dev.logFree (d : Dev) : Bool :=
  d.ream.cmd.isNone && d.ream.save.isNone && !d.logBusy && 3 ≤ d.get F.BOOT_STAT.STEP && !d.flt.stopLogged

/-- R317, R287: the write of a log record, begun at the present tick, takes up to 100 ticks, and 25,000 more where it erases a
sector: how long is a free value. `n` says that it erases. -/
def Dev.logBegin (d : Dev) (addr : Nat) (erased : Bool) : Dev :=
  let t := d.freeVal % 100 + 1 + (if erased then d.freeNext.freeVal % 25001 else 0)
  { d.freeNext.freeNext with ream := { d.ream with writing := some ⟨d.tick + t, addr⟩ } }

/-- R316, R317: the oldest entry is appended to the log; entries that this itself queues wait behind the others. R312: the Ream
accepts no command once the STOP entry is written, and what still waits is not logged. -/
def Dev.logWrite (d : Dev) : Dev :=
  match d.flt.log with
  | [] => d
  | e :: r =>
    if d.logFree then
      let erases := d.ream.logSeq
      let last := bit e.flags 2 && !r.any fun x => bit x.flags 2
      let d := { d with flt := { d.flt with log := r, stopLogged := last } }
      let d := (d.put F.FLT_LOG_STAT.LEVEL r.length).journalAppend 4 0x0F01 e.bytes
      let (s, o, _) := d.journalPlace 4
      let d := d.logBegin (4096 * s + o - 32) (d.ream.logSeq != erases)
      if last then { d.put F.FLT_LOG_STAT.LEVEL 0 with flt := { d.flt with log := [] } } else d
    else d

def execFaultLogWrite (s : State) : StepOut := s.run fun d => d.logWrite

/-! ## FAULT_N (R318) -/

/-- R318: the pulse ends and the pin follows SW_ASSERT; in STOPPED it stays low. -/
def Dev.pulseDone (d : Dev) : Dev :=
  match d.flt.pulseEnd with
  | none => d
  | some t =>
    if t ≤ d.tick ∧ !d.stopped then
      { d.put F.FLT_PIN.LOW (if d.pinsLive then d.get F.FLT_PIN.SW_ASSERT else 0) with flt := { d.flt with pulseEnd := none } }
    else d

def execFaultPinPulseEnd (s : State) : StepOut := s.run fun d => d.pulseDone

/-- FLT_PIN written: outside a pulse the pin follows SW_ASSERT, once the pins are in use (R366). -/
def Dev.pinFollow (d : Dev) : Dev :=
  if d.flt.pulseEnd.isSome || d.stopped || !d.pinsLive then d else d.put F.FLT_PIN.LOW (d.get F.FLT_PIN.SW_ASSERT)

/-- R366: step 12 takes effect: FAULT_N shows a pulse that runs, or SW_ASSERT. -/
def Dev.pinStart (d : Dev) : Dev := if d.flt.pulseEnd.isSome && !d.stopped then d.put F.FLT_PIN.LOW 1 else d.pinFollow

/-! ## Forcing and clearing (R319, R315) -/

/-- R387: the class of a source as last accepted: the staged copy of an open change. -/
def Dev.faultClassS (d : Dev) (s : Nat) : Nat :=
  d.getS { F.FLT_CLASS.CLASS with hi := 2 * (s % 16) + 1, lo := 2 * (s % 16) } (s / 16)

/-- R319, R387: a write of FLT_FORCE; a force bit of a source of class STOP rises only with FORCE_STOP_EN in force. -/
def Dev.forceCmd (d : Dev) (p : Path) (g w : Nat) : Dev :=
  let bad := (List.range 32).any fun i =>
    bit w i && !bit (d.rd R.FLT_FORCE g) i && (d.faultClass (32 * g + i) == 3 || d.faultClassS (32 * g + i) == 3)
  if bad && !(d.flag F.FLT_CTRL.FORCE_STOP_EN && d.getS F.FLT_CTRL.FORCE_STOP_EN == 1) then d.refuse p.code (R.FLT_FORCE.off g) .combination
  else d.forceWrite g w

def execFaultForce (p : Path) (g : Fin 9) (w : Word) (c : Cycle) (s : State) : StepOut :=
  s.runBy p (R.FLT_FORCE.off g) fun d => ({ d with cycle := c.val }).forceCmd p g w.toNat

/-- R315, R5: a write of 1 to STATUS bits. -/
def execFaultStatusClear (p : Path) (g : Fin 9) (w : ClearMask) (s : State) : StepOut :=
  s.runBy p (R.FLT_STATUS.off g) fun d => ({ d with cycle := w.cycle.val }).clearStatus g w.mask.toNat

end Sys2Proof.Machine
end

