-- ==== Sys2Proof/Machine/HostOps.lean ====
section
/-! DEFINITION. PCIe events, the XI2C and FSPI controllers, the interrupt cause register and the Vat window and
apertures (16). -/

namespace Sys2Proof.Machine

def Dev.xi2c (d : Dev) (n : Nat) : Xi2c := Tbl.getD d.host.xi2c n Xi2c.reset
def Dev.setXi2c (d : Dev) (n : Nat) (x : Xi2c) : Dev := { d with host := { d.host with xi2c := Tbl.set d.host.xi2c n x } }

/-! ## Interrupt causes (R353) -/

/-- R353, R5: a write of 1 clears a cause, but for one set in the same cycle; a message follows if an enabled cause stays
set. -/
def Dev.causeClear (d : Dev) (w : Nat) : Dev :=
  let d := d.wr R.HOST_IRQ_CAUSE (d.w1cLeft R.HOST_IRQ_CAUSE (w &&& 0x7E))
  let d := d.irqRefresh
  if d.irqEnabled then d.msixSend 0 0 else d

def execIrqCauseClear (p : Path) (w : ClearMask) (s : State) : StepOut :=
  s.runBy p R.HOST_IRQ_CAUSE.off fun d => ({ d with cycle := w.cycle.val }).causeClear w.mask.toNat

/-! ## PCIe resets and link events (R328, R334, R348) -/

/-- R348: the rings whose FUNC passes a test are disabled under R266. -/
def Dev.ringsOff (d : Dev) (p : Nat → Bool) : Dev :=
  (List.range 256).foldl (fun d r =>
    if d.flag F.FRM_RING_CFG.ENABLE r && p (d.get F.FRM_RING_CFG.FUNC r) then d.ringDisable r else d) d

/-- R334: level HOST: the endpoint's own state, MSI-X and SR-IOV, and every DMA ring. -/
def Dev.hostReset (d : Dev) : Dev :=
  let d := (d.ringsOff fun _ => true).put F.HOST_PCIE_STAT.NUMVF 0
  { d with host := { d.host with d3 := [], msix := [], msixOn := [], msixMask := [] } }

/-- R348: PERST_N low is recognised: the link leaves L0 and has not trained. -/
def Dev.perst (d : Dev) : Dev :=
  let d := ((d.hostReset.put F.HOST_PCIE_STAT.L0 0).put F.HOST_PCIE_STAT.WIDTH 0).put F.HOST_PCIE_STAT.SPEED 0
  ({ d with host := { d.host with perst := true, trained := false } }).levelOff 258

def execPerst (c : Cycle) (s : State) : StepOut := s.run fun d => (({ d with cycle := c.val }).pinSee 1 false).perst

/-- R328: the release of PERST_N lets the endpoint train once step 4 has completed. -/
def Dev.perstRelease (d : Dev) : Dev := { d with host := { d.host with perst := false } }

def execPerstRelease (s : State) : StepOut := s.run fun d => (d.pinSee 1 true).perstRelease

/-- R328: the endpoint may train: PERST_N is high, boot step 4 is complete, and nothing has stopped PCIe (R304, R312). -/
def Dev.mayTrain (d : Dev) : Bool :=
  !d.host.perst && !d.boot.low && 5 ≤ d.get F.BOOT_STAT.STEP && !d.stopped && !d.boot.halted

/-- PCIE_LINK_UP: `width` 0-2 stands for 1, 2 or 4 lanes, `speed` 0-3 for 2.5 to 16 GT/s (R340). -/
def Dev.pcieUp (d : Dev) (width speed : Nat) : Dev :=
  -- R357: a lane in loop-back carries no link (DEDUCED, log entry 116)
  if d.mayTrain && decide (2 ^ width + (List.range 4).countP (fun l => (d.loopDepth 4 l).isSome) ≤ 4) then
    let d := ((d.put F.HOST_PCIE_STAT.L0 1).put F.HOST_PCIE_STAT.WIDTH (2 ^ width)).put F.HOST_PCIE_STAT.SPEED (speed + 1)
    ({ d with host := { d.host with trained := true } }).levelOff 258
  else d

def execPcieLinkUp (width : Fin 3) (speed : Fin 4) (s : State) : StepOut := s.run fun d => d.pcieUp width speed

/-- The link leaves L0 after training: PCIE_LINK_DOWN holds. -/
def Dev.pcieLoss (d : Dev) : Dev :=
  if d.host.trained then (d.put F.HOST_PCIE_STAT.L0 0).levelOn 258 else d

def execPcieLinkLoss (s : State) : StepOut := s.run fun d => d.pcieLoss

/-- The bytes of a function's BAR2 in the MSI-X memory. -/
def msixOf (f a : Nat) : Bool := a / 16384 == f

/-- R348: an FLR of the PF acts as level HOST; one of VF m disables its rings, clears its MSI-X table and undoes its grant. -/
def Dev.flr (d : Dev) (f : Nat) : Dev :=
  if f = 0 then d.hostReset else
  let d := (d.ringsOff fun g => g == f).grantUndo (512 + f)
  { d with host := { d.host with
    d3 := d.host.d3.filter (· != f), msix := d.host.msix.filter fun c => !msixOf f c.1,
    msixOn := d.host.msixOn.filter (· != f), msixMask := d.host.msixMask.filter (· != f) } }

def execFlr (f : Fin 32) (c : Cycle) (s : State) : StepOut := s.run fun d => ({ d with cycle := c.val }).flr f

/-- R348: D3hot of a function disables its rings and masks its vectors. -/
def Dev.d3hot (d : Dev) (f : Nat) : Dev :=
  let d := d.ringsOff fun g => g == f
  { d with host := { d.host with d3 := if d.host.d3.contains f then d.host.d3 else d.host.d3 ++ [f] } }

def execD3hotEntry (f : Fin 32) (c : Cycle) (s : State) : StepOut := s.run fun d => ({ d with cycle := c.val }).d3hot f

/-- A list of functions with or without one of them. -/
def listPut (l : List Nat) (f : Nat) (on : Bool) : List Nat :=
  if !on then l.filter (· != f) else if l.contains f then l else l ++ [f]

/-- R341: the bytes of BAR2 that a host writes: the table's; the PBA is read-only. -/
def Dev.bar2Write (d : Dev) (f x : Nat) : List (Byte × Bool) → Dev
  | [] => d
  | (b, on) :: r =>
    let b := if x % 16 = 12 then b &&& 1 else if 12 < x % 16 then 0 else if x % 16 = 0 then b &&& 0xFC else b
    Dev.bar2Write (if on && decide (x < 2048) then d.bar2Put f x b else d) f (x + 1) r

/-- R340: what the identification registers of a function hold: vendor, device, class. -/
def fnIds (f : Nat) : Nat × Nat × Nat := (0x1F3C, if f = 0 then 0x9640 else 0x9641, 0x088000)

/-- The function that a configuration request or a BAR2 access addresses. -/
def cfgFn : HostCfg → Nat
  | .vfs _ => 0
  | .wake f => f
  | .ident f => f
  | .msix f _ _ => f
  | .bar2Write f _ _ => f
  | .bar2Read f _ _ => f

/-- R340-R342: a configuration request or BAR2 access of the host. LOG ENTRY 69: it acts at the tick's end. -/
def Dev.hostCfg (d : Dev) (c : HostCfg) : Dev :=
  if !d.flag F.HOST_PCIE_STAT.L0 || d.stopped || d.boot.low || d.boot.halted || decide (d.get F.HOST_PCIE_STAT.NUMVF < cfgFn c)
  then d else
  match c with
  | .vfs n =>
    let d := (List.range 32).foldl (fun d f => if n.val < f then d.flr f else d) d
    d.put F.HOST_PCIE_STAT.NUMVF n.val
  | .wake f => ({ d with host := { d.host with d3 := d.host.d3.filter (· != f.val) } } : Dev).msixFlush f
  | .ident f => let i := fnIds f; d.emit (.config f i.1 i.2.1 i.2.2)
  | .msix f on mask =>
    ({ d with host := { d.host with
      msixOn := listPut d.host.msixOn f on, msixMask := listPut d.host.msixMask f mask } } : Dev).msixFlush f
  | .bar2Write f x l => if d.host.d3.contains f.val then d else ((d.bar2Write f x.toNat l).msixFlush f)
  | .bar2Read f x n =>
    if d.host.d3.contains f.val then d
    else d.emit (.bytes f.val ((List.range (min n.toNat (16384 - x.toNat))).map fun i => d.bar2 f (x.toNat + i)) false)

/-- R26, R347: a register access has not completed: a read returns 0xFFFF_FFFF, a write is dropped. -/
def Dev.hostTimeout (d : Dev) (p : Path) (write : Bool) : Dev :=
  if !p.isHost then d else
  let d := d.accessTimeout p
  if write then d else d.emit (.readData p.code [0xFFFFFFFF] (pathStatus p 1))

def execHostAccessTimeout (p : Path) (write : Bool) (s : State) : StepOut := s.run fun d => d.hostTimeout p write

/-! ## The Vat window and the apertures (R344-R346) -/

/-- R345: the runs of enabled bytes of a write: offset and bytes. -/
def byteRuns : Nat → List (Byte × Bool) → List (Nat × List Byte)
  | _, [] => []
  | a, (b, on) :: r =>
    let rest := byteRuns (a + 1) r
    if !on then rest
    else match rest with
      | (a', l) :: t => if a' = a + 1 then (a, b :: l) :: t else (a, [b]) :: rest
      | [] => [(a, [b])]

/-- The range touches a structure that discards writes (R143, R225, R388). -/
def Dev.vatGuarded (d : Dev) (a n : Nat) : Bool := d.touchesTables a n || d.touchesContexts a n || d.touchesLoops a n

/-- R84, R345, R346: a host write of the covered bytes; one that touches a guarded structure is discarded whole. -/
def Dev.windowWrite (d : Dev) (a : Nat) (data : List (Byte × Bool)) (ep : Bool) : Dev :=
  let runs := byteRuns a (data.take (2 ^ 26 - a))
  let d := if ep then d.fault 259 else d
  match runs.find? fun r => d.vatGuarded r.1 r.2.length with
  | some r => d.vatUser r.1 r.2
  | none => runs.foldl (fun d r => if ep then d.vatUserPoison r.1 r.2 else d.vatUser r.1 r.2) d

/-- R97, R346: a host read: the stored data, and whether a word is poisoned or uncorrectable. -/
def Dev.windowRead (d : Dev) (p : Path) (a n : Nat) : Dev × List Byte × Bool :=
  let d := d.ctxShow a n
  let bad := d.vbad a n
  let d := d.vatTouch a n 3
  let d := if bad then d.pathError p 2 else d
  let d := match p with
    | .pcie _ => if bad then d.fault 259 else d
    | _ => d
  (d, d.vbytes a n, bad)

/-- The PF reaches the Vat window; a VF has none. -/
def pfPath : Path := .pcie 0

/-- R345: VAT_WINDOW_WRITE over PCIe: each byte with its byte enable; `ep` is the EP bit (R346). -/
def execVatWindowWrite (off : BitVec 26) (data : List (Byte × Bool)) (ep : Bool) (c : Cycle) (s : State) : StepOut :=
  s.runBy pfPath off.toNat fun d => ({ d with cycle := c.val }).windowWrite off.toNat data ep

/-- A read over PCIe and its completion. -/
def Dev.windowGive (d : Dev) (p : Path) (a n : Nat) : Dev :=
  let (d, l, bad) := d.windowRead p a n
  d.emit (.bytes p.code l bad)

def execVatWindowRead (off : BitVec 26) (len : BitVec 13) (c : Cycle) (s : State) : StepOut :=
  s.run fun d =>
    let d := { d with cycle := c.val }
    match d.access pfPath off.toNat false with
    | .ok => d.windowGive pfPath off.toNat (min len.toNat (2 ^ 26 - off.toNat))
    | .timeout => d.hostTimeout pfPath false
    | _ => d

/-- R344: an access of VF m at aperture offset x: a write of bytes, or a read of `len`. -/
def Dev.apertureAccess (d : Dev) (m x : Nat) (write : Option (List (Byte × Bool))) (len : Nat) (ep : Bool) : Dev :=
  if m = 0 ∨ d.get F.BOOT_STAT.STEP ≤ 4 then d else
  let p : Path := .pcie ⟨m % 32, by omega⟩
  match d.access p R.VAT_QHOST_CMD.off false with
  | .ok =>
    let n := match write with
      | some l => l.length
      | none => len
    let a := d.get F.HOST_VF_APT.GRANULE m * 4096 + x
    if d.get F.HOST_VF_APT.SIZE m * 4096 < x + n then
      if write.isSome then if ep then d.fault 259 else d else d.emit (.unsupported p.code)
    else match write with
      | some l => d.windowWrite a l ep
      | none => d.windowGive p a n
  | _ => d

def execVfApertureAccess (f : Fin 32) (x : BitVec 20) (write : Option (List (Byte × Bool))) (len : BitVec 13) (ep : Bool)
    (c : Cycle) (s : State) : StepOut :=
  s.run fun d => ({ d with cycle := c.val }).apertureAccess f x.toNat write len.toNat ep

/-! ## XI2C controllers (R354, R355) -/

def Dev.xiState (d : Dev) (n : Nat) : Nat := d.get F.XI2C_STAT.STATE n

/-- R354: the first WLEN bytes of XI2C_DATA. -/
def Dev.xiBytes (d : Dev) (n : Nat) : List Byte :=
  leBytes 4 (d.rd R.XI2C_DATA0 n) ++ leBytes 4 (d.rd R.XI2C_DATA1 n)

/-- R354: XFER: refused while BUSY, RECOVERING, STUCK or GIVEN_UP, and while the controller is off. The bus carries S, the
address with W and WLEN bytes; with RLEN also Sr, the address with R and RLEN bytes. -/
def Dev.xiXfer (d : Dev) (p : Path) (n addr wlen rlen : Nat) : Dev :=
  let off := R.XI2C_CMD.off n
  if 8 < wlen ∨ 8 < rlen then d.refuse p.code off .range
  else if wlen + rlen = 0 then d.refuse p.code off .combination
  else if [1, 5, 6, 7].contains (d.xiState n) || !d.flag F.XI2C_CFG.ENABLE n then d.refuse p.code off .state
  else
    let d := (d.put F.XI2C_STAT.STATE 1 n).put F.XI2C_STAT.ABORT_LATE 0 n
    let d := d.setXi2c n { d.xi2c n with addr := addr, wlen := wlen, rlen := rlen }
    let sent := .start :: .byte (BitVec.ofNat 8 (2 * addr)) :: ((d.xiBytes n).take wlen).map .byte
    d.emit (.i2c n (if rlen = 0 then sent else sent ++ [.start, .byte (BitVec.ofNat 8 (2 * addr + 1)), .read rlen]))

def execXi2cXfer (p : Path) (n : Fin 2) (addr : BitVec 7) (wlen rlen : BitVec 4) (s : State) : StepOut :=
  s.runBy p (R.XI2C_CMD.off n) fun d => d.xiXfer p n addr.toNat wlen.toNat rlen.toNat

/-- R354: the transfer ends with P: NACK, or DONE with the bytes read. -/
def Dev.xiEnd (d : Dev) (n : Nat) (nack : Bool) (data : Nat) : Dev :=
  if d.xiState n ≠ 1 then d else
  let x := d.xi2c n
  let d := (d.setXi2c n { x with doneAt := some d.absCycle }).emit (.i2c n [.stop])
  let l := leBytes x.rlen data ++ (d.xiBytes n).drop x.rlen
  let d := if nack || x.rlen == 0 then d else (d.wr R.XI2C_DATA0 (leAt l 0 4) n).wr R.XI2C_DATA1 (leAt l 4 4) n
  (d.put F.XI2C_STAT.STATE (if nack then 3 else 2) n).irqSet F.HOST_IRQ_CAUSE.XI2C

def execXi2cTransferEnd (n : Fin 2) (nack : Bool) (data : DWord) (c : Cycle) (s : State) : StepOut :=
  s.run fun d => ({ d with cycle := c.val }).xiEnd n nack data.toNat

/-- R355: steps 1-3 begin: up to 9 pulses of 10 us, and a STOP that is complete 10 us after the last of them. -/
def Dev.xiRecover (d : Dev) (n : Nat) (sda : SdaForm) (retry : Bool) : Dev :=
  let d := d.put F.XI2C_STAT.STATE 5 n
  let d := d.setXi2c n { d.xi2c n with recover := some ⟨d.tick + 10 * (sda.pulses + 2), sda.high, retry⟩ }
  d.emit (.i2c n (List.replicate (sda.pulses + 1) .pulse))

/-- R355: SDA is still low after the STOP: STUCK, or after the eighth failed retry GIVEN_UP. -/
def Dev.xiStillLow (d : Dev) (n : Nat) (retry : Bool) : Dev :=
  let d := (d.put F.XI2C_STAT.STATE 6 n).setXi2c n { d.xi2c n with since := d.tick }
  if d.get F.XI2C_STAT.RETRIES n = 8 then
    ((d.put F.XI2C_STAT.STATE 7 n).fault 261).irqSet F.HOST_IRQ_CAUSE.XI2C
  else if retry then d
  else (d.fault 260 n).irqSet F.HOST_IRQ_CAUSE.XI2C

/-- R355: a recovery whose STOP is complete by the present boundary ends: with SDA high the bus is IDLE. -/
def Dev.xiBoundary (d : Dev) (n : Nat) : Dev :=
  match (d.xi2c n).recover with
  | none => d
  | some r =>
    if d.tick < r.done then d else
    let d := (d.setXi2c n { d.xi2c n with recover := none }).emit (.i2c n [.stop])
    if r.high then (d.put F.XI2C_STAT.STATE 0 n).incSat F.XI2C_STAT.RECOVERIES n else d.xiStillLow n r.retry

/-- A recovery from its beginning. -/
def Dev.xiRestart (d : Dev) (n : Nat) (sda : SdaForm) : Dev := (d.put F.XI2C_STAT.RETRIES 0 n).xiRecover n sda false

/-- R354, R355: RESET; in the cycle of a completion it loses. -/
def Dev.xiReset (d : Dev) (n : Nat) (sda : SdaForm) : Dev :=
  if (d.xi2c n).doneAt = some d.absCycle then d.put F.XI2C_STAT.ABORT_LATE 1 n
  else (d.put F.XI2C_STAT.ABORT_LATE 0 n).xiRestart n sda

/-- XI2C_RESET: `sda` says what SDA does in the recovery. -/
def execXi2cReset (p : Path) (n : Fin 2) (sda : SdaForm) (c : Cycle) (s : State) : StepOut :=
  s.runBy p (R.XI2C_CMD.off n) fun d => ({ d with cycle := c.val }).xiReset n sda

/-- R354: a target stretches SCL too long: TIMEOUT, then recovery. -/
def Dev.xiStretch (d : Dev) (n : Nat) (sda : SdaForm) : Dev :=
  if d.xiState n ≠ 1 then d else
  ((d.put F.XI2C_STAT.STATE 4 n).irqSet F.HOST_IRQ_CAUSE.XI2C).xiRestart n sda

def execXi2cStretchTimeout (n : Fin 2) (sda : SdaForm) (s : State) : StepOut := s.run fun d => d.xiStretch n sda

/-- R26, R355: SDA low at idle for 1 ms. -/
def Dev.xiStuck (d : Dev) (n : Nat) (sda : SdaForm) : Dev :=
  if [1, 5, 6, 7].contains (d.xiState n) || !d.flag F.XI2C_CFG.ENABLE n then d
  else (d.waitTimeout 3).xiRestart n sda

def execXi2cSdaStuck (n : Fin 2) (sda : SdaForm) (s : State) : StepOut := s.run fun d => d.xiStuck n sda

/-- R355: a retry, 100 ms after the last attempt. -/
def Dev.xiRetry (d : Dev) (n : Nat) (sda : SdaForm) : Dev :=
  if d.xiState n = 6 ∧ (d.xi2c n).since + 100000 ≤ d.tick then
    (d.put F.XI2C_STAT.RETRIES (min 8 (d.get F.XI2C_STAT.RETRIES n + 1)) n).xiRecover n sda true
  else d

def execXi2cRecoveryRetry (n : Fin 2) (sda : SdaForm) (s : State) : StepOut := s.run fun d => d.xiRetry n sda

/-! ## FSPI (R356) -/

/-- R356, R335: boot step 7 or an image restart is running. -/
def Dev.fspiTaken (d : Dev) : Bool := d.get F.BOOT_STAT.STEP == 7 || d.get F.BOOT_STAT.RESTART == 1

/-- A refused FSPI command. -/
def Dev.fspiRefuse (d : Dev) (p : Path) (r : Reason) : Dev := d.refuse p.code R.FSPI_CMD.off r

/-- R356, R332: what goes to the flash: a READ in its mode; write enable, the command and the status poll of the others. -/
def flashSent (op mode a : Nat) (l : List Byte) : List Out :=
  if op = 1 then [.flash ([0x03, 0xEB, 0xED].getD mode 0x03) a []]
  else if op = 2 then [.flash 0x06 0 [], .flash 0x02 a l, .flash 0x05 0 []]
  else [.flash 0x06 0 [], .flash 0x20 (a / 4096 * 4096) [], .flash 0x05 0 []]

/-- An accepted FSPI command starts. -/
def Dev.fspiStart (d : Dev) (op mode len : Nat) : Dev :=
  let a := d.get F.FSPI_ADDR.VALUE
  let v := d.get F.FSPI_VAT.VALUE
  let d := (d.put F.FSPI_STAT.STATE 1).put F.FSPI_STAT.ABORT_LATE 0
  let d := { d with host := { d.host with fspi := ⟨op, mode, a, v, len, false, none⟩ } }
  let d := if op = 2 then (d.ctxShow v len).vatTouch v len 4 else d
  if d.get F.BOOT_STAT.STEP < 7 then d
  else (flashSent op mode a (if op = 2 then d.vbytes v len else [])).foldl (fun d o => d.emit o) d

/-- R356: READ, PROGRAM or ERASE; LEN 0 of a READ is 16,777,216. -/
def Dev.fspiCmd (d : Dev) (p : Path) (op mode len : Nat) : Dev :=
  let a := d.get F.FSPI_ADDR.VALUE
  let v := d.get F.FSPI_VAT.VALUE
  let n := if op = 1 ∧ len = 0 then 2 ^ 24 else len
  if (op = 1 ∧ mode = 3) ∨ (op = 2 ∧ (n = 0 ∨ 256 < n)) then d.fspiRefuse p .range
  else if (op = 2 ∧ 256 < a % 256 + n) ∨ (op ≠ 3 ∧ 2 ^ 26 < v + n) then d.fspiRefuse p .combination
  else if d.get F.FSPI_STAT.STATE = 1 || d.fspiTaken then d.fspiRefuse p .state
  else d.fspiStart op mode n

def execFspiRead (p : Path) (mode : BitVec 2) (len : BitVec 24) (s : State) : StepOut :=
  s.runBy p R.FSPI_CMD.off fun d => d.fspiCmd p 1 mode.toNat len.toNat
def execFspiProgram (p : Path) (len : BitVec 24) (s : State) : StepOut :=
  s.runBy p R.FSPI_CMD.off fun d => d.fspiCmd p 2 0 len.toNat
def execFspiErase (p : Path) (s : State) : StepOut := s.runBy p R.FSPI_CMD.off fun d => d.fspiCmd p 3 0 0

/-- R356: ABORT stops the transfer once the current flash command ends; in the cycle of a completion it loses. -/
def Dev.fspiAbort (d : Dev) (p : Path) : Dev :=
  let f := d.host.fspi
  if d.get F.FSPI_STAT.STATE = 1 ∧ !d.fspiTaken then { d with host := { d.host with fspi := { f with abort := true } } }
  else if f.doneAt = some d.absCycle then d.put F.FSPI_STAT.ABORT_LATE 1
  else d.fspiRefuse p .state

def execFspiAbort (p : Path) (c : Cycle) (s : State) : StepOut :=
  s.runBy p R.FSPI_CMD.off fun d => ({ d with cycle := c.val }).fspiAbort p

/-- R356: a command ends; a READ's data reaches the Vat, an aborted one's as far as it was read. -/
def Dev.fspiEnd (d : Dev) (data : List Byte) (late : Bool) : Dev :=
  if d.get F.FSPI_STAT.STATE ≠ 1 then d else
  let f := d.host.fspi
  let d := if f.op = 1 then d.vatUser f.vat (if f.abort then data.take f.len else sliceB data 0 f.len) else d
  let st := if f.abort then 3 else if f.op ≠ 1 && late then 4 else 2
  let d := { d with host := { d.host with fspi := { f with doneAt := some d.absCycle } } }
  (d.put F.FSPI_STAT.STATE st).irqSet F.HOST_IRQ_CAUSE.FSPI

/-- FSPI_COMMAND_END: `data` is what the flash sent, `late` that the status poll timed out. -/
def execFspiCommandEnd (data : List Byte) (late : Bool) (c : Cycle) (s : State) : StepOut :=
  s.run fun d => ({ d with cycle := c.val }).fspiEnd data late

end Sys2Proof.Machine
end

