-- ==== Sys2Proof/Machine/Test.lean ====
section
/-! DEFINITION. Loop-backs, self-tests, self-stamping and the TAP (17). -/

namespace Sys2Proof.Machine

/-! ## Loop-backs (R357) -/

/-- R357: instances of a kind: 40 IN, 72 OUT, 8 FP, 8 KL, 4 PCIe lanes. -/
def loopCount : Nat → Nat
  | 0 => 40
  | 1 => 72
  | 2 => 8
  | 3 => 8
  | 4 => 4
  | _ => 0

/-- Table Loop-back matrix: how many depths a kind has. -/
def loopDepths : Nat → Nat
  | 0 => 4
  | 1 => 2
  | 2 => 4
  | 3 => 4
  | 4 => 2
  | _ => 0

/-- Every instance that may be in loop-back: kind and number. -/
def loopInstances : List (Nat × Nat) := (List.range 5).flatMap fun k => (List.range (loopCount k)).map fun i => (k, i)

/-- A self-test is in progress. -/
def Dev.bistBusy (d : Dev) : Bool := d.get F.TST_BIST_STAT.STATE == 1

/-- TST_LB_ACTIVE, and TST_ACTIVE while a loop-back or an on-demand self-test is in force. -/
def Dev.testShow (d : Dev) : Dev :=
  let n := (loopInstances.filter fun p => (d.loopDepth p.1 p.2).isSome).length
  (d.put F.TST_LB_ACTIVE.COUNT n).levelSet 263 0 (0 < n || d.bistBusy)

/-- R357: at D4 an input delivers synthetic stamp records: the XO times in the present tick of the test source's edges
k, at k × DIV ÷ f_XO, in 2^-32 ns, and k. -/
def Dev.testEdges (d : Dev) : List (Nat × Nat) :=
  let p := d.get F.TST_SRC.DIV * 10 ^ 9 * 2 ^ 32   -- f_XO periods
  let lo := d.tick * tickUnits
  let k0 := ceilDiv (lo * d.xoHz) (max 1 p)
  let k1 := ceilDiv ((lo + tickUnits) * d.xoHz) (max 1 p)
  (List.range (k1 - k0)).map fun i => ((k0 + i) * p / max 1 d.xoHz, k0 + i)

/-- R357: the synthetic records of input n for the present tick. -/
def Dev.synthetic (d : Dev) (n : Nat) : Dev :=
  if d.loopDepth 0 n != some 3 then d else
  d.testEdges.foldl (fun d e =>
    let t := (d.edgeLt ((e.1 : Int), 1) n).toNat
    let (d, b) := d.stampForm n ⟨t, 0, e.2⟩
    d.stampWrite n b) d

/-! ## On-demand self-test (R360, R361) -/

/-- R360: the granules of a range lie within pools 8-15. -/
def Dev.granulesFree (d : Dev) (g n : Nat) : Bool :=
  (List.range n).all fun i => d.inFreePool ((g + i) * 4096) 4096

/-- R360: the range may be tested: no enabled queue, no save shadow and no trace buffer lies in it. -/
def Dev.bistRangeOk (d : Dev) (g n : Nat) : Bool :=
  let a := g * 4096
  let l := n * 4096
  d.granulesFree g n &&
  !((List.range 4096).any fun q =>
      let x := d.qdesc q
      x.enabled && overlap a l x.base (x.size * x.entry)) &&
  !overlap a l (d.get F.REAM_SAVE_CFG.GRANULE * 4096) (d.get F.REAM_SAVE_CFG.SHADOW * 4096) &&
  !((List.range 4).any fun r => overlap a l (d.get F.TDC_TR_BUF.GRANULE r * 4096) (d.get F.TDC_TR_BUF.SIZE r * 4096))

/-- A refused self-test command. -/
def Dev.bistRefuse (d : Dev) (p : Path) : Dev := d.refuse p.code R.TST_BIST_CMD.off .state

/-- R360: VAT and ENGINE: op 1 and 2. The command acts at the next boundary. R386: COUNT 0 is unset. -/
def Dev.bistCmd (d : Dev) (p : Path) (op c : Nat) : Dev :=
  let unset := op = 1 ∧ d.get F.TST_BIST_RANGE.COUNT = 0
  let ok := if op = 1 then
      d.view.bistRangeOk (d.get F.TST_BIST_RANGE.GRANULE) (d.get F.TST_BIST_RANGE.COUNT)
    else d.clusterOn c && !d.clusterBound c
  if unset then d.refuse p.code R.TST_BIST_CMD.off .combination
  else if d.bistBusy || d.test.cmd.isSome || !ok then d.bistRefuse p
  else { d with test := { d.test with
    cmd := some (if op = 1 then (1, d.get F.TST_BIST_RANGE.GRANULE, d.get F.TST_BIST_RANGE.COUNT) else (2, c, 0)) } }

def execBistVat (p : Path) (s : State) : StepOut := s.runBy p R.TST_BIST_CMD.off fun d => d.bistCmd p 1 0
def execBistEngine (p : Path) (c : Fin 16) (s : State) : StepOut := s.runBy p R.TST_BIST_CMD.off fun d => d.bistCmd p 2 c

/-- R361: ABORT, at the next boundary; in the cycle of a completion it loses. -/
def Dev.bistAbortCmd (d : Dev) (p : Path) : Dev :=
  if d.bistBusy then { d with test := { d.test with cmd := some (3, 0, 0) } }
  else if d.test.doneAt = some d.absCycle then d.put F.TST_BIST_STAT.ABORT_LATE 1
  else if d.test.cmd.isSome then { d with test := { d.test with cmd := none } }
  else d.bistRefuse p

def execBistAbort (p : Path) (c : Cycle) (s : State) : StepOut :=
  s.runBy p R.TST_BIST_CMD.off fun d => ({ d with cycle := c.val }).bistAbortCmd p

/-- Granules g to g + n - 1 read zero and without error. -/
def Dev.vatZero (d : Dev) (g n : Nat) : Dev :=
  let inside := fun (a : Nat) => decide (g * 4096 ≤ a ∧ a < (g + n) * 4096)
  let v := d.vat
  { d with vat := { v with
    mem := v.mem.filter fun c => !inside c.1
    ce := v.ce.filter fun w => !inside (8 * w)
    ue := v.ue.filter fun w => !inside (8 * w) } }

/-- R47: a cluster's stores and its engines' memories read zero. -/
def Dev.clusterZero (d : Dev) (c : Nat) : Dev :=
  let d := d.setClus c { d.clus c with istore := [], cmem := [], cue := [], cce := [], live := [], staged := [] }
  { d with engs := d.engs.filter fun e => e.1 / 32 != c }

/-- n double words from a byte address, each a free value (log entry 2). -/
def freeFill (m : Memory) (a n free : Nat) : Memory :=
  (List.range n).foldl (fun m i => Memory.writeN 0 m (a + 8 * i) (leBytes 8 (Config.free64 (free + i)).toNat)) m

/-- R361: an aborted VAT test leaves its range indeterminate. -/
def Dev.vatIndet (d : Dev) (g n : Nat) : Dev :=
  let w := 512 * n
  { d.vatZero g n with
    vat := { (d.vatZero g n).vat with mem := freeFill (d.vatZero g n).vat.mem (g * 4096) w d.free }
    free := d.free + w }

/-- R361: an aborted ENGINE test leaves its cluster indeterminate: 64 KiB of instructions, 256 KiB of cluster memory. -/
def Dev.clusterIndet (d : Dev) (c : Nat) : Dev :=
  let d := d.clusterZero c
  let x := { d.clus c with istore := freeFill [] 0 8192 d.free, cmem := freeFill [] 0 32768 (d.free + 8192) }
  let d := { d.setClus c x with free := d.free + 40960 }
  (List.range 32).foldl (fun d i =>
    let e := 32 * c + i
    { d.setEng e { d.eng e with lmem := freeFill [] 0 512 d.free } with free := d.free + 512 }) d

/-- R361: a running self-test is aborted. -/
def Dev.bistStop (d : Dev) : Dev :=
  match d.test.run with
  | none => d
  | some (op, a, n) =>
    let d := if op = 1 then d.vatIndet a n else d.clusterIndet a
    -- an ABORT that waits has nothing left to end
    ({ d.put F.TST_BIST_STAT.STATE 4 with test := { d.test with run := none, cmd := none } }).testShow

/-- R360: a self-test completes; `fail` names the granule or engine that failed first. -/
def Dev.bistDone (d : Dev) (fail : Option Nat) : Dev :=
  match d.test.run with
  | none => d
  | some (op, a, n) =>
    let d := if op = 1 then d.vatZero a n else d.clusterZero a
    let d := { d with test := { d.test with run := none, doneAt := some d.absCycle } }
    let d := match fail with
      | none => d.put F.TST_BIST_STAT.STATE 2
      | some w =>
        let d := (d.put F.TST_BIST_STAT.STATE 3).put F.TST_BIST_STAT.WHERE w
        if op = 1 then d.fault 67 else d.fault 40 0 (a * 2 ^ 8)
    d.testShow

/-- R360: a self-test takes at most COUNT + 2 ticks on a range, and 2,000 on a cluster. -/
def bistLimit (op n : Nat) : Nat := if op = 1 then n + 2 else 2000

/-- R360: a self-test that has used up its time ends at the boundary: with PASS where BIST_DONE has brought no failure (DESIGN
CHOICE, log entry 116). -/
def Dev.bistDue (d : Dev) : Dev :=
  match d.test.run with
  | some (op, _, n) => if d.test.start + bistLimit op n ≤ d.tick then d.bistDone none else d
  | none => d

/-- R360, R361: a self-test command takes effect at a boundary; an ABORT loses against a completion. -/
def Dev.bistBoundary (d : Dev) : Dev :=
  let d := d.bistDue
  match d.test.cmd with
  | none => d
  | some (op, a, n) =>
    let d := { d with test := { d.test with cmd := none } }
    if op = 3 then if d.test.run.isNone then d.put F.TST_BIST_STAT.ABORT_LATE 1 else d.bistStop
    else
      let d := (d.put F.TST_BIST_STAT.STATE 1).put F.TST_BIST_STAT.ABORT_LATE 0
      ({ d with test := { d.test with run := some (op, a, n), start := d.tick } }).testShow

def execBistDone (fail : Option (BitVec 14)) (c : Cycle) (s : State) : StepOut :=
  let f : Option Nat := fail.map fun w => w.toNat
  s.run fun d => ({ d with cycle := c.val }).bistDone f

/-- R245, R304, R361: power-fail handling at boundary action 6, if PFAIL_N was recognised: a self-test is aborted and the
open bins close first. -/
def Dev.powerFail (d : Dev) : Dev := if d.boot.pfail then d.bistStop.piPower.saveStart else d

def execSaveStart (s : State) : StepOut := s.run fun d => d.powerFail

/-! ## Self-stamping (R362) -/

/-- R362: where the pulse of cycle 600 reaches channel c, in 2^-32 ns from the tick's begin: FIRST at once, the others through tap TAP;
then through the channel's fixed path (R199). -/
def Dev.pulseAt (d : Dev) (c : Nat) : Nat :=
  let tap := if c = d.get F.TST_SELF_CFG.FIRST then 0 else (Config.tapDelay (d.get F.TST_SELF_CFG.TAP)).toNat * 2 ^ 16
  (((480 * 2 ^ 32 + tap : Nat) : Int) + Config.pathDelay c + (d.glitch c * 2 ^ 32 / 5 : Nat)).toNat

/-- R194, R195: the coarse period of the present tick in which an edge falls, and the code that its interval has exactly. -/
def Dev.exactCode (d : Dev) (c at' : Nat) : Nat × Int :=
  let coarse := at' * 5 / 2 ^ 33
  let x := d.tdc c
  let (c1, c2) := (if d.tick % 2 = 0 then x.calB else x.calA).getD (0, 0)
  (coarse, 2 * (c1 : Int) - c2 + roundDiv ((((coarse + 2) * 2 ^ 33 : Nat) - (at' * 5 : Nat)) * ((c2 : Int) - c1)) (2 ^ 33))

/-- R362: a channel stamps the pulse, its code `dev` beside the exact one. The stamp reaches measurement slots only, and the
next record carries LOST. -/
def Dev.selfStamp (d : Dev) (c : Nat) (dev : Int) : Dev :=
  let (coarse, code) := d.exactCode c (d.pulseAt c)
  let code := (code + dev).toNat
  let xo := d.edgeXo c coarse code
  let t := (d.edgeLt xo c).toNat
  let stale := (d.interval c code).2.2
  let x := d.tdc c
  let open' := if d.tick % 2 = 0 then x.calB.isNone else x.calA.isNone
  let d := if open' then d.freeNext else d
  let d := d.setTdc c { x with lost := true }
  let e : MsEdge := ⟨t, (t : Int) - d.time.stepSum, stale, d.absCycle⟩
  (List.range 64).foldl (fun d s => d.msStamp c e s) d

/-- What the row says of a channel's code; a free value (log entry 2) for a channel that it does not name. -/
def Dev.selfDev (d : Dev) (reads : List SelfRead) (c : Nat) : Int :=
  match reads.find? fun r => r.ch.val == c with
  | some r => r.dev.toInt
  | none => toSigned 8 (d.freeVal % 256)

/-- SELF_STAMP_PULSE, at cycle 600: every channel from FIRST to LAST stamps the pulse. -/
def Dev.selfPulse (d : Dev) (reads : List SelfRead) : Dev :=
  if !d.flag F.TST_SELF_CFG.ENABLE || d.test.lastTick == some d.tick then d else
  let d := { d with cycle := 600, test := { d.test with lastTick := some d.tick } }
  ((List.range 136).filter d.selfStamping).foldl (fun d c => d.freeNext.selfStamp c (d.selfDev reads c)) d

def execSelfStampPulse (reads : List SelfRead) (s : State) : StepOut := s.run fun d => d.selfPulse reads

/-! ## Boundary scan (R363) -/

/-- The n low bits of a number, bit 0 first. -/
def bitsOf (n v : Nat) : List Bool := (List.range n).map (bit v)

/-- The data that the register of an instruction captures: 0 of BYPASS, IDCODE, or the boundary register what the pins show. -/
def tapCapture (ir : Nat) (pins : List Bool) : List Bool :=
  if ir = 0 then [false] else if ir = 1 then bitsOf 32 0x196401F5 else pins

/-- R363: the boundary cells drive the pins; cell 0, of XO, only samples. -/
def Dev.cellsDrive (d : Dev) : Dev := d.emit (.cells (d.test.cells.drop 1))

/-- R363: TRST_N low holds Test-Logic-Reset, which selects IDCODE. Else the TAP takes an instruction: 0 BYPASS, 1 IDCODE, 2
SAMPLE/PRELOAD, 3 EXTEST, 4 EXTEST_PULSE, 5 EXTEST_TRAIN, of which the last three load only while RESET_N is recognised low;
then one scan of its data register. With the last three the cells drive the pins, before the scan and after it. LOG ENTRY
116: the order of the cells. -/
def Dev.tapLoad (d : Dev) (x : TapScan) : Dev :=
  if !x.trst then { d with test := { d.test with ir := 1, held := true } } else
  let ir := if 3 ≤ x.ir.val && !d.boot.low then 0 else x.ir.val
  let d : Dev := { d with test := { d.test with ir := ir, held := false } }
  let d := if 3 ≤ ir then d.cellsDrive else d
  let d := d.emit (.tap (tapCapture ir x.pins))
  let d : Dev := if 2 ≤ ir then { d with test := { d.test with cells := x.shift } } else d
  if 3 ≤ ir then d.cellsDrive else d

def execTapInstruction (i : TapScan) (s : State) : StepOut := s.run fun d => d.tapLoad i

end Sys2Proof.Machine
end

