-- ==== Sys2Proof/Machine/Boundary.lean ====
section
/-! DEFINITION. R19: tick-synchronous fields take effect at a tick boundary, and what follows in the blocks. -/

namespace Sys2Proof.Machine

/-- R19: the tick-synchronous words accepted in the ended tick take effect. -/
def Dev.accTake (d : Dev) : Dev :=
  let e := { d with regs := mergeTbl FieldSpec.sync d.regs d.acc, acc := [] }
  let e := (List.range 40).foldl (fun e n => Dev.inputApply d e n) e
  let e := (List.range 136).foldl (fun e c => Dev.tdcApply d e c) e
  (e.clusterApply (d.get F.ENG_CLUSTER_PWR.ON)).testShow

end Sys2Proof.Machine
end

