-- ==== Sys2Proof/Machine/BootCmd.lean ====
section
/-! DEFINITION. BOOT_CMD (R326, R332, R335): what its three operations record; Boot.lean acts on it. -/

namespace Sys2Proof.Machine

/-- R335: RESTART is refused while a restart runs or waits, and unless KL_STAGE_STAT.STATE is IDLE. `flash` is what the
flash holds at the image that SRC selects. -/
def Dev.bootRestartCmd (d : Dev) (p : Path) (src : Nat) (flash : List Byte) : Dev :=
  if src = 3 then d.refuse p.code R.BOOT_CMD.off .range
  else if d.get F.BOOT_STAT.RESTART = 1 || d.boot.cmdRestart.isSome || d.get F.KL_STAGE_STAT.STATE != 0 then
    d.refuse p.code R.BOOT_CMD.off .state
  else { d with boot := { d.boot with cmdRestart := some (src, flash), pushed := false } }

/-- R326: RELEASE lets the outputs start after the alternative of step 12. -/
def Dev.bootReleaseCmd (d : Dev) : Dev :=
  if d.get F.BOOT_STAT.STEP = 13 ∧ bit (d.get F.BOOT_ALT.ALT) 11 ∧ !d.boot.loss ∧ !d.boot.halted then
    { d with boot := { d.boot with outsHeld := false } }
  else d

/-- R332: PUSH_GO: the pushed image is complete. -/
def Dev.pushGoCmd (d : Dev) : Dev := { d with boot := { d.boot with pushed := true } }

end Sys2Proof.Machine
end

