-- ==== Sys2Proof/Machine/RegCheck.lean ====
section
/-! DEFINITION. The checks of a register write (R25): access, locks, ranges, combinations and states, for every register
that has more than the range of its fields. `v` is the configuration with the write (R387, R284), `o` the one
before it, `d` the device in force. -/

namespace Sys2Proof.Machine

/-- The register is one of these. -/
def Site.is (x : Site) (l : List Reg) : Bool := l.any fun r => r.base == x.reg.base

/-! ## Outputs and synthesizers (R164, R172, R173, R178, R194) -/

/-- The nominal frequency of an output's divider in Hz: numerator and denominator. -/
def Dev.outFreq (v : Dev) (k : Nat) : Nat × Nat :=
  let s := v.get F.OUT_CFG.SRC k
  let (vn, vd) := v.vco s
  (2 * vn, vd * v.get F.SYN_PLAN.POST s * v.outD2 k)

/-- Table Output formats: the highest frequency of a format in Hz; 2.6 GHz for any output. -/
def formatMax : Nat → Nat
  | 1 => 1600000000
  | 2 => 700000000
  | 4 => 1600000000
  | 5 => 250000000
  | _ => 2600000000

/-- R172: an odd D2 is at most 511 and needs an even POST. -/
def Dev.halfBad (v : Dev) (k : Nat) : Bool :=
  v.outD2 k % 2 == 1 && (decide (511 < v.outD2 k) || v.get F.SYN_PLAN.POST (v.get F.OUT_CFG.SRC k) % 2 == 1)

/-- R173: a running output breaks a limit. An output whose synthesizer is disabled does not run. -/
def Dev.outFreqBad (v : Dev) (k : Nat) : Bool :=
  let (n, m) := v.outFreq k
  v.flag F.SYN_CFG.ENABLE (v.get F.OUT_CFG.SRC k) && v.flag F.OUT_CFG.RUN k &&
    (decide (2 * n < m) || decide (formatMax (v.get F.OUT_CFG.FORMAT k) * m < n))

/-- R194: an output channel would get more than 400 MHz after its prescaler. -/
def Dev.chanRateBad (v : Dev) (k : Nat) : Bool :=
  let (n, m) := v.outFreq k
  v.flag F.SYN_CFG.ENABLE (v.get F.OUT_CFG.SRC k) && v.get F.OUT_CFG.FORMAT k != 0 &&
    decide (400000000 * m * v.get F.TDC_CH_DIV.DIV (40 + k) < n)

/-- R178: LVPECL in a bank at 1.8 V. -/
def Dev.formatBad (v : Dev) (k : Nat) : Bool := v.get F.OUT_CFG.FORMAT k == 4 && v.get F.OB_CFG.VSEL (k / 8) == 0

/-- The output checks of R172, R173, R178 and R194. -/
def Dev.outBad (v : Dev) (k : Nat) : Bool := v.halfBad k || v.outFreqBad k || v.chanRateBad k || v.formatBad k

/-- R164, R386: the plan of an enabled synthesizer is unset or breaks a limit, its outputs' among them. -/
def Dev.synBad (v : Dev) (n : Nat) : Bool :=
  v.flag F.SYN_CFG.ENABLE n &&
    (let nint := v.get F.SYN_PLAN.NINT n
     let pn := v.xoHz * (v.get F.SYN_PLAN.MULT n + 1)
     let r := v.get F.SYN_PLAN.RDIV n
     let (vn, vd) := v.vco n
     let post := v.get F.SYN_PLAN.POST n
     decide (nint < 16 ∨ post < 4 ∨ 8 < post ∨ pn < 10000000 * r ∨ 100000000 * r < pn ∨
       vn < 9600000000 * vd ∨ 12800000000 * vd < vn) ||
     (List.range 72).any fun k => v.get F.OUT_CFG.SRC k == n && v.outBad k)

/-! ## Inputs (R102, R103) -/

/-- R103: an enabled input breaks an enable check. -/
def Dev.inputBad (v : Dev) (n : Nat) : Bool :=
  v.flag F.IN_CFG.ENABLE n &&
    (let nom := v.inNom n                                    -- 2^-16 Hz
     let dv := v.get F.IN_PRESCALE.DIV n
     let se := v.flag F.IN_CFG.MODE n
     let hz := 2 ^ 16
     let modeBad := if se then decide (2 * nom < hz ∨ 250000000 * hz < nom)
       else decide (nom < 10000000 * hz ∨ 3000000000 * hz < nom)
     let gl := v.get F.IN_CFG.GLITCH n
     modeBad || decide (400000000 * hz * dv < nom) ||
       decide (4 * 10 ^ 9 * hz ≤ 2 * gl * nom) ||               -- GLITCH × 0.2 ns against 40% of the period
       (!se && (gl != 0 || v.flag F.IN_CFG.POL n)) || (se && (v.flag F.IN_CFG.TERM n || v.flag F.IN_CFG.BIAS n)) ||
       decide (v.get F.IN_MON_CFG.GATE n * nom < 2 * 1000 * hz * dv))

/-- R109: the limit order is broken. -/
def Dev.limitsBad (v : Dev) (n : Nat) : Bool :=
  let rl := v.gets F.IN_FREJ_MIN.LIMIT n
  let al := v.gets F.IN_FACC_MIN.LIMIT n
  let ah := v.gets F.IN_FACC_MAX.LIMIT n
  let rh := v.gets F.IN_FREJ_MAX.LIMIT n
  !decide (rl < al ∧ al ≤ ah ∧ ah < rh)

/-! ## Selection and rewind (R121, R124, R135) -/

/-- The eight entry bytes of a loop's list. -/
def Dev.entries (v : Dev) (l : Nat) : List Nat := (List.range 8).map fun k => v.prioEntry l k

/-- R121: two valid entries name the same reference. -/
def Dev.prioBad (v : Dev) (l : Nat) : Bool :=
  !distinct ((v.entries l).filterMap fun e => if bit e 7 then some (e % 64) else none)

/-- R124: MODE is FORCED and entry FORCE is not VALID. -/
def Dev.forceBad (v : Dev) (l : Nat) : Bool :=
  v.get F.SEL_MODE.MODE l == 2 && !bit (v.prioEntry l (v.get F.SEL_MODE.FORCE l)) 7

/-- Loops with rewind enabled. -/
def Dev.rewindLoops (v : Dev) : List Nat := (List.range 32).filter fun l => v.flag F.SEL_RWD_CFG.ENABLE l

/-- R20: rewind lanes and the greatest LOG2 of the window in a profile. -/
def rewindMax (profile : Nat) : Nat × Nat := (if profile = 3 then 4 else 8, if profile = 1 then 14 else 12)

/-- R135: loops, lanes or the window exceed the profile. -/
def Dev.rewindOver (v : Dev) : Bool :=
  let (n, w) := rewindMax (v.get F.SYS_PROFILE.ACTIVE)
  let ls := v.rewindLoops
  decide (n < ls.length) || decide (w < v.get F.SEL_RWD_WINDOW.LOG2) ||
    ls.any fun l => decide (n ≤ v.get F.SEL_RWD_CFG.SLOT l)

/-- R135: a loop's list names a remote reference. -/
def Dev.namesRemote (v : Dev) (l : Nat) : Bool := (v.entries l).any fun e => bit e 7 && decide (40 ≤ e % 64 ∧ e % 64 ≤ 55)

/-- R135, R386: the other limits of rewind: own lanes, a queue, no remote reference. -/
def Dev.rewindBad (v : Dev) : Bool :=
  let ls := v.rewindLoops
  !distinct (ls.map fun l => v.get F.SEL_RWD_CFG.SLOT l) ||
    ls.any fun l => decide (v.get F.SEL_RWD_CFG.QUEUE l < 392) || v.namesRemote l

/-! ## The Vat: pools and what registers place (R86, R303, R388) -/

/-- R86: what the pools break: VAT_REFUSE code and the lowest pool concerned, in code order. -/
def Dev.poolsBad (v : Dev) : Option (Nat × Nat) :=
  let ps := List.range 16
  let hit := fun (code : Nat) (p : Nat → Bool) => (ps.find? p).map fun i => (code, i)
  (hit 1 fun p => ps.any fun q => p != q && overlap (v.pool p).1 (v.pool p).2 (v.pool q).1 (v.pool q).2).or
  ((hit 2 fun p => decide (16384 < (v.pool p).1 + (v.pool p).2) || (p == 5 && (v.pool p).2 != 128)).or
  ((hit 3 fun p => p == 2 && decide ((v.pool p).2 < 4) && (List.range 8).any fun i => v.flag F.FRM_PORT_CFG.ENABLE i).or
   (hit 4 fun p => p == 1 &&
     decide ((v.pool p).2 * 4096 < v.rewindLoops.length * 2 ^ v.get F.SEL_RWD_WINDOW.LOG2 * 32))))

/-- What registers place in pools 8-15: offset and length (R388; the interval block lies there whether it is enabled or not). -/
def Dev.placed (v : Dev) : List (Nat × Nat) :=
  [(v.get F.MON_WORD_BASE.BASE * 8, 320), (v.get F.LOOP_DATA_BASE.BASE * 64, 33 * 64),
   (v.get F.KL_RX_BASE.BASE * 512, 4096), (v.get F.TBL_DIR_BASE.GRANULE * 4096, 8192),
   (v.get F.TIME_PI_BASE.GRANULE * 4096, 72 * 4096)]

/-- What a master copy may not overlap (R388): what registers place, the save shadow and the trace buffers among it. -/
def Dev.placedAll (v : Dev) : List (Nat × Nat) :=
  let sh := v.get F.REAM_SAVE_CFG.SHADOW
  v.placed ++ (if sh = 0 then [] else [(v.get F.REAM_SAVE_CFG.GRANULE * 4096, sh * 4096)]) ++
    ((List.range 4).map fun r => (v.get F.TDC_TR_BUF.GRANULE r * 4096, v.get F.TDC_TR_BUF.SIZE r * 4096)).filter (·.2 != 0)

/-- The master copies of the tables: offset and length. -/
def Dev.masters (v : Dev) (but : Option Nat) : List (Nat × Nat) :=
  (List.range 1024).filterMap fun t =>
    if some t = but then none
    else let e := v.dirEntry t; if e.2 = 0 then none else some e

/-- The rings of the enabled queues. -/
def Dev.enabledRings (v : Dev) : List (Nat × Nat × Nat) :=
  (List.range 4096).filterMap fun q =>
    let x := v.qdesc q
    if x.enabled then some (q, x.base, x.size * x.entry) else none

/-- R388: a copy of table t of n bytes may lie at a. -/
def Dev.masterFits (v : Dev) (t a n : Nat) : Bool :=
  a % 8 == 0 && v.inFreePool a n && !(v.placedAll.any fun s => overlap a n s.1 s.2) &&
    !((v.masters (some t)).any fun s => overlap a n s.1 s.2)

/-- TIME_PI_BASE: the block of 72 granules overlaps another structure. -/
def Dev.piPlaceBad (v : Dev) : Bool :=
  let a := v.get F.TIME_PI_BASE.GRANULE * 4096
  let n := 72 * 4096
  !v.inFreePool a n || (v.placed.take 4 ++ v.placedAll.drop 5).any (fun s => overlap a n s.1 s.2) ||
    (v.masters none).any (fun s => overlap a n s.1 s.2) || v.enabledRings.any fun s => overlap a n s.2.1 s.2.2

/-- A structure that a register places does not lie in one of pools 8-15. -/
def Dev.placesBad (v : Dev) : Bool :=
  v.placed.any (fun s => !v.inFreePool s.1 s.2) || (v.masters none).any fun s => !v.inFreePool s.1 s.2

/-- VAT_QDESC_BASE: code and index of what the place of the descriptor table breaks. -/
def Dev.qdescBad (v : Dev) : Option (Nat × Nat) :=
  if !v.inPool 3 v.qtable (4096 * 32) then some (2, 3)
  else (v.enabledRings.find? fun r => overlap r.2.1 r.2.2 v.qtable (4096 * 32)).map fun r => (6, r.1)

/-- R303: the save image exceeds 65,536 B, or its shadow lies outside pools 8-15. -/
def Dev.saveCfgBad (v : Dev) : Bool :=
  let sh := v.get F.REAM_SAVE_CFG.SHADOW
  decide (65536 < 64 + (if v.flag F.TIME_PI_CFG.ENABLE then 72 * 64 else 0) + 16 * v.get F.REAM_SAVE_CFG.CTXN + 4096 * sh) ||
    (sh != 0 && !v.inFreePool (v.get F.REAM_SAVE_CFG.GRANULE * 4096) (sh * 4096))

/-- R289, R302, R386: the definition of a region is refused. A Rink region without LOG2_SLOTS has no slots. -/
def Dev.regionBad (v : Dev) (r : Nat) : Bool :=
  let first := fun i => v.get F.REAM_RGN_CFG.FIRST i
  let count := fun i => v.get F.REAM_RGN_CFG.COUNT i
  let m := v.get F.REAM_RGN_CFG.METHOD r
  let slots := v.get F.REAM_RGN_CFG.LOG2_SLOTS r
  (m != 2 && slots != 0) || (m == 2 && count r != 0 && slots == 0) ||
  (10 ≤ r && count r != 0 &&
    (decide (first r < 90 ∨ 256 < first r + count r) || ((m == 1 || m == 2) && count r % 2 == 1) ||
     (List.range 26).any fun i => i != r && overlap (first r) (count r) (first i) (count i)))

/-- A table of the kind exists under the number. -/
def Dev.namesKind (v : Dev) (t kind : Nat) : Bool :=
  match v.table t with
  | some b => tableKind b == kind
  | none => false

/-- A field that must name a table of a kind does not. -/
def Dev.namesBad (v : Dev) : Bool :=
  !v.namesKind (v.get F.MON_REFSM.TABLE) 2 || !v.namesKind (v.get F.SEL_SM.TABLE) 2 ||
  !v.namesKind (v.get F.OUT_SAFEMAP.TABLE) 3 || !v.namesKind (v.get F.FRM_CFG.PARSER) 5 ||
  (List.range 40).any fun n => !v.namesKind (v.get F.IN_MASK.CURVE n) 1

/-- R389: a field would still name the table after the commit. -/
def Dev.named (v : Dev) (t : Nat) : Bool :=
  [v.get F.MON_REFSM.TABLE, v.get F.SEL_SM.TABLE, v.get F.OUT_SAFEMAP.TABLE, v.get F.FRM_CFG.PARSER].contains t ||
  ((List.range 40).any fun n => v.get F.IN_MASK.CURVE n == t) || (List.range 32).any fun n => v.get F.SLAL_CFG.PROFILE n == t

/-! ## TDC, traces, ports, test -/

/-- R202: the descriptor of a channel's ring breaks its conditions. -/
def Dev.ringBad (v : Dev) (c : Nat) : Bool :=
  let x := v.qdesc (stampQueue c)
  !(x.enabled && x.entry == 16 && bit x.flags 1 && x.prod == 0x1010 && v.inPool 0 x.base (x.size * x.entry))

/-- R203: more than six channels in EVERY or NTH. -/
def Dev.everyBad (v : Dev) : Bool :=
  decide (6 < ((List.range 136).filter fun c => v.tdcMode c == 1 || v.tdcMode c == 3).length)

/-- R216: a recorder's buffer: offset and length. -/
def Dev.trBuf (v : Dev) (r : Nat) : Nat × Nat := (v.get F.TDC_TR_BUF.GRANULE r * 4096, v.get F.TDC_TR_BUF.SIZE r * 4096)

/-- R216: a configuration of a recorder breaks the conditions of its buffer. -/
def Dev.traceBad (v : Dev) (r : Nat) : Bool :=
  let (a, n) := v.trBuf r
  n != 0 && (!(v.inPool 7 a n || v.inFreePool a n) ||
    ((List.range 4).any fun q => q != r && overlap a n (v.trBuf q).1 (v.trBuf q).2) ||
    decide (n < 32 + 16 * (v.get F.TDC_TR_PRE.COUNT r + v.get F.TDC_TR_POST.COUNT r)))

/-- Table Trace triggers: INDEX out of range for TRIG, or SRC for SRC_KIND. -/
def Dev.traceSrcBad (v : Dev) (r : Nat) : Bool :=
  let ix := v.get F.TDC_TR_CFG.INDEX r
  let top := match v.get F.TDC_TR_CFG.TRIG r with
    | 1 => 135
    | 2 => 32
    | 3 => 287
    | 4 => 63
    | _ => 511
  decide (top < ix) || decide ((if v.flag F.TDC_TR_CFG.SRC_KIND r then 32 else 135) < v.get F.TDC_TR_CFG.SRC r)

/-- R238, R376: a TICK port's pulse does not fit its period or the pad. -/
def Dev.tickPortBad (v : Dev) (p : Nat) : Bool :=
  let w := v.get F.EVT_WIDTH.WIDTH p
  let t := v.get F.EVT_AUX.TICKDIV p * 1000
  let phase := max 1 (w * 10 / 8) * 8   -- 0.1 ns, whole slots
  v.get F.EVT_CFG.FUNC p == 3 && decide (t ≤ w ∨ phase < 24 ∨ t * 10 < phase + 24)

/-- R358: a loop-back of an instance is refused (the path apart). -/
def Dev.loopBackBad (d v : Dev) (i : Nat) : Bool :=
  let kind := i / 128
  let ix := i % 128
  let held := fun (p : Dev → Bool) => p d || p v
  decide (loopDepths kind ≤ v.get F.TST_LB_CFG.DEPTH i) ||
    (kind == 2 && held fun u => u.flag F.FRM_PORT_CFG.ENABLE ix || u.get F.SYS_PROFILE.ACTIVE == 3) ||
    (kind == 3 && held fun u => u.flag F.KL_LINK_CFG.ENABLE ix)

/-- R362: a channel of the range has a MODE other than OFF, or LAST is below FIRST. -/
def Dev.selfBad (v : Dev) : Bool :=
  let a := v.get F.TST_SELF_CFG.FIRST
  let b := v.get F.TST_SELF_CFG.LAST
  decide (b < a) || (List.range (b + 1 - a)).any fun i => v.tdcMode (a + i) != 0

/-- R344: an aperture does not lie within one pool. -/
def Dev.apertureBad (v : Dev) (m : Nat) : Bool :=
  let n := v.get F.HOST_VF_APT.SIZE m
  n != 0 && !(List.range 16).any fun p => v.inPool p (v.get F.HOST_VF_APT.GRANULE m * 4096) (n * 4096)

/-- R276: a loop whose ENABLE is 1 is bound to a received export. -/
def Dev.rloopBad (d v : Dev) (m : Nat) : Bool :=
  let l := v.get F.KL_RLOOP.LOOP m
  v.flag F.KL_RLOOP.VALID m && (v.flag F.LOOP_CTRL.ENABLE l || d.flag F.LOOP_CTRL.ENABLE l)

/-- R34, R386: the tasks of an engine break admission, or an enabled task has MAXDISP 0. -/
def Dev.tasksBad (v : Dev) (e : Nat) : Bool :=
  v.admitCode e != 0 || (List.range 16).any fun s =>
    v.flag F.ENG_TASK_CFG.ENABLE (16 * e + s) && v.get F.ENG_TASK_CFG.MAXDISP (16 * e + s) == 0

/-- R20, R387: the profile in force or the one last accepted meets a condition. -/
def Dev.profileHeld (d v : Dev) (p : Nat → Bool) : Bool := p (d.get F.SYS_PROFILE.ACTIVE) || p (v.get F.SYS_PROFILE.ACTIVE)

/-- R247, R92, R387: a port that a write enables may not be, by what is in force or what was last accepted. -/
def Dev.portBad (d o v : Dev) (p : Nat) : Bool :=
  v.flag F.FRM_PORT_CFG.ENABLE p && !o.flag F.FRM_PORT_CFG.ENABLE p &&
    (Dev.profileHeld d v (fun pr => pr == 3 || (pr == 2 && decide (4 ≤ p))) || decide ((d.pool 2).2 < 4 ∨ (v.pool 2).2 < 4))

/-! ## R339 COMBINATION -/

/-- A value of the register, in range on its own, conflicts with the configuration. `n` is the copy. DESIGN CHOICE (log entry
30): of the registers that place a structure only TIME_PI_BASE is judged against the other structures and the tables. -/
def Dev.combBad (d o v : Dev) (x : Site) (n : Nat) : Bool :=
  if x.is [R.TBL_DIR_BASE] then !v.inFreePool (v.dirAddr 0) 8192
  else if x.is [R.ENG_CLUSTER_PWR] then
    (List.range 16).any fun c => let was := bit (o.get F.ENG_CLUSTER_PWR.ON) c
      let on := bit (v.get F.ENG_CLUSTER_PWR.ON) c
      (was && !on && d.clusterBound c) || (!was && on && 8 ≤ c && Dev.profileHeld d v (· == 3))
  else if x.is [R.ENG_TASK_CFG, R.ENG_TASK_BUDGET, R.ENG_TASK_PERIOD] then
    v.tasksBad (n / 16) || decide (v.get F.ENG_TASK_PERIOD.PERIOD n ≤ v.get F.ENG_TASK_PERIOD.PHASE n)
  else if x.is [R.VAT_AGE] then decide (96 < v.get F.VAT_AGE.AGE_C + v.get F.VAT_AGE.AGE_D)
  else if x.is [R.IN_CFG] then !o.flag F.IN_CFG.ENABLE n && v.inputBad n   -- R103 checks an enable write
  else if x.is [R.IN_ACT] then decide (v.get F.IN_ACT.REJECT n ≤ v.get F.IN_ACT.ACCEPT n)
  else if x.is [R.IN_MON_CFG] then v.get F.IN_MON_CFG.BASIS n == n + 1
  else if x.is [R.IN_FACC_MIN, R.IN_FACC_MAX, R.IN_FREJ_MIN, R.IN_FREJ_MAX] then v.limitsBad n
  else if x.is [R.IN_STATE] then
    v.get F.IN_STATE.STATE n != 0 && !(d.flag F.IN_CFG.ENABLE n && o.flag F.IN_CFG.ENABLE n)
  else if x.is [R.IN_MASK] then !v.namesKind (v.get F.IN_MASK.CURVE n) 1
  else if x.is [R.MON_REFSM] then !v.namesKind (v.get F.MON_REFSM.TABLE) 2
  else if x.is [R.MON_WORD_BASE] then !v.inFreePool (v.get F.MON_WORD_BASE.BASE * 8) 320
  else if x.is [R.SEL_MODE] then v.forceBad n
  else if x.is [R.SEL_PRIO_HI] then v.prioBad n || (v.flag F.SEL_RWD_CFG.ENABLE n && v.namesRemote n)
  else if x.is [R.SEL_RWD_CFG, R.SEL_RWD_WINDOW] then v.rewindOver || v.rewindBad
  else if x.is [R.SEL_SM] then !v.namesKind (v.get F.SEL_SM.TABLE) 2
  else if x.is [R.LOOP_CTRL] then v.flag F.LOOP_CTRL.ENABLE n && n != 32 && v.get F.LOOP_CTRL.FB n == 0
  else if x.is [R.LOOP_LOCK] then decide (v.get F.LOOP_LOCK.UNLOCK_PPB n ≤ v.get F.LOOP_LOCK.LOCK_PPB n)
  else if x.is [R.LOOP_GLIDE_CFG] then decide (7200 < v.get F.LOOP_GLIDE_CFG.SPAN n + v.get F.LOOP_GLIDE_CFG.GUARD n)
  else if x.is [R.LOOP_DATA_BASE] then !v.inFreePool (v.get F.LOOP_DATA_BASE.BASE * 64) (33 * 64)
  else if x.is [R.TLOOP_CFG] then
    let c := v.get F.TLOOP_CFG.CH
    v.get F.TLOOP_CFG.SRC == 1 && !decide (c < 40 ∨ 112 ≤ c)
  else if x.is [R.SYN_CFG, R.SYN_PLAN, R.SYN_NFRAC_HI] then v.synBad n
  else if x.is [R.OUT_CFG, R.OUT_DIV_HI] then v.outBad n
  else if x.is [R.OUT_COARSE] then
    decide (v.get F.SYN_PLAN.POST (v.get F.OUT_CFG.SRC n) * v.outD2 n ≤ 2 * v.get F.OUT_COARSE.COARSE n + 1)
  else if x.is [R.OUT_DPH_OFFSET_HI] then
    let (fn, fd) := v.outFreq n
    decide (fd * secUnits < fn * v.get64 F.OUT_DPH_OFFSET_LO.OFFSET F.OUT_DPH_OFFSET_HI.OFFSET n)
  else if x.is [R.OB_CFG] then v.get F.OB_CFG.VSEL n == 0 && (List.range 8).any fun i => v.get F.OUT_CFG.FORMAT (8 * n + i) == 4
  else if x.is [R.OUT_SAFEMAP] then !v.namesKind (v.get F.OUT_SAFEMAP.TABLE) 3
  else if x.is [R.TDC_CH_CFG] then v.tdcMode n != 0 && (v.ringBad n || v.everyBad)
  else if x.is [R.TDC_CH_DIV] then decide (40 ≤ n ∧ n < 112) && v.chanRateBad (n - 40)
  else if x.is [R.TDC_MS_WOPEN, R.TDC_MS_WCLOSE] then decide (v.get F.TDC_MS_WCLOSE.VALUE n ≤ v.get F.TDC_MS_WOPEN.VALUE n)
  else if x.is [R.TDC_TR_CFG] then v.traceSrcBad n
  else if x.is [R.TDC_TR_BUF, R.TDC_TR_PRE, R.TDC_TR_POST] then v.traceBad n
  else if x.is [R.TIME_PI_BASE, R.TIME_PI_CFG] then v.piPlaceBad
  else if x.is [R.EVT_CFG, R.EVT_WIDTH, R.EVT_AUX] then v.tickPortBad n
  else if x.is [R.FRM_PORT_CFG] then Dev.portBad d o v n
  else if x.is [R.FRM_CFG] then !v.namesKind (v.get F.FRM_CFG.PARSER) 5
  else if x.is [R.FRM_EGQ] then v.flag F.FRM_EGQ.ENABLE && decide (v.get F.FRM_EGQ.QUEUE < 392)
  else if x.is [R.FRM_RING_CFG] then
    v.flag F.FRM_RING_CFG.ENABLE n && (decide (v.get F.FRM_RING_CFG.LOG2 n < 3) ||
      (v.flag F.FRM_RING_CFG.DIR n && decide (255 < v.get F.FRM_RING_CFG.QUEUE n)))
  else if x.is [R.FRM_RING_TAIL] then decide (2 ^ v.get F.FRM_RING_CFG.LOG2 n ≤ v.get F.FRM_RING_TAIL.INDEX n)
  else if x.is [R.KL_RX_BASE] then !v.inFreePool (v.get F.KL_RX_BASE.BASE * 512) 4096
  else if x.is [R.KL_RLOOP] then Dev.rloopBad d v n
  else if x.is [R.REAM_RGN_CFG] then v.regionBad n
  else if x.is [R.REAM_SAVE_CFG] then v.saveCfgBad
  else if x.is [R.HOST_VF_APT] then v.apertureBad n
  else if x.is [R.TST_LB_CFG] then Dev.loopBackBad d v n
  else if x.is [R.TST_SELF_CFG] then v.selfBad
  else false

/-! ## R339 RANGE beyond the ranges of single fields -/

/-- R25: a field's value lies outside the range that its register table states. -/
def Range.bad (r : Range) (width x : Nat) : Bool :=
  match r with
  | .any => false
  | .u a b => decide (x < a ∨ b < x)
  | .z a b => x != 0 && decide (x < a ∨ b < x)
  | .s a b => decide (toSigned width x < a ∨ b < toSigned width x)
  | .or a b c => x != c && decide (x < a ∨ b < x)
  | .m8 => x % 8 != 0

/-- R386: a write of the reset value is accepted at any time. -/
def FieldSpec.bad (f : FieldSpec) (reset w : Nat) : Bool :=
  let x := bits w f.hi f.lo
  x != bits reset f.hi f.lo && f.range.bad (f.hi + 1 - f.lo) x

/-- R228: INC and SLEW_INC lie between 999.5 and 1,000.5 ns. -/
def incBad (v : Nat) : Bool := decide (v < 0x3E780000000 ∨ 0x3E880000000 < v)

/-- Ranges that a register's own fields do not show: parts of a value, route and channel numbers, multiples. -/
def Dev.rangeBad (v : Dev) (x : Site) (n w : Nat) : Bool :=
  if x.is [R.ENG_ROUTE] then
    bit w 31 && !(decide (n < 0x88 ∨ 0x100 ≤ n ∧ n < 0x208 ∨ 0x280 ≤ n ∧ n < 0x289 ∨ 0x2C0 ≤ n ∧ n < 0x314))
  else if x.is [R.SEL_PRIO_LO, R.SEL_PRIO_HI] then
    (List.range 4).any fun k => bit w (8 * k + 7) && decide (56 ≤ bits w (8 * k + 5) (8 * k))
  else if x.is [R.LOOP_CTRL] then n == 32 && bits w 14 8 != 0
  else if x.is [R.OUT_DIV_HI] then decide (v.outD2 n < 2)
  else if x.is [R.TDC_CH_CFG] then bits w 11 10 != 0 && !decide (112 ≤ n ∧ n < 128)
  else if x.is [R.TDC_CH_DIV] then decide (112 ≤ n ∧ n < 128 ∧ 4096 < w)
  else if x.is [R.CTX_INC_HI] then incBad (v.get64 F.CTX_INC_LO.VALUE F.CTX_INC_HI.VALUE n)
  else if x.is [R.CTX_SLEW_INC_HI] then incBad (v.get64 F.CTX_SLEW_INC_LO.VALUE F.CTX_SLEW_INC_HI.VALUE n)
  else if x.is [R.EVT_PERIOD_HI] then
    let t := v.get64 F.EVT_PERIOD_LO.PERIOD F.EVT_PERIOD_HI.PERIOD n
    decide (t < 1 ∨ 2 ^ 48 < t)
  else if x.is [R.FRM_RING_ADDR_LO] then w % 32 != 0
  else if x.is [R.BOOT_PUSH_LEN] then w % 4 != 0
  else if x.is [R.TST_LB_SEL] then decide (loopCount (bits w 10 8) ≤ bits w 6 0)
  else false

/-! ## R339 LOCKED -/

/-- The field differs between the configuration before the write and with it. -/
def changes (o v : Dev) (n : Nat) (fs : List Fld) : Bool := fs.any fun f => o.get f n != v.get f n

/-- A field is locked by a condition of the configuration, in force or as last accepted (R387). -/
def Dev.lockBad (d o v : Dev) (x : Site) (n : Nat) : Bool :=
  let held := fun (f : Fld) => d.flag f n || o.flag f n
  if x.is [R.IN_CFG] then held F.IN_CFG.ENABLE &&
    changes o v n [F.IN_CFG.MODE, F.IN_CFG.TERM, F.IN_CFG.BIAS, F.IN_CFG.POL, F.IN_CFG.GLITCH]
  else if x.is [R.IN_PRESCALE, R.IN_NOM_LO, R.IN_NOM_HI] then held F.IN_CFG.ENABLE
  else if x.is [R.OUT_FINE, R.OUT_COARSE] then held F.OUT_DPH_CFG.ENABLE
  else if x.is [R.FRM_PORT_CFG] then held F.FRM_PORT_CFG.ENABLE && changes o v n [F.FRM_PORT_CFG.FEC]
  else if x.is [R.FRM_RING_ADDR_LO, R.FRM_RING_ADDR_HI] then held F.FRM_RING_CFG.ENABLE
  else if x.is [R.FRM_RING_CFG] then held F.FRM_RING_CFG.ENABLE &&
    changes o v n [F.FRM_RING_CFG.DIR, F.FRM_RING_CFG.LOG2, F.FRM_RING_CFG.FUNC, F.FRM_RING_CFG.QUEUE]
  else if x.is [R.KL_CFG] then decide (4 < d.get F.BOOT_STAT.STEP)
  else false

/-! ## R339 ACCESS -/

/-- Default class of a fault source (table Fault sources). -/
def defaultClass (s : Nat) : Nat := bits (classReset.getD (s / 16) 0) (2 * (s % 16) + 1) (2 * (s % 16))

/-- The writing path may not write the register or the field; `reset` tells the registers of a block from nothing. -/
def Dev.accessBad (o : Dev) (p : Path) (x : Site) (n w : Nat) : Bool :=
  let hostLike := match p with
    | .engine _ => false
    | .regs => false
    | _ => true
  (hostLike && x.fields.any (fun f => f.acc == .eng) && x.fields.all fun f => f.acc == .eng || f.acc == .ro) ||
  (if x.is [R.HOST_VF_APT] then (match p with
      | .pcie f => f.val != 0
      | _ => true)
   else if x.is [R.TDC_CH_DIV] then decide (n < 40 ∨ 128 ≤ n)
   else if x.is [R.FLT_CLASS] then (List.range 16).any fun i =>
     defaultClass (16 * n + i) == 3 && bits w (2 * i + 1) (2 * i) != o.get { F.FLT_CLASS.CLASS with hi := 2 * i + 1, lo := 2 * i } n
   else if x.is [R.TST_LB_CFG] then n / 128 == 4 && (match p with
      | .pcie _ => true
      | _ => false)
   else false)

/-! ## R339 STATE -/

/-- The write is refused because of what the device or the object does at present. -/
def Dev.stateBad (d o v : Dev) (x : Site) (n : Nat) : Bool :=
  if x.is [R.SLAL_CFG] then d.slalState n == 1
  else if x.is [R.TDC_MS_CFG, R.TDC_MS_STOPN, R.TDC_MS_TIMEOUT, R.TDC_MS_WOPEN, R.TDC_MS_WCLOSE] then
    decide (1 ≤ d.msState n ∧ d.msState n ≤ 3)
  else if x.is [R.TDC_ST_CFG] then d.stState n == 1 && changes o v n [F.TDC_ST_CFG.N]
  else if x.is [R.TDC_TR_CFG] then d.trState n != 0 && d.trState n != 3 &&
    changes o v n [F.TDC_TR_CFG.TRIG, F.TDC_TR_CFG.INDEX, F.TDC_TR_CFG.SRC_KIND, F.TDC_TR_CFG.SRC]
  else if x.is [R.TDC_TR_PRE, R.TDC_TR_POST] then d.trState n != 0 && d.trState n != 3
  else if x.is [R.CTX_SLEW_INC_LO, R.CTX_SLEW_INC_HI] then d.flag F.CTX_STAT.SLEWING n
  else if x.is [R.EVT_CFG] then (d.evtState n == 1 || d.evtState n == 2) &&
    changes o v n [F.EVT_CFG.CTX, F.EVT_CFG.PERIODIC, F.EVT_CFG.POL, F.EVT_CFG.DRIVE]
  else if x.is [R.EVT_START_NS_LO, R.EVT_START_NS_HI, R.EVT_START_FRAC, R.EVT_PERIOD_LO, R.EVT_PERIOD_HI, R.EVT_WIDTH] then
    d.evtState n == 1 || d.evtState n == 2
  else if x.is [R.FRM_PORT_CFG] then
    v.flag F.FRM_PORT_CFG.ENABLE n && !o.flag F.FRM_PORT_CFG.ENABLE n && d.portState n == 2
  else if x.is [R.KL_STAGE_TICK_LO, R.KL_STAGE_TICK_HI] then d.stage == 2
  else if x.is [R.BOOT_PUSH] then d.get F.BOOT_STAT.STEP == 7 || d.get F.BOOT_STAT.RESTART == 1
  else if x.is [R.XI2C_DATA0, R.XI2C_DATA1] then d.get F.XI2C_STAT.STATE n == 1
  else if x.is [R.TST_LB_CFG] then n / 128 == 4 && d.flag F.HOST_PCIE_STAT.L0
  else false

end Sys2Proof.Machine
end

