-- ==== Sys2Proof/Machine/Stage.lean ====
section
/-! DEFINITION. Staged changes: OPEN, ARM, DISCARD, table loads, and the commit (R5, R21-R23, R72, R86, R135, R284,
R310, R389). -/

namespace Sys2Proof.Machine

/-! ## Commands (R284) -/

def stageOff : Nat := R.KL_STAGE_CMD.off

/-- The staged copies and tables are dropped; what a cluster's staged copy of a table holds is of no account until the next
LOAD writes it. -/
def Dev.stageClear (d : Dev) : Dev := ({ d with staged := [], stagedTabs := [] }).put F.TBL_STAT.STAGED 0

def Dev.stageOpenCmd (d : Dev) (p : Path) : Dev :=
  if d.stage ≠ 0 then d.refuse p.code stageOff .state else d.stageClear.put F.KL_STAGE_STAT.STATE 1

/-- The commit tick C. -/
def Dev.stageTick (d : Dev) : Nat := d.get64 F.KL_STAGE_TICK_LO.TICK F.KL_STAGE_TICK_HI.TICK

/-- R284, R29: the commit tick lies 16 to 2^31 - 1 ticks ahead. -/
def Dev.stageTickOk (d : Dev) : Bool := decide (d.tick + 16 ≤ d.stageTick ∧ d.stageTick ≤ d.tick + 2 ^ 31 - 1)

def Dev.stageArmCmd (d : Dev) (p : Path) : Dev :=
  if d.stage ≠ 1 || !d.stageTickOk then d.refuse p.code stageOff .state
  else (d.put64 F.KL_SWM_LO.VALUE F.KL_SWM_HI.VALUE d.stagedView.watermark).put F.KL_STAGE_STAT.STATE 2

def Dev.stageDiscardCmd (d : Dev) (p : Path) : Dev :=
  if d.stage = 0 then d.refuse p.code stageOff .state else d.stageClear.put F.KL_STAGE_STAT.STATE 0

def execStageOpen (p : Path) (s : State) : StepOut := s.runBy p stageOff fun d => d.stageOpenCmd p
def execStageArm (p : Path) (s : State) : StepOut := s.runBy p stageOff fun d => d.stageArmCmd p
def execStageDiscard (p : Path) (s : State) : StepOut := s.runBy p stageOff fun d => d.stageDiscardCmd p

/-! ## Tables (R388, R389) -/

def tableOff : Nat := R.TBL_LOAD_CMD.off

/-- R388: the buffer of a table lies in one of pools 8-15 and overlaps no other copy, directory or structure. -/
def Dev.bufferOk (d : Dev) (t a n : Nat) : Bool :=
  let v := d.view
  v.inFreePool a n && !((d.masters none).any fun s => overlap a n s.1 s.2) &&
    !(d.stagedTabs.any fun s => s.1 != t && overlap a n s.2.offset s.2.length) &&
    !(v.placedAll.any fun s => overlap a n s.1 s.2) && !overlap a n (d.dirAddr 0) 8192

/-- R389, R72: table t of the open change, and the staged copy in every cluster where it is resident. -/
def Dev.tableStage (d : Dev) (t a n : Nat) (b : List Byte) : Dev :=
  let d := { d with
    stagedTabs := Tbl.set d.stagedTabs t ⟨a, n⟩
    cluss := d.cluss.map fun (c : Nat × Cluster) => if c.2.resident.contains t then (c.1, { c.2 with staged := Tbl.set c.2.staged t b }) else c }
  d.put F.TBL_STAT.STAGED d.stagedTabs.length

/-- R97, R389: LOAD of table t with a length from the path's TBL_LOAD_SRC. -/
def Dev.tableLoadCmd (d : Dev) (p : Path) (t n : Nat) : Dev :=
  let a := d.get F.TBL_LOAD_SRC.OFFSET p.code * 8
  let b := d.vbytes a n
  if n < 8 ∨ n % 8 ≠ 0 ∨ tableLen b ≠ some n then d.refuse p.code tableOff .range
  else if !d.bufferOk t a n then d.refuse p.code tableOff .combination
  else if d.stage ≠ 1 then d.refuse p.code tableOff .state
  else (d.vatTouch a n 4).tableStage t a n b

/-- R389: DELETE of table t. -/
def Dev.tableDeleteCmd (d : Dev) (p : Path) (t : Nat) : Dev :=
  if d.stage ≠ 0 && d.view.named t then d.refuse p.code tableOff .combination
  else if d.stage ≠ 1 then d.refuse p.code tableOff .state
  else d.tableStage t 0 0 []

def execTableLoad (p : Path) (t : Fin 1024) (n : BitVec 13) (s : State) : StepOut :=
  s.runBy p tableOff fun d => d.tableLoadCmd p t n.toNat
def execTableDelete (p : Path) (t : Fin 1024) (s : State) : StepOut := s.runBy p tableOff fun d => d.tableDeleteCmd p t

/-! ## Checks of the whole change (R21, R34, R86, R135, R284) -/

/-- Table Profile refusal codes: the lowest code with which the change of profile to that of `v` is refused. -/
def Dev.profileBad (d v : Dev) : Nat :=
  let new := v.get F.SYS_PROFILE.ACTIVE
  if d.get F.SYS_PROFILE.ACTIVE = new then 0
  else
    let ports := if new = 3 then 0 else if new = 2 then 4 else 8
    if (List.range 8).any fun p => ports ≤ p && v.flag F.FRM_PORT_CFG.ENABLE p then 1
    else if new = 3 ∧ (List.range 8).any fun c => v.clusterBound (c + 8) then 2
    else if v.rewindOver then 3
    else if v.poolsBad.isSome then 4
    else if new = 1 ∧ 64 < ((List.range 136).filter fun c => v.flag F.TDC_CH_CFG.FULLRATE c).length then 5
    else 0

/-- The copy that a key of the register file names. -/
def keySite (key : Nat) : Option (Site × Nat) :=
  (siteAt (key % copyStride)).map fun x => (x, match x.reg.kind with
    | .plain => x.n
    | _ => key / copyStride)

/-- A check of a register of the change fails. -/
def Dev.stagedBad (d v : Dev) : Bool :=
  d.staged.any fun e => match keySite e.1 with
    | none => false
    | some (x, n) => Dev.combBad d d v x n || v.rangeBad x n (v.rd x.own n)

/-- A word of a register is part of the change. -/
def Dev.stagedHas (d : Dev) (r : Reg) (n : Nat := 0) : Bool := (Tbl.find? d.staged (r.key n)).isSome

/-- VAT_POOL_CFG of some pool is part of the change. -/
def Dev.poolsStaged (d : Dev) : Bool := (List.range 16).any fun p => d.stagedHas R.VAT_POOL_CFG p

/-- The Vat's own refusal of a change: VAT_REFUSE code and index. -/
def Dev.vatBad (d v : Dev) : Option (Nat × Nat) :=
  v.poolsBad.or (if d.stagedHas R.VAT_QDESC_BASE || d.poolsStaged then v.qdescBad else none)

/-- R284: a check of the change fails on the configuration that the commit would put in force. -/
def Dev.changeBad (d v : Dev) : Bool :=
  d.profileBad v != 0 || (d.vatBad v).isSome || v.rewindOver || v.rewindBad ||
    ((List.range 512).any fun e => v.tasksBad e) || d.stagedBad v || (!d.stagedTabs.isEmpty && v.namesBad) ||
    (d.poolsStaged && v.placesBad)

/-- What a refused change records: REFUSE and PROFILE_REFUSED (R21), VAT_REFUSE (R86), ENG_ADMIT (R34). -/
def Dev.changeRecord (d v : Dev) : Dev :=
  let code := d.profileBad v
  let d := match d.vatBad v with
    | some (c, i) => d.vatRefuse c i
    | none => d
  let d := match (List.range 512).find? fun e => v.admitCode e != 0 with
    | some e => d.admitNote v e (v.admitCode e)
    | none => d
  if code = 0 then d else (d.put F.SYS_PROFILE.REFUSE code).fault 6 0 code

/-! ## What a committed change does (boundary action 2) -/

/-- R86: queues that belong to a moved or resized pool are emptied; one whose ring no longer fits is disabled. -/
def Dev.poolsMoved (old d : Dev) : Dev :=
  let moved := (List.range 16).filter fun p => old.pool p != d.pool p
  if moved.isEmpty then d else
  let d := (List.range 4096).foldl (fun d q =>
    let x := d.qdesc q
    if !moved.contains (x.flags / 16) then d else
    let d := (d.popRelease q x.fill).qDrop q
    if x.enabled && !d.inPool (x.flags / 16) x.base (x.entry * x.size)
    then d.vatStore (d.qaddr q + 7) [BitVec.ofNat 8 (x.flags - 1)] else d) d
  if moved.contains 2 then { d with frm := { d.frm with allocs := [], txs := [], handed := [] } } else d

/-- R22, R135: rewind rings restart empty; a rewind that the change disables is aborted. -/
def Dev.ringsRestart (old d : Dev) : Dev :=
  let all := old.get F.SYS_PROFILE.ACTIVE != d.get F.SYS_PROFILE.ACTIVE ||
    old.get F.SEL_RWD_WINDOW.LOG2 != d.get F.SEL_RWD_WINDOW.LOG2
  (List.range 32).foldl (fun d l =>
    let on := d.flag F.SEL_RWD_CFG.ENABLE l
    let was := old.flag F.SEL_RWD_CFG.ENABLE l
    if on && (all || !was || old.entries l != d.entries l || old.get F.SEL_RWD_CFG.SLOT l != d.get F.SEL_RWD_CFG.SLOT l) then
      d.setSelx l { d.selx l with ringFrom := d.tick - 2 }
    else if was && !on && d.rewinding l then d.rewindAbort l
    else d) d

/-- R310: the class in force of a source changes while it is active. -/
def Dev.reclassify (old d : Dev) : Dev :=
  let d := (List.range 288).foldl (fun d s =>
    if !d.faultActive s || old.faultClass s == d.faultClass s then d
    else if d.faultClass s = 3 then
      let d := if d.stopped && !d.stopsNow then d else
        d.logQueue ⟨d.tick % 2 ^ 48, s, 3, 4, d.get F.FLT_SRC_INFO.INSTANCE s, d.get F.FLT_SRC_DETAIL.DETAIL s, d.cycleKey⟩
      if d.stopped then d else d.enterStopped
    else if d.faultClass s = 2 then d.mapTouch.safeEnterFor s
    else d) d
  d.irqRefresh

/-- R184, R185: an output that the map in force assigns to an active SAFE source is in its safe state. -/
def Dev.safeFollow (d : Dev) : Dev := (List.range 72).foldl (fun d k => if d.safeNeeded k then d.safeEnter k else d) d

/-- R42: a task that the change unbinds is ready no longer; one that it binds starts its MAXUSED anew. -/
def Dev.tasksUnbound (old d : Dev) : Dev :=
  let d := d.tasks.foldl (fun (d : Dev) t =>
    if old.taskBound t.1 && !d.taskBound t.1 then d.setTask t.1 { d.task t.1 with ready := false, again := false } else d) d
  d.boundTasks.foldl (fun (d : Dev) t => if old.taskBound t then d else d.put F.ENG_TASK_STAT.MAXUSED 0 t) d

/-- A binding that the change alters starts without a record. -/
def Dev.bindingsNew (old d : Dev) : Dev :=
  let d := (List.range 16).foldl (fun d i =>
    if old.rd R.KL_RREF i != d.rd R.KL_RREF i then { d with rrefs := Tbl.del d.rrefs i } else d) d
  (List.range 8).foldl (fun d m =>
    if old.rd R.KL_RLOOP m != d.rd R.KL_RLOOP m then { d with rwords := Tbl.del d.rwords m } else d) d

/-- R21-R23: the profile in force changes; LEAN powers off clusters 8-15. -/
def Dev.profileEnter (d : Dev) (new : Nat) : Dev :=
  if d.get F.SYS_PROFILE.ACTIVE = new then d else
  let d := (d.put F.SYS_PROFILE.ACTIVE new).put F.SYS_PROFILE.REFUSE 0
  if new = 3 then
    let on := d.get F.ENG_CLUSTER_PWR.ON % 256
    let d := (List.range 8).foldl (fun d c => d.clusterOff (c + 8)) (d.put F.ENG_CLUSTER_PWR.ON on)
    { d with acc := d.acc.map fun e => if e.1 = R.ENG_CLUSTER_PWR.base then (e.1, BitVec.ofNat 32 (e.2.toNat % 256)) else e }
  else d

/-- A cluster's copy of a table written: no bytes for a table that is gone. -/
def copySet (t : Tbl (List Byte)) (n : Nat) (b : List Byte) : Tbl (List Byte) := if b.isEmpty then Tbl.del t n else Tbl.set t n b

/-- R72: the cluster swaps its two copies of table n. -/
def Cluster.swap (c : Cluster) (n : Nat) : Cluster :=
  if c.resident.contains n then
    { c with live := copySet c.live n (Tbl.getD c.staged n []), staged := copySet c.staged n (Tbl.getD c.live n []) }
  else c

/-- R72: the clusters swap their copies of the tables that `tabs` changes. -/
def Dev.clustersSwap (d : Dev) (tabs : Tbl StagedTable) : Dev :=
  { d with cluss := d.cluss.map fun (c : Nat × Cluster) => (c.1, tabs.foldl (fun c t => c.swap t.1) c.2) }

/-- What follows in the blocks from new RWL values and tables; `old` is the device before. -/
def Dev.configTakes (old d : Dev) : Dev :=
  let d := Dev.ringsRestart old (Dev.poolsMoved old d)
  let d := Dev.bindingsNew old (Dev.tasksUnbound old d)
  (Dev.reclassify old d).safeFollow

/-- R284: the change takes effect. -/
def Dev.stageApply (d : Dev) : Dev :=
  let new := d.view.get F.SYS_PROFILE.ACTIVE
  let c := { d with regs := mergeTbl FieldSpec.locked d.regs d.staged, staged := [] }
  let c := ((Dev.tableSwap d c).profileEnter new).clustersSwap d.stagedTabs
  Dev.configTakes d (c.put F.TBL_STAT.STAGED 0)

/-! ## The commit (R284) -/

/-- R284: the result is written and the COMMIT cause set; a refusal raises KL_COMMIT_REFUSED. -/
def Dev.stageResult (d : Dev) (code : Nat) : Dev :=
  let d := (d.put F.KL_STAGE_STAT.RESULT code).irqSet F.HOST_IRQ_CAUSE.COMMIT
  if code = 1 then d else d.fault 228 0 code

/-- R284: a good frame of the previous tick shows ARMED for tick t. -/
def Dev.peerArmed (d : Dev) (k t : Nat) : Bool :=
  let b := (d.klink k).body
  bit (leAt b 54 1) 0 && leAt b 56 4 == t % 2 ^ 32

/-- R284: the frame shows the device's own announcement. -/
def Dev.peerAgrees (d : Dev) (k : Nat) : Bool :=
  let b := (d.klink k).body
  d.peerArmed k d.stageTick && leAt b 60 8 == d.get64 F.KL_SWM_LO.VALUE F.KL_SWM_HI.VALUE &&
    leAt b 52 2 == d.get F.KL_GEN.GEN

/-- R284: boundary action 2: the commit at tick C, or a peer's that finds nothing armed here. A standalone device consults no
frame. -/
def Dev.stageBoundary (d : Dev) : Dev :=
  let peers := if d.tick = 0 ∨ d.role = 0 then [] else d.framesOf (d.tick - 1)
  if d.stage ≠ 2 then
    if peers.any fun k => d.peerArmed k d.tick then d.stageResult 3 else d
  else if d.tick < d.stageTick then d
  else
    let idle := fun (d : Dev) => d.stageClear.put F.KL_STAGE_STAT.STATE 0
    if d.stageTick < d.tick || !peers.all (fun k => d.peerAgrees k) then (idle d).stageResult 2
    else
      let v := d.view
      if d.changeBad v then (idle (d.changeRecord v)).stageResult 4
      else
        let d := d.stageApply.put F.KL_STAGE_STAT.STATE 0
        (d.incWrap F.KL_GEN.GEN).stageResult 1

/-- STAGE_COMMIT: action 2 of the present boundary. -/
def execStageCommit (s : State) : StepOut := s.run fun d => d.stageBoundary

end Sys2Proof.Machine
end

