-- ==== Sys2Proof/Machine/RegWrite.lean ====
section
/-! DEFINITION. The register write of every path (R6-R8, R19, R25, R32, R339, R343, R345, R346, R385-R387). -/

namespace Sys2Proof.Machine

/-! ## Which bits a path writes (R5, R385) -/

/-- R385: engines and REGS sections write the engine-only fields. -/
def engLike : Path → Bool
  | .engine _ => true
  | .regs => true
  | _ => false

/-- The path may write the field. -/
def FieldSpec.writable (p : Path) (f : FieldSpec) : Bool :=
  f.acc == .rw || f.acc == .rwl || f.acc == .wo || (f.acc == .eng && engLike p)

/-- R289, R290: bits of REAM_RGN_CFG that are read-only for a fixed region. -/
def fixedBits (x : Site) (n : Nat) : Nat :=
  if x.is [R.REAM_RGN_CFG] && decide (n < 10) then 0x3000FFFF + (if [0, 1, 4, 9].contains n then 2 ^ 31 else 0) else 0

/-- The bits of copy n that the path writes. -/
def writeMask (p : Path) (x : Site) (n : Nat) : Nat :=
  maskOf x.fields (FieldSpec.writable p) &&& (2 ^ 32 - 1 - fixedBits x n)

/-! ## Parts of a value (R8) -/

/-- The offset of a site. -/
def Site.off (x : Site) : Nat := x.reg.base + x.reg.stride * x.n + x.reg.stride2 * x.k

/-- R8: the interface of a path: each engine, SPI and I2C have their own, and all functions share that of PCIe. -/
def pathIface (p : Path) : Nat :=
  match p with
  | .pcie _ => 512
  | p => p.code

/-- R8: the place of an interface's latch or staging register of an offset. -/
def pathKey (p : Path) (off : Nat) : Nat := pathIface p * 2 ^ 32 + off

/-- R8: the registers that hold the other parts of the value of a _LO or _HI register. -/
def Site.others (x : Site) : List Site :=
  match x.reg.part with
  | .lo f => (siteAt (x.off + 4)).toList ++ (if f then (siteAt (x.off + 8)).toList else [])
  | .hi f => (siteAt (x.off - 4)).toList ++ (if f then (siteAt (x.off + 4)).toList else [])
  | _ => []

/-- R8: the register only stages its part. -/
def Site.stages (x : Site) : Bool :=
  match x.reg.part with
  | .lo _ => true
  | .frac => true
  | _ => false

/-- The word that a write leaves in copy n, with `o` the words before it. -/
def Dev.newWord (o : Dev) (p : Path) (x : Site) (n w : Nat) : Nat := mergeWord (writeMask p x n) (o.rd x.own n) w

/-- R8: what a write applies: its own word and, for _HI, the parts that the path has staged. -/
def Dev.newWords (d o : Dev) (p : Path) (x : Site) (n w : Nat) : List (Site × Nat) :=
  (x, o.newWord p x n w) :: (if x.stages then [] else x.others.filterMap fun y =>
    (Tbl.find? d.half (pathKey p y.off)).map fun h => (y, o.newWord p y n h.toNat))

/-! ## The reason of a refusal (R339) -/

/-- R343: a VF writes ADDR, TAIL, and ENABLE and VECTOR of its rings, and VAT_QHOST. -/
def Dev.vfFieldBad (o : Dev) (p : Path) (x : Site) (n w : Nat) : Bool :=
  match p with
  | .pcie f => f.val != 0 && !x.is [R.VAT_QHOST_CMD, R.VAT_QHOST_STAT, R.VAT_QHOST_ADDR, R.FRM_RING_ADDR_LO,
      R.FRM_RING_ADDR_HI, R.FRM_RING_TAIL] &&
    !(x.is [R.FRM_RING_CFG] && mergeWord 0x801FC000 (o.rd x.own n) w == w)
  | _ => false

/-- The fields of access RWL of a register. -/
def lockedMask (x : Site) : Nat := maskOf x.fields FieldSpec.locked

/-- R6: a word would change an RWL field. -/
def Dev.changesLocked (o : Dev) (n : Nat) (y : Site × Nat) : Bool :=
  mergeWord (lockedMask y.1) (o.rd y.1.own n) y.2 != o.rd y.1.own n

/-- R5, R6: a write reaches RWL fields that it may not: outside a staged change it would change one, or the register holds no
other field. -/
def Dev.lockedWrite (d o : Dev) (x : Site) (n : Nat) (ws : List (Site × Nat)) : Bool :=
  ws.any (fun y => o.changesLocked n y) || (d.stage == 0 && x.fields.all FieldSpec.locked)

/-- R6: what a direct write breaks of the rules on the whole configuration that a commit judges for a staged one (R21, R86). -/
def Dev.directBad (d v : Dev) (x : Site) : Bool :=
  if x.is [R.VAT_POOL_CFG] then v.poolsBad.isSome || v.qdescBad.isSome
  else if x.is [R.VAT_QDESC_BASE] then v.qdescBad.isSome
  else if x.is [R.SYS_PROFILE] then Dev.profileBad d v != 0
  else false

/-- R86, R21: what a direct write refused by `directBad` records. -/
def Dev.directNote (d v : Dev) (x : Site) : Dev :=
  if x.is [R.VAT_POOL_CFG, R.VAT_QDESC_BASE] then match v.poolsBad.or v.qdescBad with
    | some c => d.vatRefuse c.1 c.2
    | none => d
  else if x.is [R.SYS_PROFILE] && Dev.profileBad d v != 0 then
    (d.put F.SYS_PROFILE.REFUSE (Dev.profileBad d v)).fault 6 0 (Dev.profileBad d v)
  else d

/-- The configuration with the words of a write (R387). -/
def Dev.withWords (o : Dev) (x : Site) (n : Nat) (ws : List (Site × Nat)) : Dev :=
  let v := ws.foldl (fun (v : Dev) y => v.wr y.1.own y.2 n) o
  if x.is [R.SYS_PROFILE] then v.put F.SYS_PROFILE.ACTIVE (v.get F.SYS_PROFILE.PROFILE) else v

/-- R345, R7, R32: the reasons that hold for commands and registers alike. -/
def Dev.formBad (d o : Dev) (p : Path) (x : Site) (off n w : Nat) (whole : Bool) : Option Reason :=
  if mergeWord (maskOf x.fields fun _ => true) w 0 != 0 then some .reserved
  else if !whole then some .size
  else if d.access p off true == .refused .access || o.accessBad p x n w || o.vfFieldBad p x n w then some .access
  else none

/-- R339: the reason for which a write of a register is refused. `direct` lets RWL fields be written (R6). -/
def Dev.writeBad (d o v : Dev) (p : Path) (x : Site) (off n : Nat) (ws : List (Site × Nat)) (direct : Bool) : Option Reason :=
  let w := (ws.headD (x, 0)).2
  let rwl := !direct && Dev.lockedWrite d o x n ws
  if (rwl && d.stage == 0) || Dev.lockBad d o v x n then some .locked
  else if (x.fields.any fun f => f.writable p && f.bad x.reg.reset w) || v.rangeBad x n w then some .range
  else if !x.stages && (Dev.combBad d o v x n || (direct && Dev.directBad d v x)) then some .combination
  else if (rwl && d.stage == 2) || Dev.stateBad d o v x n || d.access p off true == .refused .state then some .state
  else none

/-! ## What an accepted word does (R5, R6, R19) -/

/-- One word applied: immediate fields at once, tick-synchronous ones at the boundary, RWL ones in the open change. -/
def Dev.takeWord (d : Dev) (n : Nat) (direct : Bool) (y : Site × Nat) : Dev :=
  let fs := y.1.fields
  let key := y.1.own.key n
  let w := BitVec.ofNat 32 y.2
  let now := maskOf fs fun f => (f.rw && !f.tick) || (direct && f.locked)
  let d := if now = 0 then d else d.wr y.1.own (mergeWord now (d.rd y.1.own n) y.2) n
  let d := if fs.any FieldSpec.sync then { d with acc := Tbl.set d.acc key w } else d
  if !direct && fs.any FieldSpec.locked && d.stage == 1 then { d with staged := Tbl.set d.staged key w } else d

/-- R5: bits of access W1C that are written 1 clear, but for those set in the same cycle. -/
def Dev.clearBits (d : Dev) (x : Site) (n w : Nat) : Dev :=
  let m := maskOf x.fields fun f => f.acc == .w1c
  if m = 0 then d else d.wr x.own (d.w1cLeft x.own (m &&& w) n) n

/-- What follows from an accepted write. -/
def Dev.writeHook (old d : Dev) (p : Path) (x : Site) (n : Nat) (direct : Bool) : Dev :=
  let d := if direct && x.fields.any FieldSpec.locked then
      let d := if x.is [R.TBL_DIR_BASE] then Dev.tableSwap old d else d
      let d := if x.is [R.SYS_PROFILE] then d.profileEnter (d.get F.SYS_PROFILE.PROFILE) else d
      Dev.configTakes old d
    else d
  if x.is [R.FLT_PIN] then d.pinFollow
  -- R225: the stepper keeps the increment of the tick before for PREV_INC
  else if x.is [R.CTX_INC_HI] && !direct then d.setCtx n (old.ctx n)
  else if x.is [R.HOST_IRQ_MASK, R.HOST_FLT_MASK] then d.irqRefresh
  else if x.is [R.FRM_RING_CFG] then
    if old.flag F.FRM_RING_CFG.ENABLE n && !d.flag F.FRM_RING_CFG.ENABLE n then d.ringDisable n else d
  else if x.is [R.CTX_CONV_IN_NS_HI] then
    d.convertCmd p (d.get64 F.CTX_CONV_IN_NS_LO.VALUE F.CTX_CONV_IN_NS_HI.VALUE p.code * 2 ^ 32 + d.get F.CTX_CONV_IN_FRAC.VALUE p.code)
  else d

/-- R8: a _HI write, accepted or refused, uses up what its path has staged. -/
def Dev.halvesDone (d : Dev) (p : Path) (x : Site) : Dev :=
  if x.stages then d else { d with half := x.others.foldl (fun t (y : Site) => Tbl.del t (pathKey p y.off)) d.half }

/-- An accepted write. R257, R45: tokens earned and promotions brought so far are those of the old FRM_POLICE and ENG_AGE. -/
def Dev.writeTake (d : Dev) (p : Path) (x : Site) (n w : Nat) (ws : List (Site × Nat)) (direct : Bool) : Dev :=
  let d := if x.is [R.FRM_POLICE] then d.tokensSettle n else if x.is [R.ENG_AGE] then d.agesSettle else d
  if x.stages then
    if writeMask p x n = 0 then d else { d with half := Tbl.set d.half (pathKey p x.off) (BitVec.ofNat 32 w) }
  else
    let e := ws.foldl (fun (e : Dev) y => e.takeWord n direct y) d
    Dev.writeHook d ((e.halvesDone p x).clearBits x n w) p x n direct

/-- R34: a refused write of a task register records admission; a BUDGET out of range has code 2. -/
def Dev.noteAdmit (d v : Dev) (x : Site) (n w : Nat) (r : Reason) : Dev :=
  let e := n / 16
  let b := bits w F.ENG_TASK_BUDGET.BUDGET.hi F.ENG_TASK_BUDGET.BUDGET.lo
  if r == .combination && x.is [R.ENG_TASK_CFG, R.ENG_TASK_BUDGET, R.ENG_TASK_PERIOD] && v.admitCode e != 0 then
    d.admitNote v e (v.admitCode e)
  else if r == .range && x.is [R.ENG_TASK_BUDGET] && decide (b < 3 ∨ 1200 < b) then d.admitNote v e 2
  else d

/-! ## Command registers -/

/-- Registers whose write is a command, or acts as one. -/
def commandRegs : List Reg :=
  [R.TBL_LOAD_CMD, R.ENG_TASK_CANCEL, R.VAT_QHOST_CMD, R.SEL_RWD_CMD, R.SYN_CMD, R.SYN_BM_DATA, R.SLAL_CMD, R.TDC_MS_CMD,
   R.TDC_ST_CMD, R.TDC_TR_CMD, R.TIME_LT_STEP_HI, R.CTX_CMD, R.CTX_LEAP_HI, R.EVT_CMD, R.KL_STAGE_CMD, R.KL_LINK_CMD,
   R.REAM_CMD, R.FLT_STATUS, R.FLT_FORCE, R.BOOT_CMD, R.HOST_IRQ_CAUSE, R.XI2C_CMD, R.FSPI_CMD, R.TST_BIST_CMD]

/-- R8: the low half for a _HI command: as staged by the path, else the given value. -/
def Dev.lowHalf (d : Dev) (p : Path) (x : Site) (cur : Nat) : Nat :=
  ((Tbl.find? d.half (pathKey p (x.off - 4))).map (·.toNat)).getD cur

/-- A staged low half is used up. -/
def Dev.halfDone (d : Dev) (p : Path) (x : Site) : Dev := { d with half := Tbl.del d.half (pathKey p (x.off - 4)) }

/-- Commands of the table, VAT, SEL, SYN, SLAL and TDC blocks. -/
def Dev.command1 (d : Dev) (p : Path) (x : Site) (w : Nat) : Dev :=
  let off := x.off
  let op := bits w 31 30
  let bad := d.refuse p.code off .range
  if x.is [R.TBL_LOAD_CMD] then
    if op = 1 then d.tableLoadCmd p (bits w 25 16) (bits w 12 0)
    else if op = 2 then d.tableDeleteCmd p (bits w 25 16) else bad
  else if x.is [R.ENG_TASK_CANCEL] then if bit w 31 then d.cancelTask (16 * bits w 8 0 + bits w 12 9) else d
  else if x.is [R.VAT_QHOST_CMD] then
    if op = 0 ∨ (op ≠ 3 ∧ bits w 15 0 = 0) then bad
    else if op = 1 then d.qhostPop p.code (bits w 27 16) (bits w 15 0)
    else if op = 2 then d.qhostPush p.code (bits w 27 16) (bits w 15 0)
    else d.qhostCommit p.code (bits w 27 16)
  else if x.is [R.SEL_RWD_CMD] then
    if op = 1 then d.rewindStartCmd p x.n (bits w 7 0)
    else if op = 2 then d.rewindAbortCmd p x.n
    else if op = 3 then d.rewindSpliceCmd p x.n else bad
  else if x.is [R.SYN_CMD] then if op = 1 then d.synSearch x.n else if op = 2 then d.synAbort x.n else bad
  else if x.is [R.SYN_BM_DATA] then (d.bmHostWrite x.n (d.copyOf p x) x.k w).getD (d.refuse p.code off .access)
  else if x.is [R.SLAL_CMD] then
    if op = 1 then d.slalStartCmd p x.n else if op = 2 then d.slalAbortCmd p x.n
    else if op = 3 then d.slalClearCmd p x.n else bad
  else if x.is [R.TDC_MS_CMD] then if op = 1 then d.msArmCmd p x.n else if op = 2 then d.msAbortCmd x.n else bad
  else if x.is [R.TDC_ST_CMD] then if op = 1 then d.stStartCmd p x.n else if op = 2 then d.stAbortCmd x.n else bad
  else if x.is [R.TDC_TR_CMD] then
    if op = 1 then d.trArmCmd p x.n else if op = 2 then d.trTriggerCmd x.n
    else if op = 3 then d.trAbortCmd x.n else bad
  else d

/-- R231: a write of CTX_LEAP, both halves. -/
def Dev.leapCommand (d : Dev) (p : Path) (x : Site) (w : Nat) : Dev :=
  let lo := d.lowHalf p x (d.getA F.CTX_LEAP_LO.LEAP (d.copyOf p x))
  let e := d.halfDone p x
  if bit w 31 then e.leapArmCmd p (lo + bits w 15 0 * 2 ^ 32) (bit w 16)
  else e.leapDisarmCmd p (lo + bits w 15 0 * 2 ^ 32) (bit w 16)

/-- Commands of the TIME, CTX, EVT, KL, REAM, FLT, BOOT, HOST and TST blocks. -/
def Dev.command2 (d : Dev) (p : Path) (x : Site) (w : Nat) : Dev :=
  let off := x.off
  let op := bits w 31 30
  let op3 := bits w 31 29
  let bad := d.refuse p.code off .range
  if x.is [R.TIME_LT_STEP_HI] then
    let lo := d.lowHalf p x (ofSigned 64 (d.time.step.getD 0) % 2 ^ 32)
    (d.halfDone p x).ltStepCmd p (toSigned 64 (lo + w * 2 ^ 32))
  else if x.is [R.CTX_LEAP_HI] then d.leapCommand p x w
  else if x.is [R.CTX_CMD] then
    match op3 with
    | 1 => d.ctxSetCmd p
    | 2 => d.ctxStepCmd p
    | 3 => d.ctxSlewCmd p
    | 4 => d.ctxCancelCmd p
    | 5 => d.ctxDisableCmd p
    | _ => bad
  else if x.is [R.EVT_CMD] then if op = 1 then d.evtArmCmd p x.n else if op = 2 then d.evtStopCmd p x.n else bad
  else if x.is [R.KL_STAGE_CMD] then
    if op = 1 then d.stageOpenCmd p else if op = 2 then d.stageArmCmd p else if op = 3 then d.stageDiscardCmd p else bad
  else if x.is [R.KL_LINK_CMD] then
    if op = 1 then d.linkCalCmd p x.n (bits w 29 0) else if op = 2 then d.linkAbortCmd x.n else bad
  else if x.is [R.REAM_CMD] then
    match op3 with
    | 1 => d.reamCmd p 1 (bits w 16 0)
    | 2 => d.reamCmd p 2 (bits w 16 0)
    | 3 => d.reamCmd p 3 0
    | 4 => (d.freeNext).reamAbort p (d.freeVal % 64)
    | _ => bad
  else if x.is [R.FLT_STATUS] then d.clearStatus x.n w
  else if x.is [R.FLT_FORCE] then d.forceCmd p x.n w
  else if x.is [R.BOOT_CMD] then
    if op = 1 then
      let src := bits w 29 28
      d.bootRestartCmd p src (if src = 0 then d.boot.inp.primary else if src = 1 then d.boot.inp.secondary else [])
    else if op = 2 then d.bootReleaseCmd else if op = 3 then d.pushGoCmd else bad
  else if x.is [R.HOST_IRQ_CAUSE] then d.causeClear w
  else if x.is [R.XI2C_CMD] then
    if op = 1 then d.xiXfer p x.n (bits w 22 16) (bits w 11 8) (bits w 3 0)
    else if op = 2 then (d.freeNext).xiReset x.n ⟨Fin.ofNat 9 (d.freeVal / 2), bit d.freeVal 0⟩ else bad
  else if x.is [R.FSPI_CMD] then
    match op3 with
    | 1 => d.fspiCmd p 1 (bits w 25 24) (bits w 23 0)
    | 2 => d.fspiCmd p 2 0 (bits w 23 0)
    | 3 => d.fspiCmd p 3 0 0
    | 4 => d.fspiAbort p
    | _ => bad
  else if x.is [R.TST_BIST_CMD] then
    if op = 1 then d.bistCmd p 1 0 else if op = 2 then d.bistCmd p 2 (bits w 3 0)
    else if op = 3 then d.bistAbortCmd p else bad
  else d

/-- The last block whose commands `command1` holds begins below TIME. -/
def Dev.command (d : Dev) (p : Path) (x : Site) (w : Nat) : Dev :=
  if x.off < 0x08A00000 then d.command1 p x w else d.command2 p x w

/-! ## The write -/

/-- R25: a write that reaches a register. -/
def Dev.siteWrite (d : Dev) (p : Path) (x : Site) (off w : Nat) (whole direct : Bool) : Dev :=
  let n := d.copyOf p x
  let o := d.view
  match Dev.formBad d o p x off n w whole with
  | some r => (d.halvesDone p x).refuse p.code off r
  | none =>
    if x.is commandRegs then
      if x.fields.any fun f => f.writable p && f.bad x.reg.reset w then (d.halvesDone p x).refuse p.code off .range
      else if d.access p off true == .refused .state then
        (d.halvesDone p x).refuse p.code off ((d.refusalOf fun d => d.command p x w).getD .state)
      else d.command p x w
    else
      let ws := Dev.newWords d o p x n w
      let v := o.withWords x n ws
      match Dev.writeBad d o v p x off n ws direct with
      | some r =>
        let d := Dev.noteAdmit d v x n w r
        ((if direct && r == .combination then Dev.directNote d v x else d).halvesDone p x).refuse p.code off r
      | none => d.writeTake p x n w ws direct

/-- R345, R339: a write to an instruction store. -/
def Dev.istorePath (d : Dev) (p : Path) (off w : Nat) (whole : Bool) : Dev :=
  let go := fun (d : Dev) => if off % 4 = 0 then d.istoreWrite p ((off - 0x0A000000) / 0x10000) (off % 0x10000 / 4) w
    else d.refuse p.code off .access
  if !whole then d.refuse p.code off .size
  else match d.access p off true with
    | .refused .state => d.refuse p.code off ((d.refusalOf go).getD .state)
    | .refused r => d.refuse p.code off r
    | _ => go d

/-- R337: a write to an offset of the register space: Vat window, instruction stores, registers. -/
def Dev.regWrite (d : Dev) (p : Path) (off w : Nat) (whole direct : Bool) : Dev :=
  if off < 0x04000000 then
    match d.access p off true with
    | .refused r => d.refuse p.code off r
    | _ => if p.isHost then d.windowWrite off ((leBytes 4 w).map fun b => (b, true)) false else d.refuse p.code off .access
  else if 0x0A000000 ≤ off ∧ off < 0x0A100000 then
    d.istorePath p off w whole
  else match siteAt off with
    | none => d.refuse p.code off (if whole then .access else .size)
    | some x => d.siteWrite p x off w whole direct

/-! ## VFs (R343) and the write as it arrives -/

/-- R343: the rings of a VF in ascending number. -/
def Dev.vfRings (d : Dev) (f : Nat) : List Nat := (List.range 256).filter fun r => d.get F.FRM_RING_CFG.FUNC r == f

/-- R341, R343: the BAR0 offset of the PF that an offset of a VF's BAR0 maps. -/
def Dev.vfMap (d : Dev) (f x : Nat) : Option Nat :=
  if x < 0x1000 then ((d.vfRings f)[x / 0x20]?).map fun r => R.FRM_RING_ADDR_LO.base + 0x20 * r + x % 0x20
  else if x = 0x1000 then some R.VAT_QHOST_CMD.off
  else if x = 0x1004 then some R.VAT_QHOST_STAT.off
  else if x = 0x1008 then some R.VAT_QHOST_ADDR.off
  else none

/-- The offset in the register space that a path's own offset names. -/
def Dev.pathOff (d : Dev) (p : Path) (off : Nat) : Option Nat :=
  match p with
  | .pcie f => if f.val = 0 then some off else d.vfMap f.val off
  | _ => some off

/-- R346: a write with EP set is refused, for a reason that the spec does not name; R8: a _HI write uses up what is staged. -/
def Dev.poisonWrite (d : Dev) (p : Path) (off : Nat) : Dev :=
  let n := d.freeVal % 7
  let r : Reason := ([.reserved, .size, .access, .locked, .range, .combination, .state] : List Reason).getD n .state
  let d := match siteAt off with
    | some x => d.halvesDone p x
    | none => d
  (d.freeNext.fault 259).refuse p.code off r

/-- A register write of a path: reached, timed out, refused or applied. -/
def Dev.pathWrite (d : Dev) (p : Path) (off w : Nat) (whole ep : Bool) : Dev :=
  match d.pathOff p off with
  | none => match d.access p R.VAT_QHOST_CMD.off true with
    | .absent => d
    | .timeout => d.accessTimeout p
    | _ => (if ep then d.fault 259 else d).refuse p.code off (if whole then .access else .size)
  | some off => match d.access p off true with
    | .absent => d
    | .timeout => d.accessTimeout p
    | r => if !ep then d.regWrite p off w whole false
      else if off < 0x04000000 && p.isHost && r == .ok then
        d.windowWrite off ((leBytes 4 w).map fun b => (b, true)) true
      else d.poisonWrite p off

end Sys2Proof.Machine
end

