-- ==== Sys2Proof/Machine/Image.lean ====
section
/-! DEFINITION. The image (R48), the loader's checks (R49, R6), its signature (R333) and the placing of its sections. -/

namespace Sys2Proof.Machine

/-- R48: a section table entry. -/
structure Sect where
  typ : Nat
  target : Nat
  off : Nat
  len : Nat
  dest : Nat
  deriving DecidableEq, Repr, Inhabited

/-- IMAGE_LENGTH. -/
def imageLen (b : List Byte) : Nat := leAt b 0x0C 4

/-- The section table. -/
def sections (b : List Byte) : List Sect :=
  (List.range (leAt b 0x10 2)).map fun i =>
    let a := leAt b 0x14 4 + 16 * i
    ⟨leAt b a 2, leAt b (a + 2) 2, leAt b (a + 4) 4, leAt b (a + 8) 4, leAt b (a + 12) 4⟩

/-- The section's bytes. -/
def Sect.bytes (s : Sect) (b : List Byte) : List Byte := sliceB b s.off s.len

/-- The n-byte entries of a section. -/
def Sect.items (s : Sect) (b : List Byte) (n : Nat) : List (List Byte) :=
  let t := s.bytes b
  (List.range (s.len / n)).map fun i => sliceB t (n * i) n

/-- R49: MAGIC, HDR_VERSION and MIN_SILICON match, and the header's reserved fields are zero. LOG ENTRY 92: MIN_SILICON
matches if it is at most 0x00B0, the revision of this silicon. -/
def headerOk (b : List Byte) : Bool :=
  let n := imageLen b
  b.take 4 == [0x4E, 0x56, 0x49, 0x4D] && leAt b 4 2 == 1 && decide (leAt b 0x0A 2 ≤ 0xB0) &&
    decide (n % 4 = 0 ∧ 0x80 + 196 ≤ n ∧ n ≤ 2 ^ 24 ∧ n ≤ b.length) &&
    decide (1 ≤ leAt b 0x10 2 ∧ leAt b 0x10 2 ≤ 1024 ∧ leAt b 0x14 4 + 16 * leAt b 0x10 2 ≤ n) &&
    decide (1 ≤ leAt b 0x12 2 ∧ leAt b 0x12 2 < 16) &&
    leAt b 0x1E 2 == 0 && leAt b 0x50 48 == 0 && leAt b (n - 99) 3 == 0

/-- R49: BODY_DIGEST. -/
def digestOk (b : List Byte) : Bool :=
  sliceB b 0x20 48 == sha384 (sliceB b 0x80 (imageLen b - 196 - 0x80))

/-- R48: the reserved bits of a task descriptor are zero. -/
def taskOk (t : List Byte) : Bool :=
  bits (leAt t 0 2) 15 13 == 0 && bits (leAt t 4 2) 15 14 == 0 && bits (leAt t 6 2) 15 11 == 0 &&
    bits (leAt t 8 2) 15 11 == 0 && leAt t 14 2 == 0

/-- R49: the section lies inside the image and inside its target; a TASKS section's reserved fields are zero, and a TABLE
section has a table's format and length. -/
def Sect.ok (s : Sect) (b : List Byte) : Bool :=
  decide (s.off + s.len ≤ imageLen b) && match s.typ with
  | 1 => decide (s.target < 16 ∧ s.dest + s.len ≤ 2 ^ 16)
  | 2 => decide (s.target < 16 ∧ s.dest + s.len ≤ 2 ^ 18)
  | 3 => decide (s.target < 512 ∧ s.dest + s.len ≤ 2 ^ 12)
  | 4 => decide (s.dest + s.len ≤ 2 ^ 26)
  | 5 => s.len % 16 == 0 && (s.items b 16).all taskOk
  | 6 => decide (s.target < 1024) && s.dest % 8 == 0 && tableLen (s.bytes b) == some s.len
  | 7 => s.len % 8 == 0
  | 8 => s.len % 8 == 0 && (s.items b 8).all fun t => decide (leAt t 0 4 < 1024)
  | _ => false

/-! ## Placing (R6, R48, R72) -/

/-- The loader's path (R339). -/
def loader : Path := .regs

/-- R6, R25, R34, R386: why one of the task registers of a descriptor is refused, with the whole descriptor in `v`. -/
def Dev.taskWordBad (d v : Dev) (x : Site) (n w : Nat) : Option Reason :=
  if mergeWord (maskOf x.fields fun _ => true) w 0 != 0 then some .reserved
  else if (x.fields.any fun f => f.bad x.reg.reset w) || d.rangeBad x n w then some .range
  else if Dev.combBad d d v x n then some .combination
  else none

/-- R48: the task of a descriptor, and the words that it puts into the task's registers. -/
def taskWords (t : List Byte) : Nat × List (Reg × Nat) :=
  let w := leAt t 0 2
  let b2 := leAt t 2 1
  (16 * (w % 512) + bits w 12 9,
   [(R.ENG_TASK_BUDGET, leAt t 8 2 * 2 ^ 16 + leAt t 6 2), (R.ENG_TASK_PERIOD, leAt t 12 2 * 2 ^ 16 + leAt t 10 2),
    (R.ENG_TASK_CFG,
      leAt t 4 2 * 2 ^ 16 + leAt t 3 1 * 2 ^ 8 + bits b2 7 7 * 2 ^ 7 + bits b2 6 2 * 4 + bits b2 1 0)])

/-- R6, R25, R48: a task descriptor goes into the registers of its task. LOG ENTRY 105: its words are judged together, and a
descriptor that fails is refused whole, at the first register that fails. -/
def Dev.taskPlace (d : Dev) (t : List Byte) : Dev :=
  let (n, ws) := taskWords t
  let v := ws.foldl (fun (v : Dev) p => v.wr p.1 p.2 n) d
  let bad := ws.findSome? fun p => match siteAt p.1.base with
    | some x => (d.taskWordBad v x n p.2).map fun r => (x, p.2, r)
    | none => none
  match bad with
  | some (x, w, r) => (Dev.noteAdmit d v x n w r).refuse loader.code x.off r
  | none => v

/-- LOG ENTRY 23. R72: table n is resident in cluster c: an instruction that the image places there names it. -/
def residesIn (b : List Byte) (c n : Nat) : Bool :=
  (sections b).any fun s => s.typ == 1 && s.target == c && (s.items b 4).any fun w =>
    let x := leAt w 0 4
    (bits x 31 26 == 0x27 || bits x 31 26 == 0x28) && bits x 13 4 == n

/-- DESIGN CHOICE (log entry 23): a table that only the image's code names, without a TABLE section, is resident nowhere.
R72, R388: a table's master copy and directory entry, and a live and a staged copy in every cluster where it is resident. -/
def Dev.tablePlace (d : Dev) (b : List Byte) (n dest : Nat) (t : List Byte) : Dev :=
  (List.range 16).foldl (fun d c =>
    let x := d.clus c
    if residesIn b c n then
      d.setClus c { x with
        live := Tbl.set x.live n t
        staged := Tbl.set x.staged n t
        resident := if x.resident.contains n then x.resident else x.resident ++ [n] }
    else d) ((d.vatStore dest t).dirSet n dest t.length)

/-- R6, R388: the loader's write of section s is refused for the place of its master copy. -/
def Dev.sectBad (b : List Byte) (d : Dev) (s : Sect) : Bool :=
  s.typ == 6 && !d.view.masterFits s.target s.dest (s.bytes b).length

/-- R48: a section is placed. -/
def Dev.sectPlace (b : List Byte) (d : Dev) (s : Sect) : Dev :=
  let t := s.bytes b
  if d.sectBad b s then d else
  match s.typ with
  | 1 => d.setClus s.target { d.clus s.target with istore := (d.clus s.target).istore.writeN 0 s.dest t }
  | 2 => d.setClus s.target { d.clus s.target with cmem := (d.clus s.target).cmem.writeN 0 s.dest t }
  | 3 => d.setEng s.target { d.eng s.target with lmem := (d.eng s.target).lmem.writeN 0 s.dest t }
  | 4 => d.vatUser s.dest t
  | 5 => (s.items b 16).foldl Dev.taskPlace d
  | 6 => d.tablePlace b s.target s.dest t
  | 7 => (s.items b 8).foldl (fun (d : Dev) p => d.regWrite loader (leAt p 0 4) (leAt p 4 4) true true) d
  | _ => (s.items b 8).foldl (fun (d : Dev) p => d.regWrite loader (R.ENG_ROUTE.off (leAt p 0 4)) (leAt p 4 4) true true) d

/-- R6: the sections are placed in the order of the section table. -/
def Dev.imagePlace (d : Dev) (b : List Byte) : Dev := (sections b).foldl (Dev.sectPlace b) d

/-- R6, R388: a section's own write is refused on the way. -/
def Dev.imageRefused (b : List Byte) : Dev → List Sect → Bool
  | _, [] => false
  | d, s :: r => d.sectBad b s || Dev.imageRefused b (d.sectPlace b s) r

/-- The task descriptors of an image. -/
def imageTasks (b : List Byte) : List (List Byte) := ((sections b).filter (·.typ == 5)).flatMap fun s => s.items b 16

/-- R34, R49: a task descriptor lies on a cluster that a profile of the image powers off. -/
def taskOffBad (b t : List Byte) : Bool := bit (leAt b 0x12 2) 3 && decide (256 ≤ leAt t 0 2 % 512)

/-! ## Checks on the configuration that the image leaves (R6, R49) -/

/-- R388: every master copy is placed as it must be. -/
def Dev.mastersOk (v : Dev) : Bool :=
  (List.range 1024).all fun t =>
    let (a, n) := v.dirEntry t
    n == 0 || v.masterFits t a n

/-- R6: the combination checks, on device `v` with every section placed and in force. -/
def Dev.comboOk (v : Dev) : Bool :=
  let other := v.put F.SYS_PROFILE.ACTIVE ((v.get F.SYS_PROFILE.ACTIVE + 1) % 4)
  Dev.profileBad other v == 0 && v.poolsBad.isNone && v.qdescBad.isNone && !v.rewindOver && !v.rewindBad && !v.namesBad &&
    ((List.range 40).all fun n => !v.inputBad n) &&
    !v.placesBad && v.regs.all fun e => match keySite e.1 with
      | none => true
      | some (x, n) => !Dev.combBad v v v x n

/-- R34: the first engine on which admission fails. -/
def Dev.admitBad (v : Dev) : Option Nat := (List.range 512).find? fun e => v.admitCode e != 0

/-- R49, R6, R34: step 7's checks of an image for a device whose blocks are as `base` before its sections are placed. ENG_ADMIT
of `d` records a failed admission: one at a section's own write, or one of the configuration that the sections leave. -/
def Dev.imageCheck (d base : Dev) (b : List Byte) : Dev × Bool :=
  if !(headerOk b && digestOk b && (sections b).all fun s => s.ok b) then (d, false) else
  let e := (base.wr R.ENG_ADMIT 0).imagePlace b
  let v := e.view
  match (imageTasks b).find? fun t => taskOffBad b t with
  | some t => (d.admitNote v (leAt t 0 2 % 512) 4, false)
  | none =>
    if e.get F.ENG_ADMIT.CODE ≠ 0 then (d.wr R.ENG_ADMIT (e.rd R.ENG_ADMIT), false) else
    match v.admitBad with
    | some n => (d.admitNote v n (v.admitCode n), false)
    | none => (d, !Dev.imageRefused b base (sections b) && v.mastersOk && v.comboOk)

/-! ## The signature (R333) -/

/-- The key slot whose fuse hash the image's PUBLIC_KEY has: 1 slot 0, 2 slot 1, 0 none. -/
def keySlot (b : List Byte) : Nat :=
  let h := ofLe (sha384 (sliceB b (imageLen b - 196) 97)).reverse
  if h = (Config.keyHash 0).toNat then 1
  else if !Config.revoked1 && h == (Config.keyHash 1).toNat then 2 else 0

/-- R333: the image is accepted. -/
def signatureOk (b : List Byte) : Bool :=
  let n := imageLen b
  keySlot b != 0 && ecdsaOk (sliceB b (n - 196) 97) (sliceB b (n - 96) 96) (sha384 (b.take (n - 196))) &&
    decide (Config.rollback.toNat ≤ leAt b 9 1)

/-- R333: step 8: KEYSLOT shows the slot; a refusal raises IMAGE_SIG_FAIL. -/
def Dev.imageSign (d : Dev) (b : List Byte) : Dev × Bool :=
  if signatureOk b then (d.put F.BOOT_KEY.KEYSLOT (keySlot b), true) else (d.fault 257, false)

end Sys2Proof.Machine
end

