-- ==== Sys2Proof/Machine/Restore.lean ====
section
/-! DEFINITION. What a start takes from the Ream: twin regions (R301), PARAMETERS, the band memory (R169) and the save
(R306, R233, R245). -/

namespace Sys2Proof.Machine

/-! ## Twin regions (R301) -/

/-- R301: copy i (0 A, 1 B) of a twin region: its SEQ and body, if it is valid. -/
def Dev.twinCopy (d : Dev) (rgn i : Nat) : Option (Nat × List Byte) :=
  let (f, n) := d.region rgn
  let half := n / 2 * 4096
  let a := f * 4096 + i * half
  let h := d.reamRead a 16
  let len := leAt h 4 4
  if len + 16 ≤ half ∧ leAt h 12 4 = 0 ∧ !d.reamBad a (16 + len) ∧ leAt h 8 4 = crc32 (d.reamRead (a + 16) len)
  then some (leAt h 0 4, d.reamRead (a + 16) len) else none

/-- R301: the body of a twin region; where neither copy is valid it reads empty and REAM_TWIN_EMPTY is raised. -/
def Dev.twinRead (d : Dev) (rgn : Nat) : Dev × List Byte :=
  match d.twinCopy rgn 0, d.twinCopy rgn 1 with
  | some a, some b => (d, if later 32 b.1 a.1 then b.2 else a.2)
  | some a, none => (d, a.2)
  | none, some b => (d, b.2)
  | none, none => (d.fault 69 rgn, [])

/-- R301, R6: the PARAMETERS pairs are applied in order; a word that was accepted takes effect at once, since no boundary
lies before the end of the step. -/
def Dev.paramsApply (d : Dev) : Dev :=
  let (d, body) := d.twinRead 2
  let d := (List.range (body.length / 8)).foldl (fun (d : Dev) i =>
    d.regWrite .params (leAt body (8 * i) 4) (leAt body (8 * i + 4) 4) true true) d
  { d with regs := mergeTbl FieldSpec.sync d.regs d.acc, acc := [] }

/-- R169: boot step 9: the entries of the band memory, synthesizer by synthesizer. -/
def Dev.bandRestore (d : Dev) : Dev :=
  let (d, body) := d.twinRead 7
  (List.range (min 1024 (body.length / 16))).foldl (fun (d : Dev) i =>
    d.bmStore (i / 64) (i % 64) (sliceB body (16 * i) 16)) d

/-! ## The save (R306) -/

/-- R303: the image in a save area, if the area is valid. -/
def Dev.areaImage (d : Dev) (a : Nat) : Option (List Byte) :=
  let h := d.reamRead (areaPage a 0) 16
  let len := leAt h 8 4
  if h.take 4 = [0x52, 0x45, 0x41, 0x4D] ∧ 64 ≤ len ∧ len ≤ 65536 then
    let b := ((List.range (ceilDiv len 256)).flatMap fun i => d.reamRead (areaPage a i) 256).take len
    if crc32 (b.take 12 ++ leBytes 4 0 ++ b.drop 16) = leAt h 12 4 then some b else none
  else none

/-- Every sector of a save area is blank. -/
def Dev.areaBlank (d : Dev) (a : Nat) : Bool := (List.range 8192).all fun i => d.groupBlank (512 * areaSector a + i)

/-- R306: the area that a start restores, with its image. -/
def Dev.areaChosen (d : Dev) : Option (Nat × List Byte) :=
  match d.areaImage 0, d.areaImage 1 with
  | some x, some y => if later 32 (leAt y 4 4) (leAt x 4 4) then some (1, y) else some (0, x)
  | some x, none => some (0, x)
  | none, some y => some (1, y)
  | none, none => none

/-- R306, R294: n bytes of area a's image from byte x go back into the Vat; uncorrectable groups return poisoned. -/
def Dev.restoreRange (d : Dev) (a x vat n : Nat) : Dev :=
  (List.range (n / 8)).foldl (fun (d : Dev) i =>
    let y := x + 8 * i
    (d.readGroup (areaPage a (y / 256) / 8 + y % 256 / 8) (vat + 8 * i) 1).1) d

/-- R233: a context returns disabled, with INC, UTC_OFFSET, UTC_VALID and its leap. -/
def Dev.ctxRestore (d : Dev) (n : Nat) (r : List Byte) : Dev :=
  let inc := (toSigned 48 (leAt r 0 6) + 1000 * 2 ^ 32).toNat
  let w := leAt r 8 2
  let d := d.put64 F.CTX_INC_LO.VALUE F.CTX_INC_HI.VALUE inc n
  let d := ((d.put F.CTX_UTC.OFFSET (leAt r 6 2) n).put F.CTX_UTC.ANNOUNCE (w % 2 ^ 11) n).put F.CTX_UTC.VALID (bits w 11 11) n
  let d := (d.put F.CTX_STAT.LEAP (bits w 13 12) n).put F.CTX_STAT.UTC_VALID (bits w 11 11) n
  let leap := leAt r 10 6 + bits w 14 14 * 2 ^ 48 + (if bits w 13 12 = 1 then 2 ^ 63 else 0)
  let d := (d.wr R.CTX_LEAP_LO (leap % 2 ^ 32) n).wr R.CTX_LEAP_HI (leap / 2 ^ 32) n
  (d.setCtx n { Ctx.reset with curInc := inc, prevInc := inc }).ctxMirror n

/-- R306: the record of one kind of object o goes back into its slot; one of LENGTH 0 was none (R244), and one whose
START the Ream cannot read has no slot. -/
def Dev.binRestore (d : Dev) (a : Nat) (b : List Byte) (o kind : Nat) : Dev :=
  let y := 64 + 64 * o + 32 * kind
  if leAt b (y + 8) 4 = 0 || d.ream.ue.contains (areaPage a (y / 256) / 8 + y % 256 / 8) then d
  else d.restoreRange a y (d.piGranule o + binSlot kind (leAt b y 6)) 32

/-- R306: the contents of area a, with image b, return. -/
def Dev.areaRestore (d : Dev) (a : Nat) (b : List Byte) : Dev :=
  let pi := leAt b 39 1 % 2 = 1
  let n := leAt b 36 2
  let x := 64 + (if pi then 4608 else 0)
  let d := if pi then
      let d := (List.range 72).foldl (fun (d : Dev) o => (d.binRestore a b o 0).binRestore a b o 1) d
      { d with pi := { d.pi with restored := true } } else d
  let d := (List.range n).foldl (fun (d : Dev) i =>
    let y := x + 16 * i
    if d.ream.ue.any (fun g => g == areaPage a (y / 256) / 8 + y % 256 / 8 || g == areaPage a (y / 256) / 8 + y % 256 / 8 + 1)
    then d else d.ctxRestore i (sliceB b y 16)) d
  let sh := leAt b 38 1
  let cfg := d.get F.REAM_SAVE_CFG.SHADOW
  let d := d.restoreRange a (x + 16 * n) (d.get F.REAM_SAVE_CFG.GRANULE * 4096) (4096 * min sh cfg)
  let other := 1 - a
  let torn := (d.areaImage other).isNone && !d.areaBlank other
  let d := d.put F.REAM_SAVE_STAT.RESTORE (if sh ≠ cfg then 4 else if torn then 2 else 1)
  d.put F.REAM_SAVE_STAT.SEQ (leAt b 4 2)

/-- R306, R336: the erase that arms save area a begins, at its first sector; an erase takes at most 25 ms (R287). -/
def Dev.areaArm (d : Dev) (a : Nat) : Dev :=
  ({ d with ream := { d.ream with arm := some ⟨a, areaSector a, d.tick, min 25000 d.boot.inp.arm.toNat⟩ } } : Dev).eraseBegin
    (areaSector a)

/-- R306, R336: arming goes on in the background, sector by sector; the area is armed behind its last one. -/
def Dev.armBoundary (d : Dev) : Dev :=
  match d.ream.arm with
  | none => d
  | some x =>
    if d.tick < x.since + max 1 x.us then d else
    let d := d.eraseFinish x.sector
    if x.sector + 1 < areaSector x.area + 16 then
      ({ d with ream := { d.ream with arm := some { x with sector := x.sector + 1, since := d.tick } } } : Dev).eraseBegin
        (x.sector + 1)
    else
      { (d.put F.REAM_SAVE_STAT.ARMED 1).put F.REAM_SAVE_STAT.AREA x.area with
        ream := { d.ream with arm := none, armed := some x.area } }

/-- R306: boot step 11: the restore, left out by the step's alternative, and the start of the arming of the other area. -/
def Dev.saveRestore (d : Dev) (alt : Bool) : Dev :=
  match d.areaChosen with
  | some (a, b) => (if alt then d else d.areaRestore a b).areaArm (1 - a)
  | none => (if alt then d else d.put F.REAM_SAVE_STAT.RESTORE 3).areaArm 0

end Sys2Proof.Machine
end

