-- ==== Sys2Proof/Machine/Boot.lean ====
section
/-! DEFINITION. Power-up, the boot steps, the boot journal, reset and image restart (R322-R336). Steps 1 to 3, and step
4 up to a wait to join, run inside RESET_RELEASE, since TICK_COUNT does not run; each later step runs over the ticks that
it takes and ends at a boundary (`bootTick`). -/

namespace Sys2Proof.Machine

def Dev.bootStep (d : Dev) : Nat := d.get F.BOOT_STAT.STEP
def Dev.setBoot (d : Dev) (x : Boot) : Dev := { d with boot := x }
/-- The duration of step k outside the logic. -/
def Dev.stepUs (d : Dev) (k : Nat) : Nat := (d.boot.inp.us.toList.getD (k - 1) 0).toNat
/-- What step k tests outside the logic passes. -/
def Dev.stepOk (d : Dev) (k : Nat) : Bool := d.boot.inp.ok.getLsbD (k - 1)
/-- R330: this start runs the alternative of step k. -/
def Dev.alt (d : Dev) (k : Nat) : Bool := d.boot.alts == k
/-- BOOT_TIME of step k. -/
def Dev.bootTime (d : Dev) (k us : Nat) : Dev := d.put F.BOOT_TIME.US (min us (2 ^ 32 - 1)) (k - 1)

/-- R329: a boot record is written, for an image of the given ID and VERSION. -/
def Dev.bootRecordOf (d : Dev) (imageId version : Nat) (complete halted : Bool) (failed last : Nat) : Dev :=
  let src := d.get F.BOOT_STAT.BOOTSEL + 4 * d.get F.BOOT_STAT.SOURCE + 16 * d.get F.BOOT_STAT.SECONDARY
  let flags := b2n complete + 2 * b2n halted + 4 * d.get F.BOOT_STAT.DIAG
  d.journalAppend 1 0x0B01 (leBytes 4 d.boot.start ++ leBytes 1 (d.get F.BOOT_STAT.CAUSE) ++ leBytes 1 src ++ leBytes 1 flags ++
    leBytes 1 failed ++ leBytes 2 (d.get F.BOOT_ALT.ALT) ++ leBytes 1 last ++ leBytes 1 0 ++ leBytes 2 imageId ++
    leBytes 2 version ++ (List.range 12).flatMap fun i => leBytes 4 (d.get F.BOOT_TIME.US i))

/-- R329: a boot record is written. -/
def Dev.bootRecord (d : Dev) (complete halted : Bool) (failed last : Nat) : Dev :=
  d.bootRecordOf d.boot.imageId d.boot.version complete halted failed last

/-- R327: the step in progress fails; BOOT_STEP_FAIL follows. -/
def Dev.bootFail (d : Dev) : Dev := d.setBoot { d.boot with failed := true, wait := false }

/-! ## Step 2 (R298, R301, R330) -/

/-- R330: F of the newest record, for a start with the given cause. Step 8 counts as step 7 (R326). -/
def bootF (r : List Byte) (cause : Nat) : Nat :=
  let failed := leAt r 7 1
  let f := if failed ≠ 0 then failed
    else if leAt r 6 1 % 4 = 0 ∧ cause ≠ 0 then leAt r 10 1 + 1 else 0
  if f = 8 then 7 else f

/-- R330: the previous start's record: START, F, the alternative and the halt of this start. -/
def Dev.bootPlan (d : Dev) : Dev :=
  match d.journalNewest 1 0x0B01 with
  | none => d.setBoot { d.boot with start := 1 }
  | some j =>
    let r := d.reamRead (j.addr + 16) 64
    let f := bootF r (d.get F.BOOT_STAT.CAUSE)
    let ran := f ≠ 0 ∧ bit (leAt r 8 2) (f - 1)
    let run := f ≠ 0 ∧ !bit (leAt r 6 1) 1
    let d := d.setBoot { d.boot with
      start := (leAt r 0 4 + 1) % 2 ^ 32
      alts := if run ∧ !ran then f else 0
      haltAt := if run ∧ ran then f else 0 }
    d.put F.BOOT_STAT.PREV_FAIL f

/-- R330: step k is entered; a start that halts there writes its record. -/
def Dev.bootAt (d : Dev) (k : Nat) : Dev :=
  let d := (d.put F.BOOT_STAT.STEP k).setBoot { d.boot with waitFrom := d.tick }
  if d.boot.haltAt = k then ((d.put F.BOOT_STAT.HALTED 1).bootRecord false true 0 (k - 1)).irqSet F.HOST_IRQ_CAUSE.BOOT
  else if d.alt k then d.put F.BOOT_ALT.ALT (2 ^ (k - 1)) else d

/-- Step 2: the erase log is scanned and half-erased sectors are erased again (R297, R298), the boot journal and the save areas
read, PARAMETERS applied. -/
def Dev.bootScan (d : Dev) : Dev :=
  let d := d.logScan
  let d := (d.ream.half.foldl (fun (d : Dev) s => (d.fault 72).eraseOwn s) d).halfShow.bootPlan
  let d := d.put F.REAM_SAVE_STAT.LAST (if d.ream.skipped then 2 else if d.ream.saved then 1 else 0)
  let d := { d with ream := { d.ream with
    skipped := false, saved := false, armed := none
    saveSeq := match d.areaChosen with
      | some (_, b) => leAt b 4 4
      | none => d.ream.saveSeq } }
  let d := d.putB F.REAM_STAT.NVWP (!d.pinHigh 3)
  let d := d.bootAt 2
  if d.flag F.BOOT_STAT.HALTED then d
  else if d.alt 2 then d else d.paramsApply

/-! ## Time limits (R327) -/

/-- FSPI load time of n bytes in a mode, µs (R332). -/
def loadUs (mode n : Nat) : Nat := if mode = 0 then n * 8 / 25 else if mode = 1 then n / 52 else n / 133

/-- R332: a copy of the boot pointer is valid. -/
def pointerOk (p : List Byte) : Bool :=
  p.take 4 == [0x4E, 0x56, 0x42, 0x50] && decide (leAt p 12 1 ≤ 2) && leAt p 13 3 == 0 && leAt p 16 4 == crc32 (p.take 16)

/-- R332: the boot pointer: the copy at 0, or the one at 0x1000. -/
def Dev.pointer (d : Dev) : Option (List Byte) :=
  if pointerOk d.boot.inp.ptr0 then some d.boot.inp.ptr0 else if pointerOk d.boot.inp.ptr1 then some d.boot.inp.ptr1 else none

/-- R332: the image that the flash holds at PRIMARY or SECONDARY. -/
def Dev.flashImage (d : Dev) : List Byte :=
  if d.flag F.BOOT_STAT.SECONDARY then d.boot.inp.secondary else d.boot.inp.primary

/-- R327, R332: twice the worst case of step k in µs, or the limit of step 7's source. -/
def Dev.stepLimit (d : Dev) (k half : Nat) : Nat :=
  match k with
  | 2 => 2 * (5000 + 25000 * half)
  | 3 => 4000
  | 4 => if d.alt 4 then 40000 else 4000
  | 5 => 6000
  | 6 => 6000
  | 7 =>
    if d.get F.BOOT_STAT.SOURCE = 0 then
      2 * loadUs ((d.pointer.map fun p => leAt p 12 1).getD 0) (imageLen d.flashImage) + 10000
    -- R332: from the join, which step 5 followed
    else if d.get F.BOOT_STAT.SOURCE = 2 then
      d.get F.BOOT_WAIT.SECONDS * 10 ^ 6 - (d.get F.BOOT_TIME.US 4 + d.get F.BOOT_TIME.US 5)
    else d.get F.BOOT_WAIT.SECONDS * 10 ^ 6
  | 8 => 4000
  | 9 => 2000
  | 10 => 6000
  | 11 => 18000
  | _ => 4

/-! ## Step 7 (R332) -/

/-- The load begins from flash. -/
def Dev.loadFlash (d : Dev) (second : Bool) : Dev := (d.put F.BOOT_STAT.SOURCE 0).putB F.BOOT_STAT.SECONDARY second

/-- The wait for a pushed image begins. -/
def Dev.loadPush (d : Dev) : Dev :=
  ((d.put F.BOOT_STAT.SOURCE 1).put F.BOOT_STAT.SECONDARY 0).setBoot { d.boot with wait := true, waitFrom := d.tick }

/-- R282: the BOOT request goes into the mailbox, in a form that the manual does not give (log entry 2). -/
def Dev.loadKeanmar (d : Dev) : Dev :=
  let d := ((d.put F.BOOT_STAT.SOURCE 2).put F.BOOT_STAT.SECONDARY 0).setBoot { d.boot with wait := true, waitFrom := d.tick }
  d.mailbox Config.bootRequest

/-- R331, R332: step 7 begins. -/
def Dev.loadBegin (d : Dev) : Dev :=
  let alt := d.alt 7
  match d.get F.BOOT_STAT.BOOTSEL with
  | 1 => if alt && d.pointer.isSome then d.loadFlash false else d.loadPush
  | 2 => if alt && d.pointer.isSome then d.loadFlash false else d.loadKeanmar
  | _ => d.loadFlash alt

/-- R332: the pushed image. -/
def Dev.pushedImage (d : Dev) : List Byte := d.vbytes (d.get F.BOOT_PUSH.GRANULE * 4096) (d.get F.BOOT_PUSH_LEN.LENGTH)

/-- R282: the image received in bulk bursts, once every burst of it has come. -/
def Dev.bulkImage (d : Dev) : Option (List Byte) :=
  let n := imageLen (Tbl.getD d.kl.bulk 0 [])
  let k := ceilDiv n 512
  if n = 0 ∨ 2 ^ 24 < n ∨ !((List.range k).all fun i => (Tbl.find? d.kl.bulk i).isSome) then none
  else some (((List.range k).flatMap fun i => Tbl.getD d.kl.bulk i []).take n)

/-- R332: step 7's image from the source in use: none while it has not come, and then an empty one where the flash holds no
valid pointer. -/
def Dev.loadImage (d : Dev) : Option (List Byte) :=
  match d.get F.BOOT_STAT.SOURCE with
  | 0 => some (if d.pointer.isSome then d.flashImage else [])
  | 1 => if d.boot.pushed then some d.pushedImage else none
  | _ => d.bulkImage

/-- R6, R49: an image that passes is placed. -/
def Dev.loadPlace (d : Dev) (b : List Byte) : Dev :=
  let d := (d.imagePlace b).accTake
  d.setBoot { d.boot with
    image := b, imageId := leAt b 6 2, version := leAt b 8 2, profiles := leAt b 0x12 2, baseOk := d.baseLoaded, wait := false }

/-- Step 7 ends, once its image has come. -/
def Dev.loadEnd (d : Dev) : Dev × Option Bool :=
  match d.loadImage with
  | none => (d, none)
  | some b =>
    let (d, ok) := Dev.imageCheck d d b
    (if ok then d.loadPlace b else d, some ok)

/-! ## Steps 10 to 12 -/

/-- R326: step 10's alternative: stored results load without the temperature window; a synthesizer without an entry stays
unlocked. -/
def Dev.hopStored (d : Dev) (n : Nat) : Dev :=
  if !d.flag F.SYN_CFG.ENABLE n then d else
  match d.bmFind n with
  | some e =>
    let d := d.hopStart n false
    let b := leAt (d.bmBytes n e) 8 1
    (((((d.put F.SYN_STAT.SEARCH 1 n).put F.SYN_STAT.HIT 1 n).put F.SYN_STAT.ENTRY e n).put F.SYN_STAT.CORE
      (b / 128) n).put F.SYN_STAT.BAND (b % 128) n)
  | none => d.setSyn n { d.syn n with enNow := true, planNow := d.planOf n }

/-- R326: step 10 goes on: a hop of an enabled synthesizer runs. -/
def Dev.hopsRun (d : Dev) : Bool := (List.range 16).any fun n => d.flag F.SYN_CFG.ENABLE n && d.inHop n

/-- R326, R167: what step 10 checks: every enabled synthesizer is locked (DEDUCED, log entry 61). -/
def Dev.synsLocked (d : Dev) : Bool := (List.range 16).all fun n => !d.flag F.SYN_CFG.ENABLE n || d.flag F.SYN_STAT.LOCK n

/-- R326: step 10: the core calibration, then a hop of every enabled synthesizer, which `action3` starts. Its alternative loads
stored results only. -/
def Dev.calEnds (d : Dev) : Dev × Option Bool :=
  if d.alt 10 then (d, if d.hopsRun then none else some true)
  else if !d.boot.calDone then
    if d.stepOk 10 then (d.setBoot { d.boot with calDone := true }, none) else (d, some false)
  else (d, if d.hopsRun then none else some d.synsLocked)

/-- R325, R326: step 11 starts the clusters that are on, one at a time, and dispatch. -/
def Dev.enginesStart (d : Dev) : Dev :=
  let on := d.get F.ENG_CLUSTER_PWR.ON
  let d := (List.range 16).foldl (fun (d : Dev) c =>
    if bit on c then d.setClus c { d.clus c with waiting := true } else d) d
  { d with dispatchOn := true, base := Base.reset }

/-- R325: every cluster that is on has completed its power-up. -/
def Dev.clustersUp (d : Dev) : Bool :=
  d.get F.ENG_CLUSTER_STAT.POWERED &&& d.get F.ENG_CLUSTER_PWR.ON == d.get F.ENG_CLUSTER_PWR.ON

/-- The start is complete. -/
def Dev.bootComplete (d : Dev) (last : Nat) : Dev := (d.put F.BOOT_STAT.STEP 13).bootRecord true false 0 last

/-- What step k begins with, for steps 5 to 12. -/
def Dev.bootBegin (d : Dev) (k : Nat) : Dev :=
  let d := d.bootAt k
  if d.flag F.BOOT_STAT.HALTED then d else
  match k with
  | 7 => d.loadBegin
  | 10 => if d.alt 10 then (List.range 16).foldl Dev.hopStored d else d
  | 11 => (d.saveRestore (d.alt 11)).enginesStart
  | _ => d

/-- R326, R335, R366: step 12 takes effect: the outputs may run and the pins are in use; of an image restart, the RUN fields take
effect and the restart is DONE. -/
def Dev.bootLive (d : Dev) : Dev :=
  if d.boot.restart then (d.put F.BOOT_STAT.RESTART 2).setBoot { d.boot with restart := false, runs := none }
  else (d.setBoot { d.boot with outsHeld := d.alt 12 || d.boot.loss, live := true }).pinStart

/-- Step k is complete: its record, and the next step. -/
def Dev.bootNext (d : Dev) (k : Nat) : Dev :=
  let d := d.bootTime k (d.tick - d.boot.waitFrom)
  let d := if k = 7 then d.bootRecord false false 0 7 else d
  if k = 8 ∧ d.flag F.BOOT_STAT.DIAG then d.bootComplete 8
  else if k = 12 then d.bootLive.bootComplete 12 |>.irqSet F.HOST_IRQ_CAUSE.BOOT
  else d.bootBegin (k + 1)

/-- The end of step k: none while it goes on, else whether its check passes. -/
def Dev.bootEnd (d : Dev) (k : Nat) : Dev × Option Bool :=
  match k with
  | 5 => if d.stepOk 5 then ({ d with vat := Vat.reset }, some true) else (d.fault 67, some false)
  | 6 => if d.stepOk 6 then ({ d with cluss := [], engs := [] }, some true) else (d.fault 40, some false)
  | 7 => d.loadEnd
  | 8 =>
    let (d, ok) := d.imageSign d.boot.image
    -- R282: a lead sends the image that it runs itself (log entry 54)
    ({ d with boot := { d.boot with image := [] }, kl := { d.kl with served := d.boot.image } }, some ok)
  | 9 => (if d.alt 9 then d else d.bandRestore, some true)
  | 10 => d.calEnds
  | 11 => (d, if d.clustersUp then some true else none)
  | _ => (d, some true)

/-- R327, R329, R332: step k has failed, or run too long; its duration is recorded. Under FSPI_PCIE a PCIe push follows a secondary
image that steps 7 or 8 refuse. -/
def Dev.stepRefused (d : Dev) (k : Nat) : Dev :=
  if (k = 7 ∨ k = 8) ∧ d.get F.BOOT_STAT.BOOTSEL = 3 ∧ d.flag F.BOOT_STAT.SECONDARY then (d.put F.BOOT_STAT.STEP 7).loadPush
  else (d.bootTime k (d.tick - d.boot.waitFrom)).bootFail

/-- The boot steps 5 to 12 at a boundary. -/
def Dev.bootTick (d : Dev) : Dev :=
  let k := d.bootStep
  if d.boot.low ∨ d.boot.failed ∨ d.flag F.BOOT_STAT.HALTED then d
  else if k = 4 then
    -- R279: the wait to join is over; it does not count
    if d.boot.wait ∧ d.tickOn then (d.setBoot { d.boot with wait := false }).bootBegin 5 else d
  else if k < 5 ∨ 12 < k then d
  else
    let el := d.tick - d.boot.waitFrom
    if d.stepLimit k 0 < el then d.stepRefused k
    else if el < d.stepUs k ∧ !d.boot.restart then d
    else match d.bootEnd k with
      | (d, none) => d
      | (d, some true) => d.bootNext k
      | (d, some false) => d.stepRefused k

/-! ## The start (R326, R334) -/

/-- R334: COLD: every register block, TICK_COUNT and the blocks' state; Ream and fuses stay, and STOPPED. The log entries
that wait are logged once the log can be read (R327). An output that is still driven goes to high impedance. In STOPPED its
effects stay (R312). -/
def Dev.cold (d : Dev) : Dev :=
  let e := { Dev.reset with
    ream := { d.ream with cmd := none, save := none, doneAt := none, arm := none, writing := none }
    free := d.free, outs := d.outs, cycle := d.cycle, sensors := d.sensors
    vat := { d.vat with scrub := [] }
    flt := { Flt.reset with
      log := d.flt.log.map fun (x : LogEntry) => { x with cyc := none }
      overflow := d.flt.overflow, stopLogged := d.flt.stopLogged }
    host := { HostIf.reset with perst := d.host.perst }
    test := { Test.reset with ir := d.test.ir } }
  let e := (List.range 72).foldl (fun (e : Dev) k =>
    if (d.outc k).drive = e.outDrive k then e else e.emit (.output k (e.outDrive k))) e
  let e := if d.stopped then e.enterStopped else e
  let e := e.put F.FLT_LOG_STAT.LEVEL d.flt.log.length
  let e := (e.put F.BOOT_KEY.ROLLBACK Config.rollback.toNat).putB F.BOOT_KEY.REVOKED1 Config.revoked1
  e.setBoot { Boot.reset with pinLast := d.boot.pinLast, pinSeen := d.boot.pinSeen, sel := d.boot.sel }

/-- R326: the listed XO frequencies in Hz. -/
def xoTable : List Nat := [10000000, 12800000, 20000000, 25000000, 38880000, 40000000, 50000000, 100000000]

/-- R326: the code of the listed frequency that n XO periods in 1 ms match within 1%. -/
def xoCode (n : Nat) : Option Nat :=
  (List.range 8).find? fun i => let f := xoTable.getD i 0; decide (99 * f ≤ 100000 * n ∧ 100000 * n ≤ 101 * f)

/-- Step 4: the system PLL locks, and TICK_COUNT starts unless the device waits to join (R279). -/
def Dev.bootPll (d : Dev) : Dev :=
  let d := d.bootAt 4
  if d.flag F.BOOT_STAT.HALTED then d else
  let d := d.bootTime 4 (d.stepUs 4)
  if !d.stepOk 4 ∨ d.stepLimit 4 0 < d.stepUs 4 then d.bootFail
  else if d.joining then d.setBoot { d.boot with wait := true }
  else ({ d with tickOn := true } : Dev).bootBegin 5

/-- Step 3: the XO check. -/
def Dev.bootXo (d : Dev) : Dev :=
  let d := d.bootAt 3
  if d.flag F.BOOT_STAT.HALTED then d else
  let d := d.bootTime 3 (d.stepUs 3)
  if d.stepLimit 3 0 < d.stepUs 3 then d.bootFail
  else if d.alt 3 then (d.put F.BOOT_STAT.DIAG 1).bootPll
  else match xoCode d.boot.inp.xo.toNat with
    | some c => ({ d.put F.BOOT_STAT.XO c with xoHz := xoTable.getD c 0 } : Dev).bootPll
    | none => d.bootFail

/-- R326: a cold start. -/
def Dev.bootStart (d : Dev) (i : BootIn) (cause : Nat) : Dev :=
  let half := d.halfScan.length
  let d := d.cold
  let d := d.setBoot { d.boot with low := false, inp := i }
  let d := ((d.put F.BOOT_STAT.BOOTSEL d.boot.sel).put F.BOOT_STAT.CAUSE cause).bootTime 1 (d.stepUs 1)
  let d := (d.put F.BOOT_STAT.STEP 2).bootScan
  if d.flag F.BOOT_STAT.HALTED then d else
  let d := d.bootTime 2 (d.stepUs 2)
  if d.stepLimit 2 half < d.stepUs 2 then d.bootFail
  else (d.bootRecord false false 0 2).bootXo

/-- R323: BOOTSEL1:0 as recognised. -/
def Dev.bootselNow (d : Dev) : Nat := 2 * b2n (d.pinHigh 4) + b2n (d.pinHigh 5)

/-- RESET_RELEASE: BOOTSEL1:0 is taken (R323), and a start begins with the cause that asserted the reset; after a reset
during a save it is kept for the save's end (R371). -/
def Dev.resetRelease (d : Dev) (i : BootIn) : Dev :=
  let d := d.setBoot { d.boot with sel := if d.stopped then d.boot.sel else d.bootselNow }
  if d.stopped then d
  else if d.boot.resetPend ≠ 0 then d.setBoot { d.boot with resetPend := 2, inp := i }
  else if d.boot.low then d.bootStart i (d.get F.BOOT_STAT.CAUSE)
  else d

def execResetRelease (i : BootIn) (s : State) : StepOut := s.run fun d => (d.pinSee 0 true).resetRelease i

/-- R327: BOOT_STEP_FAIL: the record of the failed step, the fault, and a start with cause STEP_FAIL. A failure of step 8
counts as step 7. -/
def Dev.stepFail (d : Dev) (i : BootIn) : Dev :=
  if !d.boot.failed then d else
  let k := d.bootStep
  let f := if k = 8 then 7 else k
  let d := (d.bootRecord false false f (k - 1)).fault 256 0 f
  (d.freeNext.reamHalt (d.freeVal % 33)).bootStart i 2

def execBootStepFail (i : BootIn) (s : State) : StepOut := s.run fun d => d.stepFail i

/-! ## Reset and power (R313, R324, R334, R370, R371) -/

/-- R324, R366: RESET_N low takes effect: outputs stop within 10 ms, and nothing runs until the release. n groups of a Ream command in
progress are programmed. -/
def Dev.resetLow (d : Dev) (n : Nat) : Dev :=
  let d := ({ d.reamHalt n with dispatchOn := false, tickOn := false, evts := [] } : Dev).framesStop
  let d := (List.range 8).foldl (fun (d : Dev) k => (d.put F.KL_LINK_STAT.STATE 0 k).setKlink k KlLink.reset) d
  let d := ((d.put F.HOST_PCIE_STAT.L0 0).put F.BOOT_STAT.CAUSE 1).put F.FLT_PIN.LOW 0
  ({ d with
    flt := { d.flt with pulseEnd := none }
    boot := { d.boot with
      low := true, live := false, resetPend := 0, wait := false, failed := false } } : Dev).outsStop 10000

/-- RESET_ASSERT. In STOPPED it only returns the I2C target to idle, where it is between transactions. -/
def Dev.resetAssert (d : Dev) (n : Nat) : Dev :=
  if d.stopped then d
  else if d.ream.save.isSome then d.setBoot { d.boot with resetPend := 1 }
  else if d.boot.low then d else d.resetLow n

def execResetAssert (n : BitVec 6) (c : Cycle) (s : State) : StepOut :=
  s.run fun d => (({ d with cycle := c.val } : Dev).pinSee 0 false).resetAssert n.toNat

/-- R305, R371: the save ends; a reset recognised during it takes effect. -/
def Dev.saveEnd (d : Dev) : Dev :=
  if d.ream.save.isNone then d else
  let d := d.saveDone
  match d.boot.resetPend with
  | 0 => d
  | 1 => d.resetLow 0
  | _ => (d.resetLow 0).bootStart d.boot.inp 1

def execSaveDone (s : State) : StepOut := s.run fun d => d.saveEnd

/-- POWER_ON: everything restarts, with RESET_N low; what the Ream holds stays. n groups of the save or command that the
loss of power cut were programmed. -/
def Dev.powerOn (d : Dev) (n : Nat) : Dev :=
  let r := (d.reamPowerCut n).ream
  let f := (d.reamPowerCut n).free
  { Dev.reset with ream := { r with doneAt := none }, free := f, sensors := d.sensors }

def execPowerOn (n : BitVec 13) (s : State) : StepOut := s.run fun d => d.powerOn n.toNat

/-- R370: the power-loss detector trips: every output stops within 20 ticks. -/
def Dev.powerLoss (d : Dev) : Dev := (d.setBoot { d.boot with loss := true }).outsStop 20

def execPowerLossDetect (s : State) : StepOut := s.run fun d => d.powerLoss

/-! ## Image restart (R335) -/

/-- R334: the register blocks that an image restart clears: ENG, VAT, IN and MON, SEL, LOOP, SLAL, TDC and FRM. -/
def restartBlocks : List Nat := [0x82, 0x83, 0x84, 0x85, 0x86, 0x88, 0x89, 0x8C]

/-- A key of a register table lies in a block that the restart clears. -/
def inRestart (key : Nat) : Bool := restartBlocks.contains (key % copyStride / 2 ^ 20)

/-- R334, R335: the listed blocks clear; each loop keeps its applied word as LOOP_FREE. In LEAN clusters 8-15 stay off. -/
def Dev.restartClear (d : Dev) : Dev :=
  let keep := fun (t : Tbl Word) => t.filter fun e => !inRestart e.1
  let words := (List.range 33).map fun l => (d.loop l).applied
  let e := { (d.framesStop) with
    regs := (resetWords R.VAT_POOL_CFG poolReset).foldl (fun t p => Tbl.set t p.1 p.2) (keep d.regs)
    acc := keep d.acc, staged := keep d.staged, latch := keep d.latch, half := keep d.half
    engs := [], tasks := [], tins := [], cluss := [], grants := [], mons := [], sels := [], loops := [], slals := []
    tdcs := [], mss := [], sts := [], trs := [], frm := Frm.reset, dispatchOn := false }
  let e := (List.range 33).foldl (fun (e : Dev) l =>
    let w := words.getD l 0
    let e := e.put64 F.LOOP_FREE_LO.WORD F.LOOP_FREE_HI.WORD (ofSigned 48 w) l
    let e := e.put64 F.LOOP_APPLIED_LO.WORD F.LOOP_APPLIED_HI.WORD (ofSigned 64 w) l
    e.setLoop l { Loop.reset with applied := w, prevApplied := w }) e
  let e := if e.get F.SYS_PROFILE.ACTIVE = 3 then e.put F.ENG_CLUSTER_PWR.ON 0xFF else e
  e.vatStore (e.dirAddr 0) (List.replicate 8192 0)

/-- R335: a restart begins: a start of its own, with cause IMAGE and a record of its own (R329). -/
def Dev.restartBegin (d : Dev) (src : Nat) : Dev :=
  let d := ((d.put F.BOOT_STAT.RESTART 1).put F.BOOT_STAT.CAUSE 3).put F.BOOT_ALT.ALT 0
  let d := (d.put F.BOOT_STAT.SOURCE (src / 2)).put F.BOOT_STAT.SECONDARY (src % 2)
  let d := (List.range 12).foldl (fun (d : Dev) i => d.put F.BOOT_TIME.US 0 i) d
  d.setBoot { d.boot with
    cmdRestart := none, waitFrom := d.tick, next := none, start := (d.boot.start + 1) % 2 ^ 32, alts := 0, haltAt := 0 }

/-- R329: a record of a restart, of the image in question. -/
def Dev.restartRecord (d : Dev) (b : List Byte) (failed last : Nat) : Dev :=
  d.bootRecordOf (leAt b 6 2) (leAt b 8 2) false false failed last

/-- R335, R329: the restart ends without a new image: step `last` + 1 fails, and step 8 counts as step 7. -/
def Dev.restartFail (d : Dev) (b : List Byte) (last : Nat) : Dev :=
  let d := d.bootTime (last + 1) (d.tick - d.boot.waitFrom - (if last = 7 then d.get F.BOOT_TIME.US 6 else 0))
  let d := (d.restartRecord b 7 last).put F.BOOT_STAT.RESTART 3
  ((d.fault 256 0 7).irqSet F.HOST_IRQ_CAUSE.BOOT).setBoot { d.boot with next := none }

/-- R335: steps 7 and 8 on a restart's image; the old image keeps running. -/
def Dev.restartCheck (d : Dev) (b : List Byte) : Dev :=
  let (d, ok) := Dev.imageCheck d d.restartClear b
  if !ok then d.restartFail b 6 else
  let d := (d.bootTime 7 (d.tick - d.boot.waitFrom)).restartRecord b 0 7
  let (d, ok) := d.imageSign b
  if ok then d.setBoot { d.boot with next := some b } else d.restartFail b 7

/-- R335: an image from flash is loaded at BOOT_PUSH.GRANULE, which must lie in one of pools 8-15 and hold it. -/
def Dev.restartLoad (d : Dev) (b : List Byte) : Dev :=
  let a := d.get F.BOOT_PUSH.GRANULE * 4096
  let n := imageLen b
  if n = 0 ∨ b.length < n ∨ !d.inFreePool a n then d.restartFail b 6
  else (d.vatUser a (b.take n)).restartCheck (b.take n)

/-- The RUN fields in force, as bits. -/
def Dev.runMask (d : Dev) : Nat := (List.range 72).foldl (fun m k => m + b2n (d.outRun k) * 2 ^ k) 0

/-- R335: every frame port is OFF: the listed blocks clear, the image is placed, and step 11 runs without the save's restore.
The RUN fields wait for step 12. -/
def Dev.restartGo (d : Dev) : Dev :=
  if !d.boot.switching ∨ (List.range 8).any (fun p => d.portState p != 0) then d else
  match d.boot.next with
  | none => d
  | some b =>
    let runs := d.runMask
    let d := d.restartClear.imagePlace b
    let ok := d.baseLoaded
    let d := d.enginesStart.put F.BOOT_STAT.STEP 11
    { d with
      boot := { d.boot with
        next := none, switching := false, restart := true, runs := some runs, waitFrom := d.tick
        imageId := leAt b 6 2, version := leAt b 8 2, profiles := leAt b 0x12 2, baseOk := ok }
      kl := { d.kl with served := b } }

/-- R335: RESTART at a boundary: it takes effect once the start is complete; a pushed image is waited for. -/
def Dev.restartBoundary (d : Dev) : Dev :=
  match d.boot.cmdRestart with
  | some (src, b) =>
    if d.bootStep ≠ 13 then d
    else if src = 2 then d.restartBegin src else (d.restartBegin src).restartLoad b
  | none =>
    if d.get F.BOOT_STAT.RESTART ≠ 1 ∨ d.boot.restart then d
    else if d.boot.next.isSome then d.restartGo
    else if d.boot.pushed then d.pushedImage |> d.restartCheck
    else if d.boot.waitFrom + d.get F.BOOT_WAIT.SECONDS * 10 ^ 6 ≤ d.tick then d.restartFail [] 6
    else d

/-- IMAGE_RESTART_SWITCH: the new image has passed step 8: dispatch ends, and the frame ports power down under R267, which takes
up to 64 ticks (DEDUCED, log entry 64). -/
def Dev.restartSwitch (d : Dev) : Dev :=
  if d.boot.next.isNone ∨ d.boot.switching ∨ d.boot.halted ∨ d.boot.low then d else
  let d := d.bootTime 8 (d.tick - d.boot.waitFrom - d.get F.BOOT_TIME.US 6)
  let d := (List.range 8).foldl Dev.portDown d
  (({ d with dispatchOn := false } : Dev).setBoot { d.boot with switching := true }).restartGo

def execImageRestartSwitch (s : State) : StepOut := s.run fun d => d.restartSwitch

/-! ## BOOT_CMD and register writes -/

def execBootRestart (p : Path) (src : BitVec 2) (flash : List Byte) (s : State) : StepOut :=
  s.runBy p R.BOOT_CMD.off fun d => d.bootRestartCmd p src.toNat flash
def execBootRelease (p : Path) (s : State) : StepOut := s.runBy p R.BOOT_CMD.off fun d => d.bootReleaseCmd
def execPushGo (p : Path) (s : State) : StepOut := s.runBy p R.BOOT_CMD.off fun d => d.pushGoCmd

/-- REGISTER_WRITE: a write from any path; `whole` says that it covers 32 aligned bits, `ep` that its TLP is poisoned. -/
def execRegisterWrite (p : Path) (off : BitVec 28) (w : Word) (whole ep : Bool) (c : Cycle) (s : State) : StepOut :=
  s.run fun d => ({ d with cycle := c.val } : Dev).pathWrite p off.toNat w.toNat whole ep

end Sys2Proof.Machine
end

