-- ==== Sys2Proof/Machine/EngineCtl.lean ====
section
/-! DEFINITION. Meanings of the time, timer, event and control instructions (R73-R80). -/

namespace Sys2Proof.Machine

/-- R73: now, by selector. -/
def execNow (e : Eng) (o : EOp) (s : State) : StepOut :=
  s.run fun d => d.issue e 1 fun d =>
    if o.a != 0 || o.b != 0 then d.engIllegal e else
    let t := d.t96
    let put := fun (v : Nat) => d.engDo e fun x => x.setRg o.d (BitVec.ofNat 64 v)
    match immN o with
    | 0 => d.engDo e fun x => { x.setRg o.d (BitVec.ofNat 64 (t / 2 ^ 32)) with ltFrac := t % 2 ^ 32 }
    | 1 => put (d.eng e).ltFrac
    | 2 => put d.s32
    | 3 => put d.cycle
    | 4 => put d.tick
    | 5 => put (d.eng e).ts
    | 6 => put (let p := (d.eng e).p; b2n p[0] + 2 * b2n p[1] + 4 * b2n p[2] + 8 * b2n p[3])
    | _ => d.engIllegal e

/-- R74: wait stalls until cycle imm; a passed cycle costs 1. -/
def execWait (e : Eng) (o : EOp) (s : State) : StepOut :=
  s.run fun d => d.issue e (if immN o < 1250 then max 1 (immN o - (d.eng e).cyc) else 1) fun d =>
    if o.d != 0 || o.a != 0 || o.b != 0 || immN o ≥ 1250 then d.engIllegal e else d.advance e

/-- R75: arm with imm[13] 0, disarm with imm[13] 1, timer imm[1:0], input imm[7:4]. -/
def Dev.armOp (d : Dev) (e : Nat) (o : EOp) : Dev :=
  d.issue e 2 fun d =>
    let i := immN o
    if o.d != 0 || !pcOk o.b.val || bits i 12 8 != 0 || bits i 3 2 != 0 then d.engIllegal e else
    let x := d.eng e
    let t : Fin 4 := ⟨i % 4, Nat.mod_lt _ (by decide)⟩
    if bit i 13 then
      (d.engDo e fun x => { x with timers := x.timers.set t none }).predOnly e o.b.val x.timers[t].isNone
    else
      let dl := (x.rg o.a).toNat % 2 ^ 32
      if d.deadlineOk dl then
        (d.engDo e fun x => { x with
          timers := x.timers.set t (some dl), timerIn := x.timerIn.set t (bits i 7 4) }).predOnly e o.b.val false
      else (d.advance e).predOnly e o.b.val true

def execArm (e : Eng) (o : EOp) (s : State) : StepOut := s.run fun d => d.armOp e o
def execDisarm (e : Eng) (o : EOp) (s : State) : StepOut := s.run fun d => d.armOp e o

/-- R78: evtest writes the head entry of input imm[3:0]. -/
def execEvtest (e : Eng) (o : EOp) (s : State) : StepOut :=
  s.run fun d => d.alu' e 2 (o.a == 0 && pcOk o.b.val && immN o < 16) o (fun d =>
    match (d.tin (16 * e + immN o)).fifo with
    | [] => ⟨0, false⟩
    | v :: _ => ⟨v, true⟩)

/-- R78: evclear removes imm[8:4] entries (0: all) of input imm[3:0]; S says the FIFO is empty afterwards. -/
def execEvclear (e : Eng) (o : EOp) (s : State) : StepOut :=
  s.run fun d => d.issue e 2 fun d =>
    if o.d != 0 || o.a != 0 || !pcOk o.b.val || immN o ≥ 512 then d.engIllegal e else
    let i := 16 * e + immN o % 16
    let n := immN o / 16
    let x := d.tin i
    let rest := if n = 0 then [] else x.fifo.drop n
    ((d.setTin i { x with fifo := rest }).advance e).predOnly e o.b.val rest.isEmpty

/-- R78: signal raises task input imm[3:0] of engine a[8:0]. -/
def execSignal (e : Eng) (o : EOp) (s : State) : StepOut :=
  s.run fun d => d.issue e 1 fun d =>
    let t := ((d.eng e).rg o.a).toNat
    if o.d != 0 || o.b != 0 || immN o ≥ 16 then d.engIllegal e
    else if t ≥ 512 then d.engFault e 34
    else (d.taskEvent t (immN o) (0x400 + e)).advance e

/-- R52, R79: the branch target, none outside the instruction store. -/
def Engine.target (x : Engine) (o : EOp) : Option Nat :=
  let t := (x.pc : Int) + o.lo.toInt
  if 0 ≤ t ∧ t < 16384 then some t.toNat else none

/-- R79: a branch on a condition; 2 cycles taken, 1 not taken. -/
def Dev.branch (d : Dev) (e : Nat) (ok : Bool) (o : EOp) (taken : Bool) (push : Bool := false) : Dev :=
  d.issue e (if taken then 2 else 1) fun d =>
    let x := d.eng e
    match x.target o with
    | none => d.engIllegal e
    | some t =>
      if !ok || o.b != 0 then d.engIllegal e
      else if push && x.stack.length ≥ 8 then d.engFault e 36
      else if push then d.setEng e { x with pc := t, stack := (x.pc + 1) :: x.stack }
      else if taken then d.setEng e { x with pc := t }
      else d.advance e

def execB (e : Eng) (o : EOp) (s : State) : StepOut :=
  s.run fun d => d.branch e (o.d == 0 && o.a == 0) o true
def execBz (e : Eng) (o : EOp) (s : State) : StepOut :=
  s.run fun d => d.branch e (o.d == 0) o ((d.eng e).rg o.a == 0)
def execBnz (e : Eng) (o : EOp) (s : State) : StepOut :=
  s.run fun d => d.branch e (o.d == 0) o ((d.eng e).rg o.a != 0)
/-- R50, R57: bp; d[1:0] names the predicate, d[2] negates. -/
def execBp (e : Eng) (o : EOp) (s : State) : StepOut :=
  s.run fun d =>
    let p := (d.eng e).p[o.d.val % 4]'(Nat.mod_lt _ (by decide))
    d.branch e (o.a == 0 && o.d.val < 8) o (p != bit o.d.val 2)
/-- R79: call pushes the return index. -/
def execCall (e : Eng) (o : EOp) (s : State) : StepOut :=
  s.run fun d => d.branch e (o.d == 0 && o.a == 0) o true true

/-- R79: ret pops the return index; ENG_STACK with none held. -/
def execRet (e : Eng) (o : EOp) (s : State) : StepOut :=
  s.run fun d => d.issue e 2 fun d =>
    if o != ⟨0, 0, 0, 0⟩ then d.engIllegal e else
    let x := d.eng e
    match x.stack with
    | [] => d.engFault e 36
    | t :: r => d.setEng e { x with pc := t, stack := r }

/-- R80: fault raises ENG_SOFT with code imm[7:0], and the dispatch goes on. LOG ENTRY 8: the detail word holds the code in
bits 7:0 and the slot in bits 15:12. -/
def execFault (e : Eng) (o : EOp) (s : State) : StepOut :=
  s.run fun d => d.issue e 2 fun d =>
    if o.d != 0 || o.a != 0 || o.b != 0 || immN o ≥ 256 then d.engIllegal e
    else (d.fault 39 e (d.engDetail e / 256 * 256 + (d.eng e).run.getD 0 * 2 ^ 12 + immN o)).advance e

/-- R36, R76: yield performs a fence and ends the dispatch. -/
def execYield (e : Eng) (o : EOp) (s : State) : StepOut :=
  s.run fun d =>
    if o = ⟨0, 0, 0, 0⟩ then d.fenceThen e 1 fun d => d.endTask e
    else d.issue e 1 fun d => d.engIllegal e

/-- R36: halt ends the dispatch and clears ENABLE. -/
def execHalt (e : Eng) (o : EOp) (s : State) : StepOut :=
  s.run fun d =>
    if o = ⟨0, 0, 0, 0⟩ then d.fenceThen e 1 fun d => (d.endTask e).haltTask (d.runTask e)
    else d.issue e 1 fun d => d.engIllegal e

/-- R76: fence. -/
def execFence (e : Eng) (o : EOp) (s : State) : StepOut :=
  s.run fun d =>
    if o = ⟨0, 0, 0, 0⟩ then d.fenceThen e 0 fun d => d.advance e
    else d.issue e 1 fun d => d.engIllegal e

end Sys2Proof.Machine
end

