-- ==== Sys2Proof/Machine/RegRead.lean ====
section
/-! DEFINITION. The register read of every path (R5, R8, R26, R337, R343, R345-R347) and the values that a register
shows without holding them. -/

namespace Sys2Proof.Machine

/-! ## Values computed at the read -/

/-- Table Task states. -/
def Dev.taskState (d : Dev) (t : Nat) : Nat :=
  if d.rd R.ENG_TASK_CFG t = 0 ∧ d.rd R.ENG_TASK_BUDGET t = 0 then 0
  else if !d.taskBound t then 1
  else if (d.eng (t / 16)).run = some (t % 16) then 4
  else if (d.task t).ready then 3 else 2

/-- ENG_TI_STAT of a task input. -/
def Dev.tiStat (d : Dev) (i : Nat) : Nat :=
  let x := d.tin i
  x.count + x.fifo.length * 2 ^ 8 + b2n x.ovf * 2 ^ 13 + b2n (!(d.tasksOnInput (i / 16) (i % 16)).isEmpty) * 2 ^ 14

/-- ENG_CLUSTER_STAT.BOUND. -/
def Dev.clustersBound (d : Dev) : Nat :=
  (List.range 16).foldl (fun m c => if (List.range 512).any fun s => d.taskBound (512 * c + s) then m + 2 ^ c else m) 0

/-- BOOT_KEY: the fuses and the slot that accepted the image. -/
def Dev.bootKey (d : Dev) : Nat :=
  d.get F.BOOT_KEY.KEYSLOT + b2n Config.revoked1 * 2 ^ 4 + Config.rollback.toNat * 2 ^ 8

/-- R232: a leap is due: LEAP_AT lies behind, and the boundary that applies it has not come. -/
def Dev.leapDue (d : Dev) (n : Nat) : Bool := d.leapPending n && atOrAfter (d.ctxNow n) (wrap96 (secs (d.leapAt n)))

/-- The word of one of a value's parts: 0 ns low, 1 ns high, 2 fraction. -/
def t96Part (t i : Nat) : Nat := if i = 0 then t / 2 ^ 32 % 2 ^ 32 else if i = 1 then t / 2 ^ 64 % 2 ^ 32 else t % 2 ^ 32

/-- What a register shows in place of its stored word `w`; none where it shows the word. -/
def Dev.shownSpecial (d : Dev) (x : Site) (n w : Nat) : Option Nat :=
  if x.is [R.TICK_COUNT_LO] then some (d.tick % 2 ^ 32)
  else if x.is [R.TICK_COUNT_HI] then some (d.tick / 2 ^ 32)
  else if x.is [R.TIME_LT_NS_LO] then some (t96Part d.t96 0)
  else if x.is [R.TIME_LT_NS_HI] then some (t96Part d.t96 1)
  else if x.is [R.TIME_LT_FRAC] then some (t96Part d.t96 2)
  else if x.is [R.CTX_TIME_NS_LO] then some (t96Part (d.ctxNow n) 0)
  else if x.is [R.CTX_TIME_NS_HI] then some (t96Part (d.ctxNow n) 1)
  else if x.is [R.CTX_TIME_FRAC] then some (t96Part (d.ctxNow n) 2)
  else if x.is [R.CTX_STAT] then
    some (setBits (setBits w 27 27 (b2n (d.leapDue n))) 30 30 (d.get F.CTX_UTC.VALID n))
  else if x.is [R.ENG_CLUSTER_STAT] then some (setBits w 31 16 d.clustersBound)
  else if x.is [R.ENG_TASK_STAT] then some (setBits w 2 0 (d.taskState n))
  else if x.is [R.ENG_TI_STAT] then some (d.tiStat n)
  else if x.is [R.IN_QL] then some (setBits w 15 12 (d.effQl n))
  else if x.is [R.SYN_STAT] then some (setBits w 24 24 (b2n (d.flt.held.contains (132, n))))
  else if x.is [R.SYN_BM_DATA] then some (d.bmWord x.n n x.k)
  else if x.is [R.OUT_STAT] then some (setBits w 4 4 (b2n (d.outPending n)))
  else if x.is [R.TDC_CH_DIV] then
    if n < 40 then some (d.get F.IN_PRESCALE.DIV n) else if 128 ≤ n then some 1 else none
  else if x.is [R.TDC_SUMMARY] then some d.tdcSummary
  else if x.is [R.KL_WM_LO] then some (d.watermark % 2 ^ 32)
  else if x.is [R.KL_WM_HI] then some (d.watermark / 2 ^ 32)
  else if x.is [R.REAM_WEAR] then some (d.erases n)
  else if x.is [R.FLT_SUMMARY_LO] then some (d.groupsActive 3 + d.groupsActive 2 * 2 ^ 16)
  else if x.is [R.FLT_SUMMARY_HI] then some (d.groupsActive 1 + d.groupsActive 0 * 2 ^ 16)
  else if x.is [R.FLT_ACTIVE] then
    some ((List.range 32).foldl (fun m i => if d.faultActive (32 * n + i) then m + 2 ^ i else m) 0)
  else if x.is [R.BOOT_KEY] then some d.bootKey
  else if x.is [R.TST_SELF_TAP] then some (Config.tapDelay n).toNat
  else none

/-- The fields that read 0: access WO (R5). -/
def hiddenMask (x : Site) : Nat := maskOf x.fields fun f => f.acc == .wo

/-- R5, R8: what copy n of a register reads: RW fields as last accepted, RWL fields as staged, the others in force. -/
def Dev.shown (d : Dev) (x : Site) (n : Nat) : Nat :=
  let key := x.own.key n
  let w := d.rd x.own n
  let w := match Tbl.find? d.acc key with
    | some a => mergeWord (maskOf x.fields FieldSpec.sync) w a.toNat
    | none => w
  let w := match Tbl.find? d.staged key with
    | some a => mergeWord (lockedMask x) w a.toNat
    | none => w
  (d.shownSpecial x n w).getD (mergeWord (hiddenMask x) w 0)

/-! ## The read -/

/-- R227: the place of the CTX_STAT of context n that a path's read of CTX_TIME_NS_LO latches. -/
def ctxStatKey (p : Path) (n : Nat) : Nat := pathKey p R.CTX_STAT.base + n * 2 ^ 44

/-- R8: reading _LO latches the other parts for the path; _HI and _FRAC read what it latched. CTX_TIME_NS_LO latches CTX_STAT
too. LOG ENTRY 99: the path's next read of that CTX_STAT returns the latched word, and later ones the register. -/
def Dev.siteRead (d : Dev) (p : Path) (x : Site) : Dev × Nat :=
  let n := d.copyOf p x
  match x.reg.part with
  | .whole =>
    if x.is [R.CTX_STAT] then match Tbl.find? d.latch (ctxStatKey p n) with
      | some w => ({ d with latch := Tbl.del d.latch (ctxStatKey p n) }, w.toNat)
      | none => (d, d.shown x n)
    else (d, d.shown x n)
  | .lo _ =>
    let latch := x.others.foldl (fun t (y : Site) => Tbl.set t (pathKey p y.off) (BitVec.ofNat 32 (d.shown y n))) d.latch
    let latch := if x.is [R.CTX_TIME_NS_LO] then match siteAt R.CTX_STAT.base with
        | some y => Tbl.set latch (ctxStatKey p n) (BitVec.ofNat 32 (d.shown y n))
        | none => latch
      else latch
    ({ d with latch := latch }, d.shown x n)
  | _ => (d, (Tbl.getD d.latch (pathKey p x.off) 0).toNat)

/-- The offset lies in a register block (R337). -/
def inBlock (off : Nat) : Bool := decide (0x08000000 ≤ off ∧ off < 0x09300000)

/-- What a read gives: 0 data, 1 time-out, 2 poisoned word, 3 outside every range (codes of HOST_PATH_STAT). -/
def Dev.spaceRead (d : Dev) (p : Path) (off : Nat) : Dev × Nat × Nat :=
  if off < 0x04000000 then
    let (e, l, bad) := d.windowRead p off 4
    (e, ofLe l, if bad then 2 else 0)
  else if inBlock off then
    match siteAt off with
    | some x => let r := d.siteRead p x; (r.1, r.2, 0)
    | none => (d, 0, 0)
  else if 0x0A000000 ≤ off ∧ off < 0x0A100000 then (d, d.instr ((off - 0x0A000000) / 0x10000) (off % 0x10000 / 4), 0)
  else (d.pathError p 3, 0, 3)

/-- A read of a path's own offset; none where nothing answers. -/
def Dev.pathRead (d : Dev) (p : Path) (off : Nat) : Option (Dev × Nat × Nat) :=
  let go := fun (at' : Nat) (r : Dev × Nat × Nat) => match d.access p at' false with
    | .absent => none
    | .timeout => some (d.accessTimeout p, 0xFFFFFFFF, 1)
    | _ => some r
  match d.pathOff p off with
  | none => go R.VAT_QHOST_CMD.off (d, 0, 0)
  | some off => go off (d.spaceRead p off)

/-- R337, R345, R347: a register read and what the path returns. `one` says that it asks for one DW. -/
def Dev.hostRead (d : Dev) (p : Path) (off : Nat) (one : Bool) : Dev :=
  match d.pathRead p off with
  | none => d
  | some (e, v, st) =>
    if !one then d.emit (.unsupported p.code)
    else if st = 3 then e.emit (.unsupported p.code)
    else e.emit (.readData p.code [BitVec.ofNat 32 v] (pathStatus p st))

/-! ## The engines' accesses (R32, R77) -/

/-- R32: an engine may read the offset. -/
def engMayRead (off : Nat) : Bool := inBlock off

/-- R77: io.ld. -/
def execIoLd (e : Eng) (o : EOp) (s : State) : StepOut :=
  s.run fun d =>
    let a := effAddr (d.eng e) o
    d.issue e 24 fun d =>
      if !pcOk o.b.val then d.engIllegal e
      else if a % 4 ≠ 0 then d.engFault e 34
      else if engMayRead a then
        let (d, v, _) := d.spaceRead (.engine e) a
        d.engDo e fun x => x.write o.d o.b.val ⟨BitVec.ofNat 64 v, false⟩
      else d.engDo e fun x => x.write o.d o.b.val ⟨0, true⟩

/-- R77, R339: a write by an engine, and whether it was refused. -/
def Dev.engWrite (d : Dev) (e : Eng) (off w : Nat) : Dev × Bool :=
  let n := d.get F.HOST_WERR_CNT.COUNT
  let d := (d.put F.HOST_WERR_CNT.COUNT 0).regWrite (.engine e) (off % 2 ^ 28) w true false
  let bad := d.get F.HOST_WERR_CNT.COUNT != 0
  (d.put F.HOST_WERR_CNT.COUNT (min (2 ^ 32 - 1) (n + b2n bad)), bad)

/-- R77: io.st. LOG ENTRY 6: the block answers 1 to 24 cycles later. -/
def execIoSt (e : Eng) (o : EOp) (s : State) : StepOut :=
  s.run fun d =>
    let x := d.eng e
    let a := effAddr x o
    d.issue e 2 fun d =>
      if !pcOk o.b.val then d.engIllegal e
      else if a % 4 ≠ 0 then d.engFault e 34
      else
        let done := x.cyc + 2 + d.latency 24
        let w := ((d.eng e).rg o.d).toNat % 2 ^ 32
        let (d, bad) :=
          if a < 2 ^ 28 then d.freeNext.engWrite e a w
          else (d.freeNext.refuse e.val (a % 2 ^ 28) .access, true)
        ((d.setEng e { d.eng e with ioDone := max (d.eng e).ioDone done }).advance e).predOnly e o.b.val bad

/-- R115: an engine writes a reference state. -/
def execInStateWrite (e : Eng) (n : Fin 40) (st : BitVec 3) (c : Cycle) (s : State) : StepOut :=
  s.run fun d => ({ d with cycle := c.val }).regWrite (.engine e) (R.IN_STATE.off n) st.toNat true false

/-- R47: a write of ENG_CLUSTER_PWR. -/
def execClusterPower (p : Path) (on : BitVec 16) (c : Cycle) (s : State) : StepOut :=
  s.run fun d => ({ d with cycle := c.val }).pathWrite p R.ENG_CLUSTER_PWR.off on.toNat true false

/-- R8: a register read; a _LO register latches its other parts. -/
def execLoRead (p : Path) (off : BitVec 28) (one : Bool) (c : Cycle) (s : State) : StepOut :=
  s.run fun d => ({ d with cycle := c.val }).hostRead p off.toNat one

end Sys2Proof.Machine
end

