-- ==== Sys2Proof/Machine/HostIf.lean ====
section
/-! DEFINITION. The SPI and I2C targets (R349-R352): transactions in their bus's own form. -/

namespace Sys2Proof.Machine

/-- A serial target answers: RESET_N is high, boot step 1 is over, and the SPI target is not in STOPPED (R312, R328). -/
def Dev.targetUp (d : Dev) (p : Path) : Bool := d.access p R.BOOT_STAT.off false != .absent

/-- Complete data groups, written to rising addresses. -/
def Dev.groupsWrite (d : Dev) (p : Path) (a : Nat) : List Word → Dev
  | [] => d
  | w :: r => Dev.groupsWrite (d.pathWrite p (a % 2 ^ 32) w.toNat true false) p (a + 4) r

/-- n words read from rising addresses, each given to the path with its status or marker (R349). -/
def Dev.wordsRead (d : Dev) (p : Path) (a : Nat) : Nat → Dev
  | 0 => d
  | n + 1 => match d.pathRead p (a % 2 ^ 32) with
    | none => d
    | some (e, v, st) => Dev.wordsRead (e.emit (.readData p.code [BitVec.ofNat 32 v] (pathStatus p st))) p (a + 4) n

/-- R349, R350: SPI_WRITE: the groups, and how many bytes of an incomplete one follow. -/
def Dev.spiWrite (d : Dev) (a : Nat) (ws : List Word) (part : Nat) : Dev :=
  if !d.targetUp .spi then d else
  let d := d.groupsWrite .spi a ws
  if part = 0 then d else d.pathError .spi 4

/-- R349: SPI_READ: the words clocked out. -/
def Dev.spiRead (d : Dev) (a n : Nat) : Dev := if d.targetUp .spi then d.wordsRead .spi a n else d

/-- R26, R350: CS_N low without a clock edge for 10 ms. -/
def Dev.spiTimeout (d : Dev) : Dev := if d.targetUp .spi then d.waitTimeout 4 else d

def execSpiWrite (a : Word) (ws : List Word) (part : Fin 4) (c : Cycle) (s : State) : StepOut :=
  s.run fun d => ({ d with cycle := c.val } : Dev).spiWrite a.toNat ws part
def execSpiRead (a : Word) (n : BitVec 16) (c : Cycle) (s : State) : StepOut :=
  s.run fun d => ({ d with cycle := c.val } : Dev).spiRead a.toNat n.toNat
def execSpiTimeout (s : State) : StepOut := s.run fun d => d.spiTimeout

/-- R351, R24: the target answers at 0x4C + MI2C_A1:A0, as recognised. -/
def Dev.i2cMine (d : Dev) (a : Nat) : Bool := a == 0x4C + 2 * b2n (d.pinHigh 6) + b2n (d.pinHigh 7)

/-- The I2C target's pointer. -/
def Dev.setPtr (d : Dev) (a : Nat) : Dev := { d with host := { d.host with i2cPtr := a % 2 ^ 32 } }

/-- R351: I2C_WRITE: np pointer bytes, then the groups, then the bytes of an incomplete one. A pointer of fewer than 4
bytes is discarded. -/
def Dev.i2cWrite (d : Dev) (np ptr : Nat) (ws : List Word) (part : Nat) : Dev :=
  if !d.targetUp .i2c ∨ np = 0 then d
  else if np < 4 then d.pathError .i2c 4
  else
    let d := (d.groupsWrite .i2c ptr ws).setPtr (ptr + 4 * ws.length)
    if part = 0 then d else d.pathError .i2c 4

/-- R351: I2C_READ: n words from the pointer onward. -/
def Dev.i2cRead (d : Dev) (n : Nat) : Dev :=
  if !d.targetUp .i2c then d else
  let a := d.host.i2cPtr
  (d.wordsRead .i2c a n).setPtr (a + 4 * n)

/-- R26, R352: SCL low for 35 ms. -/
def Dev.i2cTimeout (d : Dev) : Dev := if d.targetUp .i2c then d.waitTimeout 2 else d

def execI2cWrite (np : I2cHead) (ptr : Word) (ws : List Word) (part : Fin 4) (c : Cycle) (s : State) : StepOut :=
  s.run fun d => if d.i2cMine np.addr.toNat then ({ d with cycle := c.val } : Dev).i2cWrite np.np ptr.toNat ws part else d
def execI2cRead (n : I2cTake) (c : Cycle) (s : State) : StepOut :=
  s.run fun d => if d.i2cMine n.addr.toNat then ({ d with cycle := c.val } : Dev).i2cRead n.n.toNat else d
def execI2cSclTimeout (s : State) : StepOut := s.run fun d => d.i2cTimeout

end Sys2Proof.Machine
end

