-- ==== Sys2Proof/Machine/Suspect.lean ====
section
/-! DEFINITION. The samples of the suspect detector and the mask check: an input's phase against the XO or against the
loop estimate without it (R110, R113, R128). Phases are in 2^-32 ns. -/

namespace Sys2Proof.Machine

/-- R128: the members of loop l other than input n. -/
def Dev.otherMembers (d : Dev) (l n : Nat) : List Nat := (d.members l).filter fun k => d.entryRef l k != n

/-- R128: the estimate of loop l without input n in the present tick: R125's combination over the other members. -/
def Dev.estimateWithout (d : Dev) (l n : Nat) : Option Int :=
  d.combined l (d.stamped l (d.otherMembers l n) d.tickLo d.tickHi) (d.weight l) (d.buildOut l)

/-- The number nearest to `near` that differs from x by a multiple of num / den. -/
def unfold' (x near : Int) (num den : Nat) : Int :=
  if num = 0 ∨ den = 0 then x else near + roundDiv (foldMod ((x - near) * den) num) den

/-- R110, R128: the phase against the XO that the estimate of loop l without input n has at the edge number e of input n,
stamped at XO time t. The detector of R144 measures the edge and the estimate against the same feedback; the estimate is
continued from `prev` over whole feedback periods (log entry 87). None if the detector gives the edge or the estimate no
error. -/
def Dev.estimatePhase (d : Dev) (l n t e : Nat) (prev : Option Int) : Option Int :=
  let c := d.fbChan l
  let (num, den) := d.fbPeriod c
  if !d.periodFits n num den then none else
  match d.foldStamp c (d.edgeLt ((t : Int), 1) n).toNat, d.estimateWithout l n with
  | some x, some m =>
    let r := d.xoPhase n t e - (roundDiv x den - m)
    some (unfold' r (prev.getD r) num den)
  | _, _ => none

/-- R110, R113: a phase sample of the present tick. -/
def Dev.susTake (d : Dev) (n : Nat) (p : Int) : Dev :=
  let d := d.setMon n { d.mon n with samples := (d.mon n).samples ++ [(d.tick, p)] }
  if d.flag F.IN_MASK.ENABLE n && d.baseRuns then d.maskTake n p else d

/-- R110: the tick's stamps become samples against the reference that SUS_REF names; without another member of the named
loop that is the XO, and SUS_FALLBACK is set. DESIGN CHOICE (log entry 106): a gate in which the fallback begins or ends takes
the samples of both references, and is compared with the baseline that stands. -/
def Dev.susSample (d : Dev) (n : Nat) : Dev :=
  if !d.inEnabled n then d else
  let x := d.mon n
  let l := d.get F.IN_MON_CFG.SUS_REF n
  let alone := l < 32 && (d.otherMembers l n).isEmpty
  let d := d.setMon n { x with stamps := [], fallback := alone, susRef := if l < 32 && !alone then x.susRef else none }
  x.stamps.foldl (fun d s =>
    let p := d.xoPhase n s.1 s.2
    if l < 32 && !alone then
      match d.estimatePhase l n s.1 s.2 (d.mon n).susRef with
      | some r => (d.setMon n { d.mon n with susRef := some r }).susTake n (p - r)
      | none => d
    else d.susTake n p) d

/-- SUSPECT_GATE_END stands in the tick's last cycle (log entry 4): the tick's samples are in the gate that it ends. -/
def execSuspectGateEnd (n : Fin 40) (s : State) : StepOut :=
  s.run fun d => (({ d with cycle := 1249 } : Dev).susSample n).suspectGateEnd n

end Sys2Proof.Machine
end

