-- ==== Sys2Proof/Machine/BaseSelect.lean ====
section
/-! DEFINITION. What the base image's programs do each tick for references and selection: reference steps (R117), the
selection step (R131-R133), build-out offsets (R126), TDEV and ensemble weights (R129, R130). LOG ENTRY 102: they run at the
boundary that starts a tick, over what the ended tick left, and their tick-synchronous writes take effect at the next. -/

namespace Sys2Proof.Machine

def Dev.baseLoop (d : Dev) (l : Nat) : BaseLoop := Tbl.getD d.base.loops l BaseLoop.reset
def Dev.setBaseLoop (d : Dev) (l : Nat) (x : BaseLoop) : Dev :=
  { d with base := { d.base with loops := Tbl.set d.base.loops l x } }

/-- A tick-synchronous field as a program writes it: it waits for the next boundary. -/
def Dev.accPut (d : Dev) (f : Fld) (v : Nat) (n : Nat := 0) : Dev :=
  let k := f.reg.key n
  let w := (Tbl.getD d.acc k (BitVec.ofNat 32 (d.rd f.reg n))).toNat
  { d with acc := Tbl.set d.acc k (BitVec.ofNat 32 (setBits w f.hi f.lo v)) }

/-- Both halves of a tick-synchronous 64-bit value. -/
def Dev.accPut64 (d : Dev) (lo hi : Fld) (v : Nat) (n : Nat := 0) : Dev :=
  (d.accPut lo (v % 2 ^ lo.width) n).accPut hi (v / 2 ^ lo.width) n

/-- R2, R339: the path of the base image's register writes. -/
def basePath : Path := .engine ⟨Config.baseEngine.toNat, Nat.lt_of_lt_of_le Config.baseEngine.isLt (by decide)⟩

/-! ## Reference steps (R117, R132) -/

/-- R132: the checkpoint of stamp tick t, or of the oldest record if t is older, lists the entry. -/
def Dev.ckptLists (d : Dev) (l k t : Nat) : Bool :=
  bit (d.replayMembers l (max t (d.ckptOldest l d.tick))) k

/-- R132: an entry contributed to its loop at stamp tick t: with rewind the checkpoint lists it, without it is a member now;
a held entry did in both cases. -/
def Dev.contributed (d : Dev) (l k t : Nat) : Bool :=
  bit (d.get F.SEL_STAT.HELD l) k || (if d.rwdOn l then d.ckptLists l k t else (d.members l).contains k)

/-- R117: the tick from which a MARK or FAIL of the ended tick's word counts. -/
def Dev.susFrom (d : Dev) (n : Nat) : Nat := if (d.mon n).susValid then d.susTick n else d.tick - 1

/-- A pending flag of entry k. -/
def pend (l : List Nat) (k : Nat) : List Nat := if l.contains k then l else l ++ [k]

/-- R117, R132: a reference action for entry k of loop l: 2 MARK, 3 FAIL, 4 CLEAR_SUSPECT; NOTIFY sets no flag. -/
def Dev.refAction (d : Dev) (n action l k : Nat) : Dev :=
  let x := d.selx l
  if !d.contributed l k (d.susFrom n) then d
  else match action with
    | 2 => d.setSelx l { x with marked := pend x.marked k }
    | 3 => d.setSelx l { x with failed := pend x.failed k, failTick := Tbl.set x.failTick k (d.tick - 1) }
    | 4 => d.setSelx l { x with cleared := pend x.cleared k }
    | _ => d

/-- R25, R115: the program's write of a state: a code outside the table is refused with RANGE, one other than ABSENT for an
input whose disable waits with COMBINATION. -/
def Dev.statePut (d : Dev) (n st : Nat) : Dev :=
  if suspectS < st then d.refuse basePath.code (R.IN_STATE.off n) .range
  else if st ≠ absentS ∧ d.getA F.IN_CFG.ENABLE n = 0 then d.refuse basePath.code (R.IN_STATE.off n) .combination
  else d.accPut F.IN_STATE.STATE st n

/-- R117: the step of input n over the ended tick's word. -/
def Dev.refStep (d : Dev) (n : Nat) : Dev :=
  match d.table (d.get F.MON_REFSM.TABLE) with
  | none => d
  | some t =>
    let st := d.inState n
    match stateRow t st (d.get F.IN_MON_STAT.WORD n % 2 ^ 16) with
    | none => d
    | some j =>
      let to' := leAt t (9 + 8 * j) 1
      if !d.inEnabled n ∨ to' = st then d else
      let d := d.statePut n to'
      let act := leAt t (14 + 8 * j) 2
      (List.range 32).foldl (fun d l =>
        (List.range 8).foldl (fun d k => if d.entryNames l k n then d.refAction n act l k else d) d) d

/-! ## Build-out offsets (R126) -/

/-- The mean, rounded, of those of a list of errors that are there. -/
def meanOf (l : List (Option Int)) : Option Int :=
  let xs := l.filterMap id
  if xs.isEmpty then none else some (roundDiv (xs.foldl (· + ·) 0) xs.length)

/-- R125: the combined error of one stamp tick's raw errors. -/
def combineAt (ms : List Nat) (w : Nat → Nat) (b : Nat → Int) (r : List (Option Int)) : Option Int :=
  combine 1 (ms.filterMap fun k => (r.getD k none).map fun e => (w k, e - b k))

/-- R126: the offset of entry k when the members become `ms` with weights `w`. The remaining members' mean after the change
is taken over them alone, which keeps e continuous (DEDUCED, log entry 102); a mean without a tick is 0. -/
def Dev.offsetFor (d : Dev) (l : Nat) (ms : List Nat) (w : Nat → Nat) (k : Nat) : Int :=
  let hist := (d.baseLoop l).errs.take (d.selEns F.SEL_ENS_CFG.BO_AVG l)
  let old := d.members l
  let before := (meanOf (hist.map (combineAt old (d.weight l) (d.buildOut l)))).getD 0
  if old.contains k then
    let keep := ms.filter fun j => old.contains j
    if keep.length != old.length || keep.any (fun j => w j != d.weight l j) then
      d.buildOut l k + ((meanOf (hist.map (combineAt keep w (d.buildOut l)))).getD 0 - before)
    else d.buildOut l k
  else (meanOf (hist.map fun r => r.getD k none)).getD 0 - before

/-! ## TDEV (R129) -/

/-- The second differences of 80 samples over 8 sample intervals, oldest first. -/
def secondDiffs (x : List Int) : List Int :=
  (List.range 64).map fun i => x.getD (i + 16) 0 - 2 * x.getD (i + 8) 0 + x.getD i 0

/-- R129: TDEV of 80 phase samples in 2^-32 ns, with n = 8, in ps: the estimator of ITU-T G.810 (PRESUMED, log entry 103)
rounded to the nearest ps and saturated. -/
def tdev (x : List Int) : Nat :=
  let dd := secondDiffs x
  let s := (List.range 57).foldl (fun (a : Nat) j => a + (((dd.drop j).take 8).foldl (· + ·) 0).natAbs ^ 2) 0
  min 32767 (sqrtRound (s * 10 ^ 6) (6 * 64 * 57 * 2 ^ 64))

/-- R129: TDEV of entry k, if its span is complete at the present boundary. -/
def Dev.spanTdev (d : Dev) (l k : Nat) : Option Nat :=
  let s := (d.baseLoop l).spans.getD k Span.reset
  match s.first with
  | none => none
  | some f =>
    let n := (d.tick - f) / (s.tau * 1000)
    let xs := (List.range 80).filterMap fun i => (s.got.find? fun p => p.1 == n - 80 + i).map (·.2)
    if n < 80 ∨ xs.length < 80 then none else some (max (tdev xs) (d.selEns F.SEL_ENS_CFG.TDEV_FLOOR l))

/-- The XO time of an LT stamp of the present tick, in 2^-32 ns. -/
def Dev.ltToXo (d : Dev) (t : Nat) : Int :=
  d.tick * tickUnits + roundDiv (((t * 2 ^ 16 : Nat) - (d.time.lt : Int)) * tickUnits) (max 1 d.time.dlt)

/-- R129: what a member's span compares its corrected phase with: the estimate without it, or the XO. The phase of a remote
reference against the XO is taken modulo the feedback period, next to `prev` (log entry 12). -/
def Dev.spanPhase (d : Dev) (l k : Nat) (prev : Int) (e : Int) : Option Int :=
  let others := (d.members l).filter (· != k)
  let n := d.entryRef l k
  let (pn, pd) := d.fbPeriod (d.fbChan l)
  if others.isEmpty then
    if n < 40 then ((d.mon n).stamps.head?).map fun s => d.xoPhase n s.1 s.2
    else (d.refStamp n d.tickLo d.tickHi).map fun t => unfold' (d.ltToXo t) prev pn pd
  else (d.combined l (d.stamped l others d.tickLo d.tickHi) (d.weight l) (d.buildOut l)).map fun m => e - d.buildOut l k - m

/-- R129: the present tick's stamp of member k enters its span; the last one of an interval of TAU / 8 is its sample. Where
the estimate without k has no sample in a tick the manual states no phase: a free value (log entry 108). -/
def Dev.spanTake (d : Dev) (l k : Nat) (s : Span) (e : Option Int) : Span :=
  let tau := d.selEns F.SEL_ENS_CFG.TAU l
  let s := if s.tau = tau then s else { Span.reset with tau := tau }
  match e with
  | none => s
  | some e =>
    let v := (d.spanPhase l k ((s.got.head?.map (·.2)).getD 0) e).getD (Config.spanSample d.tick l k)
    let f := s.first.getD d.tick
    let i := (d.tick - f) / (tau * 1000)
    { s with first := some f, got := (((i, v) :: s.got.filter fun p => p.1 != i)).take 82 }

/-- R126, R129: the raw errors of the present tick are kept, and the members' spans go on. -/
def Dev.baseErrs (d : Dev) (l : Nat) : Dev :=
  let list := (List.range 8).map (d.listByte l)
  if !(List.range 8).any (d.entryValid l) then
    if (d.baseLoop l).list.isEmpty then d else d.setBaseLoop l { d.baseLoop l with list := [], errs := [], spans := [] }
  else
    let x := d.baseLoop l
    let same := fun k => x.list.getD k 0 == list.getD k 0
    let errs := if x.list = list then x.errs
      else x.errs.map fun r => (List.range 8).map fun k => if same k then r.getD k none else none
    let den := (d.fbPeriod (d.fbChan l)).2
    let raw := (List.range 8).map fun k => (d.rawErr l k d.tickLo d.tickHi).map fun e => roundDiv e den
    let ms := d.members l
    let spans := (List.range 8).map fun k =>
      if ms.contains k then d.spanTake l k (if same k then x.spans.getD k Span.reset else Span.reset) (raw.getD k none)
      else Span.reset
    d.setBaseLoop l { x with list := list, errs := (raw :: errs).take 255, spans := spans }

/-! ## Weights (R130) -/

/-- R130: weights of entries in inverse proportion to the numbers given; the rest up to 0x1_0000 goes to the largest, the
lowest entry of equals. -/
def shareWeights (l : List (Nat × Nat)) : List (Nat × Nat) :=
  let p := l.foldl (fun a e => a * max 1 e.2) 1
  let s := l.foldl (fun a e => a + p / max 1 e.2) 0
  let w := l.map fun e => (e.1, (roundDiv (65536 * (p / max 1 e.2) : Nat) (max 1 s)).toNat)
  let most := w.foldl (fun (b : Option (Nat × Nat)) e => match b with
    | none => some e
    | some x => if x.2 < e.2 then some e else some x) none
  let sum := w.foldl (fun a e => a + e.2) 0
  match most with
  | none => []
  | some m => w.map fun e => if e.1 = m.1 then (e.1, e.2 + 65536 - sum) else e

/-- R130: the weight of entry k among the members `ms`, by the TDEVs of the last refresh; equal shares where none is
complete. -/
def Dev.ensWeight (d : Dev) (l : Nat) (ms : List Nat) (k : Nat) : Nat :=
  let t := (d.baseLoop l).tdevs
  let done := ms.filterMap fun j => (t.getD j none).map (j, ·)
  let w := shareWeights (if done.isEmpty then ms.map (·, 1) else done)
  ((w.find? fun e => e.1 == k).map (·.2)).getD 0

/-- R129, R130: the refresh at a multiple of 1,000,000 ticks. -/
def Dev.tdevRefresh (d : Dev) (l : Nat) : Dev :=
  if d.tick % 10 ^ 6 ≠ 0 then d else
  let ms := d.members l
  d.setBaseLoop l { d.baseLoop l with
    tdevs := (List.range 8).map fun k => if ms.contains k then d.spanTdev l k else none }

/-! ## The selection step (R131-R133) -/

/-- R124: the program selects for an ensemble. -/
def Dev.ensMode (d : Dev) (l : Nat) : Bool := d.selMode F.SEL_MODE.MODE l == 3

/-- R125, R130: the weight that entry k has among the members `ms`. -/
def Dev.newWeight (d : Dev) (l : Nat) (ms : List Nat) (k : Nat) : Nat :=
  if !ms.contains k then 0 else if d.ensMode l then d.ensWeight l ms k else 0x10000

/-- R126, R130, R132: the active reference and the members are written, with weights and offsets. -/
def Dev.membersWrite (d : Dev) (l : Nat) (a : Option Nat) (ms : List Nat) (offset : Nat → Int) : Dev :=
  let w := d.newWeight l ms
  let t := (d.baseLoop l).tdevs
  let e := (List.range 8).foldl (fun (e : Dev) k =>
    let e := (e.accPut (F.SEL_WEIGHT.WEIGHT.at k) (w k) l).accPut (F.SEL_WEIGHT.TDEV.at k)
      (if ms.contains k then (t.getD k none).getD 0 else 0) l
    if ms.contains k then e.accPut64 (F.SEL_BO_LO.BO.at k) (F.SEL_BO_HI.BO.at k) (ofSigned 64 (offset k)) l else e) d
  let e := (e.accPut F.SEL_STAT.MEMBERS (bitmap ms) l).accPut F.SEL_STAT.ACTIVE_VALID (b2n a.isSome) l
  match a with
  | some k => e.accPut F.SEL_STAT.ACTIVE k l
  | none => e

/-- R126: the active reference and the members change, and e stays continuous. -/
def Dev.membersSet (d : Dev) (l : Nat) (a : Option Nat) (ms : List Nat) : Dev :=
  d.membersWrite l a ms (d.offsetFor l ms (d.newWeight l ms))

/-- SELECT: the choice of R124, with the entries `drop` out of it. -/
def Dev.selSelect (d : Dev) (l drop : Nat) : Dev :=
  let c := (d.put F.SEL_STAT.HELD (d.get F.SEL_STAT.HELD l ||| drop) l).choose l
  d.membersSet l c.1 c.2

/-- HOLD and DROP: entries leave the members; an active reference among them is replaced. -/
def Dev.selLeave (d : Dev) (l : Nat) (out : List Nat) : Dev :=
  let cur := d.members l
  if !cur.any (fun k => out.contains k) then d
  else if d.ensMode l then d.membersSet l none (cur.filter fun k => !out.contains k)
  else d.selSelect l (bitmap out)

/-- HELD as the program writes it. -/
def Dev.heldPut (d : Dev) (l : Nat) (f : Nat → Bool) : Dev := d.accPut F.SEL_STAT.HELD (bitmap ((List.range 8).filter f)) l

def Dev.heldBit (d : Dev) (l k : Nat) : Bool := bit (d.get F.SEL_STAT.HELD l) k

/-- HOLD consumes MARKED. -/
def Dev.selHold (d : Dev) (l : Nat) : Dev :=
  let x := d.selx l
  ((d.selLeave l x.marked).heldPut l fun k => d.heldBit l k || x.marked.contains k).setSelx l { x with marked := [] }

/-- RELEASE consumes CLEARED. -/
def Dev.selRelease (d : Dev) (l : Nat) : Dev :=
  let x := d.selx l
  (d.heldPut l fun k => d.heldBit l k && !x.cleared.contains k).setSelx l { x with cleared := [] }

/-- DROP consumes FAILED. A failed entry is no longer held (DEDUCED, log entry 102): its state is BAD, from which no
CLEAR_SUSPECT comes. -/
def Dev.selDrop (d : Dev) (l : Nat) : Dev :=
  let x := d.selx l
  ((d.selLeave l x.failed).heldPut l fun k => d.heldBit l k && !x.failed.contains k).setSelx l { x with failed := [] }

/-- R132: the first suspect tick that a failed entry gives. -/
def Dev.failFrom (d : Dev) (l k : Nat) : Nat :=
  let n := d.entryRef l k
  if n < 40 ∧ (d.mon n).susValid then d.susTick n else Tbl.getD (d.selx l).failTick k (d.tick - 1)

/-- REWIND: FROM and START with the failed entries excluded; it consumes FAILED, and MARKED of those entries. A failed entry
is no longer held, as for DROP. -/
def Dev.selRewind (d : Dev) (l : Nat) : Dev :=
  let x := d.selx l
  let from' := x.failed.foldl (fun a k => min a (d.failFrom l k)) (d.tick - 1)
  let d := d.put64 F.SEL_RWD_FROM_LO.FROM F.SEL_RWD_FROM_HI.FROM from' l
  let d := (d.rewindStartCmd basePath l (bitmap x.failed)).heldPut l fun k => d.heldBit l k && !x.failed.contains k
  d.setSelx l { d.selx l with failed := [], marked := x.marked.filter fun k => !x.failed.contains k }

/-- END: the replayed members and offsets become the live ones; SPLICE_DONE is consumed. -/
def Dev.selEnd (d : Dev) (l : Nat) : Dev :=
  let x := d.selx l
  let keep := (d.members l).filter fun k => !bit x.exclude k
  let ms := if keep.isEmpty then (List.range 8).filter (bit x.choice) else keep
  let ms := if d.ensMode l then ms else ms.take 1
  (d.membersWrite l (if d.ensMode l then none else ms.head?) ms fun k => x.offsets.getD k 0).setSelx l { x with doneSeen := true }

/-- LOSE: every member is withdrawn. In a rewind the loop enters COAST by an ABORT (DEDUCED, log entry 102). -/
def Dev.selLose (d : Dev) (l : Nat) : Dev :=
  let d := if d.rewinding l then d.rewindAbortCmd basePath l else d
  d.membersWrite l none [] fun _ => 0

/-- The table Selection actions. -/
def Dev.selAct (d : Dev) (l action : Nat) : Dev :=
  match action with
  | 1 => d.selSelect l 0
  | 2 => d.selHold l
  | 3 => d.selRelease l
  | 4 => d.selRewind l
  | 5 => d.selDrop l
  | 6 => d.rewindSpliceCmd basePath l
  | 7 => d.selEnd l
  | 8 => d.selLose l
  | _ => d

/-- The active reference and the members in force. -/
def Dev.selNow (d : Dev) (l : Nat) : Option Nat × List Nat :=
  (if d.ensemble l then none else some (d.get F.SEL_STAT.ACTIVE l), d.members l)

/-- R131: the table Selection inputs. -/
def Dev.selInputs (d : Dev) (l : Nat) : Nat :=
  let x := d.selx l
  let any := fun (f : Nat → Bool) => (List.range 8).any f
  let now := d.selNow l
  let elig := if d.selMode F.SEL_MODE.MODE l = 2 then d.eligible l (d.selMode F.SEL_MODE.FORCE l) else any (d.eligible l)
  let ok := now.2.any fun k => d.eligible l k && (!d.ensMode l || d.weight l k != 0)
  let better := (d.choose l).1 != now.1 || bitmap (d.choose l).2 != bitmap now.2
  let r := d.get F.SEL_RWD_STAT.RSTATE l
  bitmap (([any (d.entryValid l), elig, ok, better, !x.marked.isEmpty, !x.failed.isEmpty, d.rwdOn l,
    x.cleared.any (d.heldBit l), r == 2, r == 4 && !x.doneSeen].zipIdx.filter (·.1)).map (·.2))

/-- R131: the row of the selection table that fires for a loop, if one does: its ACTION, and TO. -/
def Dev.selRow (d : Dev) (l : Nat) : Dev :=
  let st := d.get F.SEL_STAT.SSTATE l
  match d.table (d.get F.SEL_SM.TABLE) with
  | none => d
  | some t =>
    match stateRow t st (d.selInputs l) with
    | none => d
    | some j =>
      let to' := leAt t (9 + 8 * j) 1
      let e := d.selAct l (leAt t (14 + 8 * j) 2)
      if to' = st then e else e.accPut F.SEL_STAT.SSTATE to' l

/-- R129, R130: at a refresh TDEVs, weights and offsets of the members are written, where the step `e` leaves the members. -/
def Dev.selRefresh (d e : Dev) (l : Nat) : Dev :=
  let moved := e.getA F.SEL_STAT.MEMBERS l != d.get F.SEL_STAT.MEMBERS l ||
    e.getA F.SEL_STAT.ACTIVE l != d.get F.SEL_STAT.ACTIVE l ||
    e.getA F.SEL_STAT.ACTIVE_VALID l != d.get F.SEL_STAT.ACTIVE_VALID l
  if moved || (d.members l).isEmpty then e
  else
    let now := d.selNow l
    let w := d.newWeight l now.2
    e.membersWrite l now.1 now.2 (d.offsetFor l now.2 w)

/-- R131: the selection step of a loop, and the refresh of R130. -/
def Dev.selStep (d : Dev) (l : Nat) : Dev :=
  if !(List.range 8).any (d.entryValid l) ∧ d.get F.SEL_STAT.SSTATE l = 0 then d else
  let e := d.selRow l
  if d.tick % 10 ^ 6 = 0 then d.selRefresh e l else e

end Sys2Proof.Machine
end

