-- ==== Sys2Proof/Machine/BaseFrames.lean ====
section
/-! DEFINITION. The base image's frame-path program: ESMC PDUs and the quality levels of the inputs (R120). -/

namespace Sys2Proof.Machine

/-- The offset of the first TLV of a type among those from offset o on, n at most. PRESUMED (log entry 107), from ITU-T
G.8264: a TLV has its type in a byte, its length with both in two, and then its content. -/
def esmcTlv (f : List Byte) (type : Nat) : Nat → Nat → Option Nat
  | 0, _ => none
  | n + 1, o =>
    if f.length < o + 3 ∨ beAt f (o + 1) 2 < 3 then none
    else if beAt f o 1 = type then some o
    else esmcTlv f type n (o + beAt f (o + 1) 2)

/-- SSM code and enhanced code of an ESMC PDU, information or event; 0x00 without an extended QL TLV. -/
def esmcLevels (f : List Byte) : Option (Nat × Nat) :=
  let o := etypeOff f + 2
  if etype f = 0x8809 ∧ beAt f o 1 = 0x0A ∧ beAt f (o + 1) 3 = 0x0019A7 then
    (esmcTlv f 1 8 (o + 10)).map fun q => (beAt f (q + 3) 1 % 16, match esmcTlv f 2 8 (o + 10) with
      | some e => beAt f (e + 3) 1
      | none => 0)
  else none

def Dev.setEsmc (d : Dev) (n : Nat) (x : Nat × Bool) : Dev := { d with base := { d.base with esmc := Tbl.set d.base.esmc n x } }

/-- The input takes its quality level from ESMC PDUs (DEDUCED, log entry 107: the program writes for such inputs only). -/
def Dev.qlFromEsmc (d : Dev) (n : Nat) : Bool := d.flag F.IN_QL.SRC n

/-- R120: an ESMC PDU writes ESMC_QL and ESSM of every input whose IN_QL_PORT holds its ingress port ID. -/
def Dev.esmcTake (d : Dev) (f : List Byte) : Dev :=
  match esmcLevels f with
  | none => d
  | some (ql, ext) => (List.range 40).foldl (fun d n =>
      if d.qlFromEsmc n && d.get F.IN_QL_PORT.PORT n == beAt f 0 2 then
        ((d.put F.IN_QL.ESMC_QL ql n).put F.IN_QL.ESSM ext n).setEsmc n (d.tick, false)
      else d) d

/-- The frame queue to which the base parser table delivers ESMC PDUs (R254). -/
def esmcQueue : Nat := 1

/-- R120, R263: the program pops up to n entries of its queue; a pop releases the frame's cells. -/
def Dev.esmcPops (d : Dev) : Nat → Dev
  | 0 => d
  | n + 1 =>
    let x := d.qdesc esmcQueue
    let e := d.vbytes (x.entryAddr x.head) x.entry
    let f := d.vbytes (leAt e 0 4) (leAt e 4 2)
    match d.qPop esmcQueue 0 with
    | (d, none) => d
    | (d, some _) => ((d.vatTouch (leAt e 0 4) (leAt e 4 2) 0).esmcTake f).esmcPops n

/-- R120: without a PDU for TIMEOUT seconds the program writes 0xF, once. -/
def Dev.esmcTimeout (d : Dev) (n : Nat) : Dev :=
  if !d.qlFromEsmc n then { d with base := { d.base with esmc := Tbl.del d.base.esmc n } }
  else match Tbl.find? d.base.esmc n with
    | none => d.setEsmc n (d.tick, false)
    | some (t, over') =>
      if !over' && decide (t + d.get F.IN_QL.TIMEOUT n * 10 ^ 6 ≤ d.tick) then
        ((d.put F.IN_QL.ESMC_QL 0xF n).setEsmc n (t, true)).fault 102
      else d

/-- R120: the frame-path program in a tick; LEAN has no frame path. DESIGN CHOICE (log entry 107): it takes what its queue
holds at the tick's start. -/
def Dev.esmcProgram (d : Dev) : Dev :=
  if d.get F.SYS_PROFILE.ACTIVE = 3 then d else
  let x := d.qdesc esmcQueue
  let d := if x.cons < 512 then d.esmcPops (min x.fill x.size) else d
  (List.range 40).foldl Dev.esmcTimeout d

end Sys2Proof.Machine
end

