-- ==== Sys2Proof/Machine/BaseLoop.lean ====
section
/-! DEFINITION. The base image's loop program: its gains, the update, the control-word slot and the checkpoint bytes it
writes (R139, R145, R146, R163), and the replay task (R139). -/

namespace Sys2Proof.Machine

/-! ## The sample interval (R146) -/

/-- The shorter of two periods, each a fraction in 2^-32 ns. -/
def shorter (a b : Nat × Nat) : Nat × Nat := if a.1 * b.2 ≤ b.1 * a.2 then a else b
def longer (a b : Nat × Nat) : Nat × Nat := if a.1 * b.2 ≤ b.1 * a.2 then b else a

/-- R146: the nominal prescaled period of an entry: on a channel that DEEP stamps once per 8 ticks no shorter than that. A
remote reference, whose period no frame carries, gives a stamp each tick (DEDUCED, log entry 102). -/
def Dev.entryPeriod (d : Dev) (l k : Nat) : Nat × Nat :=
  let n := d.entryRef l k
  match d.refPeriod n with
  | none => (tickUnits, 1)
  | some p =>
    let p := if p.1 = 0 ∨ p.2 = 0 then (tickUnits, 1) else p
    if d.get F.SYS_PROFILE.ACTIVE = 1 ∧ !d.flag F.TDC_CH_CFG.FULLRATE n then longer p (8 * tickUnits, 1) else p

/-- R146: t of a loop as a fraction in 2^-32 ns. -/
def Dev.sampleInterval (d : Dev) (l : Nat) : Nat × Nat :=
  if l = 32 then
    match d.get F.TLOOP_CFG.SRC with
    | 1 =>
      let c := d.get F.TLOOP_CFG.CH
      if c < 40 then (d.refPeriod c).getD (tickUnits, 1) else (d.get F.TDC_CH_DIV.DIV c * secUnits, 1)
    | _ => ((d.baseLoop 32).servoGap * tickUnits, 1)
  else
    let ms := d.members l
    let es := if ms.isEmpty then (List.range 8).filter (d.entryValid l) else ms
    match es.map (d.entryPeriod l) with
    | [] => (tickUnits, 1)
    | p :: r => longer (r.foldl shorter p) (tickUnits, 1)

/-! ## Gains (R146) -/

/-- The scale of the fixed-point numbers that the gains are computed in. -/
def gainScale : Nat := 2 ^ 128

/-- Pi in units of 10^-50. -/
def pi50 : Nat := 314159265358979323846264338327950288419716939937510

/-- R146: bw x t exceeds 1/250. -/
def Dev.bwLimited (d : Dev) (l : Nat) : Bool :=
  let t := d.sampleInterval l
  10 ^ 4 * secUnits * t.2 < d.get F.LOOP_BW.BW l * t.1 * 250

/-- R146: bw in Hz at the gain scale. -/
def Dev.bwScaled (d : Dev) (l : Nat) : Nat :=
  let t := d.sampleInterval l
  if d.bwLimited l then gainScale * secUnits * t.2 / (250 * max 1 t.1) else gainScale * d.get F.LOOP_BW.BW l / 10 ^ 4

/-- R146: wn at the gain scale. -/
def Dev.wnScaled (d : Dev) (l : Nat) : Nat :=
  let a := gainScale * (10 ^ 4 + 2 * d.get F.LOOP_DAMP.DAMP l ^ 2) / 10 ^ 4
  let r := isqrt 200 ((a + isqrt 200 (a * a + gainScale * gainScale) 0) * gainScale) 0
  2 * pi50 * (d.bwScaled l * gainScale / max 1 r) / 10 ^ 50

/-- R146: kp_reg. -/
def Dev.kp (d : Dev) (l : Nat) : Int :=
  roundDiv (2 * d.get F.LOOP_DAMP.DAMP l * d.wnScaled l * 2 ^ 48 : Nat) (100 * 10 ^ 9 * gainScale)

/-- R146: ki_reg. -/
def Dev.ki (d : Dev) (l : Nat) : Int :=
  let t := d.sampleInterval l
  roundDiv (d.wnScaled l ^ 2 * t.1 * 2 ^ 48 : Nat) (10 ^ 9 * gainScale ^ 2 * t.2 * secUnits)

/-! ## The update (R146) -/

/-- R146, R147: one update by the error e: the integrator, held while a clamp acts, and the word within ±PULLIN. -/
def Dev.piUpdate (d : Dev) (l : Nat) (integ e : Int) : Int × Int :=
  let held := d.flag F.LOOP_STATE.CLAMP_PI l || d.flag F.LOOP_STATE.CLAMP_PSL l
  let i := if held then integ else satSigned 80 (integ + d.ki l * e)
  (i, clampTo (-d.pullinLimit l) (d.pullinLimit l) (d.kp l * e / 2 ^ 32 + i / 2 ^ 32))

/-- R145: the word goes into the control-word slot. -/
def Dev.slotPut (d : Dev) (l : Nat) (w : Int) : Dev := d.vatUser (d.loopBlock l + 16) (leBytes 8 (ofSigned 64 w))

/-- R162: with SRC 2 the program notes when the servo wrote its last sample, and the interval before it. -/
def Dev.servoNote (d : Dev) : Dev :=
  let x := d.baseLoop 32
  let last := (d.loop 32).lastSample
  if d.get F.TLOOP_CFG.SRC ≠ 2 ∨ last ≠ some (d.tick - 1) ∨ x.servoAt = last then d
  else d.setBaseLoop 32 { x with servoAt := last, servoGap := max 1 (d.tick - 1 - (x.servoAt.getD (d.tick - 2))) }

/-- R145, R146, R163: the loop task in ACQUIRE and LOCKED. At an entry the integrator takes APPLIED and the word stays
(DEDUCED, log entry 102: that tick makes no update); a tick without a sample, or
with one by which TLOOP stepped LT instead (R162), rewrites the word held. -/
def Dev.loopTask (d : Dev) (l : Nat) : Dev :=
  let x := d.baseLoop l
  let y := d.loop l
  let b := d.loopBlock l
  if y.entry then (d.setBaseLoop l { x with integ := y.applied * 2 ^ 32, word := y.applied }).slotPut l y.applied
  else if y.lastSample ≠ some (d.tick - 1) ∨ d.vbad b 8 ∨ (l = 32 ∧ y.stepped = some (d.tick - 1)) then d.slotPut l x.word
  else
    let (i, w) := d.piUpdate l x.integ (toSigned 64 (d.vraw b 8))
    (d.setBaseLoop l { x with integ := i, word := w }).slotPut l w

/-! ## The replay task (R139) -/

/-- R139: a restore has taken effect at this boundary: the filter state comes from record r. -/
def Dev.replayLoad (d : Dev) (l : Nat) : Dev :=
  let r := d.get64 F.SEL_RWD_RESTORE_LO.RESTORE F.SEL_RWD_RESTORE_HI.RESTORE l
  let a := d.ckptAddr l r
  let integ := toSigned 80 (d.vraw (a + 16) 6 * 2 ^ 32 + d.vraw (a + 22) 2 * 2 ^ 16 + d.vraw (a + 14) 2)
  d.setBaseLoop l { d.baseLoop l with integ := integ, word := d.ckptControl l r, leak := 0, words := [] }

/-- R139: one replay record: the leaked phase, the corrected error, and the loop's own update. -/
def Dev.replayTake (d : Dev) (l : Nat) (rec : List Byte) : Dev :=
  let x := d.baseLoop l
  let r := d.get64 F.SEL_RWD_RESTORE_LO.RESTORE F.SEL_RWD_RESTORE_HI.RESTORE l
  let t := leAt rec 0 4
  let ago := (t + 2 ^ 32 - r % 2 ^ 32) % 2 ^ 32
  let w2 := (x.words.find? fun p => p.1 == (t + 2 ^ 32 - 2) % 2 ^ 32).map (·.2)
  let leak := if 3 ≤ ago then x.leak + ((w2.getD x.word) - toSigned 48 (leAt rec 16 6)) * 1000 else x.leak
  let (i, w) := if bit (leAt rec 4 1) 0 then (x.integ, x.word)
    else d.piUpdate l x.integ (toSigned 64 (leAt rec 8 8) - leak / 2 ^ 16)
  d.setBaseLoop l { x with integ := i, word := w, leak := leak, words := ((t, w) :: x.words).take 4 }

/-- R139: the replay task pops up to n records from its queue; whether one of them said CAUGHT_UP. -/
def Dev.replayPops (l : Nat) : Nat → Dev → Bool → Dev × Bool
  | 0, d, c => (d, c)
  | n + 1, d, c =>
    match d.qPop (d.get F.SEL_RWD_CFG.QUEUE l) 0 with
    | (d, none) => (d, c)
    | (d, some rec) => Dev.replayPops l n (d.replayTake l rec) (c || bit (leAt rec 4 1) 1)

/-- R139, R145: the replay task of a tick: from CAUGHT_UP on it writes SLOT. It pops only a queue that an engine consumes. -/
def Dev.replayTask (d : Dev) (l : Nat) : Dev :=
  let d := if (d.selx l).start = d.tick then d.replayLoad l else d
  let c := (d.qdesc (d.get F.SEL_RWD_CFG.QUEUE l)).cons
  let (d, caught) := if c < 512 then Dev.replayPops l 17 d false else (d, false)
  if caught || d.get F.SEL_RWD_STAT.RSTATE l = 2 then d.slotPut l (d.baseLoop l).word else d

/-- R134: the loop program's bytes of the ended tick's checkpoint record. -/
def Dev.ckptProgram (d : Dev) (l : Nat) : Dev :=
  let t := d.tick - 1
  if !d.rwdOn l ∨ t < (d.selx l).ringFrom then d else
  let i := ofSigned 80 (d.baseLoop l).integ
  d.vatUser (d.ckptAddr l t + 14) (leBytes 2 i ++ leBytes 6 (i / 2 ^ 32) ++ leBytes 2 (i / 2 ^ 16) ++
    leBytes 8 (d.vraw (d.loopBlock l) 8))

/-- R139, R145, R146: the base image's tasks of a loop in a tick. A follower's TLOOP follows the lead (R278). -/
def Dev.loopProgram (d : Dev) (l : Nat) : Dev :=
  if l = 32 ∧ d.role = 2 then d else
  let d := if l = 32 then d.servoNote else d
  -- R146: the gains follow each commit and each change of t
  let d := d.putB F.LOOP_STATE.BWLIM (d.bwLimited l) l
  let st := d.loopState l
  let r := d.get F.SEL_RWD_STAT.RSTATE l
  let d := if (st = 1 ∨ st = 2) ∧ !(l = 32 && d.follower) then d.loopTask l
    else if l < 32 ∧ st = 5 ∧ (r = 1 ∨ r = 2) then d.replayTask l
    else if l < 32 ∧ st = 5 ∧ r = 3 then d.slotPut l (d.baseLoop l).word
    else d
  if l < 32 then d.ckptProgram l else d

end Sys2Proof.Machine
end

