-- ==== Sys2Proof/Machine/BaseGlide.lean ====
section
/-! DEFINITION. The base image's holdover programs: the glide base and word (R158, R159), the oscillator models (R160), the
external temperatures (R161), and what the base image writes to the Ream (R160, R169, R289). -/

namespace Sys2Proof.Machine

/-! ## History records (R156) -/

/-- R156: a history record as a reader of the pool has it. -/
structure HistRec where
  avg : Int
  temp : Int
  valid : Bool
  excluded : Bool
  tempOk : Bool
  deriving DecidableEq, Repr, Inhabited

def histRecOf (b : List Byte) : HistRec :=
  let f := leAt b 12 1
  ⟨toSigned 48 (leAt b 4 6), toSigned 16 (leAt b 10 2), bit f 0, bit f 1, bit f 2⟩

/-- The record of second s of a loop: the one still on its way to the pool, or the one that the pool holds clean. -/
def Dev.histRead (d : Dev) (l s : Nat) : Option HistRec :=
  let a := d.poolBase 6 + (l * 7200 + s % 7200) * 16
  let stored := if d.vraw a 4 = s % 2 ^ 32 ∧ !d.vbad a 16 then some (histRecOf (d.vbytes a 16)) else none
  match (d.loop l).histPrev with
  | some (s', h) => if s' = s then some (histRecOf (histRecord s h)) else stored
  | none => stored

/-! ## The glide base (R158) -/

/-- R158: a record enters the sums of the window. -/
def GlideBase.add (g : GlideBase) (s : Nat) (r : HistRec) : GlideBase :=
  { g with
    n := g.n + 1, avgs := g.avgs + r.avg, secs := g.secs + s
    temps := if r.tempOk then g.temps + r.temp else g.temps
    tempN := g.tempN + b2n r.tempOk }

/-- R158: the base over the window of the loss at boundary `loss`; none with fewer than min(60, SPAN) eligible records. -/
def Dev.glideBaseOf (d : Dev) (l loss : Nat) : Option GlideBase :=
  let span := d.get F.LOOP_GLIDE_CFG.SPAN l
  let top := loss / 10 ^ 6 - d.get F.LOOP_GLIDE_CFG.GUARD l      -- the window ends before second `top`
  let g := (List.range (min span top)).foldl (fun (g : GlideBase) i =>
    let s := top - 1 - i
    match d.histRead l s with
    | some r => if r.valid && !r.excluded then g.add s r else g
    | none => g) ⟨loss, 0, 0, 0, 0, 0⟩
  if g.n = 0 ∨ g.n < min 60 span then none else some g

/-- R158: the program computes the base in the tick after the boundary of LOOP_LOSS. -/
def Dev.glideCompute (d : Dev) (l : Nat) : Dev :=
  let loss := d.get64 F.LOOP_LOSS_LO.TICK F.LOOP_LOSS_HI.TICK l
  if d.tick = loss + 1 then d.setBaseLoop l { d.baseLoop l with glide := d.glideBaseOf l loss } else d

/-! ## The glide word (R159) -/

/-- R159: the temperature part f(t_last) - f(t_w) over the denominator (128 tempN)^2, for a record of TEMP `last`. -/
def tempPart (m : OscModel) (g : GlideBase) (last : Int) : Int :=
  let den : Int := 128 * g.tempN
  let a := (last - m.tRef) * g.tempN
  let b := g.temps - m.tRef * g.tempN
  m.tc1 * (a - b) * den + m.tc2 * (a * a - b * b)

/-- R159: the word of second s, rounded once at the end, and whether a model term entered it. -/
def glideOf (g : GlideBase) (m : OscModel) (modelEn : Bool) (last : Option Int) (s : Nat) : Int × Bool :=
  if !(modelEn && m.valid) then (roundDiv g.avgs g.n, false)
  else
    let age := g.avgs * 86400 + m.age * ((s : Int) * g.n - g.secs)      -- over 86400 n
    match last with
    | some t =>
      if m.tempValid && g.tempN != 0 then
        let q : Nat := (128 * g.tempN) ^ 2
        (roundDiv (age * q + tempPart m g t * 86400 * (g.n : Int)) (86400 * g.n * q), true)
      else (roundDiv age (86400 * g.n), true)
    | none => (roundDiv age (86400 * g.n), true)

/-- R158, R159: LOOP_GLIDE: at the start of a second in COAST and GLIDE the word, if the present loss has a base; SRC NONE where the loop
is in neither, so that it is NONE at the next entry (DEDUCED, log entry 102). -/
def Dev.glideWrite (d : Dev) (l : Nat) : Dev :=
  let st := d.loopState l
  if st ≠ 3 ∧ st ≠ 4 then
    if d.get F.LOOP_GLIDE_HI.SRC l = 0 then d else d.accPut F.LOOP_GLIDE_HI.SRC 0 l
  else if d.tick % 10 ^ 6 ≠ 0 then d
  else match (d.baseLoop l).glide.filter fun g => g.loss == d.get64 F.LOOP_LOSS_LO.TICK F.LOOP_LOSS_HI.TICK l with
    | none => d
    | some g =>
      let s := d.tick / 10 ^ 6
      let last := (d.histRead l (s - 1)).bind fun r => if r.tempOk then some r.temp else none
      let (w, model) := glideOf g (d.baseLoop l).model (d.flag F.LOOP_GLIDE_CFG.MODEL_EN l) last s
      let v := ofSigned 48 (satSigned 48 w)
      ((d.accPut F.LOOP_GLIDE_LO.WORD (v % 2 ^ 32) l).accPut F.LOOP_GLIDE_HI.WORD (v / 2 ^ 32) l).accPut
        F.LOOP_GLIDE_HI.SRC (if model then 2 else 1) l

/-! ## Oscillator models (R160) -/

/-- R160: a VALID record enters the running sums. -/
def FitSums.add (f : FitSums) (s : Int) (r : HistRec) : FitSums :=
  let y := r.avg
  let t := r.temp
  let f := { f with n := f.n + 1, s := f.s + s, ss := f.ss + s * s, y := f.y + y, sy := f.sy + s * y }
  if !r.tempOk then f else
  { f with
    k := f.k + 1, ks := f.ks + s, kss := f.kss + s * s, kt := f.kt + t, ktt := f.ktt + t * t
    kttt := f.kttt + t * t * t, ktttt := f.ktttt + t * t * t * t, kst := f.kst + s * t, kstt := f.kstt + s * t * t
    ky := f.ky + y, ksy := f.ksy + s * y, kty := f.kty + t * y, ktty := f.ktty + t * t * y
    least := if f.k = 0 then t else min f.least t, greatest := if f.k = 0 then t else max f.greatest t }

/-- The determinant of an n by n matrix, by its first row. -/
def detOf : Nat → List (List Int) → Int
  | 0, _ => 1
  | n + 1, m =>
    let top := m.headD []
    (List.range (n + 1)).foldl (fun (a : Int) j =>
      let minor := (m.drop 1).map fun r => r.take j ++ r.drop (j + 1)
      a + (if j % 2 = 0 then 1 else -1) * top.getD j 0 * detOf n minor) 0

/-- The normal equations of y against 1, s, t and t^2. -/
def FitSums.matrix (f : FitSums) : List (List Int) :=
  [[f.k, f.ks, f.kt, f.ktt], [f.ks, f.kss, f.kst, f.kstt], [f.kt, f.kst, f.ktt, f.kttt], [f.ktt, f.kstt, f.kttt, f.ktttt]]

/-- The determinant with column j replaced by the right-hand side: by Cramer's rule coefficient j times the determinant. -/
def FitSums.cramer (f : FitSums) (j : Nat) : Int :=
  let rhs := [f.ky, f.ksy, f.kty, f.ktty]
  detOf 4 ((f.matrix.zip rhs).map fun r => r.1.take j ++ [r.2] ++ r.1.drop (j + 1))

/-- a / b rounded, for a b of either sign. -/
def roundFrac (a b : Int) : Int := if b < 0 then roundDiv (-a) b.natAbs else roundDiv a b.natAbs

/-- R160: the fit: AGE in units a day, TC1 and TC2 in units for each degree and its square. The terms of temperature are
fitted, with AGE, over the records with TEMP_OK where T_MAX and T_MIN differ by 4 degrees or more; else AGE alone over every
record (log entry 102). -/
def FitSums.fit (f : FitSums) (fitTime : Nat) : OscModel :=
  let tRef := if f.k = 0 then 0 else roundDiv f.kt f.k.natAbs
  let det := detOf 4 f.matrix
  let temp := f.k ≠ 0 ∧ 512 ≤ f.greatest - f.least ∧ det ≠ 0
  let sat := satSigned 32
  let m : OscModel := ⟨fitTime, tRef, 0, 0, 0, f.n.natAbs, f.least, f.greatest, true, decide temp⟩
  if temp then
    let b := f.cramer 2
    let c := f.cramer 3
    { m with
      age := sat (roundFrac (f.cramer 1 * 86400) det), tc1 := sat (roundFrac ((b + 2 * c * tRef) * 128) det),
      tc2 := sat (roundFrac (c * 128 ^ 2) det) }
  else
    let d2 := f.n * f.ss - f.s * f.s
    { m with age := if d2 = 0 then 0 else sat (roundFrac ((f.n * f.sy - f.s * f.y) * 86400) d2) }

/-- R160: the 32 bytes of a model record. -/
def modelBytes (m : OscModel) : List Byte :=
  leBytes 6 m.fitTime ++ leBytes 2 (ofSigned 16 m.tRef) ++ leBytes 4 (ofSigned 32 m.age) ++ leBytes 4 (ofSigned 32 m.tc1) ++
  leBytes 4 (ofSigned 32 m.tc2) ++ leBytes 4 (m.locked % 2 ^ 32) ++ leBytes 2 (ofSigned 16 m.least) ++
  leBytes 2 (ofSigned 16 m.greatest) ++ leBytes 1 (b2n m.valid + 2 * b2n m.tempValid) ++ leBytes 3 0

def modelOf (b : List Byte) : OscModel :=
  ⟨leAt b 0 6, toSigned 16 (leAt b 6 2), toSigned 32 (leAt b 8 4), toSigned 32 (leAt b 12 4), toSigned 32 (leAt b 16 4),
    leAt b 20 4, toSigned 16 (leAt b 24 2), toSigned 16 (leAt b 26 2), bit (leAt b 28 1) 0, bit (leAt b 28 1) 1⟩

/-- LOOP_MODEL shows a model and the locked hours. -/
def Dev.modelShow (d : Dev) (l : Nat) (m : OscModel) (locked : Nat) : Dev :=
  ((d.putB F.LOOP_MODEL.VALID m.valid l).putB F.LOOP_MODEL.TEMP_VALID m.tempValid l).put
    F.LOOP_MODEL.HOURS (min 131071 (locked / 3600)) l

/-- R160: the sums and the record are cleared when FB or TSRC changes. -/
def Dev.modelKeep (d : Dev) (l : Nat) : Dev :=
  let x := d.baseLoop l
  let now := (d.get F.LOOP_CTRL.FB l, d.get F.LOOP_CTRL.TSRC l)
  match x.from' with
  | none => d.setBaseLoop l { x with from' := some now }
  | some v => if v = now then d
    else (d.setBaseLoop l { x with from' := some now, sums := FitSums.reset, model := OscModel.reset }).modelShow l OscModel.reset 0

/-- R160: the record of a completed second: a VALID one enters the sums, and at 86,400 records and after every 3,600 more the
model is fitted. The manual does not say from which clock FIT_TIME comes: a free value. -/
def Dev.modelSecond (d : Dev) (l s : Nat) : Dev :=
  match d.histRead l s with
  | none => d
  | some r =>
    if !r.valid then d else
    let x := d.baseLoop l
    let f := x.sums.add s r
    if 86400 ≤ f.n ∧ f.n % 3600 = 0 then
      let m := f.fit (d.freeVal % 2 ^ 48)
      let d := (d.setBaseLoop l { x with sums := f, model := m }).modelShow l m f.n.natAbs
      { d.freeNext with base := { d.base with saveModels := true } }
    else (d.setBaseLoop l { x with sums := f }).modelShow l x.model f.n.natAbs

/-- R160: the models of the Ream are restored at engine start. -/
def Dev.modelsRestore (d : Dev) : Dev :=
  let (d, body) := d.twinRead 6
  (List.range (min 33 (body.length / 32))).foldl (fun (d : Dev) l =>
    let m := modelOf (sliceB body (32 * l) 32)
    (d.setBaseLoop l { d.baseLoop l with model := m }).modelShow l m m.locked) d

/-! ## External temperatures (R161) -/

/-- R161: sensor k has not answered; after 1 s it is no longer VALID. -/
def Dev.xtQuiet (d : Dev) (k : Nat) : Dev :=
  let n := min 10 (d.base.quiet.getD k 0 + 1)
  let d := ({ d with base := { d.base with quiet := d.base.quiet.set k n } } : Dev)
  if n = 10 then d.put F.LOOP_XTEMP.VALID 0 k else d

/-- R161: sensor k has answered with what its controller's data registers hold. -/
def Dev.xtAnswer (d : Dev) (k b : Nat) : Dev :=
  let v := Config.xtTemp k ((d.xiBytes b).take ((Config.xtLen k).toNat + 1))
  let d := ({ d with base := { d.base with quiet := d.base.quiet.set k 0 } } : Dev)
  (d.put F.LOOP_XTEMP.TEMP v.toNat k).put F.LOOP_XTEMP.VALID 1 k

/-- R161: the program starts the read of sensor k on controller b by its registers. A controller that is off or busy gives
no answer. -/
def Dev.xtStart (d : Dev) (k b : Nat) : Dev :=
  if [1, 5, 6, 7].contains (d.xiState b) || !d.flag F.XI2C_CFG.ENABLE b then d.xtQuiet k
  else
    let w := (Config.xtWrite k).take 8
    let d := (d.wr R.XI2C_DATA0 (leAt w 0 4) b).wr R.XI2C_DATA1 (leAt w 4 4) b
    let d := ({ d with base := { d.base with xtNow := d.base.xtNow.set b (some k) } } : Dev)
    d.xiXfer basePath b (Config.xtAddr k).toNat w.length ((Config.xtLen k).toNat + 1)

/-- R161: the program's work on controller b in a tick: a read that has ended is taken, and the next sensor's starts. -/
def Dev.xtBus (d : Dev) (b : Nat) : Dev :=
  let now := d.base.xtNow.getD b none
  if now.isSome && d.xiState b == 1 then d else
  let d := match now with
    | some k => if d.xiState b = 2 then d.xtAnswer k b else d.xtQuiet k
    | none => d
  let d := ({ d with base := { d.base with xtNow := d.base.xtNow.set b none } } : Dev)
  match d.base.xtWait.find? fun k => b2n (Config.xtBus k) == b with
  | some k => ({ d with base := { d.base with xtWait := d.base.xtWait.erase k } } : Dev).xtStart k b
  | none => d

/-- R161: every 100 ms the program reads the four external sensors, one after another on each controller (log entry 109). -/
def Dev.xtempRead (d : Dev) : Dev :=
  let d := if d.tick % 100000 = 0 then { d with base := { d.base with xtWait := [0, 1, 2, 3] } } else d
  (d.xtBus 0).xtBus 1

/-! ## What the base image writes to the Ream (R160, R169, R289, R301) -/

/-- R290, R291, R296: the base image's writes wait for an idle controller and while a sector is half-erased; a protected region
takes none. -/
def Dev.reamFree (d : Dev) (rgn : Nat) : Bool :=
  d.ream.cmd.isNone && d.ream.save.isNone && d.ream.arm.isNone && d.ream.half.isEmpty && !d.logBusy && !(d.flag F.REAM_STAT.NVWP && d.flag F.REAM_RGN_CFG.PROTECT rgn)

/-- R301: a twin region is rewritten: its older copy is erased and programmed, with SEQ one above the newer's. -/
def Dev.twinWrite (d : Dev) (rgn : Nat) (body : List Byte) : Dev :=
  let (f, n) := d.region rgn
  let (i, seq) := match d.twinCopy rgn 0, d.twinCopy rgn 1 with
    | some a, some b => if later 32 b.1 a.1 then (0, b.1) else (1, a.1)
    | some a, none => (1, a.1)
    | none, some b => (0, b.1)
    | none, none => (0, 2 ^ 32 - 1)
  let first := f + i * (n / 2)
  let d := (List.range (n / 2)).foldl (fun (d : Dev) j => d.eraseOwn (first + j)) d
  let d := d.reamPut (first * 4096 + 16) body
  d.reamPut (first * 4096) (leBytes 4 ((seq + 1) % 2 ^ 32) ++ leBytes 4 body.length ++ leBytes 4 (crc32 body) ++ leBytes 4 0)

/-- R160: the models that a fit has changed. -/
def Dev.modelsSave (d : Dev) : Dev :=
  if d.base.saveModels && d.reamFree 6 then
    let d := { d with base := { d.base with saveModels := false } }
    d.twinWrite 6 ((List.range 33).flatMap fun l => modelBytes (d.baseLoop l).model)
  else d

/-- R169: band-memory entries that have changed, twice a second. -/
def Dev.bandsSave (d : Dev) : Dev :=
  if d.tick % 500000 ≠ 0 ∨ !d.reamFree 7 then d else
  let body := (List.range 16).flatMap fun n => (List.range 64).flatMap fun e => d.bmBytes n e
  let held := match d.twinCopy 7 0, d.twinCopy 7 1 with
    | some a, some b => if later 32 b.1 a.1 then b.2 else a.2
    | some a, none => a.2
    | none, some b => b.2
    | none, none => []
  if held = body ∨ (held = [] ∧ body.all (· == 0)) then d else d.twinWrite 7 body

/-- R289: a watermark-history record at each commit, once the Ream takes it. The manual gives it no form: its ID and its content
are free values. -/
def Dev.wmRecord (d : Dev) : Dev :=
  let g := d.get F.KL_GEN.GEN
  let w := d.base.wmWait + b2n (g != d.base.gen)
  let d := { d with base := { d.base with gen := g, wmWait := w } }
  if w = 0 ∨ !d.reamFree 8 then d else
  ({ d.freeNext with base := { d.base with wmWait := w - 1 } } : Dev).journalAppend 8 Config.wmId.toNat (leBytes 8 d.freeVal)

/-! ## The base image in a tick -/

/-- R2: the programs of the base image in the tick that starts at this boundary. -/
def Dev.baseBoundary (d : Dev) : Dev :=
  if !d.baseRuns then d else
  let d := if d.base.began then d else
    let d := { d with base := { d.base with began := true, gen := d.get F.KL_GEN.GEN } }
    d.modelsRestore
  let d := (List.range 40).foldl Dev.refStep d.esmcProgram
  let d := (List.range 32).foldl (fun d l => (d.tdevRefresh l).selStep l) d
  let d := (List.range 33).foldl (fun (d : Dev) l =>
    let d := ((d.loopProgram l).glideCompute l).modelKeep l
    let d := if d.tick % 10 ^ 6 = 0 ∧ d.tick ≠ 0 then d.modelSecond l (d.tick / 10 ^ 6 - 1) else d
    d.glideWrite l) d
  d.xtempRead.modelsSave.bandsSave.wmRecord

/-- R126, R129: what the programs keep of the ended tick's stamps. -/
def Dev.baseTickEnd (d : Dev) : Dev := if d.baseRuns then (List.range 32).foldl Dev.baseErrs d else d

end Sys2Proof.Machine
end

