-- ==== Sys2Proof/Machine/Tick.lean ====
section
/-! DEFINITION. TICK_BOUNDARY: what the ended tick leaves, the boundary actions of R16 in their order, and what the blocks
do at the boundary. -/

namespace Sys2Proof.Machine

/-- One thing for each of n instances, in ascending order. -/
def Dev.each (d : Dev) (n : Nat) (f : Dev → Nat → Dev) : Dev := (List.range n).foldl f d

/-- The end of the present tick: dispatches (R53), records, monitors, detectors and measurements that close with it. -/
def Dev.tickEnd (d : Dev) : Dev :=
  let d := { d.overrunAll with cycle := 1249 }
  let d := ((d.each 136 Dev.sampleWrite).each 40 Dev.synthetic).baseTickEnd
  let d := (((d.each 40 Dev.fmonRead).each 40 Dev.basisMark).each 40 Dev.susSample).each 40 Dev.inputTickEnd
  let d := d.each 40 Dev.fmonKeep
  let d := d.each 32 fun d l => (d.loopTickEnd l).trPhase l
  let d := d.tloopTickEnd.trPhase 32
  let lo := d.time.lt / 2 ^ 16
  let hi := (d.time.lt + d.time.dlt) / 2 ^ 16
  let d := (d.each 72 fun d k => d.dphCollect k lo hi).piAccum
  let d := d.each 64 fun d s => (d.msTimeout s 1249).deckleNostop s 1249
  (d.each 4 Dev.trRearmEnd).each 8 Dev.portDrainEnd

/-- R24: one sample of the static inputs; a level that two successive samples, 1 µs apart, show is recognised. LOG ENTRY
98: the rows that name a recognised level stand for the same recognition, and a start needs what its own row brings. -/
def Dev.pinsSample (d : Dev) (s : BitVec 8) : Dev :=
  let b := d.boot
  let differ := b.pinLast ^^^ s
  let seen := (s &&& ~~~differ) ||| (b.pinSeen &&& differ)
  let fell := fun i => b.pinSeen.getLsbD i && !seen.getLsbD i
  let d := ({ d with boot := { b with pinLast := s, pinSeen := seen } } : Dev).putB F.REAM_STAT.NVWP (!seen.getLsbD 3)
  let d := if fell 2 && !b.low && !b.halted then d.pfailRecognised else d
  let d := if fell 1 then d.perst else if seen.getLsbD 1 && !b.pinSeen.getLsbD 1 then d.perstRelease else d
  if fell 0 then d.freeNext.resetAssert (d.freeVal % 64) else d

/-- R31, R97: an error arises in a word of an engine's or a cluster's memory. -/
def Dev.upset (d : Dev) (u : Upset) : Dev :=
  let w := u.word.toNat
  if u.cluster then
    let c := u.index.val % 16
    let x := d.clus c
    d.setClus c (if u.ue then { x with cue := w :: x.cue } else { x with cce := w :: x.cce })
  else
    let x := d.eng u.index
    let w := w % 512
    d.setEng u.index (if u.ue then { x with lue := w :: x.lue } else { x with lce := w :: x.lce })

/-- R24, R31, R163, R340, R341: what has come from outside the device. -/
def Dev.sample (d : Dev) (i : TickIn) : Dev :=
  ((i.cfg.foldl Dev.hostCfg) (i.upsets.foldl Dev.upset { d with sensors := i.ts.toList })).pinsSample i.pins

/-- Table Fault sources: TEMP_HIGH above 115 degrees, TEMP_CRIT above 125 degrees for 1 ms. -/
def Dev.temps (d : Dev) : Dev :=
  let above := fun (c : Int) => d.sensors.any fun x => decide (c * 128 < x.toInt)
  let hot := if above 125 then min 1000 (d.hot + 1) else 0
  let d := { d with hot := hot }
  (d.levelSet 3 0 (above 115)).levelSet 0 0 (hot == 1000)

/-- R16, actions 1 and 2: TICK_COUNT and LT advance; staged changes and tick-synchronous fields take effect, and a start
goes on. -/
def Dev.actions12 (d : Dev) : Dev :=
  let d := ({ d with tick := d.tick + 1, cycle := 0 } : Dev).ltAdvance
  (d.stageBoundary.accTake.each 32 (Dev.selKeep d)).bootTick

/-- R326: the synthesizers work from boot step 10 on, behind its calibration, and not in DIAG; after a trip of the power-loss
detector, until the last output has stopped (R370). -/
def Dev.synsOn (d : Dev) : Bool :=
  (decide (10 < d.bootStep) || (d.bootStep == 10 && (d.boot.calDone || d.alt 10))) &&
  !d.flag F.BOOT_STAT.DIAG && !(d.boot.loss && d.outsStopped) && !d.flag F.BOOT_STAT.HALTED

/-- R16, action 3: outputs that leave safe states (R186), hops, Slalom profiles, loops under the enables `en` of the ended tick, synthesizers and LT. A follower's
TLOOP takes the group's word (R278). -/
def Dev.action3 (d : Dev) (en : List (Bool × Bool)) : Dev :=
  let d := d.each 72 Dev.safeExit
  let d := if d.synsOn then d.each 16 Dev.synBoundary else d
  let d := d.each 33 fun d l =>
    if l = 32 && d.follower then d.tloopMirror else d.sequence l (en.getD l (false, false)).1 (en.getD l (false, false)).2
  ((d.klWord.each 33 Dev.wordOut).each 16 Dev.synApply).ltBoundary

/-- R16, actions 4 to 7: leaps, performance intervals, power-fail handling, the context stepper. -/
def Dev.actions47 (d : Dev) : Dev :=
  let d := (d.ctxs.foldl (fun (d : Dev) e => d.leapTake e.1) d).leapAll
  d.piBoundary.powerFail.ctxStepAll.piAfter

/-- What follows the boundary actions in the blocks: replay, loops, outputs, event ports, measurements and traces. `old` are
the loops' states in the ended tick. -/
def Dev.blocksAfter (d : Dev) (i : TickIn) (old : List Nat) : Dev :=
  let d := (d.each 32 Dev.replayBoundary).each 33 Dev.loopBoundaryEnd
  let d := (d.each 72 Dev.dphBoundary).each 72 Dev.outBoundary
  let d := d.lossBoundary
  let d := (d.each 16 fun d p => d.evtBoundary p (i.pads.getLsbD p)).evtFaults
  let busy := fun c => d.calibrating c
  let d := (d.each 64 fun d s => d.msBoundary busy s).each 16 Dev.stBoundary
  let d := d.each 4 Dev.trBoundary
  d.each 33 fun d l => if d.loopState l != old.getD l 0 then d.trHit 2 l else d

/-- What follows in the interfaces: frame ports, links and group, grants, test, banks, faults, restart. -/
def Dev.hostsAfter (d : Dev) (i : TickIn) : Dev :=
  let d := (d.each 8 Dev.portBoundary).twoStepAge
  let d := ((d.each 8 Dev.linkBoundary).each 8 Dev.calBoundary).groupBoundary.each 8 Dev.wmMismatch
  let d := d.grants.foldl (fun (d : Dev) g => d.grantExpire g.1) d
  let d := d.bistBoundary
  let d := d.each 9 fun d b => (d.bankMeasure b (i.vdd.toList.getD b 0).toNat).bankMismatch b
  let d := d.suppliesTake (i.rails.toList.map (·.toNat)) (i.vdd.toList.map (·.toNat))
  (d.each 2 Dev.xiBoundary).temps.pulseDone.armBoundary.restartBoundary

/-- R279: while the device waits to join, its TICK_COUNT does not run; LT and the links run on its free timebase. It becomes
lead, or once its upstream is UP steps its tick phase and joins at the next boundary. -/
def Dev.joinTick (d : Dev) : Dev :=
  let d := if d.joining && d.boot.wait then { d with kl := { d.kl with wait := d.kl.wait + 1 } } else d
  let d := (if d.joining then d.ltAdvance else d).each 8 Dev.linkBoundary
  if d.boot.wait then d.leadElection.joinStep else d

/-- R16: the boundary's actions in their order, and what the blocks do at it. -/
def Dev.boundary (d : Dev) (i : TickIn) : Dev :=
  let en := (List.range 33).map fun l => (d.flag F.LOOP_CTRL.ENABLE l, d.flag F.LOOP_CTRL.FORCE_GLIDE l)
  let old := (List.range 33).map fun l => d.loopState l
  let d := (d.actions12.action3 en).actions47
  let d := (d.blocksAfter i old).hostsAfter i
  -- R312: in STOPPED dispatch ends at the next boundary
  let d := if d.stopped then { d with dispatchOn := false } else d
  let d := d.timersExpire
  let d := if d.dispatchOn then d.readyTick else d
  { d.baseBoundary with cycle := 0 }

/-- TICK_BOUNDARY. With RESET_N low nothing runs, and in a halt after a save only TICK_COUNT and LT do (R222,
R305); outputs that are to stop do so in their time (R324, R370). -/
def Dev.tickBoundary (d : Dev) (i : TickIn) : Dev :=
  let d := { d with cycle := 0 }
  let d := d.outsCut
  if d.boot.low then d.pinsSample i.pins
  else if !d.tickOn then
    let d := d.sample i
    if d.boot.low then d else d.joinTick
  else if d.boot.halted then (({ d with tick := d.tick + 1 } : Dev).ltAdvance).lossBoundary.pinsSample i.pins
  else
    let d := d.tickEnd.sample i
    if d.boot.low then { d with cycle := 0 } else d.boundary i

def execTickBoundary (i : TickIn) (s : State) : StepOut := s.run fun d => d.tickBoundary i

end Sys2Proof.Machine
end

