-- ==== Sys2Proof/Machine/Dispatch.lean ====
section
/-! DEFINITION. The meaning of each command: one arm per constructor. -/

namespace Sys2Proof.Machine

def exec (i : Instr) (s : State) : Host.Outcome State Fault Refusal :=
  match i with
  | .tickBoundary inp => Sys2Proof.Machine.execTickBoundary inp s
  | .stageCommit => Sys2Proof.Machine.execStageCommit s
  | .registerWrite p off w whole ep c => Sys2Proof.Machine.execRegisterWrite p off w whole ep c s
  | .loRead p off one c => Sys2Proof.Machine.execLoRead p off one c s
  | .instructionStoreWrite p c inp w => Sys2Proof.Machine.execInstructionStoreWrite p c inp w s
  | .clusterPower p on c => Sys2Proof.Machine.execClusterPower p on c s
  | .clusterStart c => Sys2Proof.Machine.execClusterStart c s
  | .taskDispatch e c => Sys2Proof.Machine.execTaskDispatch e c s
  | .taskOverrun e => Sys2Proof.Machine.execTaskOverrun e s
  | .taskPromotion e slot c => Sys2Proof.Machine.execTaskPromotion e slot c s
  | .taskInputEvent e inp source c => Sys2Proof.Machine.execTaskInputEvent e inp source c s
  | .taskCancel p e slot => Sys2Proof.Machine.execTaskCancel p e slot s
  | .tickTimerExpiry e t => Sys2Proof.Machine.execTickTimerExpiry e t s
  | .nop e w => Sys2Proof.Machine.execNop e w s
  | .add e imm o => Sys2Proof.Machine.execAdd e imm o s
  | .sub e imm o => Sys2Proof.Machine.execSub e imm o s
  | .and e imm o => Sys2Proof.Machine.execAnd e imm o s
  | .or e imm o => Sys2Proof.Machine.execOr e imm o s
  | .xor e imm o => Sys2Proof.Machine.execXor e imm o s
  | .shl e imm o => Sys2Proof.Machine.execShl e imm o s
  | .shr e imm o => Sys2Proof.Machine.execShr e imm o s
  | .sar e imm o => Sys2Proof.Machine.execSar e imm o s
  | .min e imm o => Sys2Proof.Machine.execMin e imm o s
  | .max e imm o => Sys2Proof.Machine.execMax e imm o s
  | .sdiff e o => Sys2Proof.Machine.execSdiff e o s
  | .sat e o => Sys2Proof.Machine.execSat e o s
  | .ldh e o => Sys2Proof.Machine.execLdh e o s
  | .mul e o => Sys2Proof.Machine.execMul e o s
  | .mac e imm o => Sys2Proof.Machine.execMac e imm o s
  | .macs e imm o => Sys2Proof.Machine.execMacs e imm o s
  | .getacc e o => Sys2Proof.Machine.execGetacc e o s
  | .clracc e o => Sys2Proof.Machine.execClracc e o s
  | .ld e o => Sys2Proof.Machine.execLd e o s
  | .st e o => Sys2Proof.Machine.execSt e o s
  | .vget e o => Sys2Proof.Machine.execVget e o s
  | .vput e o => Sys2Proof.Machine.execVput e o s
  | .vpeek e o => Sys2Proof.Machine.execVpeek e o s
  | .qpop e o => Sys2Proof.Machine.execQpop e o s
  | .qpush e o => Sys2Proof.Machine.execQpush e o s
  | .tlook e o => Sys2Proof.Machine.execTlook e o s
  | .tstep e o => Sys2Proof.Machine.execTstep e o s
  | .now e o => Sys2Proof.Machine.execNow e o s
  | .wait e o => Sys2Proof.Machine.execWait e o s
  | .arm e o => Sys2Proof.Machine.execArm e o s
  | .disarm e o => Sys2Proof.Machine.execDisarm e o s
  | .ioLd e o => Sys2Proof.Machine.execIoLd e o s
  | .ioSt e o => Sys2Proof.Machine.execIoSt e o s
  | .evtest e o => Sys2Proof.Machine.execEvtest e o s
  | .evclear e o => Sys2Proof.Machine.execEvclear e o s
  | .signal e o => Sys2Proof.Machine.execSignal e o s
  | .b e o => Sys2Proof.Machine.execB e o s
  | .bz e o => Sys2Proof.Machine.execBz e o s
  | .bnz e o => Sys2Proof.Machine.execBnz e o s
  | .bp e o => Sys2Proof.Machine.execBp e o s
  | .call e o => Sys2Proof.Machine.execCall e o s
  | .ret e o => Sys2Proof.Machine.execRet e o s
  | .fault e o => Sys2Proof.Machine.execFault e o s
  | .yield e o => Sys2Proof.Machine.execYield e o s
  | .halt e o => Sys2Proof.Machine.execHalt e o s
  | .fence e o => Sys2Proof.Machine.execFence e o s
  | .tableLoad p t n => Sys2Proof.Machine.execTableLoad p t n s
  | .tableDelete p t => Sys2Proof.Machine.execTableDelete p t s
  | .vatWindowWrite off data ep c => Sys2Proof.Machine.execVatWindowWrite off data ep c s
  | .vatWindowRead off len c => Sys2Proof.Machine.execVatWindowRead off len c s
  | .vfApertureAccess f x write len ep c => Sys2Proof.Machine.execVfApertureAccess f x write len ep c s
  | .qhostPop h q n => Sys2Proof.Machine.execQhostPop h q n s
  | .qhostPush h q n => Sys2Proof.Machine.execQhostPush h q n s
  | .qhostCommit h q => Sys2Proof.Machine.execQhostCommit h q s
  | .qhostGrantExpiry h => Sys2Proof.Machine.execQhostGrantExpiry h s
  | .scrubLine bank ce ue => Sys2Proof.Machine.execScrubLine bank ce ue s
  | .tdcStamp c coarse code edge => Sys2Proof.Machine.execTdcStamp c coarse code edge s
  | .burstBufferDrain c => Sys2Proof.Machine.execBurstBufferDrain c s
  | .tdcCalibration c c1 c2 => Sys2Proof.Machine.execTdcCalibration c c1 c2 s
  | .armCalibrationDone c a1 a2 b1 b2 => Sys2Proof.Machine.execArmCalibrationDone c a1 a2 b1 b2 s
  | .activityWindowMissed n c => Sys2Proof.Machine.execActivityWindowMissed n c s
  | .frequencyGateEnd n => Sys2Proof.Machine.execFrequencyGateEnd n s
  | .suspectGateEnd n => Sys2Proof.Machine.execSuspectGateEnd n s
  | .observationComplete n => Sys2Proof.Machine.execObservationComplete n s
  | .inStateWrite e n st c => Sys2Proof.Machine.execInStateWrite e n st c s
  | .rewindStart p l excl => Sys2Proof.Machine.execRewindStart p l excl s
  | .rewindAbort p l => Sys2Proof.Machine.execRewindAbort p l s
  | .rewindSplice p l => Sys2Proof.Machine.execRewindSplice p l s
  | .replayCaughtUp l => Sys2Proof.Machine.execReplayCaughtUp l s
  | .spliceEnd l => Sys2Proof.Machine.execSpliceEnd l s
  | .lockGateEnd l => Sys2Proof.Machine.execLockGateEnd l s
  | .referenceGapExpiry l => Sys2Proof.Machine.execReferenceGapExpiry l s
  | .coastTimerExpiry l => Sys2Proof.Machine.execCoastTimerExpiry l s
  | .historyRecordWrite => Sys2Proof.Machine.execHistoryRecordWrite s
  | .synSearch p n => Sys2Proof.Machine.execSynSearch p n s
  | .synAbort p n => Sys2Proof.Machine.execSynAbort p n s
  | .hopLock n locked core band vt => Sys2Proof.Machine.execHopLock n locked core band vt s
  | .outputGateOpen k => Sys2Proof.Machine.execOutputGateOpen k s
  | .outputGateClose k => Sys2Proof.Machine.execOutputGateClose k s
  | .outputDividerChange k => Sys2Proof.Machine.execOutputDividerChange k s
  | .outputSourceSwitch k => Sys2Proof.Machine.execOutputSourceSwitch k s
  | .outputDelayChange k => Sys2Proof.Machine.execOutputDelayChange k s
  | .dphMeasureEnd k => Sys2Proof.Machine.execDphMeasureEnd k s
  | .dphTrimStep k => Sys2Proof.Machine.execDphTrimStep k s
  | .bankSupplyMismatch b => Sys2Proof.Machine.execBankSupplyMismatch b s
  | .slalomStart p n => Sys2Proof.Machine.execSlalomStart p n s
  | .slalomAbort p n => Sys2Proof.Machine.execSlalomAbort p n s
  | .slalomClear p n => Sys2Proof.Machine.execSlalomClear p n s
  | .slalomDwellEnd n => Sys2Proof.Machine.execSlalomDwellEnd n s
  | .msArm p k => Sys2Proof.Machine.execMsArm p k s
  | .msAbort p k c => Sys2Proof.Machine.execMsAbort p k c s
  | .measurementTimeout k c => Sys2Proof.Machine.execMeasurementTimeout k c s
  | .deckleNostop k c => Sys2Proof.Machine.execDeckleNostop k c s
  | .stStart p k => Sys2Proof.Machine.execStStart p k s
  | .stAbort p k c => Sys2Proof.Machine.execStAbort p k c s
  | .traceArm p r => Sys2Proof.Machine.execTraceArm p r s
  | .traceTrigger r src c => Sys2Proof.Machine.execTraceTrigger r src c s
  | .traceAbort p r c => Sys2Proof.Machine.execTraceAbort p r c s
  | .traceRecordWrite r => Sys2Proof.Machine.execTraceRecordWrite r s
  | .traceCaptureDone r => Sys2Proof.Machine.execTraceCaptureDone r s
  | .traceRearmEnd r => Sys2Proof.Machine.execTraceRearmEnd r s
  | .ltStep p e => Sys2Proof.Machine.execLtStep p e s
  | .contextConversion p t => Sys2Proof.Machine.execContextConversion p t s
  | .ctxSet p => Sys2Proof.Machine.execCtxSet p s
  | .ctxStep p => Sys2Proof.Machine.execCtxStep p s
  | .ctxSlew p => Sys2Proof.Machine.execCtxSlew p s
  | .ctxCancel p => Sys2Proof.Machine.execCtxCancel p s
  | .ctxDisable p => Sys2Proof.Machine.execCtxDisable p s
  | .slewComplete n => Sys2Proof.Machine.execSlewComplete n s
  | .leapArm p time del => Sys2Proof.Machine.execLeapArm p time del s
  | .leapDisarm p time del => Sys2Proof.Machine.execLeapDisarm p time del s
  | .leapAnnounce n => Sys2Proof.Machine.execLeapAnnounce n s
  | .leapApply n => Sys2Proof.Machine.execLeapApply n s
  | .performanceIntervalClose => Sys2Proof.Machine.execPerformanceIntervalClose s
  | .evtArm path p => Sys2Proof.Machine.execEvtArm path p s
  | .evtStop path p => Sys2Proof.Machine.execEvtStop path p s
  | .pulseEdge p => Sys2Proof.Machine.execPulseEdge p s
  | .evtParkEnd p => Sys2Proof.Machine.execEvtParkEnd p s
  | .frameReceive p f fcsOk before c left => Sys2Proof.Machine.execFrameReceive p f fcsOk before c left s
  | .frameReassemblyTimeout p => Sys2Proof.Machine.execFrameReassemblyTimeout p s
  | .frameTransmit p c => Sys2Proof.Machine.execFrameTransmit p c s
  | .twoStepEntryAge => Sys2Proof.Machine.execTwoStepEntryAge s
  | .portDrainEnd p => Sys2Proof.Machine.execPortDrainEnd p s
  | .dmaDescriptorFetch r desc f poison c => Sys2Proof.Machine.execDmaDescriptorFetch r desc f poison c s
  | .dmaReceive r desc c => Sys2Proof.Machine.execDmaReceive r desc c s
  | .dmaReadTimeout r desc => Sys2Proof.Machine.execDmaReadTimeout r desc s
  | .ringDisable p r c => Sys2Proof.Machine.execRingDisable p r c s
  | .tickFrameSend => Sys2Proof.Machine.execTickFrameSend s
  | .tickFrameReceive k fill frame rest => Sys2Proof.Machine.execTickFrameReceive k fill frame rest s
  | .linkUp k => Sys2Proof.Machine.execLinkUp k s
  | .linkDown k => Sys2Proof.Machine.execLinkDown k s
  | .linkCal p k s30 => Sys2Proof.Machine.execLinkCal p k s30 s
  | .linkCalAbort p k => Sys2Proof.Machine.execLinkCalAbort p k s
  | .linkCalSwap k => Sys2Proof.Machine.execLinkCalSwap k s
  | .linkCalEnd k => Sys2Proof.Machine.execLinkCalEnd k s
  | .leadElection => Sys2Proof.Machine.execLeadElection s
  | .join => Sys2Proof.Machine.execJoin s
  | .leadFailover => Sys2Proof.Machine.execLeadFailover s
  | .split => Sys2Proof.Machine.execSplit s
  | .rejoin => Sys2Proof.Machine.execRejoin s
  | .bulkBurstReceive k fill burst rest => Sys2Proof.Machine.execBulkBurstReceive k fill burst rest s
  | .stageOpen p => Sys2Proof.Machine.execStageOpen p s
  | .stageArm p => Sys2Proof.Machine.execStageArm p s
  | .stageDiscard p => Sys2Proof.Machine.execStageDiscard p s
  | .watermarkMismatch k => Sys2Proof.Machine.execWatermarkMismatch k s
  | .reamRead p len => Sys2Proof.Machine.execReamRead p len s
  | .reamProgram p len => Sys2Proof.Machine.execReamProgram p len s
  | .reamErase p => Sys2Proof.Machine.execReamErase p s
  | .reamAbort p n c => Sys2Proof.Machine.execReamAbort p n c s
  | .reamReadDone => Sys2Proof.Machine.execReamReadDone s
  | .reamProgramDone ok => Sys2Proof.Machine.execReamProgramDone ok s
  | .reamEraseDone ok => Sys2Proof.Machine.execReamEraseDone ok s
  | .pfailRecognised => Sys2Proof.Machine.execPfailRecognised s
  | .saveStart => Sys2Proof.Machine.execSaveStart s
  | .saveDone => Sys2Proof.Machine.execSaveDone s
  | .powerLossDetect => Sys2Proof.Machine.execPowerLossDetect s
  | .faultCollection src inst detail c => Sys2Proof.Machine.execFaultCollection src inst detail c s
  | .faultLogWrite => Sys2Proof.Machine.execFaultLogWrite s
  | .faultPinPulseEnd => Sys2Proof.Machine.execFaultPinPulseEnd s
  | .faultForce p g w c => Sys2Proof.Machine.execFaultForce p g w c s
  | .faultStatusClear p g w => Sys2Proof.Machine.execFaultStatusClear p g w s
  | .powerOn n => Sys2Proof.Machine.execPowerOn n s
  | .resetAssert n c => Sys2Proof.Machine.execResetAssert n c s
  | .resetRelease inp => Sys2Proof.Machine.execResetRelease inp s
  | .bootStepFail inp => Sys2Proof.Machine.execBootStepFail inp s
  | .bootRestart p src flash => Sys2Proof.Machine.execBootRestart p src flash s
  | .bootRelease p => Sys2Proof.Machine.execBootRelease p s
  | .pushGo p => Sys2Proof.Machine.execPushGo p s
  | .imageRestartSwitch => Sys2Proof.Machine.execImageRestartSwitch s
  | .perst c => Sys2Proof.Machine.execPerst c s
  | .flr f c => Sys2Proof.Machine.execFlr f c s
  | .d3hotEntry f c => Sys2Proof.Machine.execD3hotEntry f c s
  | .hostAccessTimeout p write => Sys2Proof.Machine.execHostAccessTimeout p write s
  | .spiWrite a ws part c => Sys2Proof.Machine.execSpiWrite a ws part c s
  | .spiRead a n c => Sys2Proof.Machine.execSpiRead a n c s
  | .spiTimeout => Sys2Proof.Machine.execSpiTimeout s
  | .i2cWrite np ptr ws part c => Sys2Proof.Machine.execI2cWrite np ptr ws part c s
  | .i2cRead n c => Sys2Proof.Machine.execI2cRead n c s
  | .i2cSclTimeout => Sys2Proof.Machine.execI2cSclTimeout s
  | .irqCauseClear p w => Sys2Proof.Machine.execIrqCauseClear p w s
  | .xi2cXfer p n addr wlen rlen => Sys2Proof.Machine.execXi2cXfer p n addr wlen rlen s
  | .xi2cReset p n high c => Sys2Proof.Machine.execXi2cReset p n high c s
  | .xi2cTransferEnd n nack data c => Sys2Proof.Machine.execXi2cTransferEnd n nack data c s
  | .xi2cStretchTimeout n high => Sys2Proof.Machine.execXi2cStretchTimeout n high s
  | .xi2cSdaStuck n high => Sys2Proof.Machine.execXi2cSdaStuck n high s
  | .xi2cRecoveryRetry n high => Sys2Proof.Machine.execXi2cRecoveryRetry n high s
  | .fspiRead p mode len => Sys2Proof.Machine.execFspiRead p mode len s
  | .fspiProgram p len => Sys2Proof.Machine.execFspiProgram p len s
  | .fspiErase p => Sys2Proof.Machine.execFspiErase p s
  | .fspiAbort p c => Sys2Proof.Machine.execFspiAbort p c s
  | .fspiCommandEnd data late c => Sys2Proof.Machine.execFspiCommandEnd data late c s
  | .bistVat p => Sys2Proof.Machine.execBistVat p s
  | .bistEngine p c => Sys2Proof.Machine.execBistEngine p c s
  | .bistAbort p c => Sys2Proof.Machine.execBistAbort p c s
  | .bistDone fail c => Sys2Proof.Machine.execBistDone fail c s
  | .selfStampPulse reads => Sys2Proof.Machine.execSelfStampPulse reads s
  | .tapInstruction inp => Sys2Proof.Machine.execTapInstruction inp s
  | .faultConditionEnd src inst => Sys2Proof.Machine.execFaultConditionEnd src inst s
  | .blockLockGained x => Sys2Proof.Machine.execBlockLockGained x s
  | .blockLockLost x => Sys2Proof.Machine.execBlockLockLost x s
  | .pcsLockGained p => Sys2Proof.Machine.execPcsLockGained p s
  | .pcsLockLost p => Sys2Proof.Machine.execPcsLockLost p s
  | .pcieLinkUp width speed => Sys2Proof.Machine.execPcieLinkUp width speed s
  | .pcieLinkLoss => Sys2Proof.Machine.execPcieLinkLoss s
  | .perstRelease => Sys2Proof.Machine.execPerstRelease s
  | .clusterPowerUpDone c => Sys2Proof.Machine.execClusterPowerUpDone c s

end Sys2Proof.Machine
end

