-- ==== Sys2Proof/WellFormed.lean ====
section
/-! DEFINITION. What makes a command well formed: lengths and bounds that the operands' types do not give. `exec` gives
every term a meaning; a well-formed one is what the spec's interfaces can send. -/

namespace Sys2Proof

/-- A register access of this path is a command: it comes from an engine or a host interface, not from the loader. -/
def Path.commands : Path → Bool
  | .engine _ => true
  | .pcie _ => true
  | .spi => true
  | .i2c => true
  | .params => false
  | .regs => false

/-- n bytes from offset a: at least one, at most `most`, and inside a window of `size` bytes. -/
def spanOk (a n most size : Nat) : Bool := decide (1 ≤ n ∧ n ≤ most ∧ a + n ≤ size)

/-- R332: the flash gives both copies of the boot pointer, and images of at most 16 MiB. -/
def BootIn.wellFormed (i : BootIn) : Bool :=
  decide (i.ptr0.length = 20 ∧ i.ptr1.length = 20 ∧ i.primary.length ≤ 2 ^ 24 ∧ i.secondary.length ≤ 2 ^ 24)

/-- A command is well formed. -/
def Instr.wellFormed : Instr → Bool
  | .tickBoundary _ => true
  | .stageCommit => true
  | .registerWrite p _ _ _ _ _ => p.isHost
  | .loRead p _ _ _ => p.isHost
  | .instructionStoreWrite p _ _ _ => p.commands
  | .clusterPower p _ _ => p.commands
  | .clusterStart _ => true
  | .taskDispatch _ _ => true
  | .taskOverrun _ => true
  | .taskPromotion _ _ _ => true
  | .taskInputEvent _ _ _ _ => true
  | .taskCancel p _ _ => p.commands
  | .tickTimerExpiry _ _ => true
  | .nop _ _ => true
  | .add _ _ _ => true
  | .sub _ _ _ => true
  | .and _ _ _ => true
  | .or _ _ _ => true
  | .xor _ _ _ => true
  | .shl _ _ _ => true
  | .shr _ _ _ => true
  | .sar _ _ _ => true
  | .min _ _ _ => true
  | .max _ _ _ => true
  | .sdiff _ _ => true
  | .sat _ _ => true
  | .ldh _ _ => true
  | .mul _ _ => true
  | .mac _ _ _ => true
  | .macs _ _ _ => true
  | .getacc _ _ => true
  | .clracc _ _ => true
  | .ld _ _ => true
  | .st _ _ => true
  | .vget _ _ => true
  | .vput _ _ => true
  | .vpeek _ _ => true
  | .qpop _ _ => true
  | .qpush _ _ => true
  | .tlook _ _ => true
  | .tstep _ _ => true
  | .now _ _ => true
  | .wait _ _ => true
  | .arm _ _ => true
  | .disarm _ _ => true
  | .ioLd _ _ => true
  | .ioSt _ _ => true
  | .evtest _ _ => true
  | .evclear _ _ => true
  | .signal _ _ => true
  | .b _ _ => true
  | .bz _ _ => true
  | .bnz _ _ => true
  | .bp _ _ => true
  | .call _ _ => true
  | .ret _ _ => true
  | .fault _ _ => true
  | .yield _ _ => true
  | .halt _ _ => true
  | .fence _ _ => true
  | .tableLoad p _ _ => p.commands
  | .tableDelete p _ => p.commands
  | .vatWindowWrite off data _ _ => spanOk off.toNat data.length 512 (2 ^ 26)
  | .vatWindowRead off len _ => spanOk off.toNat len.toNat 4096 (2 ^ 26)
  | .vfApertureAccess f x write len _ _ => decide (f.val ≠ 0) && (match write with
    | some data => spanOk x.toNat data.length 512 (2 ^ 20)
    | none => spanOk x.toNat len.toNat 4096 (2 ^ 20))
  | .qhostPop _ _ _ => true
  | .qhostPush _ _ _ => true
  | .qhostCommit _ _ => true
  | .qhostGrantExpiry _ => true
  | .scrubLine _ ce ue => decide ce.Nodup && decide ue.Nodup
  | .tdcStamp _ _ _ _ => true
  | .burstBufferDrain _ => true
  | .tdcCalibration _ _ _ => true
  | .armCalibrationDone _ _ _ _ _ => true
  | .activityWindowMissed _ _ => true
  | .frequencyGateEnd _ => true
  | .suspectGateEnd _ => true
  | .observationComplete _ => true
  | .inStateWrite _ _ _ _ => true
  | .rewindStart p _ _ => p.commands
  | .rewindAbort p _ => p.commands
  | .rewindSplice p _ => p.commands
  | .replayCaughtUp _ => true
  | .spliceEnd _ => true
  | .lockGateEnd _ => true
  | .referenceGapExpiry _ => true
  | .coastTimerExpiry _ => true
  | .historyRecordWrite => true
  | .synSearch p _ => p.commands
  | .synAbort p _ => p.commands
  | .hopLock _ _ _ _ _ => true
  | .outputGateOpen _ => true
  | .outputGateClose _ => true
  | .outputDividerChange _ => true
  | .outputSourceSwitch _ => true
  | .outputDelayChange _ => true
  | .dphMeasureEnd _ => true
  | .dphTrimStep _ => true
  | .bankSupplyMismatch _ => true
  | .slalomStart p _ => p.commands
  | .slalomAbort p _ => p.commands
  | .slalomClear p _ => p.commands
  | .slalomDwellEnd _ => true
  | .msArm p _ => p.commands
  | .msAbort p _ _ => p.commands
  | .measurementTimeout _ _ => true
  | .deckleNostop _ _ => true
  | .stStart p _ => p.commands
  | .stAbort p _ _ => p.commands
  | .traceArm p _ => p.commands
  | .traceTrigger _ _ _ => true
  | .traceAbort p _ _ => p.commands
  | .traceRecordWrite _ => true
  | .traceCaptureDone _ => true
  | .traceRearmEnd _ => true
  | .ltStep p _ => p.commands
  | .contextConversion p _ => p.commands
  | .ctxSet p => p.commands
  | .ctxStep p => p.commands
  | .ctxSlew p => p.commands
  | .ctxCancel p => p.commands
  | .ctxDisable p => p.commands
  | .slewComplete _ => true
  | .leapArm p _ _ => p.commands
  | .leapDisarm p _ _ => p.commands
  | .leapAnnounce _ => true
  | .leapApply _ => true
  | .performanceIntervalClose => true
  | .evtArm path _ => path.commands
  | .evtStop path _ => path.commands
  | .pulseEdge _ => true
  | .evtParkEnd _ => true
  | .frameReceive _ f _ _ _ _ => !f.isEmpty
  | .frameReassemblyTimeout _ => true
  | .frameTransmit _ _ => true
  | .twoStepEntryAge => true
  | .portDrainEnd _ => true
  | .dmaDescriptorFetch _ desc _ _ _ => decide (desc.length = 32)
  | .dmaReceive _ desc _ => decide (desc.length = 32)
  | .dmaReadTimeout _ desc => decide (desc.length = 32)
  | .ringDisable p _ _ => p.commands
  | .tickFrameSend => true
  | .tickFrameReceive _ x y z => decide (57 ≤ (x ++ y ++ z).length)
  | .linkUp _ => true
  | .linkDown _ => true
  | .linkCal p _ _ => p.commands
  | .linkCalAbort p _ => p.commands
  | .linkCalSwap _ => true
  | .linkCalEnd _ => true
  | .leadElection => true
  | .join => true
  | .leadFailover => true
  | .split => true
  | .rejoin => true
  | .bulkBurstReceive _ x y z => decide (3 ≤ (x ++ y ++ z).length)
  | .stageOpen p => p.commands
  | .stageArm p => p.commands
  | .stageDiscard p => p.commands
  | .watermarkMismatch _ => true
  | .reamRead p _ => p.commands
  | .reamProgram p _ => p.commands
  | .reamErase p => p.commands
  | .reamAbort p _ _ => p.commands
  | .reamReadDone => true
  | .reamProgramDone _ => true
  | .reamEraseDone _ => true
  | .pfailRecognised => true
  | .saveStart => true
  | .saveDone => true
  | .powerLossDetect => true
  | .faultCollection _ _ _ _ => true
  | .faultLogWrite => true
  | .faultPinPulseEnd => true
  | .faultForce p _ _ _ => p.commands
  | .faultStatusClear p _ _ => p.commands
  | .powerOn _ => true
  | .resetAssert _ _ => true
  | .resetRelease i => i.wellFormed
  | .bootStepFail i => i.wellFormed
  | .bootRestart p _ flash => p.commands && decide (flash.length ≤ 2 ^ 24)
  | .bootRelease p => p.commands
  | .pushGo p => p.commands
  | .imageRestartSwitch => true
  | .perst _ => true
  | .flr _ _ => true
  | .d3hotEntry _ _ => true
  | .hostAccessTimeout p _ => p.commands
  | .spiWrite _ _ _ _ => true
  | .spiRead _ _ _ => true
  | .spiTimeout => true
  | .i2cWrite np _ ws part _ => decide (np.np.val = 4) || (ws.isEmpty && decide (part.val = 0))
  | .i2cRead _ _ => true
  | .i2cSclTimeout => true
  | .irqCauseClear p _ => p.commands
  | .xi2cXfer p _ _ wlen rlen => p.commands && decide (wlen.toNat ≤ 8 ∧ rlen.toNat ≤ 8)
  | .xi2cReset p _ _ _ => p.commands
  | .xi2cTransferEnd _ _ _ _ => true
  | .xi2cStretchTimeout _ _ => true
  | .xi2cSdaStuck _ _ => true
  | .xi2cRecoveryRetry _ _ => true
  | .fspiRead p _ _ => p.commands
  | .fspiProgram p _ => p.commands
  | .fspiErase p => p.commands
  | .fspiAbort p _ => p.commands
  | .fspiCommandEnd data _ _ => decide (data.length ≤ 2 ^ 24)
  | .bistVat p => p.commands
  | .bistEngine p _ => p.commands
  | .bistAbort p _ => p.commands
  | .bistDone _ _ => true
  | .selfStampPulse reads => decide (reads.map (·.ch)).Nodup
  | .tapInstruction _ => true
  | .faultConditionEnd _ _ => true
  | .blockLockGained x => !x.blocks.isEmpty
  | .blockLockLost x => !x.blocks.isEmpty
  | .pcsLockGained _ => true
  | .pcsLockLost _ => true
  | .pcieLinkUp _ _ => true
  | .pcieLinkLoss => true
  | .perstRelease => true
  | .clusterPowerUpDone _ => true

end Sys2Proof
end

