-- ==== Sys2Proof/Safety.lean ====
section
/-! DEFINITION. The terms that statements use: what a command left, what stayed as it was, and a queue that interfaces can
have sent. -/

namespace Sys2Proof.Machine

/-- The command answers a next state, and the device in it is `d`; the queue is left as it was. -/
def Gives (c : Instr) (s : State) (d : Dev) : Prop := exec c s = .next { s with dev := d }

/-- Every waiting command is well formed. -/
def State.queueOk (s : State) : Prop := ∀ c ∈ s.pending, c.wellFormed = true

/-- The device as a command meets it: what the last command sent out is gone. -/
def Dev.quiet (d : Dev) : Dev := { d with outs := [] }

/-- R343, R328: a path's write of the register at an offset reaches it. -/
abbrev State.reaches (s : State) (p : Path) (off : Nat) : Prop := s.dev.quiet.access p off true = .ok

/-- The device at a system cycle of its tick. -/
def Dev.atCycle (d : Dev) (c : Nat) : Dev := { d with cycle := c }

/-- R339: the records of a write of a path that is refused: the counter, the offset, the reason and the path; WRITE_REFUSED is raised
with the offset, and the WERR cause is set. -/
def refusedAs (d : Dev) (p : Path) (off : Nat) (r : Reason) : Dev :=
  let d := (((d.incSat F.HOST_WERR_CNT.COUNT).put F.HOST_WERR_ADDR.OFFSET off).put F.HOST_WERR_SRC.REASON r.code).put
    F.HOST_WERR_SRC.PATH p.code
  (d.fault 7 0 off).irqSet F.HOST_IRQ_CAUSE.WERR

/-! ## Engine instructions -/

/-- R36, R56: the engine runs a dispatch, and `cost` more cycles fit in its budget before its last cycle. -/
abbrev Dev.fits (d : Dev) (e cost : Nat) : Prop :=
  d.running e = true ∧ (d.eng e).cyc + cost < (d.eng e).start + d.get F.ENG_TASK_BUDGET.BUDGET (d.runTask e)

/-- The device after `cost` cycles of an engine: the vputs that are complete by then have reached the Vat. -/
def Dev.spend (d : Dev) (e cost : Nat) : Dev :=
  ((({ d with cycle := (d.eng e).cyc } : Dev).setEng e { d.eng e with cyc := (d.eng e).cyc + cost })).vputRetire e
    ((d.eng e).cyc + cost)

/-- R51: what a predicate control makes of predicate i. -/
def predAfter (pc : Nat) (x : Engine) (val : DWord) (S : Bool) (i : Fin 4) : Bool :=
  if pc / 4 = 0 ∨ pc % 4 ≠ i.val then x.p[i]
  else if pc / 4 = 1 then decide (val = 0)
  else if pc / 4 = 2 then decide (val.toInt < 0)
  else S

/-- From `x` to `y` the engine wrote register `dst` and predicates by `pc`, and went on to the next instruction;
g0 still reads 0, and nothing else of it changed. -/
def Engine.wrote (x y : Engine) (dst : Fin 16) (pc : Nat) (val : DWord) (S : Bool) : Prop :=
  y = { x with g := y.g, p := y.p, pc := x.pc + 1 } ∧ y.rg 0 = 0 ∧ (dst ≠ 0 → y.rg dst = val) ∧
  (∀ r, r ≠ dst → y.rg r = x.rg r) ∧ ∀ i, y.p[i] = predAfter pc x val S i

/-- In every state in which the dispatch's budget holds `cost` more cycles, the instruction writes `val` to `dst` and its
condition to the predicate that `pc` selects; nothing but this engine changes after the `cost` cycles. -/
def Computes (c : Instr) (e cost : Nat) (dst : Fin 16) (pc : Nat) (val : Engine → DWord) (S : Engine → Bool) : Prop :=
  ∀ s : State, s.dev.quiet.fits e cost →
    let d := s.dev.quiet.spend e cost
    ∃ y, Gives c s (d.setEng e y) ∧ (d.eng e).wrote y dst pc (val (d.eng e)) (S (d.eng e))

/-- The exact value does not fit in 64 signed bits. -/
def outside64 (x : Int) : Bool := decide (x < -(2 ^ 63) ∨ 2 ^ 63 ≤ x)

/-- The engine's other fields stay, the instruction index moves on. -/
def Engine.next (x : Engine) : Engine := { x with pc := x.pc + 1 }

/-- In every state in which the budget holds `cost` more cycles, the device after the instruction is `after` of the device
after those cycles. -/
def Does (c : Instr) (e cost : Nat) (after : Dev → Dev) : Prop :=
  ∀ s : State, s.dev.quiet.fits e cost → Gives c s (after (s.dev.quiet.spend e cost))

/-- R54: what ends a dispatch with a fault source leaves: complete vputs stay, and the source has the instruction's index,
the cluster and the slot. -/
def Dev.endedBy (d : Dev) (e source : Nat) : Dev :=
  ((d.vputRetire e (d.eng e).cyc).endTask e).fault source 0
    ((d.eng e).pc % 2 ^ 14 * 2 ^ 16 + e / 32 * 2 ^ 8 + (d.eng e).run.getD 0)

/-- In every state in which the budget holds `cost` more cycles, the instruction ends the dispatch with a fault source. -/
def Ends (c : Instr) (e cost source : Nat) : Prop := Does c e cost fun d => d.endedBy e source

/-- R54, log entry 6: an instruction whose cycles, 1 to `bound`, the spec does not fix: where the budget holds them, the device after
it is `after` of the device after those cycles. -/
def EndsWithin (c : Instr) (s : State) (e bound : Nat) (after : Dev → Dev) : Prop :=
  ∃ cost, 1 ≤ cost ∧ cost ≤ bound ∧ (s.dev.quiet.freeNext.fits e cost → Gives c s (after (s.dev.quiet.freeNext.spend e cost)))

/-- The next device is `d` with a predicate of the engine written by `pc` for an instruction that has no result: S under
condition S, a free value under Z or N (log entry 7). -/
def GivesPred (c : Instr) (s : State) (d : Dev) (e pc : Nat) (S : Bool) : Prop :=
  let x := d.eng e
  ∃ p : Vector Bool 4,
    let d' := d.setEng e { x with p := p }
    (∀ i : Fin 4, pc % 4 ≠ i.val → p[i] = x.p[i]) ∧
    (if pc / 4 = 1 ∨ pc / 4 = 2 then Gives c s d'.freeNext else Gives c s d' ∧ ∀ i, p[i] = predAfter pc x 0 S i)

/-- In every state in which the budget holds 4 more cycles, the instruction writes the accumulator and, by `pc`, a predicate. -/
def Accumulates (c : Instr) (e pc : Nat) (acc : Engine → BitVec 128) (S : Engine → Bool) : Prop :=
  ∀ s : State, s.dev.quiet.fits e 4 →
    let d := s.dev.quiet.spend e 4
    GivesPred c s (d.setEng e { (d.eng e).next with acc := acc (d.eng e) }) e pc (S (d.eng e))

/-- R31: the byte of local or cluster memory at an engine's address. -/
def Dev.memByte (d : Dev) (e a : Nat) : Byte :=
  if a < 0x1000 then Memory.read 0 (d.eng e).lmem a else Memory.read 0 (d.clus (e / 32)).cmem (a - 0x10000)

/-- The number that n bytes from an address of local or cluster memory make, least significant first. -/
def Dev.memNum (d : Dev) (e a n : Nat) : Nat := ofLe ((List.range n).map fun k => d.memByte e (a + k))

/-- R56, R64: cycles that a vput waits for room among the 8 outstanding ones. -/
def Engine.vputWait (x : Engine) : Nat :=
  if x.vputs.length < 8 then 0 else (x.vputs.head?.map (·.doneAt)).getD 0 - x.cyc

/-- R4, log entries 14 and 104: every memory of the device is in its one canonical form: addresses rise, and no entry holds what an
unlisted address reads as. -/
def Dev.memoriesOk (d : Dev) : Prop :=
  d.vat.mem.wf 0 ∧ d.ream.mem.wf 0xFF ∧ (∀ c ∈ d.cluss, c.2.istore.wf 0 ∧ c.2.cmem.wf 0) ∧ ∀ e ∈ d.engs, e.2.lmem.wf 0

end Sys2Proof.Machine
end

