-- ==== Sys2Proof/Certificates/Slice0/Obligations.lean ====
section
/-! DEFINITION. The statements for the provers. The pieces of a result that several statements need are in Safety.lean. -/

open Sys2Proof Sys2Proof.Machine


/-- R52, R57, R58: add, sub, min and max, in the R and the I form. A sum or difference wraps modulo 2^64, and S says that
the exact value does not fit in 64 signed bits. Writes to g0 are discarded, their predicate is not. -/
def Obligations.AddSubMinMaxResults : Prop :=
  ∀ (e : Eng) (imm : Bool) (o : EOp), aluOk imm o = true →
    let pc := aluPc imm o
    let a := fun x : Engine => x.rg o.a
    let b := fun x : Engine => if imm then o.lo.signExtend 64 else x.rg o.b
    Computes (.add e imm o) e 1 o.d pc (fun x => a x + b x) (fun x => outside64 ((a x).toInt + (b x).toInt)) ∧
    Computes (.sub e imm o) e 1 o.d pc (fun x => a x - b x) (fun x => outside64 ((a x).toInt - (b x).toInt)) ∧
    Computes (.min e imm o) e 1 o.d pc (fun x => if (b x).toInt < (a x).toInt then b x else a x)
      (fun x => decide ((b x).toInt < (a x).toInt)) ∧
    Computes (.max e imm o) e 1 o.d pc (fun x => if (a x).toInt < (b x).toInt then b x else a x)
      (fun x => decide ((a x).toInt < (b x).toInt))

/-- R52, R57, R58: and, or, xor (imm zero-extended, S 0) and the shifts by b[5:0] or imm[5:0] (S: a 1 bit was shifted out). -/
def Obligations.LogicAndShiftResults : Prop :=
  ∀ (e : Eng) (imm : Bool) (o : EOp), aluOk imm o = true →
    let pc := aluPc imm o
    let a := fun x : Engine => x.rg o.a
    let b := fun x : Engine => if imm then o.lo.setWidth 64 else x.rg o.b
    let n := fun x : Engine => if imm then o.lo.toNat else (x.rg o.b).toNat % 64
    (Computes (.and e imm o) e 1 o.d pc (fun x => a x &&& b x) (fun _ => false) ∧
     Computes (.or e imm o) e 1 o.d pc (fun x => a x ||| b x) (fun _ => false) ∧
     Computes (.xor e imm o) e 1 o.d pc (fun x => a x ^^^ b x) (fun _ => false)) ∧
    ((imm = true → o.lo.toNat < 64) →
      Computes (.shl e imm o) e 1 o.d pc (fun x => BitVec.ofNat 64 ((a x).toNat * 2 ^ n x))
        (fun x => decide (2 ^ 64 ≤ (a x).toNat * 2 ^ n x)) ∧
      Computes (.shr e imm o) e 1 o.d pc (fun x => BitVec.ofNat 64 ((a x).toNat / 2 ^ n x))
        (fun x => decide ((a x).toNat % 2 ^ n x ≠ 0)) ∧
      Computes (.sar e imm o) e 1 o.d pc (fun x => BitVec.ofInt 64 ((a x).toInt / 2 ^ n x))
        (fun x => decide ((a x).toNat % 2 ^ n x ≠ 0)))

/-- R57, R59, R60, R62: sdiff at both widths, sat at every width 2 to 64, every slice of ldh, both halves of mul, getacc.
Any other width or slice is ENG_ILLEGAL. -/
def Obligations.SdiffSatLdhMulGetaccResults : Prop :=
  ∀ (e : Eng) (o : EOp),
    let a := fun x : Engine => x.rg o.a
    let b := fun x : Engine => x.rg o.b
    let w := o.lo.toNat % 128
    let low : Int := if o.lo.toNat / 128 = 1 then 0 else -(2 ^ (w - 1))
    let high : Int := if o.lo.toNat / 128 = 1 then 2 ^ w - 1 else 2 ^ (w - 1) - 1
    let slice := fun v : DWord => if o.b.val = 4 then v <<< 56 else v <<< (14 * o.b.val)
    (func o = 0 ∨ func o = 512 → pcOk (pcR o) = true →
      Computes (.sdiff e o) e 1 o.d (pcR o)
        (fun x => if func o = 512 then a x - b x else ((a x).setWidth 32 - (b x).setWidth 32).signExtend 64)
        (fun x => decide (0 < wrapDiff (if func o = 512 then 64 else 32) (a x).toNat (b x).toNat)) ∧
      Computes (.mul e o) e 4 o.d (pcR o)
        (fun x => BitVec.ofInt 64 (if func o = 512 then (a x).toInt * (b x).toInt / 2 ^ 64 else (a x).toInt * (b x).toInt))
        (fun x => outside64 ((a x).toInt * (b x).toInt))) ∧
    (pcOk o.b.val = true → 2 ≤ w → w ≤ 64 → o.lo.toNat < 256 →
      Computes (.sat e o) e 1 o.d o.b.val (fun x => BitVec.ofInt 64 (max low (min high (a x).toInt)))
        (fun x => decide ((a x).toInt < low ∨ high < (a x).toInt))) ∧
    ((w < 2 ∨ 64 < w) → Ends (.sat e o) e 1 33) ∧ (4 < o.b.val → Ends (.ldh e o) e 1 33) ∧
    (o.a = 0 → o.b.val < 4 ∨ (o.b.val = 4 ∧ o.lo.toNat < 256) →
      Computes (.ldh e o) e 1 o.d 0
        (fun x => (x.rg o.d &&& ~~~(slice (if o.b.val = 4 then 0xFF else 0x3FFF))) ||| slice (o.lo.setWidth 64)) (fun _ => false)) ∧
    (pcOk o.b.val = true → o.a = 0 → o.lo.toNat < 128 →
      Computes (.getacc e o) e 1 o.d o.b.val
        (fun x => BitVec.ofInt 64 (max (-(2 ^ 63)) (min (2 ^ 63 - 1) (x.acc.toInt / 2 ^ o.lo.toNat))))
        (fun x => outside64 (x.acc.toInt / 2 ^ o.lo.toNat)))

/-- R50, R57, R61, R80: nop and clracc, a reserved opcode that raises ENG_ILLEGAL; mac modulo 2^128; macs saturating at ±(2^127 - 1); fault raises ENG_SOFT, and the dispatch
goes on. Log entry 7: mac has no result, so a Z or N condition writes a free value; log entry 8: the detail word of
ENG_SOFT is the model's. -/
def Obligations.AccumulatorAndNopResults : Prop :=
  ∀ (e : Eng) (imm : Bool) (o : EOp),
    Does (.nop e ⟨0, ⟨0, 0, 0, 0⟩⟩) e 1 (fun d => d.setEng e (d.eng e).next) ∧
    (∀ k : Fin 7, k ≠ 0 → Ends (.nop e ⟨k, o⟩) e 1 33) ∧
    Does (.clracc e ⟨0, 0, 0, 0⟩) e 1 (fun d => d.setEng e { (d.eng e).next with acc := 0 }) ∧
    (o.d = 0 → o.a = 0 → o.b = 0 → o.lo.toNat < 256 →
      Does (.fault e o) e 2 (fun d =>
        let d' := d.fault 39 e (d.engDetail e / 256 * 256 + (d.eng e).run.getD 0 * 2 ^ 12 + o.lo.toNat)
        d'.setEng e (d'.eng e).next)) ∧
    (aluOk imm o = true → o.d = 0 →
      let pc := aluPc imm o
      let sum := fun x : Engine => x.acc.toInt + (x.rg o.a).toInt * (if imm then o.lo.signExtend 64 else x.rg o.b).toInt
      let clamp := fun v : Int => max (-(2 ^ 127 - 1)) (min (2 ^ 127 - 1) v)
      Accumulates (.mac e imm o) e pc (fun x => BitVec.ofInt 128 (sum x)) (fun _ => false) ∧
      Accumulates (.macs e imm o) e pc (fun x => BitVec.ofInt 128 (clamp (sum x))) (fun x => decide (clamp (sum x) ≠ sum x)))


/-- R31, R57, R63, R98: ld and st in local and cluster memory at every width: ld takes 2 or 10 cycles and writes the number at
the address, sign-extended with ctl[2]; st takes 1 or 8 cycles and writes the low bytes of d and no other byte. A full word
clears the word's error state; a narrower store corrects a correctable error and counts it, and over an uncorrectable word it
keeps the poison (log entry 90: it raises ENG_MEM_UE and counts as in the Vat). -/
def Obligations.LocalAndClusterMemoryAccess : Prop :=
  ∀ (e : Eng) (o : EOp) (s : State),
    let a := effAddr (s.dev.eng e) o
    let n := o.b.val % 4
    let cluster := decide (0x10000 ≤ a ∧ a < 0x50000)
    a % 2 ^ n = 0 → a < 0x1000 ∨ cluster = true →
    (o.b.val < 8 → s.dev.quiet.fits e (if cluster then 10 else 2) →
      let d := s.dev.quiet.spend e (if cluster then 10 else 2)
      (d.memRead e a (2 ^ n)).2 = false →
        let d' := if d.memCe e a then d.ceCount else d
        ∃ y, Gives (.ld e o) s (d'.setEng e y) ∧ (d'.eng e).wrote y o.d 0
          (if 4 ≤ o.b.val then BitVec.ofInt 64 (toSigned (8 * 2 ^ n) (d.memNum e a (2 ^ n)))
           else BitVec.ofNat 64 (d.memNum e a (2 ^ n))) false) ∧
    (o.b.val < 4 → s.dev.quiet.fits e (if cluster then 8 else 1) →
      let d := s.dev.quiet.spend e (if cluster then 8 else 1)
      let x := d.eng e
      let c := d.clus (e / 32)
      let word := if cluster then (a - 0x10000) / 8 else a / 8
      let ue := if cluster then c.cue else x.lue
      let ce := if cluster then c.cce else x.lce
      ∃ m ue' ce',
        let d1 := if cluster then d.setClus (e / 32) { c with cmem := m, cue := ue', cce := ce' }
          else d.setEng e { x with lmem := m, lue := ue', lce := ce' }
        let d2 := if n = 3 then d1 else if word ∈ ue then (d1.fault 41 0 (d.engDetail e)).poisonKept
          else if word ∈ ce then d1.ceCount else d1
        Gives (.st e o) s (d2.setEng e (d2.eng e).next) ∧
        (∀ k, k < 2 ^ n → d1.memByte e (a + k) = BitVec.ofNat 8 ((x.rg o.d).toNat / 2 ^ (8 * k))) ∧
        (∀ b, b < 0x1000 ∨ (0x10000 ≤ b ∧ b < 0x50000) → b < a ∨ a + 2 ^ n ≤ b → d1.memByte e b = d.memByte e b) ∧
        (∀ w, w ∈ ce' ↔ w ≠ word ∧ w ∈ ce) ∧ (n < 3 → ue' = ue) ∧ (n = 3 → ∀ w, w ∈ ue' ↔ w ≠ word ∧ w ∈ ue))

/-- R55, R64, R65: vget and vpeek answer within V cycles with the double word that the engine sees, its own outstanding vputs
merged in; vpeek reads an uncorrectable word as 0 and sets S. Reading counts the errors that it meets, and shows the entries
of contexts (R225).
R56, R64: vput takes 1 cycle, or waits for room among 8 outstanding writes. The write is outstanding after every earlier
one, completes at most V cycles after its issue or with the write before it, and reaches the Vat then. -/
def Obligations.VatAccessByEngines : Prop :=
  (∀ (e : Eng) (o : EOp) (s0 : State),
     let a := effAddr (s0.dev.eng e) o
     let V := latV (s0.dev.runClass e)
     a % 8 = 0 → a + 8 ≤ 2 ^ 26 →
     (∃ cost, 1 ≤ cost ∧ cost ≤ V ∧
       (s0.dev.quiet.freeNext.fits e cost →
         let d := (s0.dev.quiet.freeNext.spend e cost).ctxShow a 8
         let x := d.eng e
         let covered := x.vputs.any fun p => p.addr == a && p.width == 8
         let d' := if covered then d else d.vatTouch a 8 0
         let word := if covered then x.overlay a 0 else x.overlay a (d.vraw a 8)
         let bad := !covered && d.vbad a 8
         (o.b = 0 → bad = false → ∃ y, Gives (.vget e o) s0 (d'.setEng e y) ∧
           (d'.eng e).wrote y o.d 0 (BitVec.ofNat 64 word) false) ∧
         (pcOk o.b.val = true → ∃ y, Gives (.vpeek e o) s0 (d'.setEng e y) ∧
           (d'.eng e).wrote y o.d o.b.val (BitVec.ofNat 64 (if bad then 0 else word)) bad)))) ∧
  (∀ (e : Eng) (o : EOp) (s : State),
     let x0 := s.dev.eng e
     let a := effAddr x0 o
     let w := 2 ^ o.b.val
     o.b.val < 4 → a % w = 0 → a + w ≤ 2 ^ 26 → s.dev.quiet.fits e (1 + x0.vputWait) →
       let d := s.dev.quiet.spend e (1 + x0.vputWait)
       let x := d.eng e
       let last := (x.vputs.getLast?.map (·.doneAt)).getD 0
       ∃ t, last ≤ t ∧ (t = last ∨ (x.cyc ≤ t ∧ t < x.cyc + latV (s.dev.runClass e))) ∧
         Gives (.vput e o) s
           ((d.setEng e { x.next with vputs := x.vputs ++ [⟨a, w, (x.rg o.d).toNat % 2 ^ (8 * w), t⟩] }).freeNext))

/-- R55, R66, R89: qpop and qpush on an enabled queue of which the engine is the consumer or the producer: the address of the next
entry or slot with S, and one more uncommitted operation; 0 and S clear on an empty or a full queue. Log entry 94: DROPS counts a
push that finds the queue full with OVERWRITE clear. -/
def Obligations.QueueInstructionResults : Prop :=
  ∀ (e : Eng) (o : EOp) (s : State) (push : Bool),
    let q := effAddr (s.dev.eng e) o
    let c : Instr := if push then .qpush e o else .qpop e o
    q < 4096 → pcOk o.b.val = true →
    ∃ cost, 1 ≤ cost ∧ cost ≤ latQ (s.dev.runClass e) ∧
      (s.dev.quiet.freeNext.fits e cost →
        let d := s.dev.quiet.freeNext.spend e cost
        let x := d.eng e
        let y := d.qdesc q
        let n := x.qCount q push
        (if push then y.prod else y.cons) = e.val →
        let open' := d.qEnabled q = true ∧
          (if push then y.fill + n < y.size else n < y.fill)
        let d' := if d.qEnabled q && push && !bit y.flags 1 then d.qSetDrops q (y.drops + 1) else d
        (open' → ∃ z, Gives c s (d.setEng e z) ∧ z.qCount q push = n + 1 ∧
          (∀ r b, (r, b) ≠ (q, push) → z.qCount r b = x.qCount r b) ∧
          x.wrote { z with qops := x.qops } o.d o.b.val
            (BitVec.ofNat 64 (y.entryAddr ((if push then y.tail else y.head) + n))) true) ∧
        (¬ open' → ∃ z, Gives c s (d'.setEng e z) ∧ (d'.eng e).wrote z o.d o.b.val 0 false))

/-- R56, R69, R71, R72: tlook takes 12 cycles and reads the live copy of a curve in the engine's cluster, tstep takes 6 and reads
a state table; they complete, and write the curve's value or the fired row's result, and S. -/
def Obligations.TableInstructionResults : Prop :=
  ∀ (e : Eng) (o : EOp) (s : State) (t : List Byte), pcOk (pcR o) = true →
    Tbl.find? (s.dev.clus (e / 32)).live (func o) = some t →
    (o.b = 0 → tableKind t = 1 → s.dev.quiet.fits e 12 →
      let d := s.dev.quiet.spend e 12
      let x := d.eng e
      let r := curveAt t ((x.rg o.a).setWidth 32).toInt
      ∃ y, exec (.tlook e o) s = .next { s with dev := d.setEng e y } ∧
        x.wrote y o.d (pcR o) (BitVec.ofInt 64 r.1) r.2) ∧
    (tableKind t = 2 → s.dev.quiet.fits e 6 →
      let d := s.dev.quiet.spend e 6
      let x := d.eng e
      let r := stateStep t ((x.rg o.a).toNat % 256) ((x.rg o.b).toNat % 2 ^ 16)
      ∃ y, exec (.tstep e o) s = .next { s with dev := d.setEng e y } ∧
        x.wrote y o.d (pcR o) (BitVec.ofNat 64 r.1) r.2)

/-- R56, R73, R74: now writes LT's nanoseconds (and latches the fraction), the latched fraction, S32, the cycle of issue,
TICK_COUNT, ts or the predicates; wait goes on in cycle imm, or after 1 cycle if that has passed. Another selector, or a
cycle above 1,249, is ENG_ILLEGAL.
R29, R56, R75: arm sets a timer to the low 32 bits of a if they lie 1 to 2^31 - 1 ticks ahead; otherwise it sets S and
leaves the timer. Disarming clears it, with S if it was not armed. -/
def Obligations.TimeAndTimerInstructionResults : Prop :=
  (∀ (e : Eng) (o : EOp) (s : State),
     (o.a = 0 → o.b = 0 → o.lo.toNat ≤ 6 → s.dev.quiet.fits e 1 →
       let d := s.dev.quiet.spend e 1
       let x := d.eng e
       let lt := d.time.lt + d.time.dlt * d.cycle / 1250
       let frac := lt / 2 ^ 16 % 2 ^ 32
       let v := match o.lo.toNat with
         | 0 => lt / 2 ^ 48 % 2 ^ 64
         | 1 => x.ltFrac
         | 2 => lt / 2 ^ 48 % 2 ^ 32
         | 3 => d.cycle
         | 4 => d.tick
         | 5 => x.ts
         | _ => b2n x.p[0] + 2 * b2n x.p[1] + 4 * b2n x.p[2] + 8 * b2n x.p[3]
       ∃ y, Gives (.now e o) s (d.setEng e y) ∧ y.ltFrac = (if o.lo.toNat = 0 then frac else x.ltFrac) ∧
         x.wrote { y with ltFrac := x.ltFrac } o.d 0 (BitVec.ofNat 64 v) false) ∧
     (o.d = 0 → o.a = 0 → o.b = 0 → o.lo.toNat < 1250 →
       let cost := max 1 (o.lo.toNat - (s.dev.eng e).cyc)
       s.dev.quiet.fits e cost →
         let d := s.dev.quiet.spend e cost
         Gives (.wait e o) s (d.setEng e (d.eng e).next) ∧
         ((s.dev.eng e).vputs = [] → (d.eng e).cyc = max o.lo.toNat ((s.dev.eng e).cyc + 1))) ∧
     (6 < o.lo.toNat → Ends (.now e o) e 1 33) ∧ (1249 < o.lo.toNat → Ends (.wait e o) e 1 33)) ∧
  (∀ (e : Eng) (o : EOp) (s : State) (t : Fin 4) (input : Fin 16), o.d = 0 → pcOk o.b.val = true →
     s.dev.quiet.fits e 2 →
     let d := s.dev.quiet.spend e 2
     let x := d.eng e
     let dl := (x.rg o.a).toNat % 2 ^ 32
     (o.lo.toNat = t + 16 * input.val →
       (1 ≤ wrapDiff 32 dl (d.tick % 2 ^ 32) →
         GivesPred (.arm e o) s (d.setEng e { x.next with
           timers := x.timers.set t (some dl), timerIn := x.timerIn.set t input.val }) e o.b.val false) ∧
       (wrapDiff 32 dl (d.tick % 2 ^ 32) < 1 → GivesPred (.arm e o) s (d.setEng e x.next) e o.b.val true)) ∧
     (o.lo.toNat = t + 16 * input.val + 2 ^ 13 →
       GivesPred (.disarm e o) s (d.setEng e { x.next with timers := x.timers.set t none }) e o.b.val (x.timers[t] == none)))

/-- R56, R78: evtest reads the head entry of an input, evclear removes entries from its head, signal raises an input of an
engine with source 0x400 plus the sender's number, and a target above 511 is ENG_ADDRESS. -/
def Obligations.EventInstructionResults : Prop :=
  ∀ (e : Eng) (o : EOp) (s : State),
    (o.a = 0 → pcOk o.b.val = true → o.lo.toNat < 16 → s.dev.quiet.fits e 2 →
      let d := s.dev.quiet.spend e 2
      let q := (d.tin (16 * e + o.lo.toNat)).fifo
      ∃ y, Gives (.evtest e o) s (d.setEng e y) ∧ (d.eng e).wrote y o.d o.b.val (q.headD 0) (!q.isEmpty)) ∧
    (o.d = 0 → o.a = 0 → pcOk o.b.val = true → o.lo.toNat < 512 → s.dev.quiet.fits e 2 →
      let d := s.dev.quiet.spend e 2
      let i := 16 * e + o.lo.toNat % 16
      let q := d.tin i
      let rest := if o.lo.toNat / 16 = 0 then [] else q.fifo.drop (o.lo.toNat / 16)
      GivesPred (.evclear e o) s ((d.setTin i { q with fifo := rest }).setEng e (d.eng e).next) e o.b.val (rest == [])) ∧
    (o.d = 0 → o.b = 0 → o.lo.toNat < 16 → s.dev.quiet.fits e 1 →
      let d := s.dev.quiet.spend e 1
      let t := ((d.eng e).rg o.a).toNat
      t < 512 →
        let d' := d.taskEvent t o.lo.toNat (0x400 + e)
        Gives (.signal e o) s (d'.setEng e (d'.eng e).next)) ∧
    (o.d = 0 → o.b = 0 → o.lo.toNat < 16 → s.dev.quiet.fits e 1 →
      512 ≤ (((s.dev.quiet.spend e 1).eng e).rg o.a).toNat → Gives (.signal e o) s ((s.dev.quiet.spend e 1).endedBy e 34))

/-- R56, R57, R79: branches. A taken one costs 2 cycles and goes to its own index plus the offset, one not taken costs 1 and
goes on; call pushes the return index on a stack of 8, ret pops it. -/
def Obligations.BranchResults : Prop :=
  ∀ (e : Eng) (o : EOp) (s : State) (cost t : Nat), o.b = 0 → s.dev.quiet.fits e cost →
    let x0 := s.dev.eng e
    let d := s.dev.quiet.spend e cost
    let x := d.eng e
    let goes := fun (c : Instr) (taken : Bool) => cost = (if taken then 2 else 1) →
      Gives c s (d.setEng e { x with pc := if taken then t else x.pc + 1 })
    (t < 16384 → (x.pc : Int) + o.lo.toInt = t →
      (o.d = 0 → o.a = 0 → goes (.b e o) true ∧
        (cost = 2 → x.stack.length < 8 → Gives (.call e o) s (d.setEng e { x with pc := t, stack := (x.pc + 1) :: x.stack }))) ∧
      (o.d = 0 → goes (.bz e o) (decide (x0.rg o.a = 0)) ∧ goes (.bnz e o) (decide (x0.rg o.a ≠ 0))) ∧
      (o.a = 0 → ∀ i : Fin 4, ∀ neg : Bool, o.d.val = i + (if neg then 4 else 0) → goes (.bp e o) (x0.p[i] != neg))) ∧
    (o = ⟨0, 0, 0, 0⟩ → cost = 2 → ∀ i r, x.stack = i :: r → Gives (.ret e o) s (d.setEng e { x with pc := i, stack := r }))

/-- R36, R67, R76: fence waits for the engine's vputs and io.st, and 8 cycles more if queue operations are uncommitted, which
then take effect in order. yield and halt end the dispatch after it: no vput or queue operation is left, MAXUSED covers the
cycles used; halt clears ENABLE and the ready state. The two may end with the budget's last cycle, a fence alone before it. -/
def Obligations.FenceYieldHalt : Prop :=
  ∀ (e : Eng) (s : State) (drained : Nat), s.dev.quiet.fits e 1 →
    let d0 := s.dev.quiet.spend e 1
    let x := d0.eng e
    let fin := drained + (if x.qops = [] then 0 else 8)
    (∀ v ∈ x.vputs, v.doneAt ≤ drained) → x.ioDone ≤ drained → x.cyc ≤ drained →
    drained = x.cyc ∨ drained = x.ioDone ∨ (∃ v ∈ x.vputs, v.doneAt = drained) →
    let limit := x.start + d0.get F.ENG_TASK_BUDGET.BUDGET (d0.runTask e)
    fin ≤ limit →
      let d := ((d0.setEng e { x with cyc := fin }).vputRetire e fin).commitQops e
      let t := d.runTask e
      let o : EOp := ⟨0, 0, 0, 0⟩
      (fin < limit → Gives (.fence e o) s (d.setEng e (d.eng e).next)) ∧
      (∃ d1, Gives (.yield e o) s d1 ∧ d1 = d.endTask e ∧ d1.running e = false ∧ (d1.eng e).vputs = [] ∧ (d1.eng e).qops = [] ∧
        ((d.eng e).cyc - (d.eng e).start < 2 ^ F.ENG_TASK_STAT.MAXUSED.width →
          d1.get F.ENG_TASK_STAT.MAXUSED t = max (d.get F.ENG_TASK_STAT.MAXUSED t) ((d.eng e).cyc - (d.eng e).start))) ∧
      (∃ d1, Gives (.halt e o) s d1 ∧ d1.running e = false ∧ d1.flag F.ENG_TASK_CFG.ENABLE t = false ∧
        (d1.task t).ready = false ∧ (d1.task t).again = false)


/-- R32, R56, R77: io.ld takes 24 cycles and reads a register; io.st takes 2 and writes one, with S if it is refused; an offset
outside the engines' reach reads 0 with S, or is refused. Log entry 6: the block answers io.st 1 to 24 cycles later. -/
def Obligations.IoInstructionResults : Prop :=
  ∀ (e : Eng) (o : EOp) (s : State),
    let a := effAddr (s.dev.eng e) o
    a % 4 = 0 → pcOk o.b.val = true →
    (s.dev.quiet.fits e 24 →
      let d := s.dev.quiet.spend e 24
      (engMayRead a = true →
        let r := d.spaceRead (.engine e) a
        ∃ y, Gives (.ioLd e o) s (r.1.setEng e y) ∧ (r.1.eng e).wrote y o.d o.b.val (BitVec.ofNat 64 r.2.1) false) ∧
      (engMayRead a = false → ∃ y, Gives (.ioLd e o) s (d.setEng e y) ∧ (d.eng e).wrote y o.d o.b.val 0 true)) ∧
    (s.dev.quiet.fits e 2 →
      let d := (s.dev.quiet.spend e 2).freeNext
      let w := ((d.eng e).rg o.d).toNat % 2 ^ 32
      let r := if a < 2 ^ 28 then d.engWrite e a w else (d.refuse e.val (a % 2 ^ 28) .access, true)
      ∃ lat, 1 ≤ lat ∧ lat ≤ 24 ∧
        let x := r.1.eng e
        GivesPred (.ioSt e o) s (r.1.setEng e { x.next with ioDone := max x.ioDone ((s.dev.eng e).cyc + 2 + lat) }) e o.b.val r.2)

/-- R30, R40, R43, R44: at cycle 50 or later an idle engine of a powered cluster dispatches the first of its ready tasks in
the order of effective class, ready time and slot, if it fits in the tick: the registers, acc and predicates are 0, ts
describes the trigger, and the input's count is taken. Promotions that are due come first. -/
def Obligations.DispatchTakesTheFirstReadyTask : Prop :=
  ∀ (e : Eng) (c : Cycle) (s : State) (slot : Fin 16),
    let d := ({ s.dev.quiet with cycle := c.val } : Dev).promoteAll e (s.dev.tick * 1250 + c)
    let t := 16 * e.val + slot
    50 ≤ c.val → s.dev.running e = false → s.dev.clusterOn (e / 32) = true → s.dev.dispatchOn = true →
    d.candidate t = true → (∀ u : Fin 16, u ≠ slot → d.candidate (16 * e + u) = true → d.before t (16 * e + u) = true) →
    c.val + d.get F.ENG_TASK_BUDGET.BUDGET t ≤ 1250 →
    ∃ d', Gives (.taskDispatch e c) s d' ∧
      let x := d'.eng e
      let trig := d.get F.ENG_TASK_CFG.TRIGGER t
      let i := 16 * e.val + trig
      let ready := d.task t
      (∀ r, x.rg r = 0) ∧ x.acc = 0 ∧ (∀ p : Fin 4, x.p[p] = false) ∧ x.pc = d.get F.ENG_TASK_CFG.ENTRY t ∧ x.stack = [] ∧
      x.run = some slot.val ∧ x.start = c.val ∧ x.lmem = (d.eng e).lmem ∧ x.timers = (d.eng e).timers ∧
      x.ts = (if trig < 16 then (d.tin i).count + trig * 2 ^ 8 + b2n (d.tin i).ovf * 2 ^ 12 else 0) +
        b2n (decide (ready.since / 1250 < d.tick)) * 2 ^ 13 + b2n ready.promoted * 2 ^ 14 + slot * 2 ^ 15 ∧
      (d'.task t).ready = false ∧ d'.dispatches t = d.dispatches t + 1 ∧
      (trig < 16 → (d'.tin i).count = 0 ∧ (d'.tin i).ovf = false ∧ (d'.tin i).fifo = (d.tin i).fifo) ∧
      (∀ u, u ≠ t → d'.task u = d.task u) ∧ (∀ g, g ≠ e.val → d'.eng g = d.eng g) ∧ d'.vat = d.vat

/-- R36, R67: an overrun ends the dispatch at the budget's last cycle: vputs that are complete before that cycle stay, queue
operations are undone, OVERRUNS counts and ENG_OVERRUN is raised with the instruction's index, the cluster and the slot.
R36, R56: an instruction for whose cycles the budget does not suffice does nothing but that overrun: every instruction of the
set with its own cycles, a Vat or queue access, whose cycles log entry 6 leaves open, with 1. -/
def Obligations.BudgetOverruns : Prop :=
  (∀ (e : Eng) (s : State), s.dev.running e = true →
     let d := s.dev.quiet
     let t := d.runTask e
     let x := d.eng e
     let fin := x.start + d.get F.ENG_TASK_BUDGET.BUDGET t
     let d1 := ({ d with cycle := min 1249 (fin - 1) } : Dev).vputRetire e (fin - 1)
     let d2 := (d1.setEng e { d1.eng e with cyc := fin }).endTask e
     d2.running e = false ∧ (d2.eng e).qops = [] ∧ (d2.eng e).vputs = [] ∧
     Gives (.taskOverrun e) s ((d2.incSat F.ENG_TASK_CNT.OVERRUNS t).fault 32 e
       (x.pc % 2 ^ 14 * 2 ^ 16 + e / 32 * 2 ^ 8 + x.run.getD 0))) ∧
  (∀ (e : Eng) (imm : Bool) (o : EOp) (s : State), s.dev.running e = true →
     let d := s.dev.quiet
     let x := d.eng e
     let left := x.start + d.get F.ENG_TASK_BUDGET.BUDGET (d.runTask e) - x.cyc
     let after := ({ d with cycle := x.cyc } : Dev).overrun e
     let a := effAddr x o
     let taken := fun (b : Bool) => if b then 2 else 1
     let ends := fun (cost : Nat) (l : List Instr) => left ≤ cost → ∀ c ∈ l, Gives c s after
     ends 1 [.add e imm o, .sub e imm o, .and e imm o, .or e imm o, .xor e imm o, .shl e imm o, .shr e imm o, .sar e imm o,
       .min e imm o, .max e imm o, .sdiff e o, .sat e o, .ldh e o, .getacc e o, .clracc e o, .nop e ⟨0, o⟩, .now e o,
       .signal e o, .fence e o] ∧
     (o ≠ ⟨0, 0, 0, 0⟩ → ends 1 [.yield e o, .halt e o]) ∧ ends 0 [.yield e o, .halt e o] ∧
     ends (if o.lo.toNat < 1250 then max 1 (o.lo.toNat - x.cyc) else 1) [.wait e o] ∧
     ends 4 [.mul e o, .mac e imm o, .macs e imm o] ∧ ends 12 [.tlook e o] ∧ ends 6 [.tstep e o] ∧
     ends 24 [.ioLd e o] ∧ ends 2 [.ioSt e o, .arm e o, .disarm e o, .evtest e o, .evclear e o, .fault e o, .b e o, .call e o, .ret e o] ∧
     ends (taken (decide (x.rg o.a = 0))) [.bz e o] ∧ ends (taken (decide (x.rg o.a ≠ 0))) [.bnz e o] ∧
     (∀ i : Fin 4, ∀ neg : Bool, o.d.val % 8 = i + (if neg then 4 else 0) → ends (taken (x.p[i] != neg)) [.bp e o]) ∧
     ends (if 0x10000 ≤ a ∧ a < 0x50000 then 10 else 2) [.ld e o] ∧ ends (if 0x10000 ≤ a ∧ a < 0x50000 then 8 else 1) [.st e o] ∧
     ends (1 + x.vputWait) [.vput e o] ∧
     (left ≤ 1 → ∀ c ∈ ([.vget e o, .vpeek e o, .qpop e o, .qpush e o] : List Instr),
       Gives c s (({ d.freeNext with cycle := x.cyc } : Dev).overrun e)))

/-- R50, R52, R54, R57: a field of an instruction that is not as its form asks ends the dispatch with ENG_ILLEGAL, an address outside
its space or misaligned with ENG_ADDRESS, a call on a full stack and a ret without a return address with ENG_STACK, a table
that is missing or of another kind with ENG_TABLE, a poisoned or uncorrectable word with ENG_POISON, another party's queue
with ENG_QUEUE; OVERRUNS does not count. Every instruction of the set that can fault is named. -/
def Obligations.EngineFaultsEndTheDispatch : Prop :=
  (∀ (e : Eng) (imm : Bool) (o : EOp),
     let n := o.lo.toNat
     let w := n % 128
     let ends := fun (l : List Instr) (cost source : Nat) => ∀ c ∈ l, Ends c e cost source
     let zero : EOp := ⟨0, 0, 0, 0⟩
     (aluOk imm o = false → ends [.add e imm o, .sub e imm o, .and e imm o, .or e imm o, .xor e imm o, .shl e imm o,
       .shr e imm o, .sar e imm o, .min e imm o, .max e imm o] 1 33) ∧
     (imm = true → 64 ≤ n → ends [.shl e imm o, .shr e imm o, .sar e imm o] 1 33) ∧
     (aluOk imm o = false ∨ o.d ≠ 0 → ends [.mac e imm o, .macs e imm o] 4 33) ∧
     (func o % 512 ≠ 0 ∨ pcOk (pcR o) = false → Ends (.sdiff e o) e 1 33 ∧ Ends (.mul e o) e 4 33) ∧
     (pcOk o.b.val = false ∨ w < 2 ∨ 64 < w ∨ 256 ≤ n → Ends (.sat e o) e 1 33) ∧
     (o.a ≠ 0 ∨ 4 < o.b.val ∨ (o.b.val = 4 ∧ 256 ≤ n) → Ends (.ldh e o) e 1 33) ∧
     (pcOk o.b.val = false ∨ o.a ≠ 0 ∨ 128 ≤ n → Ends (.getacc e o) e 1 33) ∧
     (o ≠ zero → ends [.nop e ⟨0, o⟩, .clracc e o, .fence e o, .yield e o, .halt e o] 1 33 ∧ Ends (.ret e o) e 2 33) ∧
     (o.b ≠ 0 ∨ pcOk (pcR o) = false → Ends (.tlook e o) e 12 33) ∧ (pcOk (pcR o) = false → Ends (.tstep e o) e 6 33) ∧
     (o.a ≠ 0 ∨ o.b ≠ 0 ∨ 6 < n → Ends (.now e o) e 1 33) ∧
     (o.d ≠ 0 ∨ pcOk o.b.val = false ∨ bits n 12 8 ≠ 0 ∨ bits n 3 2 ≠ 0 → ends [.arm e o, .disarm e o] 2 33) ∧
     (o.a ≠ 0 ∨ pcOk o.b.val = false ∨ 16 ≤ n → Ends (.evtest e o) e 2 33) ∧
     (o.d ≠ 0 ∨ o.a ≠ 0 ∨ pcOk o.b.val = false ∨ 512 ≤ n → Ends (.evclear e o) e 2 33) ∧
     (o.d ≠ 0 ∨ o.b ≠ 0 ∨ 16 ≤ n → Ends (.signal e o) e 1 33) ∧
     (o.d ≠ 0 ∨ o.a ≠ 0 ∨ o.b ≠ 0 ∨ 256 ≤ n → Ends (.fault e o) e 2 33) ∧
     (pcOk o.b.val = false → Ends (.ioLd e o) e 24 33)) ∧
  (∀ (e : Eng) (o : EOp) (s : State),
     let x0 := s.dev.eng e
     let a := effAddr x0 o
     let n := o.lo.toNat
     let cmem := decide (0x10000 ≤ a ∧ a < 0x50000)
     let inside := fun (w : Nat) => a % w = 0 ∧ (a < 0x1000 ∨ cmem = true)
     let V := latV (s.dev.runClass e)
     let Q := latQ (s.dev.runClass e)
     let ends := fun (c : Instr) (cost source : Nat) =>
       s.dev.quiet.fits e cost → Gives c s ((s.dev.quiet.spend e cost).endedBy e source)
     let goes := fun (c : Instr) (cost : Nat) (bad : Bool) =>
       bad = true ∨ o.b ≠ 0 ∨ (∀ t : Nat, t < 16384 → (x0.pc : Int) + o.lo.toInt ≠ t) → ends c cost 33
     let stuck := fun (c : Instr) (cost : Nat) (stack : List Nat) =>
       (∃ t : Nat, t < 16384 ∧ (x0.pc : Int) + o.lo.toInt = t) → x0.stack = stack → ends c cost 36
     let ldCost := if cmem then 10 else 2
     let stCost := if cmem then 8 else 1
     (8 ≤ o.b.val → ends (.ld e o) ldCost 33) ∧ (o.b.val < 8 → ¬ inside (2 ^ (o.b.val % 4)) → ends (.ld e o) ldCost 34) ∧
     (4 ≤ o.b.val → ends (.st e o) stCost 33) ∧ (o.b.val < 4 → ¬ inside (2 ^ o.b.val) → ends (.st e o) stCost 34) ∧
     (o.b.val < 8 → inside (2 ^ (o.b.val % 4)) → s.dev.quiet.fits e ldCost →
       let d := s.dev.quiet.spend e ldCost
       (d.memRead e a (2 ^ (o.b.val % 4))).2 = true → Gives (.ld e o) s ((d.fault 41 0 (d.engDetail e)).endedBy e 35)) ∧
     (o.b ≠ 0 → EndsWithin (.vget e o) s e V fun d => d.endedBy e 33) ∧
     (pcOk o.b.val = false → EndsWithin (.vpeek e o) s e V (fun d => d.endedBy e 33) ∧
       EndsWithin (.qpop e o) s e Q (fun d => d.endedBy e 33) ∧ EndsWithin (.qpush e o) s e Q fun d => d.endedBy e 33) ∧
     (a % 8 ≠ 0 ∨ 2 ^ 26 < a + 8 → (o.b = 0 → EndsWithin (.vget e o) s e V fun d => d.endedBy e 34) ∧
       (pcOk o.b.val = true → EndsWithin (.vpeek e o) s e V fun d => d.endedBy e 34)) ∧
     (4 ≤ o.b.val → ends (.vput e o) (1 + x0.vputWait) 33) ∧
     (o.b.val < 4 → a % 2 ^ o.b.val ≠ 0 ∨ 2 ^ 26 < a + 2 ^ o.b.val → ends (.vput e o) (1 + x0.vputWait) 34) ∧
     (a % 8 = 0 → a + 8 ≤ 2 ^ 26 → o.b = 0 →
       ∃ cost, 1 ≤ cost ∧ cost ≤ V ∧ (s.dev.quiet.freeNext.fits e cost →
         let d := (s.dev.quiet.freeNext.spend e cost).ctxShow a 8
         ((d.eng e).vputs.any fun p => p.addr == a && p.width == 8) = false → d.vbad a 8 = true →
           Gives (.vget e o) s ((d.vatTouch a 8 0).endedBy e 35))) ∧
     (pcOk o.b.val = true →
       (4096 ≤ a → EndsWithin (.qpop e o) s e Q (fun d => d.endedBy e 34) ∧ EndsWithin (.qpush e o) s e Q fun d => d.endedBy e 34) ∧
       (a < 4096 → x0.vputs = [] →
         ((s.dev.qdesc a).cons ≠ e.val → EndsWithin (.qpop e o) s e Q fun d => d.endedBy e 38) ∧
         ((s.dev.qdesc a).prod ≠ e.val → EndsWithin (.qpush e o) s e Q fun d => d.endedBy e 38))) ∧
     (pcOk o.b.val = true → a % 4 ≠ 0 → ends (.ioLd e o) 24 34 ∧ ends (.ioSt e o) 2 34) ∧
     (pcOk o.b.val = false → ends (.ioSt e o) 2 33) ∧
     (pcOk (pcR o) = true →
       let kind := (Tbl.find? (s.dev.clus (e / 32)).live (func o)).map tableKind
       (o.b = 0 → kind ≠ some 1 → ends (.tlook e o) 12 37) ∧ (kind ≠ some 2 → ends (.tstep e o) 6 37)) ∧
     (o.d ≠ 0 ∨ o.a ≠ 0 ∨ o.b ≠ 0 ∨ 1250 ≤ n → ends (.wait e o) (if n < 1250 then max 1 (n - x0.cyc) else 1) 33) ∧
     goes (.b e o) 2 (decide (o.d ≠ 0 ∨ o.a ≠ 0)) ∧ goes (.call e o) 2 (decide (o.d ≠ 0 ∨ o.a ≠ 0)) ∧
     goes (.bz e o) (if x0.rg o.a = 0 then 2 else 1) (decide (o.d ≠ 0)) ∧
     goes (.bnz e o) (if x0.rg o.a = 0 then 1 else 2) (decide (o.d ≠ 0)) ∧
     (∀ i : Fin 4, ∀ neg : Bool, o.d.val % 8 = i + (if neg then 4 else 0) →
       goes (.bp e o) (if x0.p[i] = neg then 1 else 2) (decide (o.a ≠ 0 ∨ 8 ≤ o.d.val))) ∧
     (o.d = 0 → o.a = 0 → o.b = 0 → ∀ l : List Nat, 8 ≤ l.length → stuck (.call e o) 2 l) ∧
     (o = ⟨0, 0, 0, 0⟩ → x0.stack = [] → ends (.ret e o) 2 36))

/-- R38, R39, R41, R45, R75: a promotion that is due lowers the effective class by one, as of the cycle at which its limit under the
ENG_AGE in force passed; an event on an input of a bound task counts,
is stored while the FIFO has room, among the events of its cycle in ascending source number, and makes its tasks ready, and without one it counts in ENG_ORPHAN; a cancel takes back
the ready state and empties the trigger input, also over an event of its own cycle; a timer whose deadline is the present tick delivers its event and is disarmed. -/
def Obligations.TaskEventsAndPromotion : Prop :=
  ∀ (e : Eng) (slot i : Fin 16) (source : BitVec 12) (p : Path) (t : Fin 4) (c : Cycle) (s : State),
    let n := 16 * e.val + slot
    let d := s.dev.quiet
    let dc : Dev := { d with cycle := c.val }
    let now := d.tick * 1250 + c
    (let x := dc.task n
     let at' := max (x.aged + 8 * (if x.eff = 3 then d.get F.ENG_AGE.AGE3 else d.get F.ENG_AGE.AGE2)) d.ageFrom
     x.ready = true → x.eff = 2 ∨ x.eff = 3 → at' ≤ now →
       Gives (.taskPromotion e slot c) s (dc.setTask n { x with eff := x.eff - 1, promoted := true, aged := at' })) ∧
    (d.clusterOn (e / 32) = true → d.tasksOnInput e i ≠ [] →
      (∀ u ∈ d.tasksOnInput e i, (dc.task u).cancelAt = some now) → Gives (.taskInputEvent e i source c) s dc) ∧
    (d.clusterOn (e / 32) = true → d.tasksOnInput e i ≠ [] →
      (∀ u ∈ d.tasksOnInput e i, (dc.task u).cancelAt ≠ some now) →
      ∃ d', Gives (.taskInputEvent e i source c) s d' ∧
        let x := d.tin (16 * e + i)
        (d'.tin (16 * e + i)).count = min 255 (x.count + 1) ∧
        let entry : DWord := BitVec.ofNat 64 (source.toNat + d.tick % 2 ^ 16 * 2 ^ 16 + dc.s32 * 2 ^ 32)
        (x.last ≠ d.tick * 1250 + c → x.fifo.length < 16 → (d'.tin (16 * e + i)).fifo = x.fifo ++ [entry]) ∧
        (x.last ≠ d.tick * 1250 + c → x.fifo.length = 16 →
          (d'.tin (16 * e + i)).fifo = x.fifo ∧ (d'.tin (16 * e + i)).ovf = true) ∧
        (x.last = d.tick * 1250 + c → x.fifo.length < 16 → ∃ l r, x.fifo = l ++ r ∧ r.length ≤ x.same ∧
          (d'.tin (16 * e + i)).fifo = l ++ entry :: r ∧ (∀ v ∈ r.head?, source.toNat < v.toNat % 4096) ∧
          ∀ v ∈ l.drop (x.fifo.length - x.same), v.toNat % 4096 ≤ source.toNat) ∧
        (∀ u ∈ d.tasksOnInput e i, (d.eng e).run ≠ some (u % 16) → (d'.task u).ready = true) ∧
        d'.regs = d.regs ∧ d'.engs = d.engs) ∧
    (d.clusterOn (e / 32) = false ∨ d.tasksOnInput e i = [] →
      Gives (.taskInputEvent e i source c) s (dc.incWrap F.ENG_ORPHAN.COUNT)) ∧
    (s.reaches p R.ENG_TASK_CANCEL.off →
      let d1 := dc.setTask n { dc.task n with
        ready := false, promoted := false, cancelled := decide ((d.eng e).run = some slot.val), cancelAt := some now }
      let k := 16 * e.val + d.get F.ENG_TASK_CFG.TRIGGER n
      Gives (.taskCancel p e ⟨slot, c⟩) s
        ((if d.get F.ENG_TASK_CFG.TRIGGER n < 16 then d1.setTin k { d.tin k with count := 0, fifo := [] } else d1).incSat
          F.ENG_TASK_CNT.CANCELS n)) ∧
    (∀ dl, (d.eng e).timers[t] = some dl → dl = d.tick % 2 ^ 32 →
      Gives (.tickTimerExpiry e t) s
        ((({ d with cycle := 0 } : Dev).setEng e { d.eng e with timers := (d.eng e).timers.set t none }).taskEvent e
          (d.eng e).timerIn[t] (0x400 + e)))


/-- R5, R6, R19, R25, R47, R115, R387: a write that no check refuses, of a register that is one whole value: fields that act at
once are in force, tick-synchronous ones wait for the boundary, RWL ones go into the open change, bits of access W1C that
are written 1 clear unless they were set in the same cycle, and no other register changes, but for what the block does with
the new value (`Dev.writeHook`), the tokens that a write of FRM_POLICE settles (R257), and the promotions that one of ENG_AGE
settles (R45).
CLUSTER_POWER and IN_STATE_WRITE are such writes, of ENG_CLUSTER_PWR and by an engine of IN_STATE.
R8: a write of a _LO or _FRAC register that no check refuses stages its part for the path's interface and changes nothing else; one
of a _HI register applies its own word together with the parts that the path has staged, which are used up. -/
def Obligations.RegisterWriteResults : Prop :=
  (∀ (cmd : Instr) (p : Path) (off : BitVec 28) (w : Word) (c : Cycle) (s : State) (a : Nat) (x : Site),
     cmd = .registerWrite p off w true false c ∨
     (∃ on : BitVec 16, cmd = .clusterPower p on c ∧ off.toNat = R.ENG_CLUSTER_PWR.off ∧ w.toNat = on.toNat) ∨
     (∃ (e : Eng) (n : Fin 40) (st : BitVec 3), cmd = .inStateWrite e n st c ∧ p = .engine e ∧ off.toNat = R.IN_STATE.off n ∧
       w.toNat = st.toNat) →
     let d := s.dev.quiet.atCycle c
     let o := d.view
     d.pathOff p off.toNat = some a → d.access p a true = .ok → 0x08000000 ≤ a → a < 0x0A000000 → siteAt a = some x →
     x.is commandRegs = false → x.reg.part = .whole →
     let n := d.copyOf p x
     let word := mergeWord (writeMask p x n) (o.rd x.own n) w.toNat
     Dev.formBad d o p x a n w.toNat true = none →
     Dev.writeBad d o (o.withWords x n [(x, word)]) p x a n [(x, word)] false = none →
     let d1 := if x.is [R.FRM_POLICE] then d.tokensSettle n else if x.is [R.ENG_AGE] then d.agesSettle else d
     ∃ e : Dev, Gives cmd s (Dev.writeHook d1 e p x n false) ∧
       let now := maskOf x.fields fun f => f.rw && !f.tick
       let clear := maskOf x.fields fun f => f.acc == .w1c
       let key := x.own.key n
       e.rd x.own n = mergeWord (clear &&& w.toNat &&& (2 ^ 32 - 1 - d.justSet key))
         (mergeWord now (d.rd x.own n) word % 2 ^ 32) 0 % 2 ^ 32 ∧
       (∀ k, k ≠ key → Tbl.find? e.regs k = Tbl.find? d.regs k) ∧
       e.acc = (if x.fields.any FieldSpec.sync then Tbl.set d.acc key (BitVec.ofNat 32 word) else d.acc) ∧
       (key ≠ R.KL_STAGE_STAT.key 0 → e.staged = if x.fields.any FieldSpec.locked && d.stage == 1 then Tbl.set d.staged key (BitVec.ofNat 32 word) else d.staged) ∧
       e = { d1 with regs := e.regs, acc := e.acc, staged := e.staged }) ∧
  (∀ (p : Path) (off : BitVec 28) (w : Word) (c : Cycle) (s : State) (a : Nat) (x : Site),
     let d := s.dev.quiet.atCycle c
     let o := d.view
     d.pathOff p off.toNat = some a → d.access p a true = .ok → 0x08000000 ≤ a → a < 0x0A000000 → siteAt a = some x →
     x.is commandRegs = false → x.stages = true →
     let n := d.copyOf p x
     let word := mergeWord (writeMask p x n) (o.rd x.own n) w.toNat
     writeMask p x n ≠ 0 → Dev.formBad d o p x a n w.toNat true = none →
     Dev.writeBad d o (o.withWords x n [(x, word)]) p x a n [(x, word)] false = none →
     Gives (.registerWrite p off w true false c) s
       { d with half := Tbl.set d.half (pathKey p x.off) w }) ∧
  (∀ (p : Path) (off : BitVec 28) (w : Word) (c : Cycle) (s : State) (a : Nat) (x : Site) (f : Bool),
     let d := s.dev.quiet.atCycle c
     let o := d.view
     d.pathOff p off.toNat = some a → d.access p a true = .ok → 0x08000000 ≤ a → a < 0x0A000000 → siteAt a = some x →
     x.is commandRegs = false → x.reg.part = .hi f →
     let n := d.copyOf p x
     let word := fun (y : Site) (v : Nat) => mergeWord (writeMask p y n) (o.rd y.own n) v
     let staged := x.others.filterMap fun y => (Tbl.find? d.half (pathKey p y.off)).map fun h => (y, word y h.toNat)
     let ws := (x, word x w.toNat) :: staged
     (ws.map fun y => y.1.own.key n).Nodup → Dev.formBad d o p x a n w.toNat true = none →
     Dev.writeBad d o (o.withWords x n ws) p x a n ws false = none →
     ∃ e : Dev, Gives (.registerWrite p off w true false c) s (Dev.writeHook d e p x n false) ∧
       (∀ y ∈ ws,
         let fs := y.1.fields
         let key := y.1.own.key n
         (fs.all (fun f => f.acc != .w1c) = true →
           e.rd y.1.own n = mergeWord (maskOf fs fun f => f.rw && !f.tick) (d.rd y.1.own n) y.2 % 2 ^ 32) ∧
         (fs.any FieldSpec.sync = true → Tbl.find? e.acc key = some (BitVec.ofNat 32 y.2)) ∧
         (fs.any FieldSpec.locked = true → d.stage = 1 → Tbl.find? e.staged key = some (BitVec.ofNat 32 y.2))) ∧
       (∀ k, (∀ y ∈ ws, k ≠ y.1.own.key n) →
         Tbl.find? e.regs k = Tbl.find? d.regs k ∧ Tbl.find? e.acc k = Tbl.find? d.acc k ∧ Tbl.find? e.staged k = Tbl.find? d.staged k) ∧
       (∀ k, Tbl.find? e.half k = if ∃ y ∈ x.others, k = pathKey p y.off then none else Tbl.find? d.half k) ∧
       e = { d with regs := e.regs, acc := e.acc, staged := e.staged, half := e.half })

/-- R8, R227, R345, R347: LO_READ completes: a read of one register gives its path the word that the register shows; a _LO
register also latches the other parts of its value for that path's interface, CTX_TIME_NS_LO also CTX_STAT (log entry 99: for
the path's next read of it), and _HI and _FRAC registers give what was latched.
R6, R25, R339: a refused write leaves every register but the records of the refusal: the counter, the offset, the reason and
the path; WRITE_REFUSED is raised with the offset, and the WERR cause is set. So a command in STOPPED (for its own reason, where
it has one) and an engine's outside its reach; and a write of a register that a check refuses, with a reserved bit set (RESERVED_BIT),
or not of one whole word (SIZE), or for any other reason of the checks, of which admission also records its code (R34), and a
_HI write uses up what its path has staged (R8).
R346: a write with EP set raises PCIE_POISON; of a register it is refused, for a reason that the spec does not name, and of a word
of the Vat window it leaves the word poisoned. -/
def Obligations.ReadsAndRefusedWrites : Prop :=
  (∀ (p : Path) (off : BitVec 28) (c : Cycle) (s : State) (a : Nat) (x : Site),
     let d := s.dev.quiet.atCycle c
     d.pathOff p off.toNat = some a → d.access p a false = .ok → 0x08000000 ≤ a → a < 0x09300000 → siteAt a = some x →
     let n := d.copyOf p x
     let reads := fun (d : Dev) (v : Nat) =>
       exec (.loRead p off true c) s =
         .next { s with dev := d.emit (.readData p.code [BitVec.ofNat 32 v] (if p = .spi then 0x5A else 0)) }
     let key := ctxStatKey p n
     (x.reg.part = .whole →
       (x.is [R.CTX_STAT] = false ∨ Tbl.find? d.latch key = none → reads d (d.shown x n)) ∧
       (∀ w, x.is [R.CTX_STAT] = true → Tbl.find? d.latch key = some w →
         reads { d with latch := Tbl.del d.latch key } w.toNat)) ∧
     (∀ f, x.reg.part = .lo f →
       let others := x.others.foldl (fun t (y : Site) => Tbl.set t (pathKey p y.off) (BitVec.ofNat 32 (d.shown y n))) d.latch
       (x.is [R.CTX_TIME_NS_LO] = false → reads { d with latch := others } (d.shown x n)) ∧
       (∀ y, x.is [R.CTX_TIME_NS_LO] = true → siteAt R.CTX_STAT.base = some y →
         reads { d with latch := Tbl.set others key (BitVec.ofNat 32 (d.shown y n)) } (d.shown x n))) ∧
     (∀ f, x.reg.part = .hi f ∨ x.reg.part = .frac → reads d (Tbl.getD d.latch (pathKey p x.off) 0).toNat)) ∧
  (∀ (p : Path) (off : BitVec 28) (one : Bool) (c : Cycle) (s : State),
     ∃ d, exec (.loRead p off one c) s = .next { s with dev := d }) ∧
  (∀ (p : Path) (off : Nat) (r : Reason) (s : State), s.dev.quiet.access p off true = .refused r →
     let d2 := fun (r : Reason) => refusedAs s.dev.quiet p off r
     (∀ n : Fin 16, off = R.SYN_CMD.off n → Gives (.synSearch p n) s (d2 r) ∧ Gives (.synAbort p n) s (d2 r)) ∧
     (off = R.BOOT_CMD.off → Gives (.bootRelease p) s (d2 r) ∧ Gives (.pushGo p) s (d2 r)) ∧
     (∀ k : Fin 64, off = R.TDC_MS_CMD.off k → ∃ r', (r ≠ .state → r' = r) ∧ Gives (.msArm p k) s (d2 r')) ∧
     (off = R.KL_STAGE_CMD.off → (∃ r', (r ≠ .state → r' = r) ∧ Gives (.stageOpen p) s (d2 r')) ∧
       (∃ r', (r ≠ .state → r' = r) ∧ Gives (.stageArm p) s (d2 r')) ∧
       ∃ r', (r ≠ .state → r' = r) ∧ Gives (.stageDiscard p) s (d2 r')) ∧
     (off = R.REAM_CMD.off → ∃ r', (r ≠ .state → r' = r) ∧ Gives (.reamErase p) s (d2 r'))) ∧
  (∀ (p : Path) (off : BitVec 28) (w : Word) (whole : Bool) (c : Cycle) (s : State) (a : Nat) (x : Site),
     let d := s.dev.quiet.atCycle c
     let o := d.view
     d.pathOff p off.toNat = some a → d.access p a true ≠ .absent → d.access p a true ≠ .timeout →
     0x08000000 ≤ a → a < 0x0A000000 → siteAt a = some x →
     let n := d.copyOf p x
     let spare := decide (mergeWord (maskOf x.fields fun _ => true) w.toNat 0 ≠ 0)
     let used := if x.stages then d else
       { d with half := x.others.foldl (fun t (y : Site) => Tbl.del t (pathKey p y.off)) d.half }
     let gives := fun (e : Dev) (r : Reason) => Gives (.registerWrite p off w whole false c) s (refusedAs e p a r)
     (spare = true → gives used .reserved) ∧ (spare = false → whole = false → gives used .size) ∧
     (Dev.formBad d o p x a n w.toNat whole = some .access → gives used .access) ∧
     (x.is commandRegs = false → Dev.formBad d o p x a n w.toNat whole = none → x.reg.part = .whole →
       let word := mergeWord (writeMask p x n) (o.rd x.own n) w.toNat
       let v := o.withWords x n [(x, word)]
       ∀ r, Dev.writeBad d o v p x a n [(x, word)] false = some r → gives (Dev.noteAdmit d v x n w.toNat r) r)) ∧
  (∀ (p : Path) (off : BitVec 28) (w : Word) (c : Cycle) (s : State) (a : Nat),
     let d := s.dev.quiet.atCycle c
     d.pathOff p off.toNat = some a → d.access p a true = .ok →
     (∀ x, 0x08000000 ≤ a → siteAt a = some x → ∃ r,
       let used := if x.stages then d else
         { d with half := x.others.foldl (fun t (y : Site) => Tbl.del t (pathKey p y.off)) d.half }
       Gives (.registerWrite p off w true true c) s (refusedAs (used.freeNext.fault 259) p a r)) ∧
     (let d1 := d.fault 259
      p.isHost = true → a < 0x04000000 → a % 4 = 0 → d1.vatGuarded a 4 = false → overlap a 4 d1.qtable (4096 * 32) = false →
       ∃ d', Gives (.registerWrite p off w true true c) s d' ∧ d'.vbad a 4 = true))

/-- R47, R325: clusters start one at a time in ascending order, 500 ticks apart, and a started one becomes powered at the end of
its power-up.
R32, R49: a host path's write of an instruction word that no enabled task can reach goes into the powered cluster's store,
and no other word of the store changes. -/
def Obligations.ClusterStartAndStoreResults : Prop :=
  (∀ (c : Fin 16) (s : State),
     let d := s.dev.quiet
     let x := d.clus c
     (x.waiting = true → (∀ b, b < c.val → (d.clus b).waiting = false) → (∀ t, d.lastStart = some t → t + 500 ≤ d.tick) →
       Gives (.clusterStart c) s
         { d.setClus c { x with waiting := false, startedAt := some d.tick } with lastStart := some d.tick }) ∧
     (∀ t, x.startedAt = some t → ∃ d', Gives (.clusterPowerUpDone c) s d' ∧ (d'.clus c).startedAt = none ∧
       (∀ b : Fin 16, d'.clusterOn b = (b == c || d.clusterOn b)) ∧ d' = { d with regs := d'.regs, cluss := d'.cluss } ∧
       (∀ r n, r.key n ≠ R.ENG_CLUSTER_STAT.key 0 → d'.rd r n = d.rd r n))) ∧
  (∀ (p : Path) (c : Fin 16) (i : Fin 16384) (w : Word) (s : State),
     let d := s.dev.quiet
     s.reaches p (0x0A000000 + 0x10000 * c + 4 * i) → p.isHost = true → d.reachable c i = false → d.clusterOn c = true →
     ∃ m : Memory, Gives (.instructionStoreWrite p c i w) s (d.setClus c { d.clus c with istore := m }) ∧
       Memory.readLe 0 m (4 * i) 4 = w.toNat ∧
       ∀ j : Nat, j ≠ i.val → Memory.readLe 0 m (4 * j) 4 = Memory.readLe 0 (d.clus c).istore (4 * j) 4)

/-- R72, R284, R389: in an OPEN change LOAD takes a well-formed table from the path's source address, and DELETE one that no
register names; the staged copy goes to every cluster in which the table is resident. OPEN, ARM and DISCARD move between
IDLE, OPEN and ARMED; ARM records the watermark of the change, OPEN and DISCARD drop what was staged.
R284: at its commit tick an armed change with which every peer's announcement agrees (a standalone device has none) and that passes every check takes
effect: RESULT is 1, the generation counts and STATE is IDLE. A check that fails gives RESULT 4, and a peer's commit that
finds nothing armed here RESULT 3; a refusal raises KL_COMMIT_REFUSED and changes nothing that was staged for force. -/
def Obligations.StagedChangeResults : Prop :=
  (∀ (p : Path) (t : Fin 1024) (n : BitVec 13) (s : State),
     let d := s.dev.quiet
     let src := d.get F.TBL_LOAD_SRC.OFFSET p.code * 8
     let body := d.vbytes src n.toNat
     let staged := fun (a n : Nat) (b : List Byte) =>
       ({ d with
         stagedTabs := Tbl.set d.stagedTabs t ⟨a, n⟩
         cluss := d.cluss.map fun c =>
           if c.2.resident.contains t.val then (c.1, { c.2 with staged := Tbl.set c.2.staged t b }) else c } : Dev).put
         F.TBL_STAT.STAGED (Tbl.set d.stagedTabs t ⟨a, n⟩).length
     let dropped := ({ d with staged := [], stagedTabs := [] } : Dev).put F.TBL_STAT.STAGED 0
     let state := d.get F.KL_STAGE_STAT.STATE
     (s.reaches p R.TBL_LOAD_CMD.off → state = 1 →
       (8 ≤ n.toNat → n.toNat % 8 = 0 → tableLen body = some n.toNat → d.bufferOk t src n.toNat = true →
         Gives (.tableLoad p t n) s (staged src n.toNat body)) ∧
       (d.view.named t = false → Gives (.tableDelete p t) s (staged 0 0 []))) ∧
     (s.reaches p R.KL_STAGE_CMD.off →
       (state = 0 → Gives (.stageOpen p) s (dropped.put F.KL_STAGE_STAT.STATE 1)) ∧
       (state ≠ 0 → Gives (.stageDiscard p) s (dropped.put F.KL_STAGE_STAT.STATE 0)) ∧
       (let at' := d.get64 F.KL_STAGE_TICK_LO.TICK F.KL_STAGE_TICK_HI.TICK
        state = 1 → d.tick + 16 ≤ at' → at' < d.tick + 2 ^ 31 →
         Gives (.stageArm p) s
           ((d.put64 F.KL_SWM_LO.VALUE F.KL_SWM_HI.VALUE d.stagedView.watermark).put F.KL_STAGE_STAT.STATE 2)))) ∧
  (∀ (s : State),
     let d := s.dev.quiet
     let peers := if d.tick = 0 ∨ d.role = 0 then [] else d.framesOf (d.tick - 1)
     let result := fun (d : Dev) (code : Nat) => (d.put F.KL_STAGE_STAT.RESULT code).irqSet F.HOST_IRQ_CAUSE.COMMIT
     (d.get F.KL_STAGE_STAT.STATE = 2 → d.stageTick = d.tick → (∀ k ∈ peers, d.peerAgrees k = true) →
       (d.changeBad d.view = false →
         Gives .stageCommit s (result ((d.stageApply.put F.KL_STAGE_STAT.STATE 0).incWrap F.KL_GEN.GEN) 1)) ∧
       (d.changeBad d.view = true →
         Gives .stageCommit s ((result ((d.changeRecord d.view).stageClear.put F.KL_STAGE_STAT.STATE 0) 4).fault 228 0 4))) ∧
     (d.get F.KL_STAGE_STAT.STATE ≠ 2 → (∃ k ∈ peers, d.peerArmed k d.tick = true) →
       Gives .stageCommit s ((result d 3).fault 228 0 3)) ∧
     (d.get F.KL_STAGE_STAT.STATE = 2 → d.tick < d.stageTick → Gives .stageCommit s d))


/-- R84, R97, R345, R346: a host write through the window stores its enabled bytes, one run of them after another, as a program's write
does, and one with EP set raises PCIE_POISON and leaves the covered words poisoned; one that touches a structure that discards
writes stores nothing; a read gives the stored bytes and the entries of contexts (R225), poisoned if a word of them is uncorrectable, and counts
what it corrected. -/
def Obligations.VatWindowAccess : Prop :=
  ∀ (off : BitVec 26) (data : List (Byte × Bool)) (len : BitVec 13) (c : Cycle) (s : State),
    let d := s.dev.quiet.atCycle c
    let p : Path := .pcie 0
    (s.reaches p off.toNat → off.toNat + data.length ≤ 2 ^ 26 →
      (∀ r ∈ byteRuns off.toNat data, d.vatGuarded r.1 r.2.length = false) →
        Gives (.vatWindowWrite off data false c) s ((byteRuns off.toNat data).foldl (fun d r => d.vatUser r.1 r.2) d)) ∧
    (s.reaches p off.toNat → off.toNat + data.length ≤ 2 ^ 26 →
      let e := d.fault 259
      (∀ r ∈ byteRuns off.toNat data, e.vatGuarded r.1 r.2.length = false) →
        Gives (.vatWindowWrite off data true c) s ((byteRuns off.toNat data).foldl (fun d r => d.vatUserPoison r.1 r.2) e)) ∧
    (∀ (ep : Bool) (r : Nat × List Byte), s.reaches p off.toNat → off.toNat + data.length ≤ 2 ^ 26 →
      let e := if ep then d.fault 259 else d
      (byteRuns off.toNat data).find? (fun r => e.vatGuarded r.1 r.2.length) = some r →
        Gives (.vatWindowWrite off data ep c) s (e.vatUser r.1 r.2)) ∧
    (s.dev.quiet.access p off.toNat false = .ok → off.toNat + len.toNat ≤ 2 ^ 26 →
      let d0 := d.ctxShow off.toNat len.toNat
      let bad := d0.vbad off.toNat len.toNat
      let d1 := d0.vatTouch off.toNat len.toNat 3
      let d2 := if bad then (d1.pathError p 2).fault 259 else d1
      Gives (.vatWindowRead off len c) s (d2.emit (.bytes p.code (d2.vbytes off.toNat len.toNat) bad)))

/-- R344: a VF's aperture: its accesses reach the Vat from HOST_VF_APT.GRANULE on; outside it a write is dropped (one
with EP set still raises PCIE_POISON, R346) and a read completes with Unsupported Request. -/
def Obligations.ApertureAccess : Prop :=
  ∀ (f : Fin 32) (x : BitVec 20) (data : List (Byte × Bool)) (len : BitVec 13) (ep : Bool) (c : Cycle) (s : State), f ≠ 0 →
    let d := s.dev.quiet.atCycle c
    let a := d.get F.HOST_VF_APT.GRANULE f * 4096 + x.toNat
    let size := d.get F.HOST_VF_APT.SIZE f * 4096
    5 ≤ d.get F.BOOT_STAT.STEP → s.dev.quiet.access (.pcie f) R.VAT_QHOST_CMD.off false = .ok →
    (x.toNat + data.length ≤ size →
      Gives (.vfApertureAccess f x (some data) len ep c) s (d.windowWrite a data ep)) ∧
    (size < x.toNat + data.length → Gives (.vfApertureAccess f x (some data) len ep c) s (if ep then d.fault 259 else d)) ∧
    (x.toNat + len.toNat ≤ size →
      let r := d.windowRead (.pcie f) a len.toNat
      Gives (.vfApertureAccess f x none len ep c) s (r.1.emit (.bytes (512 + f) r.2.1 r.2.2))) ∧
    (size < x.toNat + len.toNat → Gives (.vfApertureAccess f x none len ep c) s (d.emit (.unsupported (512 + f))))

/-- R67, R91: POP grants a host consumer the oldest entries, PUSH a host producer free slots, as many as asked for or as there
are; VAT_QHOST_STAT and _ADDR say what and where; COMMIT makes the grant take effect. A grant of 10,000 ticks is undone. The
descriptor counts as read first (R97), and a queue whose descriptor reads uncorrectable is disabled (R100). -/
def Obligations.HostQueueGrants : Prop :=
  ∀ (h : HostPath) (q : Fin 4096) (n : BitVec 16) (s : State),
    let d := s.dev.quiet.qCheck q
    let c := 512 + h.val
    let party := if h.val < 32 then 0x2000 + h.val else if h.val = 32 then 0x2020 else 0x2021
    let x := d.qdesc q
    let undo := fun (d : Dev) => ({ d with grants := Tbl.del d.grants c } : Dev).put F.VAT_QHOST_STAT.VALID 0 c
    let undone := undo d
    let granted := fun (push : Bool) (k i : Nat) =>
      (((({ undone with grants := Tbl.set undone.grants c ⟨q, push, k, d.tick⟩ } : Dev).put F.VAT_QHOST_STAT.VALID 1 c).put
        F.VAT_QHOST_STAT.QUEUE q c).put F.VAT_QHOST_STAT.GRANTED k c).put F.VAT_QHOST_ADDR.ADDR ((undone.qdesc q).entryAddr i) c
    (s.reaches (hostPath h) R.VAT_QHOST_CMD.off → d.qEnabled q = true → n.toNat ≠ 0 →
      (x.cons = party → Gives (.qhostPop h q n) s (granted false (min n.toNat x.fill) x.head)) ∧
      (x.prod = party → Gives (.qhostPush h q n) s (granted true (min n.toNat (x.size - x.fill)) x.tail))) ∧
    (s.reaches (hostPath h) R.VAT_QHOST_CMD.off → d.qEnabled q = true → x.cons = party ∨ x.prod = party →
      ∀ g, Tbl.find? d.grants c = some g → g.queue = q.val →
        Gives (.qhostCommit h q) s (if g.push then undone.qCommitPush q g.count else undone.qCommitPop q g.count)) ∧
    (s.reaches (hostPath h) R.VAT_QHOST_CMD.off → d.qEnabled q = false → n.toNat ≠ 0 →
      Gives (.qhostPop h q n) s (d.qhostRefuse c q) ∧ Gives (.qhostPush h q n) s (d.qhostRefuse c q) ∧
      Gives (.qhostCommit h q) s (d.qhostRefuse c q)) ∧
    (let d := s.dev.quiet
     ∀ g, Tbl.find? d.grants c = some g → g.since + 10000 ≤ d.tick →
      Gives (.qhostGrantExpiry h) s ((undo d).irqSet F.HOST_IRQ_CAUSE.QHOST))

/-- R101: SCRUB_LINE completes: the scrubber reads its bank's next line, in which errors may have arisen: correctable words are
corrected and counted, uncorrectable ones recorded with ORIGIN 2, and the bank goes on 16 lines later; a line that another write
reaches meanwhile is left to the next pass. With the scrubber off nothing happens. -/
def Obligations.ScrubLineResults : Prop :=
  ∀ (bank : Fin 16) (ce ue : List (Fin 4)) (collide : Bool) (s : State),
    let d := s.dev.quiet
    let line := Tbl.getD d.vat.scrub bank bank
    (d.flag F.VAT_SCRUB.ENABLE = false → exec (.scrubLine ⟨bank, collide⟩ ce ue) s = .next { s with dev := d }) ∧
    (d.flag F.VAT_SCRUB.ENABLE = true → ∃ (d' : Dev) (c u : List Nat),
      exec (.scrubLine ⟨bank, collide⟩ ce ue) s = .next { s with dev := d' } ∧
      (∀ w, w ∈ c ↔ w ∈ d.vat.ce ∨ ∃ k ∈ ce, w = k.val + 4 * line) ∧
      (∀ w, w ∈ u ↔ w ∈ d.vat.ue ∨ ∃ k ∈ ue, w = k.val + 4 * line) ∧
      let t := ({ d with vat := { d.vat with ce := c, ue := u } } : Dev).vatTouch (32 * line) 32 2
      d'.vat.mem = t.vat.mem ∧ d'.vat.ue = t.vat.ue ∧ (∀ w, w ∈ d'.vat.ce ↔ w ∈ t.vat.ce ∧ (collide = true ∨ w / 4 ≠ line)) ∧
      Tbl.getD d'.vat.scrub bank bank = (line + 16) % 2097152 ∧ d'.engs = t.engs ∧ d'.flt = t.flt)

/-- R26, R349-R352: the serial targets. SPI groups are register writes at rising addresses, an incomplete group is a size error;
an I2C write with a whole pointer does the same and leaves the pointer behind its groups; reads clock out registers; a transaction
for another address than 0x4C + MI2C_A1:A0 does nothing; a pin held too long is a WAIT_TIMEOUT of its row. -/
def Obligations.SerialTargets : Prop :=
  ∀ (a : Word) (ws : List Word) (part : Fin 4) (n : BitVec 16) (c : Cycle) (s : State),
    let d := s.dev.quiet.atCycle c
    let mine : BitVec 7 := BitVec.ofNat 7 (0x4C + 2 * b2n (d.boot.pinSeen.getLsbD 6) + b2n (d.boot.pinSeen.getLsbD 7))
    let size := fun (d : Dev) (p : Path) => (d.incWrap F.HOST_PATH_STAT.COUNT p.code).put F.HOST_PATH_STAT.LAST 4 p.code
    let writes := fun (p : Path) => ws.zipIdx.foldl
      (fun (d : Dev) w => d.pathWrite p ((a.toNat + 4 * w.2) % 2 ^ 32) w.1.toNat true false) d
    let pointer := fun (d : Dev) (v : Nat) => { d with host := { d.host with i2cPtr := v % 2 ^ 32 } }
    (d.access .spi R.BOOT_STAT.off false ≠ .absent →
      Gives (.spiWrite a ws part c) s (if part = 0 then writes .spi else size (writes .spi) .spi) ∧
      Gives (.spiRead a n c) s (d.wordsRead .spi a.toNat n.toNat) ∧
      Gives .spiTimeout s (s.dev.quiet.fault 8 0 4)) ∧
    (d.access .i2c R.BOOT_STAT.off false ≠ .absent →
      Gives (.i2cWrite ⟨mine, 4⟩ a ws part c) s
        (let d' := pointer (writes .i2c) (a.toNat + 4 * ws.length)
         if part = 0 then d' else size d' .i2c) ∧
      (∀ np : Fin 5, 0 < np.val → np.val < 4 → Gives (.i2cWrite ⟨mine, np⟩ a ws part c) s (size d .i2c)) ∧
      Gives (.i2cRead ⟨mine, n⟩ c) s (pointer (d.wordsRead .i2c d.host.i2cPtr n.toNat) (d.host.i2cPtr + 4 * n.toNat)) ∧
      Gives .i2cSclTimeout s (s.dev.quiet.fault 8 0 2)) ∧
    (∀ other np, other ≠ mine → Gives (.i2cWrite ⟨other, np⟩ a ws part c) s s.dev.quiet ∧
      Gives (.i2cRead ⟨other, n⟩ c) s s.dev.quiet)

/-- R328, R334, R340, R348, R353: PCIe. PERST_N disables every ring and takes the link down; its release and boot step 4 let it
train, on the lanes that no loop-back holds, and a link that came up enters L0 with its width and speed; leaving L0 afterwards is PCIE_LINK_DOWN. FLR and D3hot of a
function disable its rings; D3hot also masks its vectors. A register access that times out is recorded on its path. -/
def Obligations.PcieEvents : Prop :=
  ∀ (f : Fin 32) (width : Fin 3) (speed : Fin 4) (c : Cycle) (s : State),
    let d := s.dev.quiet
    let dc := d.atCycle c
    let off := fun (d : Dev) (p : Nat → Bool) => (List.range 256).foldl (fun (d : Dev) r =>
      if d.flag F.FRM_RING_CFG.ENABLE r && p (d.get F.FRM_RING_CFG.FUNC r) then d.ringDisable r else d) d
    let level := fun (d : Dev) =>
      let e := (off d fun _ => true).put F.HOST_PCIE_STAT.NUMVF 0
      { e with host := { e.host with d3 := [], msix := [], msixOn := [], msixMask := [] } }
    (let e := (((level (dc.pinSee 1 false)).put F.HOST_PCIE_STAT.L0 0).put F.HOST_PCIE_STAT.WIDTH 0).put F.HOST_PCIE_STAT.SPEED 0
     Gives (.perst c) s (({ e with host := { e.host with perst := true, trained := false } } : Dev).levelOff 258)) ∧
    (let e := d.pinSee 1 true
     Gives .perstRelease s { e with host := { e.host with perst := false } }) ∧
    (d.mayTrain = true → 2 ^ width.val + ((List.range 4).filter fun l => (d.loopDepth 4 l).isSome).length ≤ 4 →
      let e := ((d.put F.HOST_PCIE_STAT.L0 1).put F.HOST_PCIE_STAT.WIDTH (2 ^ width.val)).put F.HOST_PCIE_STAT.SPEED (speed + 1)
      Gives (.pcieLinkUp width speed) s (({ e with host := { e.host with trained := true } } : Dev).levelOff 258)) ∧
    (d.host.trained = true → Gives .pcieLinkLoss s ((d.put F.HOST_PCIE_STAT.L0 0).levelOn 258)) ∧
    Gives (.flr 0 c) s (level dc) ∧
    (f ≠ 0 →
      let e := (off dc fun g => g == f.val).grantUndo (512 + f)
      Gives (.flr f c) s { e with host := { e.host with
        d3 := e.host.d3.filter (· != f.val), msix := e.host.msix.filter fun m => m.1 / 16384 != f.val,
        msixOn := e.host.msixOn.filter (· != f.val), msixMask := e.host.msixMask.filter (· != f.val) } }) ∧
    (∃ d', Gives (.d3hotEntry f c) s d' ∧ let e := off dc fun g => g == f.val
      f.val ∈ d'.host.d3 ∧ (∀ g, g ∈ d'.host.d3 ↔ g = f.val ∨ g ∈ e.host.d3) ∧
      d' = { e with host := { e.host with d3 := d'.host.d3 } }) ∧
    (∀ (p : Path) (write : Bool), p.isHost = true →
      let e := ((d.incWrap F.HOST_PATH_STAT.COUNT p.code).put F.HOST_PATH_STAT.LAST 1 p.code).fault 8 0 1
      Gives (.hostAccessTimeout p write) s (if write then e else
        e.emit (.readData p.code [0xFFFFFFFF] (if p = .spi then 0xE1 else 1))))


/-- R104, R105, R193, R195, R199, R200, R203: the glitch filter removes a shorter pulse with both its edges, the prescaler passes every
DIV-th edge; a pin counts from boot step 12 on, while RESET_N is high, and in loop-back D4 nothing does (R357, R366). One that the channel's selection and the prescaler pass, at least 2.5 ns after the last one, counts and is
stamped with its time on LT less the channel's delay; codes C1 and C2 of the interpolator stand for 400 and 800 ps before
the second coarse edge after it. A nearer edge counts as lost. A drain takes a buffer's oldest record to its ring.
R196-R198: a calibration of a calibrating channel, of interpolator A in even ticks and B in odd ones, is accepted if its
gain is possible and within 1% of the previous one; otherwise STALE is set and TDC_CAL is raised. Both interpolators done,
a slot that waited for this channel alone goes on to ARMED, or to WAIT if it has an edge. -/
def Obligations.StampAndCalibrationResults : Prop :=
  (∀ (c : Fin 136) (coarse : Fin 2500) (code : BitVec 12) (falling : Bool) (pulse : BitVec 8) (c1 c2 : Nat) (s : State),
     let d0 : Dev := s.dev.quiet.atCycle (coarse / 2)
     let seen := fun (e : Dev) (pre : Nat) => e.setTdc c { e.tdc c with level := some (!falling), pre := pre }
     let d := seen d0 0
     let cmd : Instr := .tdcStamp c coarse code ⟨falling, pulse⟩
     let x := d.tdc c
     let xo := d.edgeXo c coarse code.toNat
     let cal := if d.tick % 2 = 0 then x.calB else x.calA
     let stale := if d.tick % 2 = 0 then x.staleB else x.staleA
     let at' := (roundDiv xo.1 xo.2).toNat
     let nth := (x.nth + 1) % max 1 (d.get F.TDC_CH_NTH.N c)
     let soon := ∃ l, x.last = some l ∧ at' < l + 10737418240
     (cal = some (c1, c2) → c1 < c2 →
       xo.1 * (5 * ((c2 : Int) - c1)) =
         xo.2 * 2 ^ 33 * ((d.tick * 2500 + coarse + 2 : Int) * (c2 - c1) - (code.toNat - (2 * c1 - c2)))) ∧
     let open' := (c.val < 40 → d0.loopDepth 0 c = none ∧ d0.pinsLive = true) ∧
       (40 ≤ c.val → c.val < 112 → d0.loopDepth 1 (c - 40) = none)
     (pulse.toNat < d0.glitch c → d0.loopDepth 0 c ≠ some 2 → Gives cmd s d0) ∧
     (d0.edgeComes c coarse falling pulse.toNat = false ∨ (c.val < 40 ∧ d0.loopDepth 0 c = some 3) → Gives cmd s d0) ∧
     (open' → d0.glitch c = 0 ∨ d0.glitch c ≤ pulse.toNat ∧ (d0.tdc c).level ≠ some (!falling) →
       d0.edgeComes c coarse falling pulse.toNat = true) ∧
     (d0.edgeComes c coarse falling pulse.toNat = true → d0.selfStamping c = false → d0.edgePasses c falling = true →
       c.val < 112 ∨ 128 ≤ c.val ∨ d0.evtPresents (c - 112) = true →
       let n := (d0.tdc c).pre + 1
       let counted := d.incWrap F.TDC_CH_STAT.EDGES c
       let heard := fun (e : Dev) (stamped : Bool) =>
         if c.val < 40 then e.inputEdge c at' (d.tick * 2500 + coarse) stamped else e
       (n < d0.chDiv c → Gives cmd s (seen d0 n)) ∧
       (d0.chDiv c ≤ n → cal = some (c1, c2) → ¬ soon → Gives cmd s
         ((heard (counted.setTdc c { x with nth := nth, last := some at' }) true).edgeStamped c (d.edgeLt xo c).toNat falling
           stale (nth == 0))) ∧
       (d0.chDiv c ≤ n → cal = some (c1, c2) → soon → Gives cmd s
         ((heard (counted.setTdc c { x with nth := nth, lost := true }) false).incSat F.TDC_CH_STAT.LOST c))) ∧
     (∀ b r, (s.dev.tdc c).burst = b :: r →
       Gives (.burstBufferDrain c) s ((s.dev.quiet.setTdc c { s.dev.tdc c with burst := r }).stampWrite c b))) ∧
  (∀ (c : Fin 136) (a1 a2 b1 b2 : BitVec 12) (s : State),
     let d := s.dev.quiet
     let x := d.tdc c
     let odd := decide (d.tick % 2 = 1)
     let ok := calAccepted (if odd then x.calB else x.calA) a1.toNat a2.toNat
     (d.calibrating c = true → ok = true →
       let y := if odd then { x with calB := some (a1.toNat, a2.toNat), staleB := false }
         else { x with calA := some (a1.toNat, a2.toNat), staleA := false }
       Gives (.tdcCalibration c a1 a2) s
         (((((d.setTdc c y).put F.TDC_CH_CAL.IP (b2n odd) c).put F.TDC_CH_CAL.C1 a1.toNat c).put F.TDC_CH_CAL.C2 a2.toNat c).put
           F.TDC_CH_CAL.STALE 0 c)) ∧
     (d.calibrating c = true → ok = false →
       let y := if odd then { x with staleB := true } else { x with staleA := true }
       Gives (.tdcCalibration c a1 a2) s (((d.setTdc c y).put F.TDC_CH_CAL.STALE 1 c).fault 160 c)) ∧
     (calAccepted x.calA a1.toNat a2.toNat = true → calAccepted x.calB b1.toNat b2.toNat = true →
       ∀ k0 : Fin 64, d.msState k0 = 1 → c.val ∈ (d.ms k0).cal →
       ∃ d', Gives (.armCalibrationDone c a1 a2 b1 b2) s d' ∧
         (d'.tdc c).calA = some (a1.toNat, a2.toNat) ∧ (d'.tdc c).calB = some (b1.toNat, b2.toNat) ∧
         (∀ k : Fin 64, d.msState k = 1 → (d.ms k).cal = [c.val] → (d'.ms k).cal = [] ∧
           d'.msState k = if (d.ms k).start.isSome || (d.ms k).stop.isSome then 3 else 2) ∧
         (∀ k : Fin 64, d.msState k ≠ 1 ∨ c.val ∉ (d.ms k).cal → d'.msState k = d.msState k ∧ d'.ms k = d.ms k)))

/-- R106, R107, R112, R116: a missed activity window fills the bucket, sets ACT_FAIL at REJECT, and the next window opens where it
ended; the observation timer ends once HOLDOFF or WTR seconds have passed in OBSERVE.
R108-R111: at the end of a frequency gate, once poisoned stamps have left it (R100), the offset in ppb is the exact quotient,
rounded and saturated; it is judged by the reject and accept limits, and the next gate begins. At the end of a suspect gate with a baseline, an input that is not suspect
becomes so if a sample steps away from the baseline or the slope jumps. -/
def Obligations.InputMonitorEvents : Prop :=
  (∀ (n : Fin 40) (c : Cycle) (s : State) (f : Nat),
     let d := s.dev.quiet
     let x := d.mon n
     let w := d.windowLen n x.winTol
     (d.inEnabled n = true → x.windowFrom = some f → f + w ≤ d.tick * 2500 + 2 * c + 2 →
       ∃ d', Gives (.activityWindowMissed n c) s d' ∧
         let y := d'.mon n
         let b := min 255 (x.bucket + d.get F.IN_ACT.FILL n)
         y.bucket = b ∧ y.actFail = (x.actFail || decide (d.get F.IN_ACT.REJECT n ≤ b)) ∧ y.windowFrom = some (f + w) ∧
         y.winTol = d.get F.IN_ACT.TOL n ∧ y.present = x.present ∧ y.edges = x.edges ∧ y.gateFirst = x.gateFirst ∧
         (∀ m : Fin 40, m ≠ n → d'.mon m = d.mon m) ∧ d' = { d with regs := d'.regs, mons := d'.mons, cycle := c.val } ∧
         (x.actFail = true → d'.regs = d.regs)) ∧
     (x.obsFrom = some f → d.get F.IN_STATE.STATE n = 2 →
       f + 10 ^ 6 * (if d.flag F.IN_STATE.EVER_GOOD n then d.get F.IN_QUAL.WTR n else d.get F.IN_QUAL.HOLDOFF n) ≤ d.tick + 1 →
       Gives (.observationComplete n) s (d.setMon n { x with obsDone := true }))) ∧
  (∀ (n : Fin 40) (s : State) (first : Nat × Nat) (line : Int × Int × Nat),
     let last := s.dev.quiet.atCycle 1249
     (let d := (List.range 40).foldl Dev.fmonRead last
      let x := d.mon n
      d.gateDue n = true → d.get F.IN_MON_CFG.BASIS n = 0 → x.gateFirst = some first → first.1 < x.gateLast → 1 ≤ x.gateK →
       0 < d.inNom n →
       let e : Int := x.gateK * (d.get F.IN_PRESCALE.DIV n * 2 ^ 48 * 10 ^ 9)
       let m : Nat := (x.gateLast - first.1) * d.inNom n
       let off := satSigned 32 (roundDiv (10 ^ 9 * (e - m)) m)
       let low := off < d.gets F.IN_FREJ_MIN.LIMIT n
       let high := d.gets F.IN_FREJ_MAX.LIMIT n < off
       ∃ d', Gives (.frequencyGateEnd n) s d' ∧ (d'.mon n).fmonOffset = ofSigned 32 off ∧
         (d'.mon n).fmonValid = true ∧ ((low ∨ high) → (d'.mon n).freqFail = true) ∧
         (¬ (low ∨ high) → d.gets F.IN_FACC_MIN.LIMIT n ≤ off ∧ off ≤ d.gets F.IN_FACC_MAX.LIMIT n → (d'.mon n).freqFail = false) ∧
         (d'.mon n).gateFrom = d.tick + 1 ∧ (d'.mon n).gateFirst = none ∧ (d'.mon n).gateK = 0) ∧
     (let d := last.susSample n
      let x := d.mon n
      let g := d.get F.IN_SUS_CFG.SUS_GATE n
      let samples := x.samples.filter fun p => d.tick + 1 - g ≤ p.1
      d.susGateDue n = true → x.baseline = some line → x.confirm = false → x.suspect = false → d.slowInput n = false →
       2 ≤ samples.length →
       let fit := Config.lineFit samples (d.tick + 1 - g)
       let steps := ∃ p ∈ samples, d.get F.IN_SUS_CFG.PSTEP n * 2 ^ 32 <
         (p.2 - (line.2.1 + line.1 * ((p.1 : Int) - line.2.2) / 2 ^ 16)).natAbs
       let jumps := d.get F.IN_SUS_CFG.FJUMP n * 2 ^ 48 < (fit.1 - line.1).natAbs * 10 ^ 6
       ∃ d', Gives (.suspectGateEnd n) s d' ∧ ((d'.mon n).suspect = true ↔ steps ∨ jumps) ∧ (d'.mon n).samples = [] ∧
         (¬ (steps ∨ jumps) → (d'.mon n).baseline = some (fit.1, fit.2, d.tick + 1 - g))))

/-- R205-R207, R209-R211, R213: commands and time limits of the measurement and statistics slots. ARM and START wait for the
boundary; ABORT ends a slot at once; a slot that waits past TIMEOUT ends in TIMEOUT, one in Deckle mode past its window in
NOSTOP; ABORT of a slot whose re-arm under REPEAT is pending ends it in ABORTED too. An end other than ABORTED raises the slot's event; every end reaches the statistics slots and the trace triggers. -/
def Obligations.MeasurementAndStatisticsSlots : Prop :=
  ∀ (p : Path) (k : Fin 64) (j : Fin 16) (c : Cycle) (s : State),
    let d := s.dev.quiet
    let dc := d.atCycle c
    let st := d.get F.TDC_MS_STAT.STATE k
    let x := d.ms k
    let busy := st = 1 ∨ st = 2 ∨ st = 3
    let ends := fun (d : Dev) (st : Nat) =>
      let e := (d.put F.TDC_MS_STAT.STATE st k).setMs k { d.ms k with rearm := st != 7, doneAt := some d.absCycle }
      ((if st = 7 then e else e.event (0x2C0 + k)).stFeed k none).trHit 4 k
    let limit : Int := x.base + d.get F.TDC_MS_TIMEOUT.VALUE k * 2 ^ 32
    (s.reaches p (R.TDC_MS_CMD.off k) → ¬ busy → Gives (.msArm p k) s (d.setMs k { x with cmdArm := true })) ∧
    (s.reaches p (R.TDC_MS_CMD.off k) → busy → Gives (.msAbort p k c) s (ends (dc.setMs k { x with cmdArm := false }) 7)) ∧
    (s.reaches p (R.TDC_MS_CMD.off k) → ¬ busy → x.rearm = true → d.flag F.TDC_MS_CFG.REPEAT k = true →
      x.doneAt ≠ some dc.absCycle →
      Gives (.msAbort p k c) s ((dc.setMs k { x with rearm := false, cmdArm := false }).put F.TDC_MS_STAT.STATE 7 k)) ∧
    (busy → d.flag F.TDC_MS_CFG.MODE k = false ∨ x.start = none → limit < d.ltEnd c →
      Gives (.measurementTimeout k c) s (ends dc 5)) ∧
    (∀ a, st = 1 ∨ st = 3 → d.flag F.TDC_MS_CFG.MODE k = true → x.start = some a →
      a.adj + (d.get F.TDC_MS_WCLOSE.VALUE k + 50) * 2 ^ 32 < d.ltEnd c → Gives (.deckleNostop k c) s (ends dc 6)) ∧
    (s.reaches p (R.TDC_ST_CMD.off j) →
      (d.get F.TDC_ST_STAT.STATE j ≠ 1 → Gives (.stStart p j) s (d.setSt j { d.st j with cmdStart := true })) ∧
      (d.get F.TDC_ST_STAT.STATE j = 1 → Gives (.stAbort p j c) s
        ((dc.put F.TDC_ST_STAT.STATE 3 j).setSt j { d.st j with again := false, cmdStart := false })))

/-- R215-R220: the trace recorders. ARM waits for the boundary; a trigger takes a recorder in PRE to POST and notes its tick, S32
and source; each record of the buffer goes to its entry of the capture ring; with POST records written the header and DONE
follow; REARM ends in PRE with AUTO, else in DONE; ABORT in PRE stops without a header. -/
def Obligations.TraceRecorders : Prop :=
  ∀ (p : Path) (r : Fin 4) (src : Fin 4) (ix : Fin 288) (c : Cycle) (s : State),
    let d := s.dev.quiet
    let dc := d.atCycle c
    let st := d.get F.TDC_TR_STAT.STATE r
    let x := d.tr r
    let post := fun (code : Nat) => (dc.put F.TDC_TR_STAT.STATE 2 r).setTr r
      { x with trigSrc := code, trigTick := d.tick % 2 ^ 32, trigS32 := dc.s32, queuedRun := false, trigAt := some dc.absCycle }
    (s.reaches p (R.TDC_TR_CMD.off r) → d.get F.TDC_TR_BUF.SIZE r ≠ 0 →
      Gives (.traceArm p r) s (d.setTr r { x with cmdArm := true })) ∧
    (st = 1 → Gives (.traceTrigger r none c) s (post 0xFFFF) ∧
      (d.get F.TDC_TR_CFG.TRIG r = src + 1 → d.get F.TDC_TR_CFG.INDEX r = ix.val →
        Gives (.traceTrigger r (some (src, ix)) c) s (post (src + 1 + 8 * ix.val)))) ∧
    (s.reaches p (R.TDC_TR_CMD.off r) → st = 1 →
      let e := (dc.put F.TDC_TR_STAT.STATE 0 r).setTr r { x with fifo := [], cmdArm := false, rearmEnd := none }
      Gives (.traceAbort p r c) s (e.setTr r { e.tr r with abortAt := some dc.absCycle })) ∧
    (∀ (after : Bool) (b : List Byte) (rest : List (Bool × List Byte)), x.fifo = (after, b) :: rest →
      0 < d.get F.TDC_TR_PRE.COUNT r + d.get F.TDC_TR_POST.COUNT r →
      let ring := d.get F.TDC_TR_PRE.COUNT r + d.get F.TDC_TR_POST.COUNT r
      let e := d.vatStore (d.get F.TDC_TR_BUF.GRANULE r * 4096 + 32 + 16 * (x.next % ring)) b
      Gives (.traceRecordWrite r) s (e.setTr r { x with
        fifo := rest, next := x.next + 1,
        pre := if after then x.pre else min (x.pre + 1) (e.get F.TDC_TR_PRE.COUNT r),
        post := if after then x.post + 1 else x.post })) ∧
    (st = 2 → d.get F.TDC_TR_POST.COUNT r ≤ x.post →
      let e := (d.trHeader r).incWrap F.TDC_TR_SEQ.SEQ r
      Gives (.traceCaptureDone r) s (((e.put F.TDC_TR_STAT.STATE 3 r).setTr r
        { x with fifo := [], rearmEnd := some (e.tick + 3), doneAt := some e.absCycle }).event (0x310 + r))) ∧
    (∀ t, st = 4 → x.rearmEnd = some t → t ≤ d.tick + 1 →
      (d.flag F.TDC_TR_CFG.AUTO r = false → x.cmdArm = false →
        Gives (.traceRearmEnd r) s ((d.setTr r { x with rearmEnd := none }).put F.TDC_TR_STAT.STATE 3 r)) ∧
      (d.flag F.TDC_TR_CFG.AUTO r = true → x.queue = none → ∃ d', Gives (.traceRearmEnd r) s d' ∧
        d'.get F.TDC_TR_STAT.STATE r = 1 ∧ (d'.tr r).fifo = [] ∧ (d'.tr r).pre = 0 ∧ (d'.tr r).post = 0 ∧ (d'.tr r).lost = 0))


/-- R136, R139-R141: rewind. START, ABORT and SPLICE wait for the next boundary: START while the loop's rewind is enabled, in
force and as last accepted, and FROM lies in the past, SPLICE in REPLAYED. A replay that has delivered the previous tick's stamp tick is REPLAYED; a splice whose
word equals the slot's ends in DONE at a boundary, whose cycle 0 stands for it (log entry 4), and row 3 of the table Loop transitions takes the loop
to the state of the restored record, a change that triggers recorders (R215). -/
def Obligations.RewindCommandsAndEnds : Prop :=
  ∀ (p : Path) (l : Fin 32) (excl : BitVec 8) (s : State),
    let d := s.dev.quiet
    let x := d.selx l
    let state := d.get F.SEL_RWD_STAT.RSTATE l
    (s.reaches p (R.SEL_RWD_CMD.off l) →
      (d.flag F.SEL_RWD_CFG.ENABLE l = true → d.getS F.SEL_RWD_CFG.ENABLE l ≠ 0 → d.get64 F.SEL_RWD_FROM_LO.FROM F.SEL_RWD_FROM_HI.FROM l < d.tick →
        Gives (.rewindStart p l excl) s (d.setSelx l { x with cmdStart := some excl.toNat })) ∧
      Gives (.rewindAbort p l) s (d.setSelx l { x with cmdAbort := true }) ∧
      (state = 2 → Gives (.rewindSplice p l) s (d.setSelx l { x with cmdSplice := true }))) ∧
    (state = 1 → x.start ≤ d.tick → d.tick ≤ x.next → Gives (.replayCaughtUp l) s (d.put F.SEL_RWD_STAT.RSTATE 2 l)) ∧
    (d.cycle = 0 → x.splicing = true → d.get F.LOOP_STATE.STATE l = 5 → d.vbad (d.loopBlock l + 16) 8 = false →
      satSigned 48 (toSigned 64 (d.vraw (d.loopBlock l + 16) 8)) = (d.loop l).applied →
      let done := ((d.put F.SEL_RWD_STAT.RSTATE 4 l).setSelx l { x with splicing := false, doneSeen := false }).put
        F.LOOP_STATE.STATE x.recLstate l
      let e := ((done.noteEntry l 5 x.recLstate none).enterLoop l 5 x.recLstate (d.loop l).applied).slalOwner l x.recLstate
      Gives (.spliceEnd l) s (if x.recLstate = 5 then e else e.trHit 2 l))

/-- R148-R150, R154: at the end of a lock gate its offset is recorded and, in ACQUIRE, counts towards lock by LOCK_PPB and LOCK_CNT;
the next gate begins. Without a sample or a selection for GAP ms a loop's reference is no longer in use, and COAST has lasted
its time after COAST ms. -/
def Obligations.LoopTimersAndGates : Prop :=
  ∀ (l : Fin 33) (s : State) (f : Nat) (off : Int),
    let d := s.dev.quiet
    let x := d.loop l
    (l.val < 32 → x.gateFrom = some f → f ≤ d.tick → f + d.get F.LOOP_GATE.GATE l * 1000 ≤ d.tick + 1 →
      let g := d.lockGateTick l
      g.lockOffset l = some off →
      ∃ d', Gives (.lockGateEnd l) s d' ∧ d'.get F.LOOP_FOFF.OFFSET l = ofSigned 32 (satSigned 32 off) ∧
        (d'.loop l).gateFrom = some (d.tick + 1) ∧ (d'.loop l).refFirst = none ∧ (d'.loop l).fbFirst = none ∧
        (d'.loop l).applied = x.applied ∧
        (d.get F.LOOP_STATE.STATE l = 1 →
          let run := if off.natAbs ≤ d.get F.LOOP_LOCK.LOCK_PPB l then x.lockRun + 1 else 0
          (d'.loop l).lockRun = run ∧ (d'.loop l).lockDecl = (x.lockDecl || decide (d.get F.LOOP_LOCK.LOCK_CNT l ≤ run)))) ∧
    (let gap := d.get F.LOOP_GATE.GAP l * 1000
     (∀ t, x.lastSample = some t → t + gap < d.tick) → (∀ t, x.selTick = some t → t + gap < d.tick) →
      Gives (.referenceGapExpiry l) s (d.put F.LOOP_STATE.INUSE 0 l)) ∧
    (d.get F.LOOP_STATE.STATE l = 3 → x.coastFrom ≤ d.tick → x.coastFrom + d.get F.LOOP_COAST.COAST l * 1000 ≤ d.tick + 1 →
      Gives (.coastTimerExpiry l) s (d.setLoop l { x with coastOver := true }))

/-- R156: every loop's record of the completed second goes to its place in the history pool: loop, then second modulo 7,200; the
record holds the second, the mean word, the mean temperature, the flags and the state. -/
def Obligations.HistoryRecordsAreWritten : Prop :=
  ∀ (s : State),
    let d := s.dev.quiet
    let place := fun (d : Dev) (l q : Nat) => d.get F.VAT_POOL_CFG.BASE 6 * 4096 + (l * 7200 + q % 7200) * 16
    let one := fun (d : Dev) (l : Nat) => match (d.loop l).histPrev with
      | none => d
      | some (q, h) => (d.setLoop l { d.loop l with histPrev := none }).vatStore (place d l q)
          (leBytes 4 (q % 2 ^ 32) ++ leBytes 6 (ofSigned 48 (roundDiv h.sum (max 1 h.n))) ++
            leBytes 2 (ofSigned 16 (roundDiv h.tempSum (max 1 h.tempN))) ++
            leBytes 1 (b2n (h.valid && h.n == 10 ^ 6) + 2 * b2n h.excl + 4 * b2n (h.tempN != 0)) ++ leBytes 1 h.state ++
            leBytes 2 0)
    Gives .historyRecordWrite s ((List.range 33).foldl one d) ∧
    (d.vat.ce = [] → d.vat.ue = [] → ∃ d', Gives .historyRecordWrite s d' ∧
      (∀ l q h, l < 33 → (d.loop l).histPrev = some (q, h) →
        (d'.loop l).histPrev = none ∧ d'.vraw (place d l q) 4 = q % 2 ^ 32) ∧
      (∀ a, (∀ l q h, l < 33 → (d.loop l).histPrev = some (q, h) → a < place d l q ∨ place d l q + 16 ≤ a) →
        Memory.read 0 d'.vat.mem a = Memory.read 0 d.vat.mem a) ∧ d'.regs = d.regs ∧ d'.engs = d.engs)

/-- R167-R171: SEARCH and ABORT wait for the next boundary. A hop from the band memory declares lock 8 ticks after its start and
notes its use; a search does so after 200 ticks and stores its result, or ends FAILED with SYN_UNLOCKED held. -/
def Obligations.HopCommandsAndLock : Prop :=
  ∀ (p : Path) (n : Fin 16) (locked core : Bool) (band : Fin 128) (vt : BitVec 8) (s : State),
    let d := s.dev.quiet
    let x := d.syn n
    let search := d.get F.SYN_STAT.SEARCH n
    let ends := fun (d : Dev) (code : Nat) (lock : Bool) =>
      ((d.put F.SYN_STAT.SEARCH code n).putB F.SYN_STAT.LOCK lock n).put F.SYN_TIME.TICKS
        (min 65535 (d.tick - (d.syn n).hopFrom)) n
    (s.reaches p (R.SYN_CMD.off n) →
      Gives (.synSearch p n) s (d.setSyn n { x with cmdSearch := true }) ∧
      Gives (.synAbort p n) s (d.setSyn n { x with cmdAbort := true })) ∧
    (search = 1 → x.hopFrom + 8 ≤ d.tick →
      let e := d.get F.SYN_STAT.ENTRY n
      Gives (.hopLock n locked core band vt) s
        (ends (d.bmStore n e ((d.bmBytes n e).take 12 ++ leBytes 4 (d.tick / 10 ^ 6 % 2 ^ 32))) 3 true)) ∧
    (search = 2 → x.hopFrom + 200 ≤ d.tick →
      let c := d.hopCore n core
      Gives (.hopLock n true core band vt) s
        (ends (((d.put F.SYN_STAT.CORE (b2n c) n).put F.SYN_STAT.BAND band n).bmResult n c band vt.toNat) 3 true) ∧
      Gives (.hopLock n false core band vt) s ((ends d 5 false).levelOn 131 n)) ∧
    ((search ≠ 1 ∧ search ≠ 2) ∨ d.tick < x.hopFrom + 8 → Gives (.hopLock n locked core band vt) s d)

/-- R174-R176, R179: at an output's low phase its gate follows what it should be, a new divider, source, or delay takes effect, and
a change of divider or source voids the alignment; the pins follow (R178); a bank whose supply differed for 8 ticks is a mismatch.
R177, R184, R335: what a gate should be: closed while outputs are held, without a format, in safe state 0 or without RUN or lock; in safe state 2 open once the pins carry
the divided XO. An image restart holds RUN at what it was until its step 12. -/
def Obligations.OutputLowPhaseResults : Prop :=
  (∀ (k : Fin 72) (b : Fin 9) (s : State),
     let d := s.dev.quiet
     let x := d.outc k
     (d.gateWant k = true → d.flag F.OUT_STAT.OPEN k = false →
       Gives (.outputGateOpen k) s ((d.put F.OUT_STAT.OPEN 1 k).driveNow k)) ∧
     (d.gateWant k = false → d.flag F.OUT_STAT.OPEN k = true →
       Gives (.outputGateClose k) s ((d.put F.OUT_STAT.OPEN 0 k).driveNow k)) ∧
     (x.d2 ≠ d.outD2 k →
       Gives (.outputDividerChange k) s ((d.setOutc k { x with d2 := d.outD2 k }).dphVoid k)) ∧
     (x.src ≠ d.srcWant k ∨ x.xo ≠ d.xoWant k →
       let e0 := if x.src = d.srcWant k then d else (d.setOutc k { x with src := d.srcWant k }).dphVoid k
       let e := e0.setOutc k { e0.outc k with xo := e0.xoWant k }
       Gives (.outputSourceSwitch k) s ((e.putB F.OUT_STAT.OPEN (e.gateWant k) k).driveNow k)) ∧
     (x.slipTo = none → Gives (.outputDelayChange k) s
       (d.setOutc k { x with fine := d.gets F.OUT_FINE.FINE k, coarse := d.get F.OUT_COARSE.COARSE k })) ∧
     (∀ c, x.slipTo = some c → ∃ d', Gives (.outputDelayChange k) s d' ∧ (d'.outc k).slipTo = none ∧
       d'.get F.OUT_COARSE.COARSE k = c % 2 ^ F.OUT_COARSE.COARSE.width ∧
       (d'.outc k).coarse = c % 2 ^ F.OUT_COARSE.COARSE.width ∧ (d'.outc k).fine = d.gets F.OUT_FINE.FINE k) ∧
     (8 ≤ Tbl.getD d.bankBad b 0 → Gives (.bankSupplyMismatch b) s ((d.put F.OB_STAT.MISMATCH 1 b).levelOn 133 b))) ∧
  (∀ (k : Fin 72) (d : Dev),
     let run := match d.boot.runs with
       | some m => bit m k
       | none => d.flag F.OUT_CFG.RUN k
     (d.boot.outsHeld = true → d.gateWant k = false) ∧
     (d.get F.OUT_CFG.FORMAT k = 0 → d.gateWant k = false) ∧
     (d.flag F.OUT_STAT.SAFE k = true → d.get F.OUT_STAT.SSTATE k = 0 → d.gateWant k = false) ∧
     (d.flag F.OUT_STAT.SAFE k = false → run = false → d.gateWant k = false) ∧
     (d.flag F.OUT_STAT.SAFE k = false → d.flag F.SYN_STAT.LOCK (d.outc k).src = false → d.gateWant k = false) ∧
     (d.boot.outsHeld = false → d.get F.OUT_CFG.FORMAT k ≠ 0 → d.flag F.OUT_STAT.SAFE k = true →
       d.get F.OUT_STAT.SSTATE k = 2 → (d.outc k).safeRun = true → d.gateWant k = (d.outc k).xo) ∧
     (d.boot.outsHeld = false → d.get F.OUT_CFG.FORMAT k ≠ 0 → d.flag F.OUT_STAT.SAFE k = false →
       run = true → (d.outc k).xo = false → d.flag F.SYN_STAT.LOCK (d.outc k).src = true →
       d.flag F.OUT_DPH_CFG.ENABLE k = false → d.gateWant k = true))

/-- R181, R182: a measuring window of AVG pairs ends: RESID is the rounded mean; far off, the output slips, or is out of RANGE while
it may not; near after a trim it is ALIGNED; else FINE starts to trim. A trim moves FINE by one step towards its target. -/
def Obligations.DeterministicPhaseSteps : Prop :=
  ∀ (k : Fin 72) (s : State) (dest : Int),
    let d := s.dev.quiet
    let x := d.outc k
    let e := d.dphHalfPs k
    let m := d.put F.OUT_DPH_STAT.RESID (ofSigned 16 (satSigned 16 e)) k
    let c : Instr := .dphMeasureEnd k
    let far := m.dphFar k
    (d.get F.OUT_DPH_STAT.STATE k = 2 → 0 < x.pairs → d.get F.OUT_DPH_CFG.AVG k ≤ x.pairs →
      (far = true → m.flag F.OUT_STAT.OPEN k = true → m.flag F.OUT_DPH_CFG.SLIP_RUN k = false → Gives c s (m.dphSet k 6)) ∧
      (far = true → m.flag F.OUT_STAT.OPEN k = false → Gives c s
        ((m.setOutc k { m.outc k with slipTo := some (m.dphSlipTo k) }).dphSet k 3)) ∧
      (far = false → x.trimmed = true → m.dphNear k = true → Gives c s
        (((m.setOutc k { m.outc k with trimTo := none }).dphWindow k).dphSet k 5)) ∧
      (far = false → x.trimmed = false → Gives c s
        ((m.setOutc k { m.outc k with trimTo := some (m.gets F.OUT_FINE.FINE k - e), trimTick := m.tick }).dphSet k 4))) ∧
    (let fine := d.gets F.OUT_FINE.FINE k
     let wait := if d.flag F.OUT_STAT.OPEN k then d.get F.OUT_DPH_RATE.TRIM_RATE k else 1
     d.get F.OUT_DPH_STAT.STATE k = 4 → x.trimTo = some dest → fine + 1 < dest → -512 ≤ fine → fine < 511 →
      x.trimTick + wait ≤ d.tick → ∃ d', Gives (.dphTrimStep k) s d' ∧ d'.gets F.OUT_FINE.FINE k = fine + 1 ∧
        (d'.outc k).trimTick = d.tick ∧ (d'.outc k).trimTo = some dest ∧ d'.get F.OUT_DPH_STAT.STATE k = 4)

/-- R187-R190: the Slalom generators. START waits for the boundary while the loop is FREE and PROFILE, as last accepted, names a profile; ABORT waits for
it; CLEAR does so outside RUN; a dwell that is over takes a running profile to its next segment, or to DONE after the last. -/
def Obligations.SlalomCommands : Prop :=
  ∀ (p : Path) (n : Fin 32) (s : State) (t : List Byte) (dwell : Nat),
    let d := s.dev.quiet
    let x := d.slal n
    let seg := d.get F.SLAL_STAT.SEG n
    (s.reaches p (R.SLAL_CMD.off n) →
      (d.get F.LOOP_STATE.STATE n = 0 → d.table (d.getA F.SLAL_CFG.PROFILE n) = some t → tableKind t = 4 →
        Gives (.slalomStart p n) s (d.setSlal n { x with cmdStart := true })) ∧
      Gives (.slalomAbort p n) s (d.setSlal n { x with cmdAbort := true }) ∧
      (d.get F.SLAL_STAT.RSTATE n ≠ 1 → Gives (.slalomClear p n) s (d.setSlal n { x with cmdClear := true }))) ∧
    (d.get F.SLAL_STAT.RSTATE n = 1 → x.dwell = some dwell → dwell ≤ d.tick + 1 →
      d.table (d.get F.SLAL_CFG.PROFILE n) = some t → tableKind t = 4 →
      let e := d.setSlal n { x with dwell := none }
      Gives (.slalomDwellEnd n) s (if seg + 1 < leAt t 2 1 then e.put F.SLAL_STAT.SEG (seg + 1) n
        else ((e.put F.SLAL_STAT.RSTATE 2 n).put F.SLAL_STAT.OWNER 0 n).setSlal n
          { x with dwell := none, doneAt := some (d.tick + 1) }))


/-- R16, R222: at a tick boundary the ended tick is closed, TICK_COUNT and LT advance, and the boundary actions follow in their
order; timers expire, periodic tasks are released unless dispatch is stopped (R312), and the base image's tasks run (log entry
102). With RESET_N low nothing runs but the sampling of the pins (R24); before TICK_COUNT runs what comes from outside is taken and a
device that waits to join goes on (R279); halted after a save, TICK_COUNT and LT advance too, and the synthesizers stop once the outputs
have (R304, R370). Outputs that are to stop do so first, in their time. -/
def Obligations.TickBoundaryOrder : Prop :=
  ∀ (i : TickIn) (s : State),
    let d := (s.dev.quiet.atCycle 0).outsCut
    (d.boot.low = true → Gives (.tickBoundary i) s (d.pinsSample i.pins)) ∧
    (d.boot.low = false → d.tickOn = false →
      let e := d.sample i
      Gives (.tickBoundary i) s (if e.boot.low = true then e else e.joinTick)) ∧
    (d.boot.low = false → d.tickOn = true → d.boot.halted = true →
      let e := ({ d with tick := d.tick + 1 } : Dev).ltAdvance
      e.tick = d.tick + 1 ∧ e.time.lt = d.time.lt + d.time.dlt ∧
      Gives (.tickBoundary i) s (e.lossBoundary.pinsSample i.pins)) ∧
    (d.boot.low = false → d.tickOn = true → d.boot.halted = false →
      let enables := (List.range 33).map fun l => (d.flag F.LOOP_CTRL.ENABLE l, d.flag F.LOOP_CTRL.FORCE_GLIDE l)
      let states := (List.range 33).map fun l => d.get F.LOOP_STATE.STATE l
      let e := d.tickEnd.sample i
      (e.boot.low = true → Gives (.tickBoundary i) s (e.atCycle 0)) ∧
      (e.boot.low = false →
        let started : Dev := ({ e with tick := e.tick + 1, cycle := 0 } : Dev).ltAdvance
        let acted := ((started.stageBoundary.accTake.each 32 (Dev.selKeep started)).bootTick.action3 enables).actions47
        let f := (acted.blocksAfter i states).hostsAfter i
        let g := (if f.flag F.FLT_STATE.STOPPED = true then { f with dispatchOn := false } else f).timersExpire
        started.tick = e.tick + 1 ∧ started.time.lt = e.time.lt + e.time.dlt ∧ started.time.prev = e.time.lt ∧
        ∃ d', Gives (.tickBoundary i) s (d'.baseBoundary.atCycle 0) ∧
          (g.dispatchOn = false → d' = g) ∧ (g.dispatchOn = true → d' = g.readyTick)))

/-- R223, R227-R229, R231, R240: a step of LT waits for the boundary, while TLOOP's SRC is 0 in force and as last accepted. A path's context commands wait there too, a later one in
place of an earlier one. A conversion gives c + floor(inc (s - lt) / dlt) inside the present tick, and 0 with CONV_RANGE
outside it and the previous one; a leap is scheduled only after the present time. -/
def Obligations.ContextCommands : Prop :=
  ∀ (p : Path) (step64 : BitVec 64) (t : BitVec 96) (sec : BitVec 48) (del : Bool) (s : State),
    let d := s.dev.quiet
    let n := d.get F.CTX_SEL.INDEX p.code
    let x := d.ctx n
    let waits := fun (k : CtxCmd) => d.setCtx n { x with cmd := some k }
    let set := d.get64 F.CTX_SET_NS_LO.VALUE F.CTX_SET_NS_HI.VALUE n * 2 ^ 32 + d.get F.CTX_SET_FRAC.VALUE n
    let by' := toSigned 64 (d.get64 F.CTX_STEP_LO.STEP F.CTX_STEP_HI.STEP n)
    let lt := t.toNat * 2 ^ 16
    let answer := fun (d' : Dev) (v : Nat) (out : Nat) =>
      d'.get F.CTX_STAT.CONV_RANGE n = out ∧
      d'.get F.CTX_CONV_OUT_NS_LO.VALUE p.code = v / 2 ^ 32 % 2 ^ 32 ∧
      d'.get F.CTX_CONV_OUT_NS_HI.VALUE p.code = v / 2 ^ 64 % 2 ^ 32 ∧
      d'.get F.CTX_CONV_OUT_FRAC.VALUE p.code = v % 2 ^ 32
    (s.reaches p R.TIME_LT_STEP_HI.off → d.get F.TLOOP_CFG.SRC = 0 → d.getA F.TLOOP_CFG.SRC = 0 →
      d.getS F.TLOOP_CFG.SRC = 0 →
      Gives (.ltStep p step64) s { d with time := { d.time with step := some step64.toInt } }) ∧
    (s.reaches p R.CTX_CMD.off →
      Gives (.ctxSet p) s (waits (.set set)) ∧ Gives (.ctxStep p) s (waits (.step by')) ∧
      Gives (.ctxSlew p) s (waits (.slew (d.get F.CTX_SLEW_TICKS.TICKS n))) ∧
      Gives (.ctxCancel p) s (waits .cancel) ∧ Gives (.ctxDisable p) s (waits .disable)) ∧
    (s.reaches p R.CTX_CONV_IN_NS_HI.off → ∃ d', Gives (.contextConversion p t) s d' ∧ d'.ctxs = d.ctxs ∧
      (d.time.lt ≤ lt → lt < d.time.lt + d.time.dlt → d.flag F.CTX_STAT.ENABLE n = true →
        answer d' (wrap96 (x.c + Int.fdiv (x.curInc * ((lt : Int) - d.time.lt)) (max 1 d.time.dlt))) 0) ∧
      (lt < d.time.prev ∨ d.time.lt + d.time.dlt ≤ lt → d.time.prev ≤ d.time.lt → answer d' 0 1)) ∧
    (s.reaches p R.CTX_LEAP_HI.off →
      (atOrAfter (d.ctxNow n) (wrap96 (secs sec.toNat)) = false → ∃ d', Gives (.leapArm p sec del) s d' ∧
        (d'.ctx n).leapCmd = some true ∧ d'.regs = d.regs ∧
        Tbl.find? d'.acc (R.CTX_LEAP_LO.key n) = some (BitVec.ofNat 32 sec.toNat) ∧
        Tbl.find? d'.acc (R.CTX_LEAP_HI.key n) =
          some (BitVec.ofNat 32 (sec.toNat / 2 ^ 32 + (if del then 2 ^ 16 else 0) + 2 ^ 31))) ∧
      ∃ d', Gives (.leapDisarm p sec del) s d' ∧ (d'.ctx n).leapCmd = some false ∧ d'.regs = d.regs)

/-- R226, R228, R229: boundary action 7 for a context whose entry is sound: c advances by inc; a pending STEP is added to that value,
a SET replaces it; a disabled context keeps its value.
R228, R231, R232, R243: the last tick of a slew completes it; a pending leap's flag is set exactly when its announce instant has
passed, and the leap is applied at its second, unless a SET or STEP of this boundary brought that about: UTC_OFFSET moves by one,
the flags clear and the open bins of its context carry LEAP. Open performance intervals close at a boundary, in cycle 0, if they
are due. -/
def Obligations.ContextStepperAndEvents : Prop :=
  (∀ (d : Dev) (n : Nat),
     let x := d.ctx n
     let y := (d.ctxBoundary n).ctx n
     let next := if d.flag F.CTX_STAT.ENABLE n then wrap96 (x.c + x.curInc) else x.c
     n < 4096 → d.vbad (d.ctxAddr n) 64 = false →
       y.cPrev = x.c ∧ y.prevInc = x.curInc ∧ y.cmd = none ∧ y.slewOver = false ∧
       (x.cmd = none → y.c = next ∧ y.fresh = false) ∧
       (∀ v, x.cmd = some (.set v) → y.c = v % 2 ^ 96 ∧ y.fresh = true) ∧
       (∀ by', x.cmd = some (.step by') → d.flag F.CTX_STAT.ENABLE n = true → y.c = wrap96 (next + by') ∧ y.fresh = true) ∧
       (x.cmd = some .disable → y.c = next ∧ (d.ctxBoundary n).flag F.CTX_STAT.ENABLE n = false)) ∧
  (∀ (n : Fin 4096) (s : State),
     let d := s.dev.quiet
     let x := d.ctx n
     let announce := wrap96 (secs (d.leapAt n) - (d.get F.CTX_UTC.ANNOUNCE n : Int) * secs 60)
     (d.get F.CTX_SLEW_LEFT.TICKS n = 1 →
       Gives (.slewComplete n) s (((d.put F.CTX_SLEW_LEFT.TICKS 0 n).put F.CTX_STAT.SLEWING 0 n).setCtx n
         { x with slewOver := true })) ∧
     (d.get F.CTX_STAT.LEAP n = 1 →
       let on := atOrAfter (d.ctxNow n) announce
       Gives (.leapAnnounce n) s
         ((d.putB F.CTX_STAT.LEAP59 (on && d.leapDel n) n).putB F.CTX_STAT.LEAP61 (on && !d.leapDel n) n)) ∧
     (d.get F.CTX_STAT.LEAP n ≠ 1 → Gives (.leapAnnounce n) s d ∧ Gives (.leapApply n) s d) ∧
     (d.get F.CTX_STAT.LEAP n = 1 → atOrAfter x.c (wrap96 (secs (d.leapAt n))) = true → x.fresh = false →
       ∃ d', Gives (.leapApply n) s d' ∧ d'.get F.CTX_STAT.LEAP n = 2 ∧ d'.get F.CTX_STAT.LEAP61 n = 0 ∧
         d'.get F.CTX_STAT.LEAP59 n = 0 ∧ (d'.ctx n).c = x.c ∧ (d'.ctx n).leapNow = true ∧
         d'.pi = (if d.pi.isOpen = true ∧ d.pi.ctx = n then (d.piFlag 1).pi else d.pi) ∧
         d'.get F.CTX_UTC.OFFSET n =
           ofSigned 16 (d.gets F.CTX_UTC.OFFSET n + (if d.leapDel n then -1 else 1))) ∧
     (d.pi.isOpen = true → d.cycle = 0 → Gives .performanceIntervalClose s (d.piDue (d.ctx d.pi.ctx).c)) ∧
     (d.pi.isOpen = false ∨ d.cycle ≠ 0 → Gives .performanceIntervalClose s d))

/-- R234-R237, R241, R366: ARM and STOP of an event port complete and wait for the boundary, ARM while its context, as last accepted,
is enabled and its rates are possible; else it is refused. PULSE_EDGE: an edge of the train, of one pulse or periodic, that falls in the
tick is emitted at its LT, counted, and starts the active phase of WIDTH; one that is late, or earlier than 32 cycles after the arm,
is counted in SKIPPED and raises its fault: a train goes on behind every edge that is late, a single pulse ends in MISSED.
The end of the active phase in the tick drives the pad back. A park that is over connects the new function, an input function only
once its pad was at idle; before, and before boot step 12 or with RESET_N low, nothing happens. -/
def Obligations.EventPortCommands : Prop :=
  ∀ (path : Path) (p : Fin 16) (s : State),
    let d := s.dev.quiet
    let x := d.evt p
    let n := d.get F.EVT_CFG.CTX p
    let t := d.edgeTime p x.k
    let lvl := !d.flag F.EVT_CFG.POL p
    (s.reaches path (R.EVT_CMD.off p) →
      (d.flag F.CTX_STAT.ENABLE (d.getA F.EVT_CFG.CTX p) = true → d.evtRateOk p = true →
        Gives (.evtArm path p) s (d.setEvt p { x with cmdArm := true, cmdStop := false })) ∧
      (d.flag F.CTX_STAT.ENABLE (d.getA F.EVT_CFG.CTX p) = false →
        Gives (.evtArm path p) s (d.refuse path.code (R.EVT_CMD.off p) .state)) ∧
      (d.flag F.CTX_STAT.ENABLE (d.getA F.EVT_CFG.CTX p) = true → d.evtRateOk p = false →
        Gives (.evtArm path p) s (d.refuse path.code (R.EVT_CMD.off p) .combination)) ∧
      Gives (.evtStop path p) s (d.setEvt p { x with cmdStop := true, cmdArm := false })) ∧
    (x.active = none →
      (x.func ≠ 1 ∨ (d.get F.EVT_STAT.STATE p ≠ 1 ∧ d.get F.EVT_STAT.STATE p ≠ 2) → Gives (.pulseEdge p) s d) ∧
      (x.func = 1 → d.get F.EVT_STAT.STATE p = 1 ∨ d.get F.EVT_STAT.STATE p = 2 →
        let skipped := fun (m : Nat) =>
          let e := (d.incSat F.EVT_STAT.SKIPPED p m).fault 164 p
          if e.flag F.EVT_CFG.PERIODIC p = true then e.setEvt p { e.evt p with k := (e.evt p).k + m } else e.put F.EVT_STAT.STATE 5 p
        (d.edgeIn n t = .eq → d.edgeEarly p n t = false →
          let y := { x with k := x.k + 1, active := some (wrap96 (t + d.get F.EVT_WIDTH.WIDTH p * 2 ^ 32)), rearmed := false }
          let e := ((d.setEvt p y).put F.EVT_STAT.STATE 2 p).incWrap F.EVT_COUNT.COUNT p
          Gives (.pulseEdge p) s (if x.level = lvl then e
            else (e.setEvt p { y with level := lvl }).emit (.edge p lvl (d.edgeAt n t)))) ∧
        (d.edgeIn n t = .eq → d.edgeEarly p n t = true → Gives (.pulseEdge p) s (skipped 1)) ∧
        (d.edgeIn n t = .gt → Gives (.pulseEdge p) s d) ∧
        (d.edgeIn n t = .lt → d.flag F.EVT_CFG.PERIODIC p = false → Gives (.pulseEdge p) s (skipped 1)) ∧
        (d.edgeIn n t = .lt → d.flag F.EVT_CFG.PERIODIC p = true → 1 ≤ d.edgesPast p n t ∧
          Gives (.pulseEdge p) s (skipped (d.edgesPast p n t))))) ∧
    (∀ e, x.active = some e → x.rearmed = false →
      (d.phaseIn p e = .gt → Gives (.pulseEdge p) s d) ∧
      (d.phaseIn p e ≠ .gt →
        let park := if x.func = 16 ∧ (x.want = 4 ∨ x.want = 5) then max x.parkEnd (d.tick + 3) else x.parkEnd
        let y := { x with active := none, stopping := false, rearmed := false, parkEnd := park, level := !x.level }
        let g := (d.setEvt p y).emit (.edge p (!x.level) (d.phaseAt p e))
        Gives (.pulseEdge p) s (if x.stopping = true then g.put F.EVT_STAT.STATE 4 p
          else if d.flag F.EVT_CFG.PERIODIC p = true then g else g.put F.EVT_STAT.STATE 3 p))) ∧
    (let ended := d.pinsLive = true ∧ x.active = none ∧ d.flag F.EVT_STAT.PARK p = true ∧ x.parkEnd ≤ d.tick ∧
       (inputFunc x.want = true → 0 < x.clean)
     (ended →
      let e := ((d.setEvt p { x with func := x.want, k := 0, stopping := false, cmdArm := false, cmdStop := false }).put
        F.EVT_STAT.PARK 0 p).put F.EVT_STAT.STATE 0 p
      let idle := if x.want = 5 then d.flag F.EVT_AUX.GPIO_OUT p else d.flag F.EVT_CFG.POL p
      let driven := x.want = 1 ∨ x.want = 3 ∨ x.want = 5 ∨ x.want = 6
      Gives (.evtParkEnd p) s (if driven then e.evtDrive p idle d.lt10ps else e).evtFaults) ∧
     (¬ ended → Gives (.evtParkEnd p) s d))

/-- R246, R248, R250, R253, R257, R263: a frame that arrives while its port is UP, and in no loop-back (R357), is counted, its FCS
and its form are checked, and it is parsed; one of Class B
to D takes cells and its entry, with the LT at which its stamp point passed, goes to the row's queue; one of Class A passes the
policer and waits to leave. -/
def Obligations.FrameReception : Prop :=
  ∀ (p : Fin 8) (f : List Byte) (fcs : BitVec 32) (before : Bool) (back : Fin 17) (c : Cycle) (at' : BitVec 16) (s : State),
    let d := if back.val = 0 then s.dev.quiet.atCycle c.val else s.dev.quiet
    let stamp := d.ltBack back c / 2 ^ 16 % 2 ^ 96
    let e := d.frmCount p 0
    let g := e.parseTouch
    let cmd : Instr := .frameReceive p f fcs before ⟨back, c⟩ at'
    let ok := decide (fcs.toNat = crc32 f)
    let open' := d.get F.FRM_PORT_STAT.STATE p = 1 ∨ (d.get F.FRM_PORT_STAT.STATE p = 2 ∧ before = true)
    let kept := fun (h : Dev) (k : FrmCells) =>
      ({ h with frm := { h.frm with
        allocs := h.frm.allocs ++ [k]
        handed := if h.inIngress (256 * k.first) then h.frm.handed else h.frm.handed.filter (· != 256 * k.first) } } : Dev).vatStore
        (256 * k.first) f
    (d.loopDepth 2 p ≠ none → Gives cmd s d) ∧
    (d.loopDepth 2 p = none → d.flag F.FLT_STATE.STOPPED = true → Gives cmd s d) ∧
    (d.loopDepth 2 p = none → d.flag F.FLT_STATE.STOPPED = false →
      (¬ open' → Gives cmd s (d.frmCount p 14)) ∧
      (open' → ok = false → Gives cmd s (e.frmCount p 4)) ∧
      (open' → ok = true → 10240 < f.length → Gives cmd s (e.frmCount p 5)) ∧
      (open' → ok = true → f.length ≤ 10240 → formatOk f = false → Gives cmd s (e.frmCount p 4)) ∧
      (open' → ok = true → f.length ≤ 10240 → formatOk f = true →
        (g.parse f = none → Gives cmd s (g.frmCount p 8)) ∧
        (∀ x, g.parse f = some x → x.action = 4 → Gives cmd s (g.frmCount p 8)) ∧
        (∀ x, g.parse f = some x → x.action ≠ 4 → x.cls ≠ 0 →
          (∀ k, g.cellsTake f.length false at'.toNat = some k →
            Gives cmd s ((kept g k).framePush x.queue (frameEntry (256 * k.first) f.length p x.cls stamp x.row x.ptp))) ∧
          (g.cellsTake f.length false at'.toNat = none → Gives cmd s ((g.frmCount p 6).fault 195))) ∧
        (∀ x, g.parse f = some x → x.action ≠ 4 → x.action ≠ 0 → x.cls = 0 → 2048 < f.length →
          Gives cmd s (g.frmCount p 5)) ∧
        (∀ x, g.parse f = some x → x.action ≠ 4 → x.cls = 0 → x.action = 0 ∨ f.length ≤ 2048 →
          let cost := (f.length + 24) * 10000
          let h := fun (left : Nat) =>
            ({ g with frm := { g.frm with tokens := Tbl.set g.frm.tokens p (left, g.absCycle) } } : Dev)
          (g.tokens p < cost → Gives cmd s (((h (g.tokens p)).frmCount p 3).fault 194)) ∧
          (∀ k, cost ≤ g.tokens p → x.action ≠ 0 → (h (g.tokens p - cost)).cellsTake f.length true at'.toNat = some k →
            Gives cmd s ((kept (h (g.tokens p - cost)) k).txPut
              ⟨p, 0, 256 * k.first, f.length, true, false, x.ptp, x.action, none, []⟩)))))

/-- R246, R251, R256, R258-R261, R263: a port launches its oldest frame of the lowest class letter; the egress stamp goes into its
steering header and the FCS follows its last byte. A one-step event message over L2 with a residence of 0 to 1 ms leaves with it added to the correctionField.
R357: a frame that a port in loop-back sends comes back to it, and its pins carry it only at D1.
R246, R250, R260, R267: PCS lock, lost and gained; a partial frame is dropped; two-step entries age; a drained port is OFF. -/
def Obligations.FrameTransmissionAndPortEvents : Prop :=
  (∀ (p : Fin 8) (c : Cycle) (s : State),
     let d := s.dev.quiet.atCycle c.val
     let e := d.egressPull
     (d.get F.FRM_PORT_STAT.STATE p = 0 ∨ d.flag F.FLT_STATE.STOPPED = true ∨ d.boot.halted = true → Gives (.frameTransmit p c) s d) ∧
     (d.get F.FRM_PORT_STAT.STATE p ≠ 0 → d.flag F.FLT_STATE.STOPPED = false → d.boot.halted = false →
       (e.nextFrame p = none → Gives (.frameTransmit p c) s e) ∧
       (∀ x, e.nextFrame p = some x → x.ring = none →
         let r := e.vatTouch x.addr x.len 4
         let sent := fun (o : List Byte) => Out.frame x.port (o ++ leBytes 4 (crc32 o))
         (e.vbad x.addr x.len = true →
           Gives (.frameTransmit p c) s (((r.txDrop x).cellsFree x.addr).frmCount p 4)) ∧
         (∀ depth, e.vbad x.addr x.len = false → r.loopDepth 2 x.port = some depth → x.cls ≠ 0 → x.insert = false →
           let o := r.egressHeader (r.vbytes x.addr x.len) r.t96
           let leaves := if depth = 0 then r.emit (sent o) else r
           Gives (.frameTransmit p c) s (((leaves.frmCount x.port 1).txDrop x).frameLoop x.port o r.t96)) ∧
         (e.vbad x.addr x.len = false → r.loopDepth 2 x.port = none →
           let f := r.vbytes x.addr x.len
           (x.cls ≠ 0 → x.insert = false →
             Gives (.frameTransmit p c) s (((r.emit (sent (r.egressHeader f r.t96))).frmCount x.port 1).txDrop x)) ∧
           (∀ t, x.cls = 0 → x.action = 1 → hdrStampValid f = true → r.frameTime f r.t96 = some t →
             let res := r.residence f t
             let o := x.ptp
             let g := replaceAt f (o + 8) (beBytes 8 (corrSum (toSigned 64 (beAt f (o + 8) 8)) (roundDiv res (2 ^ 16))))
             let h := r.frmCount x.port 2
             0 ≤ res → res ≤ 1000000 * 2 ^ 32 → ptpTwoStep f o = false → ptpAt f 1 ≠ some o → ptpAt f 2 ≠ some o →
               Gives (.frameTransmit p c) s
                 (((h.emit (sent (h.egressHeader g r.t96))).frmCount x.port 1).txDrop x)))))) ∧
  (∀ (p : Fin 8) (s : State),
     let d := s.dev.quiet
     let lost := (d.put F.FRM_PORT_STAT.PCS_LOCK 0 p).put F.FRM_PORT_STAT.FEC_LOCK 0 p
     let e := d.egressPull
     Gives (.pcsLockGained p) s (((d.put F.FRM_PORT_STAT.PCS_LOCK 1 p).put F.FRM_PORT_STAT.FEC_LOCK
       (d.get F.FRM_PORT_CFG.FEC p) p).levelOff 193 p) ∧
     Gives (.pcsLockLost p) s
       (if d.get F.FRM_PORT_STAT.STATE p = 1 then lost.levelOn 193 p else lost.levelOff 193 p) ∧
     (d.get F.FRM_PORT_STAT.STATE p ≠ 0 → Gives (.frameReassemblyTimeout p) s ((d.frmCount p 7).fault 8 0 6)) ∧
     Gives .twoStepEntryAge s { d with frm := { d.frm with
       two := d.frm.two.filter fun x => decide (d.tick ≤ x.since + d.get F.FRM_CFG.FU_AGE * 1000) } } ∧
     (d.get F.FRM_PORT_STAT.STATE p = 2 → d.get F.FRM_PORT_STAT.DRAIN_LEFT p ≤ 1 → (∀ x ∈ e.frm.txs, x.port ≠ p) →
       Gives (.portDrainEnd p) s
         (((({ e with frm := { e.frm with two := e.frm.two.filter fun x => x.port != p.val } } : Dev).put
           F.FRM_PORT_STAT.STATE 0 p).put F.FRM_PORT_STAT.DRAIN_LEFT 0 p).levelOff 193 p)))

/-- R20, R264-R266: outside LEAN a transmit descriptor with OWN set is in progress until its frame has come; the frame then lies in
cells, poisoned if it came poisoned, and waits in Class B of its port; or the descriptor completes with its error.
A receive descriptor takes the next frame of the ring's queue into its buffer; a missing completion and a cleared ENABLE end the
descriptor in progress with their status. -/
def Obligations.DmaRings : Prop :=
  ∀ (path : Path) (r : Fin 256) (desc f : List Byte) (got poison : Bool) (c : Cycle) (at' : BitVec 16) (s : State),
    let d := s.dev.quiet
    let e := d.atCycle c.val
    let read := Tbl.find? d.frm.reads r
    let used := read.getD (sliceB desc 0 32)
    let ready := fun (rx : Nat) => d.get F.SYS_PROFILE.ACTIVE ≠ 3 ∧ d.flag F.FRM_RING_CFG.ENABLE r = true ∧ d.get F.FRM_RING_CFG.DIR r = rx ∧
      d.get F.FRM_RING_HEAD.INDEX r ≠ d.get F.FRM_RING_TAIL.INDEX r
    let free := ∀ x ∈ d.frm.txs, x.ring ≠ some r.val
    let own := bit (leAt used 11 1) 0 = true
    let len := leAt used 8 2
    let port := leAt used 10 1
    let fetch : Instr := .dmaDescriptorFetch r desc ⟨f, got, at'⟩ poison c
    let noRead := fun (h : Dev) => h.setRead r none
    (ready 0 → free → own →
      (len < 76 ∨ 2048 < len → Gives fetch s ((noRead e).descDone r used none none 0 5)) ∧
      (76 ≤ len → len ≤ 2048 →
        (8 ≤ port ∨ e.get F.FRM_PORT_STAT.STATE port ≠ 1 → Gives fetch s ((noRead e).descDone r used none none 0 1)) ∧
        (port < 8 → e.get F.FRM_PORT_STAT.STATE port = 1 →
          (got = false ∨ e.cellsTake len false at'.toNat = none → Gives fetch s (e.setRead r (some used))) ∧
          (∀ k, got = true → e.cellsTake len false at'.toNat = some k →
            let h := (noRead e).cellsFill k (sliceB f 0 len)
            let h := if poison then { h with vat := { h.vat with ue := h.vat.ue ++ [256 * k.first / 8] } } else h
            Gives fetch s { h with frm := { h.frm with txs := h.frm.txs ++
              [⟨port, 1, 256 * k.first, len, true, bit (leAt used 11 1) 2, 0, 0, some r.val, used⟩] } })))) ∧
    (let rx := sliceB desc 0 32
     let len := leAt rx 8 2
     let q := d.get F.FRM_RING_CFG.QUEUE r
     let y := e.qdesc q
     let entry := e.vbytes (y.entryAddr y.head) 32
     let data := e.vbytes (leAt entry 0 4) (leAt entry 4 2)
     let stamp := leAt entry 8 4 + leAt entry 12 8 * 2 ^ 32
     let n := min len data.length
     let t := if e.qEnabled q && decide (0 < y.fill) then e.vatTouch (leAt entry 0 4) (leAt entry 4 2) 4 else e
     ready 1 → bit (leAt rx 11 1) 0 = true → y.cons = 0x1100 + r.val → e.vbad (leAt entry 0 4) (leAt entry 4 2) = false →
       (∀ g l, t.qPop q = (g, some l) → Gives (.dmaReceive r desc c) s
         ((g.emit (.hostWrite (g.get F.FRM_RING_CFG.FUNC r) (leAt rx 0 8) (data.take n))).descDone r rx
           (some (leAt entry 6 1)) (some stamp) n (if len < data.length then 3 else 0))) ∧
       (∀ g, t.qPop q = (g, none) → Gives (.dmaReceive r desc c) s g)) ∧
    (ready 0 ∨ ready 1 → free →
      Gives (.dmaReadTimeout r desc) s (((noRead d).descDone r used none none 0 2).fault 8 0 7)) ∧
    (s.reaches path (R.FRM_RING_CFG.off r) →
      (∀ x, e.frm.txs.find? (fun x => x.ring == some r.val) = some x →
        Gives (.ringDisable path r c) s (((e.txDrop x).descDone r x.desc none none 0 4).put F.FRM_RING_CFG.ENABLE 0 r)) ∧
      (∀ b, free → read = some b →
        Gives (.ringDisable path r c) s (((noRead e).descDone r b none none 0 4).put F.FRM_RING_CFG.ENABLE 0 r)) ∧
      (free → read = none → Tbl.find? e.frm.lastDone r = none →
        Gives (.ringDisable path r c) s (e.put F.FRM_RING_CFG.ENABLE 0 r)) ∧
      (∀ a b, free → read = none → Tbl.find? e.frm.lastDone r = some (e.absCycle, a, b) →
        Gives (.ringDisable path r c) s ((e.emit (.hostWrite (e.get F.FRM_RING_CFG.FUNC r) a (replaceAt b 30 [0x80]))).put
          F.FRM_RING_CFG.ENABLE 0 r)))


/-- R269-R271, R278, R282, R285, R357: blocks and tick frames. Each tick a link without block lock sends IDLE, one with it a frame, whose
SYNC and END follow what a boot transfer sends; received blocks pass the descrambler and their headers count. A frame is judged at
its END: a good one is kept whole, a missed or bad one counts. A bulk burst with a good CRC is kept; the mailbox names the first of
those that came bad, in a form that is free (log entry 2), until none is. -/
def Obligations.TickFramesAndBursts : Prop :=
  ∀ (k : Fin 8) (fill frame rest : List Block) (s : State),
    let d := s.dev.quiet
    let bl := fill ++ frame ++ rest
    let e := (d.atCycle 64).exportTouch
    let quiet := d.flag F.FLT_STATE.STOPPED = true ∨ d.boot.low = true ∨ d.boot.halted = true
    let hears := d.flag F.KL_LINK_CFG.ENABLE k = true ∧ d.loopDepth 3 k = none
    let r := Dev.blocksTake k d bl
    (quiet → Gives .tickFrameSend s d) ∧
    (¬ quiet → Gives .tickFrameSend s ((List.range 8).foldl (fun (h : Dev) j =>
      if h.flag F.KL_LINK_CFG.ENABLE j = false then h
      else if h.get F.KL_LINK_STAT.STATE j = 0 then h.linkSend j none
      else
        let g := h.linkSend j (some (h.klFrame j e.t96))
        g.setKlink j { g.klink j with
          count := ((g.klink j).count + 1) % 2 ^ 16, txs := ((g.tick32, e.t96) :: (g.klink j).txs).take 64 }) e)) ∧
    (¬ quiet → (∀ j, e.loopDepth 3 j = none) → ∃ d', Gives .tickFrameSend s d' ∧ d'.regs = e.regs ∧
      ∀ j : Fin 8,
        let y := e.klink j
        (e.flag F.KL_LINK_CFG.ENABLE j = false → d'.klink j = y) ∧
        (e.flag F.KL_LINK_CFG.ENABLE j = true → e.get F.KL_LINK_STAT.STATE j = 0 →
          let out := sendBlocks y.txScr (List.replicate (156 + b2n (e.tick % 4 == 0)) ⟨true, leBytes 8 0x1E⟩)
          .blocks j out.1 ∈ d'.outs ∧ d'.klink j = { y with txScr := out.2 }) ∧
        (e.flag F.KL_LINK_CFG.ENABLE j = true → e.get F.KL_LINK_STAT.STATE j ≠ 0 →
          (d'.klink j).count = (y.count + 1) % 2 ^ 16 ∧ (d'.klink j).txs = ((e.tick32, e.t96) :: y.txs).take 64 ∧
          .blocks j (sendBlocks y.txScr (e.linkFill (e.burstNext j).1 57 ++ frameBlocks (e.klFrame j e.t96))).1 ∈ d'.outs)) ∧
    (¬ hears → Gives (.tickFrameReceive k fill frame rest) s d ∧ Gives (.bulkBurstReceive k fill frame rest) s d) ∧
    (hears →
      (frameOf r.2 = none → Gives (.tickFrameReceive k fill frame rest) s r.1) ∧
      (∀ sync b whole, frameOf r.2 = some (sync, b, whole) →
        let h := (Dev.blocksTake k d (bl.take (frameEnd r.2))).1
        let x := h.klink k
        let state := h.get F.KL_LINK_STAT.STATE k
        let missed := h.setKlink k { x with good := 0, missed := x.missed + 1, seen := true, mism := 0 }
        let gives := fun (g : Dev) => Gives (.tickFrameReceive k fill frame rest) s (Dev.blocksTake k g (bl.drop (frameEnd r.2))).1
        (state = 0 → gives h) ∧
        (state ≠ 0 → whole = false → gives missed) ∧
        (state ≠ 0 → whole = true → leAt b 436 4 ≠ crc32 (b.take 436) → gives (missed.fault 230)) ∧
        (state ≠ 0 → whole = true → leAt b 436 4 = crc32 (b.take 436) → ∃ d', gives d' ∧
          let y := d'.klink k
          y.body = b ∧ y.sync = sync ∧ y.rxTick = some d.tick ∧ y.rxStamp = (d.tdc (128 + k)).stamp ∧
          y.rxCount = some (leAt sync 6 2) ∧ y.good = x.good + 1 ∧ y.missed = 0 ∧
          d'.get F.KL_LINK_STAT.PEER k = leAt sync 1 1 % 8 ∧
          d'.get F.KL_LINK_STAT.STATE k = (if state = 1 then 2 else state) ∧
          ∀ i, i < 440 → Memory.read 0 d'.vat.mem (d.get F.KL_RX_BASE.BASE * 512 + 512 * k + i) = b.getD i 0)) ∧
      (∀ i data good, burstOf r.2 = some (i, data, good) →
        let kl := r.1.kl
        let bad := kl.badBursts
        let kept : Dev := { r.1 with kl := { kl with bulk := Tbl.set kl.bulk i data, badBursts := bad.filter (· != i) } }
        let name := fun (j : Nat) => Config.badBurst (BitVec.ofNat 24 j)
        (good = true → bad.contains i = false → Gives (.bulkBurstReceive k fill frame rest) s kept) ∧
        (good = true → bad.contains i = true → Gives (.bulkBurstReceive k fill frame rest) s
          (kept.mailbox (match kept.kl.badBursts with
            | [] => 0
            | j :: _ => name j))) ∧
        (good = false → Gives (.bulkBurstReceive k fill frame rest) s
          (({ r.1 with kl := { kl with badBursts := if bad.contains i then bad else bad ++ [i] } } : Dev).mailbox
            (name (bad.headD i)))))) ∧
    (d.get F.KL_LINK_STAT.STATE k = 3 → d.klLooped k = false → 3 ≤ (d.klink k).mism →
      Gives (.watermarkMismatch k) s ((d.put F.KL_GEN.MISMATCH (d.get F.KL_GEN.MISMATCH ||| 2 ^ k.val)).levelOn 227 k))

/-- R269, R271, R273: the states of a link: block lock comes with 64 consecutive valid sync headers and goes with 16 invalid ones
among the last 64; 16 good frames bring it UP and 3 missed ones take it DOWN; and its swap procedure: CAL waits for a tick at least 16
ticks ahead; the pairs are swapped after 1,024 ticks and restored after 2,048, when ASYM gains half the difference of the two means. -/
def Obligations.LinkStatesAndCalibration : Prop :=
  ∀ (p : Path) (k : Fin 8) (s30 : BitVec 30) (b : Block) (bl : List Block) (s : State),
    let d := s.dev.quiet
    let x := d.klink k
    let state := d.get F.KL_LINK_STAT.STATE k
    let cal := d.get F.KL_LINK_STAT.CAL k
    let ahead := (s30.toNat + 2 ^ 30 - d.tick % 2 ^ 30) % 2 ^ 30
    let hears := d.flag F.KL_LINK_CFG.ENABLE k = true ∧ d.loopDepth 3 k = none
    (state = 2 → x.lock = true → 16 ≤ x.good →
      Gives (.linkUp k) s ((d.put F.KL_LINK_STAT.STATE 3 k).setKlink k { x with newUp := true })) ∧
    (state ≠ 0 → 3 ≤ x.missed →
      let e := ((d.put F.KL_LINK_STAT.STATE 0 k).setKlink k { x with good := 0, missed := 0, lock := false, mism := 0 }).wmAgree k
      Gives (.linkDown k) s
        ((((if cal = 1 ∨ cal = 2 then (e.put F.KL_LINK_STAT.CAL 4 k).fault 229 else e).rrefsLost k).fault 224 k).fault 8 0 5)) ∧
    (¬ hears → Gives (.blockLockGained ⟨k, bl⟩) s d ∧ Gives (.blockLockLost ⟨k, bl⟩) s d) ∧
    (hears →
      let descrambled := b.payload ^^^ ((b.payload ++ x.rxScr) >>> 19).setWidth 64 ^^^ (b.payload ++ x.rxScr).setWidth 64
      let valid := b.head = 0b01 ∨ b.head = 0b10
      let heads := x.heads <<< 1 ||| (if valid then 0 else 1)
      let seen : KlLink := { x with
        rxScr := (b.payload >>> 6).setWidth 58, run := if valid then min 64 (x.run + 1) else 0, heads := heads }
      let bad := (List.range 64).countP fun i => heads.getLsbD i
      Gives (.blockLockGained ⟨k, bl⟩) s (Dev.blocksTake k d bl).1 ∧ Gives (.blockLockLost ⟨k, bl⟩) s (Dev.blocksTake k d bl).1 ∧
      (d.blockTake k b).2 = ⟨decide (b.head = 0b10), leBytes 8 descrambled.toNat⟩ ∧
      (x.lock = false → seen.run = 64 →
        let e := d.setKlink k { seen with lock := true, heads := 0 }
        Gives (.blockLockGained ⟨k, [b]⟩) s (if state = 0 then e.put F.KL_LINK_STAT.STATE 1 k else e)) ∧
      (x.lock = true → 16 ≤ bad →
        let e := d.setKlink k { seen with lock := false, run := 0 }
        Gives (.blockLockLost ⟨k, [b]⟩) s (if state = 1 then e.put F.KL_LINK_STAT.STATE 0 k else e)) ∧
      (x.lock = true → bad < 16 → Gives (.blockLockLost ⟨k, [b]⟩) s (d.setKlink k seen)) ∧
      (x.lock = false → seen.run < 64 → Gives (.blockLockGained ⟨k, [b]⟩) s (d.setKlink k seen))) ∧
    (s.reaches p (R.KL_LINK_CMD.off k) →
      (16 ≤ ahead → ahead < 2 ^ 29 → Gives (.linkCal p k s30) s (d.setKlink k { x with cmdCal := some (d.tick + ahead) })) ∧
      Gives (.linkCalAbort p k) s (d.setKlink k { x with cmdAbort := true })) ∧
    (cal = 1 → x.calS + 1024 ≤ d.tick + 1 → Gives (.linkCalSwap k) s
      ((d.put F.KL_LINK_STAT.CAL 2 k).setKlink k { x with thetaN := roundDiv x.calSum (max 1 x.calN), calSum := 0, calN := 0 })) ∧
    (cal = 2 → x.calS + 2048 ≤ d.tick + 1 →
      let asym := d.gets F.KL_LINK_ASYM.VALUE k + roundDiv (x.thetaN - roundDiv x.calSum (max 1 x.calN)) 2
      Gives (.linkCalEnd k) s
        ((d.put F.KL_LINK_ASYM.VALUE (ofSigned 32 (satSigned 32 asym)) k).put F.KL_LINK_STAT.CAL 3 k))

/-- R277, R279-R281: a device that waited JOIN_WAIT without a lead becomes lead if its (PRIO, DEV) is the lowest; one with an upstream
joins with the tick, time and epoch of its frame; the published successor takes over from a lost lead, its system clock at the frequency
held; a follower without contact splits, and rejoins when a link that has come up shows its own tick within 500 ns. A follower's system PLL steers the offset of its
upstream link to 0, and holds while that link's pairs are swapped. -/
def Obligations.GroupLifecycle : Prop :=
  ∀ (s : State),
    let d := s.dev.quiet
    let role := d.get F.KL_GROUP_STAT.ROLE
    let dev := d.get F.KL_CFG.DEV
    let joining := d.flag F.KL_CFG.GROUP = true ∧ role = 0
    let lead := fun (e : Dev) => e.get F.KL_GROUP_STAT.ROLE = 1 ∧ e.get F.KL_GROUP_STAT.LEAD = dev ∧
      e.get F.KL_GROUP_STAT.HOPS = 0 ∧ e.get F.KL_GROUP_STAT.NEXT_VALID = 0 ∧
      e.get F.KL_GROUP_STAT.LEPOCH = (d.get F.KL_GROUP_STAT.LEPOCH + 1) % 256 ∧ e.tick = d.tick
    (joining → d.get F.KL_CFG.JOIN_WAIT * 1000 ≤ d.kl.wait →
      (∀ h ∈ d.kl.heard, d.get F.KL_CFG.PRIO * 8 + dev ≤ h.1 * 8 + h.2) →
      ∃ d', Gives .leadElection s d' ∧ lead d' ∧ d'.tickOn = true ∧ d'.time = Time.reset) ∧
    (∀ k, joining → d.bestUp = some k → ∃ d', Gives .join s d' ∧
      let b := (d.klink k).body
      let w := toSigned 48 (leAt b 36 6)
      d'.tickOn = true ∧ d'.tick = leAt (d.klink k).sync 2 4 + 1 ∧ d'.time.lt = leAt b 24 12 * 2 ^ 16 + dltOf w ∧
      d'.time.dlt = dltOf w ∧ d'.get F.KL_GROUP_STAT.ROLE = 2 ∧ d'.get F.KL_GROUP_STAT.LEPOCH = leAt b 22 1 ∧
      d'.get F.KL_GROUP_STAT.LEAD = leAt b 21 1 % 8 ∧ d'.get F.KL_GROUP_STAT.UPSTREAM = k ∧
      d'.kl.pll = .steer ∧ d'.get F.KL_GROUP_STAT.HOPS = min 15 (leAt b 20 1 % 16 + 1)) ∧
    (role = 2 → d.flag F.KL_GROUP_STAT.NEXT_VALID = true → d.get F.KL_GROUP_STAT.NEXT = dev →
      (∀ k, k < 8 → d.linkUp k = true → klDev (d.klink k) ≠ d.get F.KL_GROUP_STAT.LEAD) →
      (∀ k ∈ d.framesOf (d.tick - 1), klDirect (d.klink k) = false) →
      ∃ e, lead e ∧ e.time = d.time ∧ e.kl.pll = .xoHeld ∧ e.kl.adj = 0 ∧ Gives .leadFailover s (e.fault 225)) ∧
    (role = 2 → (∀ k, k < 8 → d.linkUp k = false) ∨ d.kl.lastLead + d.get F.KL_CFG.DEPTH + 3 < d.tick →
      Gives .split s ((d.put F.KL_GROUP_STAT.ROLE 3).levelOn 226)) ∧
    (∀ k, k < 8 → role = 3 → d.linkUp k = true → (d.klink k).newUp = true → (d.klink k).rxTick = some (d.tick - 1) →
      klTick (d.klink k) = (d.tick - 1) % 2 ^ 32 →
      klHops (d.klink k) < 15 → (d.gets F.KL_LINK_OFFSET.VALUE k).natAbs ≤ 500 * 2 ^ 16 →
      ∃ d', Gives .rejoin s d' ∧ d'.get F.KL_GROUP_STAT.ROLE = 2 ∧ d'.kl.lastLead = d.tick ∧ d'.kl.pll = .pullIn ∧
        d'.tick = d.tick ∧ d'.time = d.time) ∧
    (role = 2 →
      let up := d.get F.KL_GROUP_STAT.UPSTREAM
      let off := d.gets F.KL_LINK_OFFSET.VALUE up
      let frame := d.linkUp up = true ∧ (d.klink up).rxTick = some (d.tick - 1)
      d.pllBoundary.regs = d.regs ∧
      (d.get F.KL_LINK_STAT.CAL up = 2 ∨ ¬ frame → d.pllBoundary.kl.adj = 0 ∧
        (d.kl.pll ≠ .pullIn → d.pllBoundary.kl.pll = .hold)) ∧
      (d.get F.KL_LINK_STAT.CAL up ≠ 2 → frame → d.kl.pll ≠ .pullIn ∨ off.natAbs ≤ 2 ^ 16 →
        d.pllBoundary.kl.pll = .steer ∧ d.pllBoundary.kl.adj = -off) ∧
      (d.get F.KL_LINK_STAT.CAL up ≠ 2 → frame → d.kl.pll = .pullIn → 2 ^ 16 < off.natAbs →
        d.pllBoundary.kl.pll = .pullIn ∧ d.pllBoundary.kl.adj = (if 0 < off then -(2 ^ 16) else 2 ^ 16)))


/-- R291-R296: Ream commands. READ, PROGRAM and ERASE start when the controller is free and the command is allowed; a READ's good groups
reach the Vat; a PROGRAM puts the Vat's bytes, context entries as they stand (R225), into its page, wrapping inside it; an ABORT leaves the first n groups programmed and the
next one free (log entry 2).
R298, R317, R387: an erase goes on from ERASES of an open INTENT; a fault-log record that is being written makes the controller busy; a
region counts as the open change leaves it, too. -/
def Obligations.ReamCommands : Prop :=
  ∀ (p : Path) (n17 : BitVec 17) (n : BitVec 6) (c : Cycle) (s : State) (addr len vat : Nat),
    let d := s.dev.quiet
    let ended := fun (e : Dev) (st code : Nat) =>
      ({ (e.put F.REAM_STAT.STATE st).put F.REAM_STAT.CODE code with
        ream := { e.ream with cmd := none, doneAt := some e.absCycle } } : Dev)
    (s.reaches p R.REAM_CMD.off → addr = d.get F.REAM_ADDR.ADDR p.code → vat = d.get F.REAM_VAT.OFFSET p.code →
      d.flag F.FLT_STATE.STOPPED = false →
      let start := fun (op len : Nat) => ({ (d.put F.REAM_STAT.STATE 1).put F.REAM_STAT.ABORT_LATE 0 with
        ream := { d.ream with cmd := some ⟨op, addr, len, vat⟩ } } : Dev)
      let idle := d.ream.cmd = none ∧ d.ream.save = none ∧ d.ream.arm = none ∧ d.logBusy = false
      let inVat := vat % 8 = 0 ∧ vat + n17.toNat ≤ 2 ^ 26
      let mayWrite := ∀ r, d.regionOf (addr / 4096) = some r ∨ d.regionOfS (addr / 4096) = some r → r ≠ 0 ∧ r ≠ 9 ∧
        (d.flag F.REAM_STAT.NVWP = true → d.flag F.REAM_RGN_CFG.PROTECT r = false ∧ d.getS F.REAM_RGN_CFG.PROTECT r ≠ 1)
      (8 ≤ n17.toNat → n17.toNat ≤ 65536 → n17.toNat % 8 = 0 → addr % 8 = 0 → inVat → addr + n17.toNat ≤ 2 ^ 20 →
        (idle → d.ream.half = [] → Gives (.reamRead p n17) s (start 1 n17.toNat)) ∧
        (d.ream.cmd.isSome = true ∨ d.ream.save.isSome = true ∨ d.logBusy = true →
          Gives (.reamRead p n17) s ((d.put F.REAM_STAT.REFUSE 2).refuse p.code R.REAM_CMD.off .state))) ∧
      (8 ≤ n17.toNat → n17.toNat ≤ 256 → n17.toNat % 8 = 0 → addr % 8 = 0 → inVat → idle → mayWrite → d.ream.half = [] →
        Gives (.reamProgram p n17) s (start 2 n17.toNat)) ∧
      (addr % 4096 = 0 → idle → mayWrite → d.ream.half = [] ∨ addr / 4096 ∈ d.ream.half →
        Gives (.reamErase p) s ((start 3 0).eraseBegin (addr / 4096)))) ∧
    (d.ream.cmd = some ⟨1, addr, len, vat⟩ →
      let r := (List.range (len / 8)).foldl (fun (x : Dev × Nat) i => x.1.readGroup (addr / 8 + i) (vat + 8 * i) x.2) (d, 1)
      Gives .reamReadDone s (ended r.1 2 r.2)) ∧
    (∀ (e : Dev) (g v code : Nat), g ∉ e.ream.ue → g ∉ e.ream.ce →
      e.readGroup g v code = (e.vatUser v (Memory.readN 0xFF e.ream.mem (8 * g) 8), code)) ∧
    (let group := fun i => 32 * (addr / 256) + (addr / 8 % 32 + i) % 32
     let same := fun (g e : Dev) (i : Nat) => Memory.readN 0xFF e.ream.mem (8 * group i) 8 = Memory.readN 0 g.vat.mem (vat + 8 * i) 8
     let kept := fun (g e : Dev) => e.vat = g.vat ∧ ∀ a, (∀ i, i < len / 8 → a / 8 ≠ group i) →
       Memory.read 0xFF e.ream.mem a = Memory.read 0xFF g.ream.mem a
     let ready := fun (g : Dev) => g.vbad vat len = false ∧ ∀ i, i < len / 8 → g.groupBlank (group i) = true
     let src := (d.ctxShow vat len).vatTouch vat len 4
     let cut := (d.atCycle c.val).ctxShow vat len
     d.ream.cmd = some ⟨2, addr, len, vat⟩ → 8 ≤ len → len ≤ 256 → len % 8 = 0 →
       (ready src → ∃ e, Gives (.reamProgramDone true) s e ∧ e.get F.REAM_STAT.STATE = 2 ∧ e.get F.REAM_STAT.CODE = 1 ∧
         e.ream.cmd = none ∧ (∀ i, i < len / 8 → same src e i) ∧ kept src e) ∧
       (ready src → ∃ e, Gives (.reamProgramDone false) s (e.fault 68) ∧ e.get F.REAM_STAT.STATE = 4 ∧
         e.get F.REAM_STAT.CODE = 6 ∧ e.ream.cmd = none ∧ (∀ i, i < len / 8 → same src e i) ∧ kept src e) ∧
       (s.reaches p R.REAM_CMD.off → ready cut → ∃ e, Gives (.reamAbort p n c) s e ∧ e.get F.REAM_STAT.STATE = 3 ∧
         e.ream.cmd = none ∧ (∀ i, i < len / 8 → i < n.toNat → same cut e i) ∧ kept cut e ∧
         ∀ i, i < len / 8 → n.toNat < i → Memory.readN 0xFF e.ream.mem (8 * group i) 8 =
           Memory.readN 0xFF cut.ream.mem (8 * group i) 8)) ∧
    (d.ream.cmd = some ⟨3, addr, len, vat⟩ →
      let sector := addr / 4096
      let count := d.eraseCount sector
      let erased := (d.sectorBlank sector).erasesUp sector count
      let logged := erased.logAppend sector 2 (count + 1)
      let whole := ({ logged with ream := { logged.ream with
        half := logged.ream.half.filter (· != sector), intents := Tbl.del logged.ream.intents sector } } : Dev).halfShow
      Gives (.reamEraseDone true) s (ended whole 2 1) ∧ Gives (.reamEraseDone false) s ((ended erased 4 6).fault 68)) ∧
    (s.reaches p R.REAM_CMD.off → d.ream.cmd = none → d.ream.doneAt = some (d.atCycle c.val).absCycle →
      Gives (.reamAbort p n c) s ((d.atCycle c.val).put F.REAM_STAT.ABORT_LATE 1)) ∧
    ∀ (e : Dev) (sector a : Nat), Memory.read 0xFF (e.sectorBlank sector).ream.mem a =
      if a / 4096 = sector then 0xFF else Memory.read 0xFF e.ream.mem a


/-- R307, R308, R312, R315-R319, R353: the fault block. A named source is detected: an event's STATUS bit is set; hardware never raises a
reserved source. The oldest entry goes to the log; FAULT_N follows SW_ASSERT after its pulse; a write of 1 clears STATUS bits
unless their level condition holds or they were set in the same cycle (R5), and interrupt causes likewise.
R312, R366, R368, R387: the STOP entry is the last one logged; the pin is used from boot step 12 on; SUPPLY_RANGE names its supply; a force
bit of class STOP rises only with FORCE_STOP_EN, in force and as last accepted. -/
def Obligations.FaultCommands : Prop :=
  ∀ (p : Path) (src : Fin 288) (inst : BitVec 16) (detail w : Word) (g : Fin 9) (c : Cycle) (s : State),
    let d := s.dev.quiet
    let e := d.atCycle c.val
    let collect : Instr := .faultCollection src inst detail c
    (src.val ∉ namedSources → Gives collect s e) ∧
    (src.val = 4 → Gives collect s (if detail.toNat ≤ 14 then e.levelOn 4 detail.toNat detail.toNat else e)) ∧
    (src.val ∈ namedSources → src.val ≠ 4 → src.val ∈ levelSources → Gives collect s (e.levelOn src inst.toNat detail.toNat)) ∧
    (src.val ∈ namedSources → src.val ∉ levelSources → Gives collect s (e.fault src inst.toNat detail.toNat) ∧
      bit ((e.fault src inst.toNat detail.toNat).rd R.FLT_STATUS (src.val / 32)) (src.val % 32) = true) ∧
    Gives (.faultConditionEnd src inst) s
      { d with flt := { d.flt with held := d.flt.held.filter fun h => h != (src.val, inst.toNat) } } ∧
    (∀ x r, d.flt.log = x :: r → d.ream.cmd = none → d.ream.save = none → d.logBusy = false → 3 ≤ d.get F.BOOT_STAT.STEP →
      d.flt.stopLogged = false →
      let last := bit x.flags 2 && !r.any fun y => bit y.flags 2
      let y := (({ d with flt := { d.flt with log := r, stopLogged := last } } : Dev).put F.FLT_LOG_STAT.LEVEL r.length).journalAppend
        4 0x0F01 (leBytes 6 x.tick ++ leBytes 2 x.source ++ leBytes 1 x.cls ++ leBytes 1 x.flags ++ leBytes 2 x.inst ++
          leBytes 4 x.detail)
      let place := y.journalPlace 4
      let z := y.logBegin (4096 * place.1 + place.2.1 - 32) (y.ream.logSeq != d.ream.logSeq)
      (∃ w, z.ream.writing = some w ∧ d.tick < w.done) ∧
      Gives .faultLogWrite s
        (if last = true then { z.put F.FLT_LOG_STAT.LEVEL 0 with flt := { z.flt with log := [] } } else z)) ∧
    (d.flt.log = [] ∨ d.ream.cmd.isSome = true ∨ d.ream.save.isSome = true ∨ d.logBusy = true ∨ d.get F.BOOT_STAT.STEP < 3 ∨
      d.flt.stopLogged = true → Gives .faultLogWrite s d) ∧
    (∀ t, d.flt.pulseEnd = some t → t ≤ d.tick → d.flag F.FLT_STATE.STOPPED = false →
      Gives .faultPinPulseEnd s
        { d.put F.FLT_PIN.LOW (if d.pinsLive = true then d.get F.FLT_PIN.SW_ASSERT else 0) with
          flt := { d.flt with pulseEnd := none } }) ∧
    (s.reaches p (R.FLT_FORCE.off g) →
      let old := e.rd R.FLT_FORCE g
      let rising := (List.range 32).filter fun i => bit w.toNat i && !bit old i
      (∀ i ∈ rising, e.faultClass (32 * g + i) ≠ 3 ∧ e.faultClassS (32 * g + i) ≠ 3) ∨
        (e.flag F.FLT_CTRL.FORCE_STOP_EN = true ∧ e.getS F.FLT_CTRL.FORCE_STOP_EN = 1) →
        Gives (.faultForce p g w c) s ((rising.map fun i => (i, e.faultActive (32 * g + i))).foldl
          (fun x q => x.detect (32 * g + q.1) 0xFFFF 0 true q.2) (e.wr R.FLT_FORCE w.toNat g))) ∧
    (s.reaches p (R.FLT_STATUS.off g) → ∃ x, Gives (.faultStatusClear p g ⟨w, c⟩) s x ∧ ∀ i, i < 32 →
      bit (x.rd R.FLT_STATUS g) i = (bit (d.rd R.FLT_STATUS g) i &&
        (!bit w.toNat i || !bit (2 ^ 32 - 1 - e.justSet (R.FLT_STATUS.key g)) i || (levelSources.contains (32 * g + i) && d.faultHeld (32 * g + i))))) ∧
    (s.reaches p R.HOST_IRQ_CAUSE.off → ∃ x, Gives (.irqCauseClear p ⟨w, c⟩) s x ∧ ∀ i, 1 ≤ i → i < 32 →
      bit (x.rd R.HOST_IRQ_CAUSE) i = (bit (d.rd R.HOST_IRQ_CAUSE) i &&
        !(decide (i ≤ 6) && bit w.toNat i && bit (2 ^ 32 - 1 - e.justSet (R.HOST_IRQ_CAUSE.key 0)) i)))

/-- R303-R305, R370: a recognised power failure is handled at the next boundary from boot step 12 on; the save then takes the image into
the armed area, stops the blocks at once and the outputs within 20 ticks, or is skipped where none is armed or ENABLE is clear; a trip of the
power-loss detector stops every output within 20 ticks: what has stopped goes to high impedance, and at the end of the time
every gate is closed. -/
def Obligations.PowerFailAndSave : Prop :=
  (∀ (s : State),
    let d := s.dev.quiet
    let e := (d.pinSee 2 false).fault 9
    let skipped := fun (x : Dev) => ({ x.fault 73 with ream := { x.ream with skipped := true } } : Dev)
    let begun := ({ d with flt := { d.flt with saveBegun := true, log := [], overflow := false },
                           boot := { d.boot with pfail := false } } : Dev).put F.FLT_LOG_STAT.LEVEL 0
    let starting := e.get F.BOOT_STAT.STEP < 12 ∧ e.boot.live = false
    (e.flag F.FLT_STATE.STOPPED = false → ¬ starting →
      Gives .pfailRecognised s { e with boot := { e.boot with pfail := true } }) ∧
    (e.flag F.FLT_STATE.STOPPED = true ∨ starting → Gives .pfailRecognised s (skipped e)) ∧
    (d.boot.pfail = false → Gives .saveStart s d) ∧
    (d.boot.pfail = true → d.test.run = none → d.pi.isOpen = false →
      (d.ream.armed = none ∨ d.flag F.REAM_SAVE_CFG.ENABLE = false → Gives .saveStart s (skipped begun)) ∧
      (∀ a, d.ream.armed = some a → d.flag F.REAM_SAVE_CFG.ENABLE = true → d.ream.cmd = none → d.vat.ue = [] → d.vat.ce = [] →
        ∃ x r, Gives .saveStart s x ∧ x.ream.save = some r ∧ r.area = a ∧ r.bad = [] ∧
          r.image.take 4 = [0x52, 0x45, 0x41, 0x4D] ∧ x.ream.armed = none ∧ x.ream.mem = d.ream.mem ∧
          x.get F.REAM_SAVE_STAT.ARMED = 0 ∧ x.boot.halted = true ∧ x.boot.outsHeld = true ∧ x.dispatchOn = false ∧
          1 ≤ x.boot.stopLeft ∧ x.boot.stopLeft ≤ 20 ∧
          (∀ k : Fin 72, x.flag F.OUT_STAT.OPEN k = d.flag F.OUT_STAT.OPEN k ∧
            (x.flag F.OUT_STAT.OPEN k = false → (x.outc k).drive = ⟨.highZ, .highZ, 0, 0⟩)) ∧
          x.get F.HOST_PCIE_STAT.L0 = 0 ∧ (∀ k : Fin 8, x.get F.KL_LINK_STAT.STATE k = 0) ∧
          (∀ k : Fin 8, x.get F.FRM_PORT_STAT.STATE k = 0) ∧ x.tick = d.tick ∧ x.vat = d.vat)) ∧
    (∀ r, d.ream.save = some r → d.boot.resetPend = 0 →
      let x := d.saveProgram r (saveGroups r.image.length).length false
      Gives .saveDone s { x with ream := { x.ream with
        save := none, saved := true, skipped := false, saveSeq := (x.ream.saveSeq + 1) % 2 ^ 32 } }) ∧
    Gives .powerLossDetect s ((List.range 72).foldl Dev.driveNow { d with boot := { d.boot with
      loss := true, outsHeld := true, stopLeft := if d.boot.stopLeft = 0 then 20 else min 20 d.boot.stopLeft } })) ∧
  (∀ d : Dev, d.boot.stopLeft = 1 → ∀ k : Fin 72, d.outsCut.flag F.OUT_STAT.OPEN k = false) ∧
  (∀ d : Dev, (d.boot.loss = true ∨ d.boot.halted = true) → (∀ k : Fin 72, d.flag F.OUT_STAT.OPEN k = false) →
    ∀ n : Fin 16, d.lossBoundary.flag F.SYN_STAT.LOCK n = false)

/-- R305, R313, R323, R324, R326, R327, R330, R332, R334, R335, R371: power, reset, and the start. POWER leaves the state after
reset with the Ream as it was, but for what ran in it; asserting RESET_N stops the clocks and holds the outputs, waits for a
save and does nothing in STOPPED; its release takes BOOTSEL, and it, or a step that failed, starts boot step 1 from the COLD state, which
keeps the Ream, the waiting log entries and STOPPED; RESTART, RELEASE and PUSH_GO wait; IMAGE_RESTART_SWITCH powers the frame ports
down and, once every one of them is OFF, puts the next image in force.
R24: a level of a static input that two successive samples show is recognised; a recognised low RESET_N is asserted. -/
def Obligations.ResetAndBootCommands : Prop :=
  ∀ (p : Path) (n : BitVec 13) (m : BitVec 6) (c : Cycle) (i : BootIn) (src : BitVec 2) (flash : List Byte) (s : State),
    let d := s.dev.quiet
    let e := (d.atCycle c.val).pinSee 0 false
    let step := d.get F.BOOT_STAT.STEP
    (∃ x, Gives (.powerOn n) s x ∧
      x = { Dev.reset with ream := x.ream, free := x.free, sensors := d.sensors } ∧
      x.ream.cmd = none ∧ x.ream.save = none ∧ x.ream.arm = none ∧ x.ream.writing = none ∧
      (d.ream.cmd = none → d.ream.save = none → d.ream.arm = none → d.logBusy = false → x.ream.mem = d.ream.mem)) ∧
    (d.flag F.FLT_STATE.STOPPED = true → Gives (.resetAssert m c) s e) ∧
    (d.flag F.FLT_STATE.STOPPED = false → d.ream.save.isSome = true →
      Gives (.resetAssert m c) s { e with boot := { e.boot with resetPend := 1 } }) ∧
    (d.flag F.FLT_STATE.STOPPED = false → d.ream.save = none → d.boot.low = false →
      ∃ x, Gives (.resetAssert m c) s x ∧ x.boot.low = true ∧ x.boot.live = false ∧ x.boot.outsHeld = true ∧ x.tickOn = false ∧
        x.dispatchOn = false ∧ x.frm.txs = [] ∧ x.evts = [] ∧ x.get F.BOOT_STAT.CAUSE = 1 ∧ x.get F.HOST_PCIE_STAT.L0 = 0 ∧
        x.get F.FLT_PIN.LOW = 0 ∧ 1 ≤ x.boot.stopLeft ∧ x.boot.stopLeft ≤ 10000 ∧
        (∀ k : Fin 72, x.flag F.OUT_STAT.OPEN k = false → (x.outc k).drive = ⟨.highZ, .highZ, 0, 0⟩) ∧
        x.ream.cmd = none ∧ x.ream.arm = none ∧ (d.ream.cmd = none → d.ream.arm = none → x.ream = d.ream)) ∧
    (d.flag F.FLT_STATE.STOPPED = false → d.boot.resetPend = 0 → d.boot.low = true →
      let f := d.pinSee 0 true
      let sel := 2 * b2n (f.boot.pinSeen.getLsbD 4) + b2n (f.boot.pinSeen.getLsbD 5)
      Gives (.resetRelease i) s
        (({ f with boot := { f.boot with sel := sel } } : Dev).bootStart i (d.get F.BOOT_STAT.CAUSE))) ∧
    (d.boot.failed = true →
      let f := if step = 8 then 7 else step
      let g := (d.bootRecord false false f (step - 1)).fault 256 0 f
      Gives (.bootStepFail i) s ((g.freeNext.reamHalt (g.freeVal % 33)).bootStart i 2)) ∧
    (d.boot.failed = false → Gives (.bootStepFail i) s d) ∧
    (∀ x : Dev, x.flag F.FLT_STATE.STOPPED = true → x.cold.flag F.FLT_STATE.STOPPED = true ∧ x.cold.get F.FLT_PIN.LOW = 1 ∧
      x.cold.flt.stopLogged = x.flt.stopLogged) ∧
    (∀ (x : Dev) (cause : Nat), x.flag F.FLT_STATE.STOPPED = false →
      let y := x.cold
      let z := ((({ y with boot := { y.boot with low := false, inp := i } } : Dev).put F.BOOT_STAT.BOOTSEL x.boot.sel).put
        F.BOOT_STAT.CAUSE cause).bootTime 1 (i.us.toList.getD 0 0).toNat
      let scanned := (z.put F.BOOT_STAT.STEP 2).bootScan
      y.tick = 0 ∧ y.tickOn = false ∧ y.engs = [] ∧ y.loops = [] ∧ y.ream.mem = x.ream.mem ∧ y.ream.erases = x.ream.erases ∧
      y.rd R.FLT_STATE = 0 ∧ y.flt.log = x.flt.log.map (fun l => { l with cyc := none }) ∧
      (scanned.flag F.BOOT_STAT.HALTED = true → x.bootStart i cause = scanned) ∧
      (scanned.flag F.BOOT_STAT.HALTED = false →
        let timed := scanned.bootTime 2 (scanned.stepUs 2)
        x.bootStart i cause = if timed.stepLimit 2 x.halfScan.length < timed.stepUs 2
          then { timed with boot := { timed.boot with failed := true, wait := false } }
          else (timed.bootRecord false false 0 2).bootXo)) ∧
    (s.reaches p R.BOOT_CMD.off →
      (src.toNat ≠ 3 → d.get F.BOOT_STAT.RESTART ≠ 1 → d.boot.cmdRestart = none → d.get F.KL_STAGE_STAT.STATE = 0 →
        Gives (.bootRestart p src flash) s
          { d with boot := { d.boot with cmdRestart := some (src.toNat, flash), pushed := false } }) ∧
      (step = 13 → bit (d.get F.BOOT_ALT.ALT) 11 = true → d.boot.loss = false → d.boot.halted = false →
        Gives (.bootRelease p) s { d with boot := { d.boot with outsHeld := false } }) ∧
      Gives (.pushGo p) s { d with boot := { d.boot with pushed := true } }) ∧
    (∀ b, d.boot.next = some b → d.boot.switching = false → d.boot.halted = false → d.boot.low = false →
      let f := (List.range 8).foldl Dev.portDown (d.bootTime 8 (d.tick - d.boot.waitFrom - d.get F.BOOT_TIME.US 6))
      let g : Dev := { f with dispatchOn := false, boot := { f.boot with switching := true } }
      ((∃ k : Fin 8, g.get F.FRM_PORT_STAT.STATE k ≠ 0) → Gives .imageRestartSwitch s g) ∧
      ((∀ k : Fin 8, g.get F.FRM_PORT_STAT.STATE k = 0) →
        let y := g.restartClear.imagePlace b
        let x := y.enginesStart.put F.BOOT_STAT.STEP 11
        Gives .imageRestartSwitch s { x with
          boot := { x.boot with
            next := none, switching := false, restart := true, runs := some g.runMask, waitFrom := x.tick
            imageId := leAt b 6 2, version := leAt b 8 2, profiles := leAt b 0x12 2, baseOk := y.baseLoaded }
          kl := { x.kl with served := b } })) ∧
    (d.boot.next = none ∨ d.boot.switching = true ∨ d.boot.halted = true ∨ d.boot.low = true → Gives .imageRestartSwitch s d) ∧
    (∀ (x : Dev) (v : BitVec 8),
      let differ := x.boot.pinLast ^^^ v
      let seen := (v &&& ~~~differ) ||| (x.boot.pinSeen &&& differ)
      let y := ({ x with boot := { x.boot with pinLast := v, pinSeen := seen } } : Dev).putB F.REAM_STAT.NVWP (!seen.getLsbD 3)
      (∀ i : Fin 8, v.getLsbD i = x.boot.pinLast.getLsbD i → seen.getLsbD i = v.getLsbD i) ∧
      (∀ i : Fin 8, v.getLsbD i ≠ x.boot.pinLast.getLsbD i → seen.getLsbD i = x.boot.pinSeen.getLsbD i) ∧
      (seen.getLsbD 1 = x.boot.pinSeen.getLsbD 1 → seen.getLsbD 2 = x.boot.pinSeen.getLsbD 2 →
        (x.boot.pinSeen.getLsbD 0 = true → seen.getLsbD 0 = false →
          x.pinsSample v = y.freeNext.resetAssert (y.freeVal % 64)) ∧
        (x.boot.pinSeen.getLsbD 0 = false ∨ seen.getLsbD 0 = true → x.pinsSample v = y)))

/-- R26, R354, R355: an XI2C transfer sends S, its address and data, and for a read a repeated S with the address, and ends with P in
DONE with the bytes read, or in NACK; a reset, a target that stretches too long and SDA stuck low start a recovery: up to 9 pulses
of 10 µs and P, in state RECOVERING; at the boundary by which it is over the bus is idle when SDA is high, and else STUCK, or GIVEN_UP
after the eighth retry. -/
def Obligations.XI2cCommands : Prop :=
  ∀ (p : Path) (n : Fin 2) (addr : BitVec 7) (wlen rlen : BitVec 4) (data : DWord) (sda : SdaForm) (c : Cycle) (s : State),
    let d := s.dev.quiet
    let e := d.atCycle c.val
    let x := d.xi2c n
    let state := d.get F.XI2C_STAT.STATE n
    let busy := state = 1 ∨ state = 5 ∨ state = 6 ∨ state = 7
    let recovering := fun (y : Dev) (tries : Nat) (retry : Bool) =>
      (((y.put F.XI2C_STAT.RETRIES tries n).put F.XI2C_STAT.STATE 5 n).setXi2c n { y.xi2c n with
        recover := some ⟨y.tick + 10 * (sda.pulses + 2), sda.high, retry⟩ }).emit
        (.i2c n (List.replicate (sda.pulses + 1) .pulse))
    (s.reaches p (R.XI2C_CMD.off n) → wlen.toNat ≤ 8 → rlen.toNat ≤ 8 → wlen.toNat + rlen.toNat ≠ 0 → ¬ busy →
      d.flag F.XI2C_CFG.ENABLE n = true →
      let write := .start :: .byte (BitVec.ofNat 8 (2 * addr.toNat)) ::
        ((leBytes 4 (d.rd R.XI2C_DATA0 n) ++ leBytes 4 (d.rd R.XI2C_DATA1 n)).take wlen.toNat).map I2cPart.byte
      let read := [.start, .byte (BitVec.ofNat 8 (2 * addr.toNat + 1)), .read rlen.toNat]
      Gives (.xi2cXfer p n addr wlen rlen) s
        ((((d.put F.XI2C_STAT.STATE 1 n).put F.XI2C_STAT.ABORT_LATE 0 n).setXi2c n
          { x with addr := addr.toNat, wlen := wlen.toNat, rlen := rlen.toNat }).emit
            (.i2c n (if rlen.toNat = 0 then write else write ++ read)))) ∧
    (state = 1 →
      let y := (e.setXi2c n { x with doneAt := some e.absCycle }).emit (.i2c n [.stop])
      Gives (.xi2cTransferEnd n true data c) s ((y.put F.XI2C_STAT.STATE 3 n).irqSet F.HOST_IRQ_CAUSE.XI2C) ∧
      (x.rlen = 0 → Gives (.xi2cTransferEnd n false data c) s ((y.put F.XI2C_STAT.STATE 2 n).irqSet F.HOST_IRQ_CAUSE.XI2C)) ∧
      (1 ≤ x.rlen → x.rlen ≤ 8 →
        let old := leBytes 4 (d.rd R.XI2C_DATA0 n) ++ leBytes 4 (d.rd R.XI2C_DATA1 n)
        let new := leBytes x.rlen data.toNat ++ old.drop x.rlen
        Gives (.xi2cTransferEnd n false data c) s
          ((((y.wr R.XI2C_DATA0 (leAt new 0 4) n).wr R.XI2C_DATA1 (leAt new 4 4) n).put F.XI2C_STAT.STATE 2 n).irqSet
            F.HOST_IRQ_CAUSE.XI2C)) ∧
      Gives (.xi2cStretchTimeout n sda) s
        (recovering ((d.put F.XI2C_STAT.STATE 4 n).irqSet F.HOST_IRQ_CAUSE.XI2C) 0 false)) ∧
    (state ≠ 1 → Gives (.xi2cTransferEnd n true data c) s e ∧ Gives (.xi2cTransferEnd n false data c) s e ∧
      Gives (.xi2cStretchTimeout n sda) s d) ∧
    (s.reaches p (R.XI2C_CMD.off n) →
      (x.doneAt = some e.absCycle → Gives (.xi2cReset p n sda c) s (e.put F.XI2C_STAT.ABORT_LATE 1 n)) ∧
      (x.doneAt ≠ some e.absCycle →
        Gives (.xi2cReset p n sda c) s (recovering (e.put F.XI2C_STAT.ABORT_LATE 0 n) 0 false))) ∧
    (¬ busy → d.flag F.XI2C_CFG.ENABLE n = true → Gives (.xi2cSdaStuck n sda) s (recovering (d.fault 8 0 3) 0 false)) ∧
    (busy ∨ d.flag F.XI2C_CFG.ENABLE n = false → Gives (.xi2cSdaStuck n sda) s d) ∧
    (state = 6 → x.since + 100000 ≤ d.tick →
      Gives (.xi2cRecoveryRetry n sda) s (recovering d (min 8 (d.get F.XI2C_STAT.RETRIES n + 1)) true)) ∧
    (state ≠ 6 ∨ d.tick < x.since + 100000 → Gives (.xi2cRecoveryRetry n sda) s d) ∧
    ∀ (z : Dev) (r : Recovery), (z.xi2c n).recover = some r →
      let w := (z.setXi2c n { z.xi2c n with recover := none }).emit (.i2c n [.stop])
      let stuck := (w.put F.XI2C_STAT.STATE 6 n).setXi2c n { z.xi2c n with recover := none, since := z.tick }
      (z.tick < r.done → z.xiBoundary n = z) ∧
      (r.done ≤ z.tick → r.high = true → z.xiBoundary n = (w.put F.XI2C_STAT.STATE 0 n).incSat F.XI2C_STAT.RECOVERIES n) ∧
      (r.done ≤ z.tick → r.high = false →
        z.xiBoundary n = if z.get F.XI2C_STAT.RETRIES n = 8 then ((stuck.put F.XI2C_STAT.STATE 7 n).fault 261).irqSet F.HOST_IRQ_CAUSE.XI2C
          else if r.retry then stuck else (stuck.fault 260 n).irqSet F.HOST_IRQ_CAUSE.XI2C)

/-- R356, R366: FSPI commands start while none runs and neither boot step 7 nor a restart has the flash: a READ goes out in its mode, a
PROGRAM or ERASE between write enable and status poll, and before boot step 7 the pins stay idle; ABORT waits for the current
flash command, or loses in the cycle of the completion; a command's end puts a READ's data into the Vat. -/
def Obligations.FspiCommands : Prop :=
  ∀ (p : Path) (mode : BitVec 2) (len : BitVec 24) (data : List Byte) (late : Bool) (c : Cycle) (s : State),
    let d := s.dev.quiet
    let e := d.atCycle c.val
    let f := d.host.fspi
    let a := d.get F.FSPI_ADDR.VALUE
    let v := d.get F.FSPI_VAT.VALUE
    let state := d.get F.FSPI_STAT.STATE
    let taken := d.get F.BOOT_STAT.STEP = 7 ∨ d.get F.BOOT_STAT.RESTART = 1
    let start := fun (op m n : Nat) => ({ (d.put F.FSPI_STAT.STATE 1).put F.FSPI_STAT.ABORT_LATE 0 with
      host := { d.host with fspi := ⟨op, m, a, v, n, false, none⟩ } } : Dev)
    let sent := fun (y : Dev) (l : List Out) => if d.get F.BOOT_STAT.STEP < 7 then y else l.foldl (fun y o => y.emit o) y
    (s.reaches p R.FSPI_CMD.off → state ≠ 1 → ¬ taken →
      (let n := if len.toNat = 0 then 2 ^ 24 else len.toNat
       mode.toNat ≠ 3 → v + n ≤ 2 ^ 26 → Gives (.fspiRead p mode len) s (sent (start 1 mode.toNat n)
         [.flash (if mode.toNat = 0 then 0x03 else if mode.toNat = 1 then 0xEB else 0xED) a []])) ∧
      (1 ≤ len.toNat → len.toNat ≤ 256 → a % 256 + len.toNat ≤ 256 → v + len.toNat ≤ 2 ^ 26 →
        let x := ((start 2 0 len.toNat).ctxShow v len.toNat).vatTouch v len.toNat 4
        Gives (.fspiProgram p len) s (sent x [.flash 0x06 0 [], .flash 0x02 a (x.vbytes v len.toNat), .flash 0x05 0 []])) ∧
      Gives (.fspiErase p) s (sent (start 3 0 0) [.flash 0x06 0 [], .flash 0x20 (a / 4096 * 4096) [], .flash 0x05 0 []])) ∧
    (s.reaches p R.FSPI_CMD.off →
      (state = 1 → ¬ taken → Gives (.fspiAbort p c) s { e with host := { e.host with fspi := { f with abort := true } } }) ∧
      (state ≠ 1 → f.doneAt = some e.absCycle → Gives (.fspiAbort p c) s (e.put F.FSPI_STAT.ABORT_LATE 1))) ∧
    (state = 1 →
      let x := if f.op = 1 then e.vatUser f.vat (if f.abort then data.take f.len else sliceB data 0 f.len) else e
      let y : Dev := { x with host := { x.host with fspi := { f with doneAt := some x.absCycle } } }
      let code := if f.abort then 3 else if f.op ≠ 1 ∧ late = true then 4 else 2
      Gives (.fspiCommandEnd data late c) s ((y.put F.FSPI_STAT.STATE code).irqSet F.HOST_IRQ_CAUSE.FSPI))

/-- R359-R363, R386: a self-test waits for the boundary with its range, when nothing is tested and the range or cluster is free; one
with COUNT unset is refused with COMBINATION; its end clears what it tested and names what failed, and no test outlasts its time; the
pulse of self-stamping, once a tick, gives every channel in the range a stamp for measurement slots only, and LOST to its next record.
The TAP: TRST_N low selects IDCODE; instructions that drive pins load only with RESET_N low, else BYPASS does; the boundary register
captures the pins and drives them. -/
def Obligations.TestCommands : Prop :=
  ∀ (p : Path) (k : Fin 16) (fail : BitVec 14) (ch : Fin 136) (dev : BitVec 8) (reads : List SelfRead) (scan : TapScan) (c : Cycle)
    (s : State),
    let d := s.dev.quiet
    let e := d.atCycle c.val
    let free := d.get F.TST_BIST_STAT.STATE ≠ 1 ∧ d.test.cmd = none
    let g := d.get F.TST_BIST_RANGE.GRANULE
    let n := d.get F.TST_BIST_RANGE.COUNT
    (s.reaches p R.TST_BIST_CMD.off → free →
      (n = 0 → Gives (.bistVat p) s (d.refuse p.code R.TST_BIST_CMD.off .combination)) ∧
      (0 < n → d.view.bistRangeOk g n = true → Gives (.bistVat p) s { d with test := { d.test with cmd := some (1, g, n) } }) ∧
      (0 < n → d.view.bistRangeOk g n = false → Gives (.bistVat p) s (d.refuse p.code R.TST_BIST_CMD.off .state)) ∧
      (bit (d.get F.ENG_CLUSTER_STAT.POWERED) k = true → d.clusterBound k = false →
        Gives (.bistEngine p k) s { d with test := { d.test with cmd := some (2, k.val, 0) } })) ∧
    (s.reaches p R.TST_BIST_CMD.off →
      (d.get F.TST_BIST_STAT.STATE = 1 → Gives (.bistAbort p c) s { e with test := { e.test with cmd := some (3, 0, 0) } }) ∧
      (d.get F.TST_BIST_STAT.STATE ≠ 1 → d.test.doneAt = some e.absCycle →
        Gives (.bistAbort p c) s (e.put F.TST_BIST_STAT.ABORT_LATE 1))) ∧
    (d.test.run = none → Gives (.bistDone none c) s e ∧ Gives (.bistDone (some fail) c) s e) ∧
    (∀ op a l, d.test.run = some (op, a, l) →
      let x := if op = 1 then e.vatZero a l else e.clusterZero a
      let y : Dev := { x with test := { x.test with run := none, doneAt := some x.absCycle } }
      let z := (y.put F.TST_BIST_STAT.STATE 3).put F.TST_BIST_STAT.WHERE fail.toNat
      Gives (.bistDone none c) s (y.put F.TST_BIST_STAT.STATE 2).testShow ∧
      Gives (.bistDone (some fail) c) s (if op = 1 then z.fault 67 else z.fault 40 0 (a * 2 ^ 8)).testShow) ∧
    (∀ (x : Dev) (op a l : Nat), x.test.run = some (op, a, l) →
      let limit := if op = 1 then l + 2 else 2000
      (x.test.start + limit ≤ x.tick → x.bistDue = x.bistDone none) ∧ (x.tick < x.test.start + limit → x.bistDue = x)) ∧
    (∀ (x : Dev) (a l i : Nat), Memory.read 0 (x.vatZero a l).vat.mem i =
      if a * 4096 ≤ i ∧ i < (a + l) * 4096 then 0 else Memory.read 0 x.vat.mem i) ∧
    (d.flag F.TST_SELF_CFG.ENABLE = false ∨ d.test.lastTick = some d.tick → Gives (.selfStampPulse reads) s d) ∧
    (d.flag F.TST_SELF_CFG.ENABLE = true → d.test.lastTick ≠ some d.tick →
      let first := d.get F.TST_SELF_CFG.FIRST
      let last := d.get F.TST_SELF_CFG.LAST
      (∃ x, Gives (.selfStampPulse reads) s x ∧ x.test.lastTick = some d.tick ∧ x.tick = d.tick ∧ x.cycle = 600 ∧
        ∀ j : Fin 136, x.tdc j = if first ≤ j.val ∧ j.val ≤ last then { d.tdc j with lost := true } else d.tdc j) ∧
      (first = ch.val → last = ch.val → (if d.tick % 2 = 0 then (d.tdc ch).calB else (d.tdc ch).calA).isSome = true →
        let y := ({ d with cycle := 600, test := { d.test with lastTick := some d.tick } } : Dev).freeNext
        let exact := y.exactCode ch (y.pulseAt ch)
        let code := (exact.2 + dev.toInt).toNat
        let t := (y.edgeLt (y.edgeXo ch exact.1 code) ch).toNat
        Gives (.selfStampPulse [⟨ch, dev⟩]) s ((List.range 64).foldl
          (fun z j => z.msStamp ch ⟨t, (t : Int) - d.time.stepSum, (d.interval ch code).2.2, d.tick * 1250 + 600⟩ j)
          (y.setTdc ch { d.tdc ch with lost := true })))) ∧
    (scan.trst = false → Gives (.tapInstruction scan) s { d with test := { d.test with ir := 1, held := true } }) ∧
    (scan.trst = true →
      let ir := if 3 ≤ scan.ir.val ∧ d.boot.low = false then 0 else scan.ir.val
      let y : Dev := { d with test := { d.test with ir := ir, held := false } }
      let shifted : Test := { y.test with cells := scan.shift }
      (ir = 0 → Gives (.tapInstruction scan) s (y.emit (.tap [false]))) ∧
      (ir = 1 → Gives (.tapInstruction scan) s (y.emit (.tap ((List.range 32).map (bit 0x196401F5))))) ∧
      (ir = 2 → Gives (.tapInstruction scan) s { y.emit (.tap scan.pins) with test := shifted }) ∧
      (3 ≤ ir → Gives (.tapInstruction scan) s
        (({ (y.emit (.cells (d.test.cells.drop 1))).emit (.tap scan.pins) with test := shifted } : Dev).emit
          (.cells (scan.shift.drop 1)))))

/-- A step takes the command at the front of the queue and is its `exec` on the state with the queue's rest; with an empty queue
the block idles (log entry 1). -/
def Obligations.StepRunsTheFrontCommand : Prop :=
  (∀ (s : State) (c : Instr) (r : List Instr), s.pending = c :: r → step s = exec c { s with pending := r }) ∧
  ∀ s : State, s.pending = [] → step s = .next s

/-- R334: right after POWER, with RESET_N low, nothing has run: TICK_COUNT does not run, every engine register and every loop's word
is 0, no command waits, and memory reads zero, the Ream blank (what the Vat reads then is the model's choice, log entry 14). -/
def Obligations.ResetState : Prop :=
  let d := State.reset.dev
  State.reset.pending = [] ∧ State.reset.queueOk ∧ d.tick = 0 ∧ d.tickOn = false ∧ d.dispatchOn = false ∧ d.boot.low = true ∧
  d.get F.BOOT_STAT.STEP = 0 ∧ d.get F.KL_GROUP_STAT.ROLE = 0 ∧ d.flag F.FLT_STATE.STOPPED = false ∧
  (∀ e r, (d.eng e).rg r = 0) ∧ (∀ a, Memory.read 0 d.vat.mem a = 0) ∧ (∀ a, Memory.read 0xFF d.ream.mem a = 0xFF) ∧
  (∀ l : Fin 33, d.get F.LOOP_STATE.STATE l = 0) ∧ (∀ l, (d.loop l).applied = 0) ∧
  d.vat.mem.wf 0 ∧ d.ream.mem.wf 0xFF

/-- Every command completes: it answers a next state with the queue as it was. -/
def Obligations.EveryCommandCompletes : Prop :=
  ∀ (c : Instr) (s : State), ∃ d, Gives c s d

/-- Every step from a state whose queue holds only well-formed commands leaves such a state; it takes exactly one command off
the queue, neither faults nor refuses, and changes nothing when the queue is empty. -/
def Obligations.StepsKeepTheQueueWellFormed : Prop :=
  ∀ s : State, s.queueOk → ∃ s', step s = .next s' ∧ s'.queueOk ∧ s'.pending = s.pending.tail ∧ (s.pending = [] → s' = s)

/-- R4: what is stored is what is read, other bytes stay, and the canonical form of a memory is kept. So every step from a state whose
memories (the Vat, the Ream, every cluster's and engine's) have that form leaves such a state, and the state after reset is one. -/
def Obligations.MemoryKeepsItsForm : Prop :=
  (∀ (blank : Byte) (m : Memory) (a : Nat) (l : List Byte),
    (m.wf blank → (Memory.writeN blank m a l).wf blank) ∧
    Memory.readN blank (Memory.writeN blank m a l) a l.length = l ∧
    ∀ i, (i < a ∨ a + l.length ≤ i) → Memory.read blank (Memory.writeN blank m a l) i = Memory.read blank m i) ∧
  State.reset.dev.memoriesOk ∧
  ∀ s s' : State, s.dev.memoriesOk → step s = .next s' → s'.dev.memoriesOk
end

