-- ==== Sys2Proof/Laws/Bits.lean ====
section
/-! SUPPORT. Bit fields of numbers and sparse tables: reading after writing. -/

namespace Sys2Proof

/-- A number cut at a field: below it, in it, above it. -/
theorem bits_split (v hi lo : Nat) (h : lo ≤ hi + 1) :
    v = v % 2 ^ lo + bits v hi lo * 2 ^ lo + v / 2 ^ (hi + 1) * 2 ^ (hi + 1) := by
  have e : (2 : Nat) ^ (hi + 1) = 2 ^ lo * 2 ^ (hi + 1 - lo) := by rw [← Nat.pow_add]; congr 1; omega
  unfold bits
  rw [e, ← Nat.div_div_eq_div_mul]
  have a := Nat.div_add_mod v (2 ^ lo)
  have b := Nat.div_add_mod (v / 2 ^ lo) (2 ^ (hi + 1 - lo))
  generalize v / 2 ^ lo % 2 ^ (hi + 1 - lo) = m at *
  generalize v / 2 ^ lo / 2 ^ (hi + 1 - lo) = n at *
  rw [← b] at a
  linarith

/-- A field written: what lies below, in and above it. -/
theorem setBits_split (v hi lo x : Nat) (h : lo ≤ hi + 1) :
    setBits v hi lo x = v % 2 ^ lo + x % 2 ^ (hi + 1 - lo) * 2 ^ lo + v / 2 ^ (hi + 1) * 2 ^ (hi + 1) := by
  have e := bits_split v hi lo h
  unfold setBits
  omega

/-- The parts of a number composed at a field. -/
theorem parts_at (a b c hi lo : Nat) (h : lo ≤ hi + 1) (ha : a < 2 ^ lo) (hb : b < 2 ^ (hi + 1 - lo)) :
    (a + b * 2 ^ lo + c * 2 ^ (hi + 1)) % 2 ^ lo = a ∧
    (a + b * 2 ^ lo + c * 2 ^ (hi + 1)) / 2 ^ lo % 2 ^ (hi + 1 - lo) = b ∧
    (a + b * 2 ^ lo + c * 2 ^ (hi + 1)) / 2 ^ (hi + 1) = c := by
  have e : (2 : Nat) ^ (hi + 1) = 2 ^ (hi + 1 - lo) * 2 ^ lo := by rw [← Nat.pow_add]; congr 1; omega
  have f : a + b * 2 ^ lo + c * 2 ^ (hi + 1) = a + (b + c * 2 ^ (hi + 1 - lo)) * 2 ^ lo := by rw [e]; ring
  have p : 0 < 2 ^ lo := by positivity
  have q : 0 < 2 ^ (hi + 1 - lo) := by positivity
  have d : (a + b * 2 ^ lo + c * 2 ^ (hi + 1)) / 2 ^ lo = b + c * 2 ^ (hi + 1 - lo) := by
    rw [f, Nat.add_mul_div_right _ _ p, Nat.div_eq_of_lt ha, Nat.zero_add]
  refine ⟨by rw [f, Nat.add_mul_mod_self_right, Nat.mod_eq_of_lt ha], ?_, ?_⟩
  · rw [d, Nat.add_mul_mod_self_right, Nat.mod_eq_of_lt hb]
  · rw [e, Nat.mul_comm (2 ^ (hi + 1 - lo)), ← Nat.div_div_eq_div_mul, Nat.mul_comm (2 ^ lo), ← e, d,
      Nat.add_mul_div_right _ _ q, Nat.div_eq_of_lt hb, Nat.zero_add]

/-- A field read after it was written. -/
theorem bits_setBits_same (v hi lo x : Nat) (h : lo ≤ hi + 1) :
    bits (setBits v hi lo x) hi lo = x % 2 ^ (hi + 1 - lo) := by
  rw [setBits_split v hi lo x h]
  exact (parts_at _ _ _ hi lo h (Nat.mod_lt _ (by positivity)) (Nat.mod_lt _ (by positivity))).2.1

/-- Bits below a boundary depend on the remainder only. -/
theorem bits_of_mod (v n hi lo : Nat) (h : hi < n) : bits (v % 2 ^ n) hi lo = bits v hi lo := by
  unfold bits
  by_cases g : lo ≤ n
  · have e : (2 : Nat) ^ n = 2 ^ lo * 2 ^ (n - lo) := by rw [← Nat.pow_add]; congr 1; omega
    rw [e, Nat.mod_mul_right_div_self]
    exact Nat.mod_mod_of_dvd _ (Nat.pow_dvd_pow 2 (by omega))
  · have : hi + 1 - lo = 0 := by omega
    rw [this]; simp [Nat.mod_one]

/-- Bits above a boundary depend on the quotient only. -/
theorem bits_of_div (v n hi lo : Nat) (h : n ≤ lo) : bits v hi lo = v / 2 ^ n / 2 ^ (lo - n) % 2 ^ (hi + 1 - lo) := by
  unfold bits
  have e : n + (lo - n) = lo := by omega
  rw [Nat.div_div_eq_div_mul, ← Nat.pow_add, e]

/-- Another field of the same number is left as it was. -/
theorem bits_setBits_other (v hi lo x hi' lo' : Nat) (h : lo ≤ hi + 1) (g : hi' < lo ∨ hi < lo') :
    bits (setBits v hi lo x) hi' lo' = bits v hi' lo' := by
  rw [setBits_split v hi lo x h]
  obtain ⟨p1, -, p3⟩ := parts_at (v % 2 ^ lo) (x % 2 ^ (hi + 1 - lo)) (v / 2 ^ (hi + 1)) hi lo h
    (Nat.mod_lt _ (by positivity)) (Nat.mod_lt _ (by positivity))
  rcases g with g | g
  · rw [← bits_of_mod _ lo hi' lo' g, p1, bits_of_mod _ _ _ _ g]
  · rw [bits_of_div _ (hi + 1) _ _ g, p3, bits_of_div v (hi + 1) _ _ g]

/-- A written number stays below its bound. -/
theorem setBits_lt (v hi lo x n : Nat) (h : lo ≤ hi + 1) (hn : hi < n) (hv : v < 2 ^ n) : setBits v hi lo x < 2 ^ n := by
  rw [setBits_split v hi lo x h]
  have e : (2 : Nat) ^ n = 2 ^ (hi + 1) * 2 ^ (n - (hi + 1)) := by rw [← Nat.pow_add]; congr 1; omega
  have f : (2 : Nat) ^ (hi + 1) = 2 ^ (hi + 1 - lo) * 2 ^ lo := by rw [← Nat.pow_add]; congr 1; omega
  have c : v / 2 ^ (hi + 1) < 2 ^ (n - (hi + 1)) := by
    rw [Nat.div_lt_iff_lt_mul (by positivity)]; rw [Nat.mul_comm, ← e]; exact hv
  have a : v % 2 ^ lo < 2 ^ lo := Nat.mod_lt _ (by positivity)
  have b : x % 2 ^ (hi + 1 - lo) < 2 ^ (hi + 1 - lo) := Nat.mod_lt _ (by positivity)
  have s : v % 2 ^ lo + x % 2 ^ (hi + 1 - lo) * 2 ^ lo < 2 ^ (hi + 1) := by
    rw [f]
    calc _ < 2 ^ lo + x % 2 ^ (hi + 1 - lo) * 2 ^ lo := by omega
      _ = (x % 2 ^ (hi + 1 - lo) + 1) * 2 ^ lo := by ring
      _ ≤ _ := Nat.mul_le_mul_right _ b
  rw [e]
  calc _ < 2 ^ (hi + 1) + v / 2 ^ (hi + 1) * 2 ^ (hi + 1) := by omega
    _ = 2 ^ (hi + 1) * (v / 2 ^ (hi + 1) + 1) := by ring
    _ ≤ _ := Nat.mul_le_mul_left _ c

/-! ## Sparse tables -/

variable {α : Type}

@[simp] theorem Tbl.find?_set_self (t : Tbl α) (k : Nat) (v : α) : Tbl.find? (Tbl.set t k v) k = some v := by
  induction t with
  | nil => simp [Tbl.set, Tbl.find?]
  | cons e r ih =>
    obtain ⟨a, w⟩ := e
    unfold Tbl.set
    split
    · simp [Tbl.find?]
    · split
      · simp [Tbl.find?]
      · next h => simp [Tbl.find?, h, ih]

theorem Tbl.find?_set_ne (t : Tbl α) (k j : Nat) (v : α) (h : j ≠ k) :
    Tbl.find? (Tbl.set t k v) j = Tbl.find? t j := by
  induction t with
  | nil => simp [Tbl.set, Tbl.find?, Ne.symm h]
  | cons e r ih =>
    obtain ⟨a, w⟩ := e
    unfold Tbl.set
    split
    · simp [Tbl.find?, Ne.symm h]
    · split
      · next g => subst g; simp [Tbl.find?, Ne.symm h]
      · simp [Tbl.find?, ih]

/-- The last of two writes of one key stands. -/
@[simp] theorem Tbl.set_set (t : Tbl α) (k : Nat) (v w : α) : Tbl.set (Tbl.set t k v) k w = Tbl.set t k w := by
  induction t with
  | nil => simp [Tbl.set]
  | cons e r ih =>
    obtain ⟨a, x⟩ := e
    by_cases h : k < a
    · simp [Tbl.set, h]
    · by_cases g : k = a
      · subst g; simp [Tbl.set]
      · simp [Tbl.set, h, Ne.symm g, ih]

/-- Every entry after one was written is the new one or an old one. -/
theorem Tbl.mem_of_mem_set (t : Tbl α) (k : Nat) (v : α) (e : Nat × α) (h : e ∈ Tbl.set t k v) : e = (k, v) ∨ e ∈ t := by
  induction t with
  | nil => simp [Tbl.set] at h; exact .inl h
  | cons c r ih =>
    obtain ⟨a, w⟩ := c
    unfold Tbl.set at h
    split at h
    · exact List.mem_cons.1 h
    · split at h
      · exact (List.mem_cons.1 h).imp_right (List.mem_cons_of_mem _)
      · rcases List.mem_cons.1 h with h | h
        · exact .inr (h ▸ List.mem_cons_self ..)
        · exact (ih h).imp_right (List.mem_cons_of_mem _)

/-- What a table answers for a key is an entry of it, or the default. -/
theorem Tbl.getD_mem (t : Tbl α) (k : Nat) (x : α) : (∃ e ∈ t, e.2 = Tbl.getD t k x) ∨ Tbl.getD t k x = x := by
  unfold Tbl.getD
  induction t with
  | nil => exact .inr (by simp [Tbl.find?])
  | cons e r ih =>
    obtain ⟨a, w⟩ := e
    unfold Tbl.find?
    split
    · exact .inl ⟨_, List.mem_cons_self .., rfl⟩
    · exact ih.imp_left fun ⟨e, h, g⟩ => ⟨e, List.mem_cons_of_mem _ h, g⟩

@[simp] theorem Tbl.getD_set_self (t : Tbl α) (k : Nat) (v x : α) : Tbl.getD (Tbl.set t k v) k x = v := by
  simp [Tbl.getD]

theorem Tbl.getD_set_ne (t : Tbl α) (k j : Nat) (v x : α) (h : j ≠ k) :
    Tbl.getD (Tbl.set t k v) j x = Tbl.getD t j x := by
  simp [Tbl.getD, Tbl.find?_set_ne t k j v h]

/-- A table's key read after an entry was deleted. -/
theorem Tbl.find?_del (t : Tbl α) (k j : Nat) : Tbl.find? (Tbl.del t k) j = if j = k then none else Tbl.find? t j := by
  induction t with
  | nil => simp [Tbl.del, Tbl.find?]
  | cons e r ih =>
    obtain ⟨a, w⟩ := e
    unfold Tbl.del at ih ⊢
    by_cases h : a = k
    · subst h
      simp only [List.filter, bne_self_eq_false, Tbl.find?]
      rw [ih]
      split
      · rfl
      · next g => simp [Ne.symm g]
    · have hb : (a != k) = true := by simpa using h
      simp only [List.filter, hb, Tbl.find?, ih]
      split
      · next g => subst g; simp [h]
      · rfl

end Sys2Proof
end

