-- ==== Sys2Proof/Laws/Codes.lean ====
section
/-! SUPPORT. Codes that are read back: every instruction word is the word of the instruction that it decodes to (R50, R57), and
the descrambler undoes the scrambler (R269). -/

namespace Sys2Proof

/-- A word is its opcode and its fields. -/
theorem wordOf_wordFields (w : Word) : wordOf (wordOpcode w) (wordFields w) = w := by
  unfold wordOf wordOpcode wordFields
  simp only [BitVec.ofFin_toFin]
  ext i hi
  simp only [BitVec.getElem_append, BitVec.getElem_extractLsb']
  rw [← BitVec.getLsbD_eq_getElem (x := w)]
  (repeat' split) <;> congr 1 <;> omega

/-- No bit of the opcode map is dropped: the instruction that a word decodes to has the word's opcode and fields. -/
theorem opcodeOf_decodeEngine (e : Eng) (w : Word) : opcodeOf (decodeEngine e w) = some (wordOpcode w, wordFields w) := by
  have hb : (wordOpcode w).toNat < 64 := (wordOpcode w).isLt
  have ho : wordOpcode w = BitVec.ofNat 6 (wordOpcode w).toNat := by simp
  unfold decodeEngine
  generalize (wordOpcode w).toNat = n at hb ho
  rw [ho]
  interval_cases n <;> first
    | rfl
    | (show opcodeOf (if (wordFields w).lo.getLsbD 13 then Instr.disarm e (wordFields w) else Instr.arm e (wordFields w)) = _
       split <;> rfl)

/-- R50, R57: encoding what a word decodes to gives the word. -/
theorem encodeEngine_decodeEngine (e : Eng) (w : Word) : encodeEngine (decodeEngine e w) = some w := by
  simp [encodeEngine, opcodeOf_decodeEngine, wordOf_wordFields]

namespace Machine

/-- R269: what the descrambler makes of scrambled bits, and both then hold the same last 58 bits. -/
theorem descramble_scramble (s : BitVec 58) (p : BitVec 64) :
    descramble s (scramble s p).1 = (p, (scramble s p).2) := by
  have cancel : ∀ a b c : Bool, (a != (b != (c != (b != c)))) = a := by decide
  unfold descramble scramble
  simp only [Prod.mk.injEq, and_true]
  generalize hl : p.setWidth 39 ^^^ (s >>> 19).setWidth 39 ^^^ s.setWidth 39 = low
  ext i hi
  simp only [BitVec.getElem_xor, BitVec.getElem_setWidth, BitVec.getLsbD_ushiftRight, BitVec.getLsbD_append,
    BitVec.getElem_append]
  by_cases h : i < 39
  · have h1 : 19 + i < 58 := by omega
    have h2 : i < 58 := by omega
    simp [h, h1, h2, ← hl, BitVec.getLsbD_eq_getElem, hi, cancel]
  · have h1 : ¬ 19 + i < 58 := by omega
    have h3 : 19 + i - 58 < 39 := by omega
    have h4 : 58 + (i - 39) = 19 + i := by omega
    have h5 : 39 + (i - 39) = i := by omega
    have h6 : i - 58 < 39 := by omega
    by_cases h2 : i < 58 <;> simp [h, h1, h2, h3, h4, h5, h6, BitVec.getLsbD_eq_getElem, hi, cancel]

end Machine

end Sys2Proof
end

