-- ==== Sys2Proof/Laws/State.lean ====
section
/-! SUPPORT. What each update of the device leaves alone, field by field, and reading a register after writing one. -/

namespace Sys2Proof.Machine

/-! ## Registers and fields -/

@[simp] theorem Dev.rd_wr_self (d : Dev) (r : Reg) (v n : Nat) : (d.wr r v n).rd r n = v % 2 ^ 32 := by
  simp [Dev.wr, Dev.rd]

theorem Dev.rd_wr_ne (d : Dev) (r q : Reg) (v n m : Nat) (h : q.key m ≠ r.key n) : (d.wr r v n).rd q m = d.rd q m := by
  simp [Dev.wr, Dev.rd, Tbl.getD_set_ne _ _ _ _ _ h]

theorem Dev.rd_lt (d : Dev) (r : Reg) (n : Nat) : d.rd r n < 2 ^ 32 := by
  unfold Dev.rd; exact BitVec.isLt _

/-- A field read after it was put. -/
theorem Dev.get_put_self (d : Dev) (f : Fld) (v n : Nat) (h : f.lo ≤ f.hi + 1) (g : f.hi < 32) :
    (d.put f v n).get f n = v % 2 ^ (f.hi + 1 - f.lo) := by
  unfold Dev.put Dev.get
  rw [Dev.rd_wr_self, Nat.mod_eq_of_lt (setBits_lt _ _ _ _ _ h g (d.rd_lt _ _)), bits_setBits_same _ _ _ _ h]

/-- A field of another register, or of another copy of it, read after a put. -/
theorem Dev.get_put_ne (d : Dev) (f e : Fld) (v n m : Nat) (h : e.reg.key m ≠ f.reg.key n) :
    (d.put f v n).get e m = d.get e m := by
  unfold Dev.put Dev.get
  rw [Dev.rd_wr_ne _ _ _ _ _ _ h]

/-- Another field of the same register read after a put. -/
theorem Dev.get_put_other (d : Dev) (f e : Fld) (v n : Nat) (h : f.lo ≤ f.hi + 1) (g : f.hi < 32) (r : e.reg = f.reg)
    (x : e.hi < f.lo ∨ f.hi < e.lo) : (d.put f v n).get e n = d.get e n := by
  unfold Dev.put Dev.get
  rw [r, Dev.rd_wr_self, Nat.mod_eq_of_lt (setBits_lt _ _ _ _ _ h g (d.rd_lt _ _)), bits_setBits_other _ _ _ _ _ _ h x]

/-- Registers are read from the register file alone. -/
theorem Dev.rd_congr (d e : Dev) (h : d.regs = e.regs) (r : Reg) (n : Nat) : d.rd r n = e.rd r n := by
  simp [Dev.rd, h]

theorem Dev.get_congr (d e : Dev) (h : d.regs = e.regs) (f : Fld) (n : Nat) : d.get f n = e.get f n := by
  simp [Dev.get, Dev.rd_congr d e h]

/-! ## Fields of the device that an update leaves alone -/

@[simp] theorem Dev.wr_acc (d : Dev) (r : Reg) (v n : Nat) : (d.wr r v n).acc = d.acc := rfl
@[simp] theorem Dev.wr_staged (d : Dev) (r : Reg) (v n : Nat) : (d.wr r v n).staged = d.staged := rfl
@[simp] theorem Dev.wr_latch (d : Dev) (r : Reg) (v n : Nat) : (d.wr r v n).latch = d.latch := rfl
@[simp] theorem Dev.wr_half (d : Dev) (r : Reg) (v n : Nat) : (d.wr r v n).half = d.half := rfl
@[simp] theorem Dev.wr_tick (d : Dev) (r : Reg) (v n : Nat) : (d.wr r v n).tick = d.tick := rfl
@[simp] theorem Dev.wr_tickOn (d : Dev) (r : Reg) (v n : Nat) : (d.wr r v n).tickOn = d.tickOn := rfl
@[simp] theorem Dev.wr_cycle (d : Dev) (r : Reg) (v n : Nat) : (d.wr r v n).cycle = d.cycle := rfl
@[simp] theorem Dev.wr_free (d : Dev) (r : Reg) (v n : Nat) : (d.wr r v n).free = d.free := rfl
@[simp] theorem Dev.wr_fresh (d : Dev) (r : Reg) (v n : Nat) : (d.wr r v n).fresh = d.fresh := rfl
@[simp] theorem Dev.wr_freshAt (d : Dev) (r : Reg) (v n : Nat) : (d.wr r v n).freshAt = d.freshAt := rfl
@[simp] theorem Dev.wr_outs (d : Dev) (r : Reg) (v n : Nat) : (d.wr r v n).outs = d.outs := rfl
@[simp] theorem Dev.wr_engs (d : Dev) (r : Reg) (v n : Nat) : (d.wr r v n).engs = d.engs := rfl
@[simp] theorem Dev.wr_tasks (d : Dev) (r : Reg) (v n : Nat) : (d.wr r v n).tasks = d.tasks := rfl
@[simp] theorem Dev.wr_tins (d : Dev) (r : Reg) (v n : Nat) : (d.wr r v n).tins = d.tins := rfl
@[simp] theorem Dev.wr_cluss (d : Dev) (r : Reg) (v n : Nat) : (d.wr r v n).cluss = d.cluss := rfl
@[simp] theorem Dev.wr_dispatchOn (d : Dev) (r : Reg) (v n : Nat) : (d.wr r v n).dispatchOn = d.dispatchOn := rfl
@[simp] theorem Dev.wr_lastStart (d : Dev) (r : Reg) (v n : Nat) : (d.wr r v n).lastStart = d.lastStart := rfl
@[simp] theorem Dev.wr_ageFrom (d : Dev) (r : Reg) (v n : Nat) : (d.wr r v n).ageFrom = d.ageFrom := rfl
@[simp] theorem Dev.wr_vat (d : Dev) (r : Reg) (v n : Nat) : (d.wr r v n).vat = d.vat := rfl
@[simp] theorem Dev.wr_grants (d : Dev) (r : Reg) (v n : Nat) : (d.wr r v n).grants = d.grants := rfl
@[simp] theorem Dev.wr_stagedTabs (d : Dev) (r : Reg) (v n : Nat) : (d.wr r v n).stagedTabs = d.stagedTabs := rfl
@[simp] theorem Dev.wr_flt (d : Dev) (r : Reg) (v n : Nat) : (d.wr r v n).flt = d.flt := rfl
@[simp] theorem Dev.wr_mons (d : Dev) (r : Reg) (v n : Nat) : (d.wr r v n).mons = d.mons := rfl
@[simp] theorem Dev.wr_sels (d : Dev) (r : Reg) (v n : Nat) : (d.wr r v n).sels = d.sels := rfl
@[simp] theorem Dev.wr_loops (d : Dev) (r : Reg) (v n : Nat) : (d.wr r v n).loops = d.loops := rfl
@[simp] theorem Dev.wr_slals (d : Dev) (r : Reg) (v n : Nat) : (d.wr r v n).slals = d.slals := rfl
@[simp] theorem Dev.wr_syns (d : Dev) (r : Reg) (v n : Nat) : (d.wr r v n).syns = d.syns := rfl
@[simp] theorem Dev.wr_outcs (d : Dev) (r : Reg) (v n : Nat) : (d.wr r v n).outcs = d.outcs := rfl
@[simp] theorem Dev.wr_bankBad (d : Dev) (r : Reg) (v n : Nat) : (d.wr r v n).bankBad = d.bankBad := rfl
@[simp] theorem Dev.wr_supplyBad (d : Dev) (r : Reg) (v n : Nat) : (d.wr r v n).supplyBad = d.supplyBad := rfl
@[simp] theorem Dev.wr_rrefs (d : Dev) (r : Reg) (v n : Nat) : (d.wr r v n).rrefs = d.rrefs := rfl
@[simp] theorem Dev.wr_rwords (d : Dev) (r : Reg) (v n : Nat) : (d.wr r v n).rwords = d.rwords := rfl
@[simp] theorem Dev.wr_sensors (d : Dev) (r : Reg) (v n : Nat) : (d.wr r v n).sensors = d.sensors := rfl
@[simp] theorem Dev.wr_hot (d : Dev) (r : Reg) (v n : Nat) : (d.wr r v n).hot = d.hot := rfl
@[simp] theorem Dev.wr_xoHz (d : Dev) (r : Reg) (v n : Nat) : (d.wr r v n).xoHz = d.xoHz := rfl
@[simp] theorem Dev.wr_time (d : Dev) (r : Reg) (v n : Nat) : (d.wr r v n).time = d.time := rfl
@[simp] theorem Dev.wr_ctxs (d : Dev) (r : Reg) (v n : Nat) : (d.wr r v n).ctxs = d.ctxs := rfl
@[simp] theorem Dev.wr_evts (d : Dev) (r : Reg) (v n : Nat) : (d.wr r v n).evts = d.evts := rfl
@[simp] theorem Dev.wr_pi (d : Dev) (r : Reg) (v n : Nat) : (d.wr r v n).pi = d.pi := rfl
@[simp] theorem Dev.wr_tdcs (d : Dev) (r : Reg) (v n : Nat) : (d.wr r v n).tdcs = d.tdcs := rfl
@[simp] theorem Dev.wr_mss (d : Dev) (r : Reg) (v n : Nat) : (d.wr r v n).mss = d.mss := rfl
@[simp] theorem Dev.wr_sts (d : Dev) (r : Reg) (v n : Nat) : (d.wr r v n).sts = d.sts := rfl
@[simp] theorem Dev.wr_trs (d : Dev) (r : Reg) (v n : Nat) : (d.wr r v n).trs = d.trs := rfl
@[simp] theorem Dev.wr_frm (d : Dev) (r : Reg) (v n : Nat) : (d.wr r v n).frm = d.frm := rfl
@[simp] theorem Dev.wr_kl (d : Dev) (r : Reg) (v n : Nat) : (d.wr r v n).kl = d.kl := rfl
@[simp] theorem Dev.wr_ream (d : Dev) (r : Reg) (v n : Nat) : (d.wr r v n).ream = d.ream := rfl
@[simp] theorem Dev.wr_boot (d : Dev) (r : Reg) (v n : Nat) : (d.wr r v n).boot = d.boot := rfl
@[simp] theorem Dev.wr_host (d : Dev) (r : Reg) (v n : Nat) : (d.wr r v n).host = d.host := rfl
@[simp] theorem Dev.wr_test (d : Dev) (r : Reg) (v n : Nat) : (d.wr r v n).test = d.test := rfl
@[simp] theorem Dev.wr_base (d : Dev) (r : Reg) (v n : Nat) : (d.wr r v n).base = d.base := rfl

@[simp] theorem Dev.put_acc (d : Dev) (f : Fld) (v n : Nat) : (d.put f v n).acc = d.acc := rfl
@[simp] theorem Dev.put_staged (d : Dev) (f : Fld) (v n : Nat) : (d.put f v n).staged = d.staged := rfl
@[simp] theorem Dev.put_latch (d : Dev) (f : Fld) (v n : Nat) : (d.put f v n).latch = d.latch := rfl
@[simp] theorem Dev.put_half (d : Dev) (f : Fld) (v n : Nat) : (d.put f v n).half = d.half := rfl
@[simp] theorem Dev.put_tick (d : Dev) (f : Fld) (v n : Nat) : (d.put f v n).tick = d.tick := rfl
@[simp] theorem Dev.put_tickOn (d : Dev) (f : Fld) (v n : Nat) : (d.put f v n).tickOn = d.tickOn := rfl
@[simp] theorem Dev.put_cycle (d : Dev) (f : Fld) (v n : Nat) : (d.put f v n).cycle = d.cycle := rfl
@[simp] theorem Dev.put_free (d : Dev) (f : Fld) (v n : Nat) : (d.put f v n).free = d.free := rfl
@[simp] theorem Dev.put_fresh (d : Dev) (f : Fld) (v n : Nat) : (d.put f v n).fresh = d.fresh := rfl
@[simp] theorem Dev.put_freshAt (d : Dev) (f : Fld) (v n : Nat) : (d.put f v n).freshAt = d.freshAt := rfl
@[simp] theorem Dev.put_outs (d : Dev) (f : Fld) (v n : Nat) : (d.put f v n).outs = d.outs := rfl
@[simp] theorem Dev.put_engs (d : Dev) (f : Fld) (v n : Nat) : (d.put f v n).engs = d.engs := rfl
@[simp] theorem Dev.put_tasks (d : Dev) (f : Fld) (v n : Nat) : (d.put f v n).tasks = d.tasks := rfl
@[simp] theorem Dev.put_tins (d : Dev) (f : Fld) (v n : Nat) : (d.put f v n).tins = d.tins := rfl
@[simp] theorem Dev.put_cluss (d : Dev) (f : Fld) (v n : Nat) : (d.put f v n).cluss = d.cluss := rfl
@[simp] theorem Dev.put_dispatchOn (d : Dev) (f : Fld) (v n : Nat) : (d.put f v n).dispatchOn = d.dispatchOn := rfl
@[simp] theorem Dev.put_lastStart (d : Dev) (f : Fld) (v n : Nat) : (d.put f v n).lastStart = d.lastStart := rfl
@[simp] theorem Dev.put_ageFrom (d : Dev) (f : Fld) (v n : Nat) : (d.put f v n).ageFrom = d.ageFrom := rfl
@[simp] theorem Dev.put_vat (d : Dev) (f : Fld) (v n : Nat) : (d.put f v n).vat = d.vat := rfl
@[simp] theorem Dev.put_grants (d : Dev) (f : Fld) (v n : Nat) : (d.put f v n).grants = d.grants := rfl
@[simp] theorem Dev.put_stagedTabs (d : Dev) (f : Fld) (v n : Nat) : (d.put f v n).stagedTabs = d.stagedTabs := rfl
@[simp] theorem Dev.put_flt (d : Dev) (f : Fld) (v n : Nat) : (d.put f v n).flt = d.flt := rfl
@[simp] theorem Dev.put_mons (d : Dev) (f : Fld) (v n : Nat) : (d.put f v n).mons = d.mons := rfl
@[simp] theorem Dev.put_sels (d : Dev) (f : Fld) (v n : Nat) : (d.put f v n).sels = d.sels := rfl
@[simp] theorem Dev.put_loops (d : Dev) (f : Fld) (v n : Nat) : (d.put f v n).loops = d.loops := rfl
@[simp] theorem Dev.put_slals (d : Dev) (f : Fld) (v n : Nat) : (d.put f v n).slals = d.slals := rfl
@[simp] theorem Dev.put_syns (d : Dev) (f : Fld) (v n : Nat) : (d.put f v n).syns = d.syns := rfl
@[simp] theorem Dev.put_outcs (d : Dev) (f : Fld) (v n : Nat) : (d.put f v n).outcs = d.outcs := rfl
@[simp] theorem Dev.put_bankBad (d : Dev) (f : Fld) (v n : Nat) : (d.put f v n).bankBad = d.bankBad := rfl
@[simp] theorem Dev.put_supplyBad (d : Dev) (f : Fld) (v n : Nat) : (d.put f v n).supplyBad = d.supplyBad := rfl
@[simp] theorem Dev.put_rrefs (d : Dev) (f : Fld) (v n : Nat) : (d.put f v n).rrefs = d.rrefs := rfl
@[simp] theorem Dev.put_rwords (d : Dev) (f : Fld) (v n : Nat) : (d.put f v n).rwords = d.rwords := rfl
@[simp] theorem Dev.put_sensors (d : Dev) (f : Fld) (v n : Nat) : (d.put f v n).sensors = d.sensors := rfl
@[simp] theorem Dev.put_hot (d : Dev) (f : Fld) (v n : Nat) : (d.put f v n).hot = d.hot := rfl
@[simp] theorem Dev.put_xoHz (d : Dev) (f : Fld) (v n : Nat) : (d.put f v n).xoHz = d.xoHz := rfl
@[simp] theorem Dev.put_time (d : Dev) (f : Fld) (v n : Nat) : (d.put f v n).time = d.time := rfl
@[simp] theorem Dev.put_ctxs (d : Dev) (f : Fld) (v n : Nat) : (d.put f v n).ctxs = d.ctxs := rfl
@[simp] theorem Dev.put_evts (d : Dev) (f : Fld) (v n : Nat) : (d.put f v n).evts = d.evts := rfl
@[simp] theorem Dev.put_pi (d : Dev) (f : Fld) (v n : Nat) : (d.put f v n).pi = d.pi := rfl
@[simp] theorem Dev.put_tdcs (d : Dev) (f : Fld) (v n : Nat) : (d.put f v n).tdcs = d.tdcs := rfl
@[simp] theorem Dev.put_mss (d : Dev) (f : Fld) (v n : Nat) : (d.put f v n).mss = d.mss := rfl
@[simp] theorem Dev.put_sts (d : Dev) (f : Fld) (v n : Nat) : (d.put f v n).sts = d.sts := rfl
@[simp] theorem Dev.put_trs (d : Dev) (f : Fld) (v n : Nat) : (d.put f v n).trs = d.trs := rfl
@[simp] theorem Dev.put_frm (d : Dev) (f : Fld) (v n : Nat) : (d.put f v n).frm = d.frm := rfl
@[simp] theorem Dev.put_kl (d : Dev) (f : Fld) (v n : Nat) : (d.put f v n).kl = d.kl := rfl
@[simp] theorem Dev.put_ream (d : Dev) (f : Fld) (v n : Nat) : (d.put f v n).ream = d.ream := rfl
@[simp] theorem Dev.put_boot (d : Dev) (f : Fld) (v n : Nat) : (d.put f v n).boot = d.boot := rfl
@[simp] theorem Dev.put_host (d : Dev) (f : Fld) (v n : Nat) : (d.put f v n).host = d.host := rfl
@[simp] theorem Dev.put_test (d : Dev) (f : Fld) (v n : Nat) : (d.put f v n).test = d.test := rfl
@[simp] theorem Dev.put_base (d : Dev) (f : Fld) (v n : Nat) : (d.put f v n).base = d.base := rfl

@[simp] theorem Dev.putB_acc (d : Dev) (f : Fld) (v : Bool) (n : Nat) : (d.putB f v n).acc = d.acc := rfl
@[simp] theorem Dev.putB_staged (d : Dev) (f : Fld) (v : Bool) (n : Nat) : (d.putB f v n).staged = d.staged := rfl
@[simp] theorem Dev.putB_latch (d : Dev) (f : Fld) (v : Bool) (n : Nat) : (d.putB f v n).latch = d.latch := rfl
@[simp] theorem Dev.putB_half (d : Dev) (f : Fld) (v : Bool) (n : Nat) : (d.putB f v n).half = d.half := rfl
@[simp] theorem Dev.putB_tick (d : Dev) (f : Fld) (v : Bool) (n : Nat) : (d.putB f v n).tick = d.tick := rfl
@[simp] theorem Dev.putB_tickOn (d : Dev) (f : Fld) (v : Bool) (n : Nat) : (d.putB f v n).tickOn = d.tickOn := rfl
@[simp] theorem Dev.putB_cycle (d : Dev) (f : Fld) (v : Bool) (n : Nat) : (d.putB f v n).cycle = d.cycle := rfl
@[simp] theorem Dev.putB_free (d : Dev) (f : Fld) (v : Bool) (n : Nat) : (d.putB f v n).free = d.free := rfl
@[simp] theorem Dev.putB_fresh (d : Dev) (f : Fld) (v : Bool) (n : Nat) : (d.putB f v n).fresh = d.fresh := rfl
@[simp] theorem Dev.putB_freshAt (d : Dev) (f : Fld) (v : Bool) (n : Nat) : (d.putB f v n).freshAt = d.freshAt := rfl
@[simp] theorem Dev.putB_outs (d : Dev) (f : Fld) (v : Bool) (n : Nat) : (d.putB f v n).outs = d.outs := rfl
@[simp] theorem Dev.putB_engs (d : Dev) (f : Fld) (v : Bool) (n : Nat) : (d.putB f v n).engs = d.engs := rfl
@[simp] theorem Dev.putB_tasks (d : Dev) (f : Fld) (v : Bool) (n : Nat) : (d.putB f v n).tasks = d.tasks := rfl
@[simp] theorem Dev.putB_tins (d : Dev) (f : Fld) (v : Bool) (n : Nat) : (d.putB f v n).tins = d.tins := rfl
@[simp] theorem Dev.putB_cluss (d : Dev) (f : Fld) (v : Bool) (n : Nat) : (d.putB f v n).cluss = d.cluss := rfl
@[simp] theorem Dev.putB_dispatchOn (d : Dev) (f : Fld) (v : Bool) (n : Nat) : (d.putB f v n).dispatchOn = d.dispatchOn := rfl
@[simp] theorem Dev.putB_lastStart (d : Dev) (f : Fld) (v : Bool) (n : Nat) : (d.putB f v n).lastStart = d.lastStart := rfl
@[simp] theorem Dev.putB_ageFrom (d : Dev) (f : Fld) (v : Bool) (n : Nat) : (d.putB f v n).ageFrom = d.ageFrom := rfl
@[simp] theorem Dev.putB_vat (d : Dev) (f : Fld) (v : Bool) (n : Nat) : (d.putB f v n).vat = d.vat := rfl
@[simp] theorem Dev.putB_grants (d : Dev) (f : Fld) (v : Bool) (n : Nat) : (d.putB f v n).grants = d.grants := rfl
@[simp] theorem Dev.putB_stagedTabs (d : Dev) (f : Fld) (v : Bool) (n : Nat) : (d.putB f v n).stagedTabs = d.stagedTabs := rfl
@[simp] theorem Dev.putB_flt (d : Dev) (f : Fld) (v : Bool) (n : Nat) : (d.putB f v n).flt = d.flt := rfl
@[simp] theorem Dev.putB_mons (d : Dev) (f : Fld) (v : Bool) (n : Nat) : (d.putB f v n).mons = d.mons := rfl
@[simp] theorem Dev.putB_sels (d : Dev) (f : Fld) (v : Bool) (n : Nat) : (d.putB f v n).sels = d.sels := rfl
@[simp] theorem Dev.putB_loops (d : Dev) (f : Fld) (v : Bool) (n : Nat) : (d.putB f v n).loops = d.loops := rfl
@[simp] theorem Dev.putB_slals (d : Dev) (f : Fld) (v : Bool) (n : Nat) : (d.putB f v n).slals = d.slals := rfl
@[simp] theorem Dev.putB_syns (d : Dev) (f : Fld) (v : Bool) (n : Nat) : (d.putB f v n).syns = d.syns := rfl
@[simp] theorem Dev.putB_outcs (d : Dev) (f : Fld) (v : Bool) (n : Nat) : (d.putB f v n).outcs = d.outcs := rfl
@[simp] theorem Dev.putB_bankBad (d : Dev) (f : Fld) (v : Bool) (n : Nat) : (d.putB f v n).bankBad = d.bankBad := rfl
@[simp] theorem Dev.putB_supplyBad (d : Dev) (f : Fld) (v : Bool) (n : Nat) : (d.putB f v n).supplyBad = d.supplyBad := rfl
@[simp] theorem Dev.putB_rrefs (d : Dev) (f : Fld) (v : Bool) (n : Nat) : (d.putB f v n).rrefs = d.rrefs := rfl
@[simp] theorem Dev.putB_rwords (d : Dev) (f : Fld) (v : Bool) (n : Nat) : (d.putB f v n).rwords = d.rwords := rfl
@[simp] theorem Dev.putB_sensors (d : Dev) (f : Fld) (v : Bool) (n : Nat) : (d.putB f v n).sensors = d.sensors := rfl
@[simp] theorem Dev.putB_hot (d : Dev) (f : Fld) (v : Bool) (n : Nat) : (d.putB f v n).hot = d.hot := rfl
@[simp] theorem Dev.putB_xoHz (d : Dev) (f : Fld) (v : Bool) (n : Nat) : (d.putB f v n).xoHz = d.xoHz := rfl
@[simp] theorem Dev.putB_time (d : Dev) (f : Fld) (v : Bool) (n : Nat) : (d.putB f v n).time = d.time := rfl
@[simp] theorem Dev.putB_ctxs (d : Dev) (f : Fld) (v : Bool) (n : Nat) : (d.putB f v n).ctxs = d.ctxs := rfl
@[simp] theorem Dev.putB_evts (d : Dev) (f : Fld) (v : Bool) (n : Nat) : (d.putB f v n).evts = d.evts := rfl
@[simp] theorem Dev.putB_pi (d : Dev) (f : Fld) (v : Bool) (n : Nat) : (d.putB f v n).pi = d.pi := rfl
@[simp] theorem Dev.putB_tdcs (d : Dev) (f : Fld) (v : Bool) (n : Nat) : (d.putB f v n).tdcs = d.tdcs := rfl
@[simp] theorem Dev.putB_mss (d : Dev) (f : Fld) (v : Bool) (n : Nat) : (d.putB f v n).mss = d.mss := rfl
@[simp] theorem Dev.putB_sts (d : Dev) (f : Fld) (v : Bool) (n : Nat) : (d.putB f v n).sts = d.sts := rfl
@[simp] theorem Dev.putB_trs (d : Dev) (f : Fld) (v : Bool) (n : Nat) : (d.putB f v n).trs = d.trs := rfl
@[simp] theorem Dev.putB_frm (d : Dev) (f : Fld) (v : Bool) (n : Nat) : (d.putB f v n).frm = d.frm := rfl
@[simp] theorem Dev.putB_kl (d : Dev) (f : Fld) (v : Bool) (n : Nat) : (d.putB f v n).kl = d.kl := rfl
@[simp] theorem Dev.putB_ream (d : Dev) (f : Fld) (v : Bool) (n : Nat) : (d.putB f v n).ream = d.ream := rfl
@[simp] theorem Dev.putB_boot (d : Dev) (f : Fld) (v : Bool) (n : Nat) : (d.putB f v n).boot = d.boot := rfl
@[simp] theorem Dev.putB_host (d : Dev) (f : Fld) (v : Bool) (n : Nat) : (d.putB f v n).host = d.host := rfl
@[simp] theorem Dev.putB_test (d : Dev) (f : Fld) (v : Bool) (n : Nat) : (d.putB f v n).test = d.test := rfl
@[simp] theorem Dev.putB_base (d : Dev) (f : Fld) (v : Bool) (n : Nat) : (d.putB f v n).base = d.base := rfl

@[simp] theorem Dev.put64_acc (d : Dev) (f g : Fld) (v n : Nat) : (d.put64 f g v n).acc = d.acc := rfl
@[simp] theorem Dev.put64_staged (d : Dev) (f g : Fld) (v n : Nat) : (d.put64 f g v n).staged = d.staged := rfl
@[simp] theorem Dev.put64_latch (d : Dev) (f g : Fld) (v n : Nat) : (d.put64 f g v n).latch = d.latch := rfl
@[simp] theorem Dev.put64_half (d : Dev) (f g : Fld) (v n : Nat) : (d.put64 f g v n).half = d.half := rfl
@[simp] theorem Dev.put64_tick (d : Dev) (f g : Fld) (v n : Nat) : (d.put64 f g v n).tick = d.tick := rfl
@[simp] theorem Dev.put64_tickOn (d : Dev) (f g : Fld) (v n : Nat) : (d.put64 f g v n).tickOn = d.tickOn := rfl
@[simp] theorem Dev.put64_cycle (d : Dev) (f g : Fld) (v n : Nat) : (d.put64 f g v n).cycle = d.cycle := rfl
@[simp] theorem Dev.put64_free (d : Dev) (f g : Fld) (v n : Nat) : (d.put64 f g v n).free = d.free := rfl
@[simp] theorem Dev.put64_fresh (d : Dev) (f g : Fld) (v n : Nat) : (d.put64 f g v n).fresh = d.fresh := rfl
@[simp] theorem Dev.put64_freshAt (d : Dev) (f g : Fld) (v n : Nat) : (d.put64 f g v n).freshAt = d.freshAt := rfl
@[simp] theorem Dev.put64_outs (d : Dev) (f g : Fld) (v n : Nat) : (d.put64 f g v n).outs = d.outs := rfl
@[simp] theorem Dev.put64_engs (d : Dev) (f g : Fld) (v n : Nat) : (d.put64 f g v n).engs = d.engs := rfl
@[simp] theorem Dev.put64_tasks (d : Dev) (f g : Fld) (v n : Nat) : (d.put64 f g v n).tasks = d.tasks := rfl
@[simp] theorem Dev.put64_tins (d : Dev) (f g : Fld) (v n : Nat) : (d.put64 f g v n).tins = d.tins := rfl
@[simp] theorem Dev.put64_cluss (d : Dev) (f g : Fld) (v n : Nat) : (d.put64 f g v n).cluss = d.cluss := rfl
@[simp] theorem Dev.put64_dispatchOn (d : Dev) (f g : Fld) (v n : Nat) : (d.put64 f g v n).dispatchOn = d.dispatchOn := rfl
@[simp] theorem Dev.put64_lastStart (d : Dev) (f g : Fld) (v n : Nat) : (d.put64 f g v n).lastStart = d.lastStart := rfl
@[simp] theorem Dev.put64_ageFrom (d : Dev) (f g : Fld) (v n : Nat) : (d.put64 f g v n).ageFrom = d.ageFrom := rfl
@[simp] theorem Dev.put64_vat (d : Dev) (f g : Fld) (v n : Nat) : (d.put64 f g v n).vat = d.vat := rfl
@[simp] theorem Dev.put64_grants (d : Dev) (f g : Fld) (v n : Nat) : (d.put64 f g v n).grants = d.grants := rfl
@[simp] theorem Dev.put64_stagedTabs (d : Dev) (f g : Fld) (v n : Nat) : (d.put64 f g v n).stagedTabs = d.stagedTabs := rfl
@[simp] theorem Dev.put64_flt (d : Dev) (f g : Fld) (v n : Nat) : (d.put64 f g v n).flt = d.flt := rfl
@[simp] theorem Dev.put64_mons (d : Dev) (f g : Fld) (v n : Nat) : (d.put64 f g v n).mons = d.mons := rfl
@[simp] theorem Dev.put64_sels (d : Dev) (f g : Fld) (v n : Nat) : (d.put64 f g v n).sels = d.sels := rfl
@[simp] theorem Dev.put64_loops (d : Dev) (f g : Fld) (v n : Nat) : (d.put64 f g v n).loops = d.loops := rfl
@[simp] theorem Dev.put64_slals (d : Dev) (f g : Fld) (v n : Nat) : (d.put64 f g v n).slals = d.slals := rfl
@[simp] theorem Dev.put64_syns (d : Dev) (f g : Fld) (v n : Nat) : (d.put64 f g v n).syns = d.syns := rfl
@[simp] theorem Dev.put64_outcs (d : Dev) (f g : Fld) (v n : Nat) : (d.put64 f g v n).outcs = d.outcs := rfl
@[simp] theorem Dev.put64_bankBad (d : Dev) (f g : Fld) (v n : Nat) : (d.put64 f g v n).bankBad = d.bankBad := rfl
@[simp] theorem Dev.put64_supplyBad (d : Dev) (f g : Fld) (v n : Nat) : (d.put64 f g v n).supplyBad = d.supplyBad := rfl
@[simp] theorem Dev.put64_rrefs (d : Dev) (f g : Fld) (v n : Nat) : (d.put64 f g v n).rrefs = d.rrefs := rfl
@[simp] theorem Dev.put64_rwords (d : Dev) (f g : Fld) (v n : Nat) : (d.put64 f g v n).rwords = d.rwords := rfl
@[simp] theorem Dev.put64_sensors (d : Dev) (f g : Fld) (v n : Nat) : (d.put64 f g v n).sensors = d.sensors := rfl
@[simp] theorem Dev.put64_hot (d : Dev) (f g : Fld) (v n : Nat) : (d.put64 f g v n).hot = d.hot := rfl
@[simp] theorem Dev.put64_xoHz (d : Dev) (f g : Fld) (v n : Nat) : (d.put64 f g v n).xoHz = d.xoHz := rfl
@[simp] theorem Dev.put64_time (d : Dev) (f g : Fld) (v n : Nat) : (d.put64 f g v n).time = d.time := rfl
@[simp] theorem Dev.put64_ctxs (d : Dev) (f g : Fld) (v n : Nat) : (d.put64 f g v n).ctxs = d.ctxs := rfl
@[simp] theorem Dev.put64_evts (d : Dev) (f g : Fld) (v n : Nat) : (d.put64 f g v n).evts = d.evts := rfl
@[simp] theorem Dev.put64_pi (d : Dev) (f g : Fld) (v n : Nat) : (d.put64 f g v n).pi = d.pi := rfl
@[simp] theorem Dev.put64_tdcs (d : Dev) (f g : Fld) (v n : Nat) : (d.put64 f g v n).tdcs = d.tdcs := rfl
@[simp] theorem Dev.put64_mss (d : Dev) (f g : Fld) (v n : Nat) : (d.put64 f g v n).mss = d.mss := rfl
@[simp] theorem Dev.put64_sts (d : Dev) (f g : Fld) (v n : Nat) : (d.put64 f g v n).sts = d.sts := rfl
@[simp] theorem Dev.put64_trs (d : Dev) (f g : Fld) (v n : Nat) : (d.put64 f g v n).trs = d.trs := rfl
@[simp] theorem Dev.put64_frm (d : Dev) (f g : Fld) (v n : Nat) : (d.put64 f g v n).frm = d.frm := rfl
@[simp] theorem Dev.put64_kl (d : Dev) (f g : Fld) (v n : Nat) : (d.put64 f g v n).kl = d.kl := rfl
@[simp] theorem Dev.put64_ream (d : Dev) (f g : Fld) (v n : Nat) : (d.put64 f g v n).ream = d.ream := rfl
@[simp] theorem Dev.put64_boot (d : Dev) (f g : Fld) (v n : Nat) : (d.put64 f g v n).boot = d.boot := rfl
@[simp] theorem Dev.put64_host (d : Dev) (f g : Fld) (v n : Nat) : (d.put64 f g v n).host = d.host := rfl
@[simp] theorem Dev.put64_test (d : Dev) (f g : Fld) (v n : Nat) : (d.put64 f g v n).test = d.test := rfl
@[simp] theorem Dev.put64_base (d : Dev) (f g : Fld) (v n : Nat) : (d.put64 f g v n).base = d.base := rfl

@[simp] theorem Dev.incSat_acc (d : Dev) (f : Fld) (n k : Nat) : (d.incSat f n k).acc = d.acc := rfl
@[simp] theorem Dev.incSat_staged (d : Dev) (f : Fld) (n k : Nat) : (d.incSat f n k).staged = d.staged := rfl
@[simp] theorem Dev.incSat_latch (d : Dev) (f : Fld) (n k : Nat) : (d.incSat f n k).latch = d.latch := rfl
@[simp] theorem Dev.incSat_half (d : Dev) (f : Fld) (n k : Nat) : (d.incSat f n k).half = d.half := rfl
@[simp] theorem Dev.incSat_tick (d : Dev) (f : Fld) (n k : Nat) : (d.incSat f n k).tick = d.tick := rfl
@[simp] theorem Dev.incSat_tickOn (d : Dev) (f : Fld) (n k : Nat) : (d.incSat f n k).tickOn = d.tickOn := rfl
@[simp] theorem Dev.incSat_cycle (d : Dev) (f : Fld) (n k : Nat) : (d.incSat f n k).cycle = d.cycle := rfl
@[simp] theorem Dev.incSat_free (d : Dev) (f : Fld) (n k : Nat) : (d.incSat f n k).free = d.free := rfl
@[simp] theorem Dev.incSat_fresh (d : Dev) (f : Fld) (n k : Nat) : (d.incSat f n k).fresh = d.fresh := rfl
@[simp] theorem Dev.incSat_freshAt (d : Dev) (f : Fld) (n k : Nat) : (d.incSat f n k).freshAt = d.freshAt := rfl
@[simp] theorem Dev.incSat_outs (d : Dev) (f : Fld) (n k : Nat) : (d.incSat f n k).outs = d.outs := rfl
@[simp] theorem Dev.incSat_engs (d : Dev) (f : Fld) (n k : Nat) : (d.incSat f n k).engs = d.engs := rfl
@[simp] theorem Dev.incSat_tasks (d : Dev) (f : Fld) (n k : Nat) : (d.incSat f n k).tasks = d.tasks := rfl
@[simp] theorem Dev.incSat_tins (d : Dev) (f : Fld) (n k : Nat) : (d.incSat f n k).tins = d.tins := rfl
@[simp] theorem Dev.incSat_cluss (d : Dev) (f : Fld) (n k : Nat) : (d.incSat f n k).cluss = d.cluss := rfl
@[simp] theorem Dev.incSat_dispatchOn (d : Dev) (f : Fld) (n k : Nat) : (d.incSat f n k).dispatchOn = d.dispatchOn := rfl
@[simp] theorem Dev.incSat_lastStart (d : Dev) (f : Fld) (n k : Nat) : (d.incSat f n k).lastStart = d.lastStart := rfl
@[simp] theorem Dev.incSat_ageFrom (d : Dev) (f : Fld) (n k : Nat) : (d.incSat f n k).ageFrom = d.ageFrom := rfl
@[simp] theorem Dev.incSat_vat (d : Dev) (f : Fld) (n k : Nat) : (d.incSat f n k).vat = d.vat := rfl
@[simp] theorem Dev.incSat_grants (d : Dev) (f : Fld) (n k : Nat) : (d.incSat f n k).grants = d.grants := rfl
@[simp] theorem Dev.incSat_stagedTabs (d : Dev) (f : Fld) (n k : Nat) : (d.incSat f n k).stagedTabs = d.stagedTabs := rfl
@[simp] theorem Dev.incSat_flt (d : Dev) (f : Fld) (n k : Nat) : (d.incSat f n k).flt = d.flt := rfl
@[simp] theorem Dev.incSat_mons (d : Dev) (f : Fld) (n k : Nat) : (d.incSat f n k).mons = d.mons := rfl
@[simp] theorem Dev.incSat_sels (d : Dev) (f : Fld) (n k : Nat) : (d.incSat f n k).sels = d.sels := rfl
@[simp] theorem Dev.incSat_loops (d : Dev) (f : Fld) (n k : Nat) : (d.incSat f n k).loops = d.loops := rfl
@[simp] theorem Dev.incSat_slals (d : Dev) (f : Fld) (n k : Nat) : (d.incSat f n k).slals = d.slals := rfl
@[simp] theorem Dev.incSat_syns (d : Dev) (f : Fld) (n k : Nat) : (d.incSat f n k).syns = d.syns := rfl
@[simp] theorem Dev.incSat_outcs (d : Dev) (f : Fld) (n k : Nat) : (d.incSat f n k).outcs = d.outcs := rfl
@[simp] theorem Dev.incSat_bankBad (d : Dev) (f : Fld) (n k : Nat) : (d.incSat f n k).bankBad = d.bankBad := rfl
@[simp] theorem Dev.incSat_supplyBad (d : Dev) (f : Fld) (n k : Nat) : (d.incSat f n k).supplyBad = d.supplyBad := rfl
@[simp] theorem Dev.incSat_rrefs (d : Dev) (f : Fld) (n k : Nat) : (d.incSat f n k).rrefs = d.rrefs := rfl
@[simp] theorem Dev.incSat_rwords (d : Dev) (f : Fld) (n k : Nat) : (d.incSat f n k).rwords = d.rwords := rfl
@[simp] theorem Dev.incSat_sensors (d : Dev) (f : Fld) (n k : Nat) : (d.incSat f n k).sensors = d.sensors := rfl
@[simp] theorem Dev.incSat_hot (d : Dev) (f : Fld) (n k : Nat) : (d.incSat f n k).hot = d.hot := rfl
@[simp] theorem Dev.incSat_xoHz (d : Dev) (f : Fld) (n k : Nat) : (d.incSat f n k).xoHz = d.xoHz := rfl
@[simp] theorem Dev.incSat_time (d : Dev) (f : Fld) (n k : Nat) : (d.incSat f n k).time = d.time := rfl
@[simp] theorem Dev.incSat_ctxs (d : Dev) (f : Fld) (n k : Nat) : (d.incSat f n k).ctxs = d.ctxs := rfl
@[simp] theorem Dev.incSat_evts (d : Dev) (f : Fld) (n k : Nat) : (d.incSat f n k).evts = d.evts := rfl
@[simp] theorem Dev.incSat_pi (d : Dev) (f : Fld) (n k : Nat) : (d.incSat f n k).pi = d.pi := rfl
@[simp] theorem Dev.incSat_tdcs (d : Dev) (f : Fld) (n k : Nat) : (d.incSat f n k).tdcs = d.tdcs := rfl
@[simp] theorem Dev.incSat_mss (d : Dev) (f : Fld) (n k : Nat) : (d.incSat f n k).mss = d.mss := rfl
@[simp] theorem Dev.incSat_sts (d : Dev) (f : Fld) (n k : Nat) : (d.incSat f n k).sts = d.sts := rfl
@[simp] theorem Dev.incSat_trs (d : Dev) (f : Fld) (n k : Nat) : (d.incSat f n k).trs = d.trs := rfl
@[simp] theorem Dev.incSat_frm (d : Dev) (f : Fld) (n k : Nat) : (d.incSat f n k).frm = d.frm := rfl
@[simp] theorem Dev.incSat_kl (d : Dev) (f : Fld) (n k : Nat) : (d.incSat f n k).kl = d.kl := rfl
@[simp] theorem Dev.incSat_ream (d : Dev) (f : Fld) (n k : Nat) : (d.incSat f n k).ream = d.ream := rfl
@[simp] theorem Dev.incSat_boot (d : Dev) (f : Fld) (n k : Nat) : (d.incSat f n k).boot = d.boot := rfl
@[simp] theorem Dev.incSat_host (d : Dev) (f : Fld) (n k : Nat) : (d.incSat f n k).host = d.host := rfl
@[simp] theorem Dev.incSat_test (d : Dev) (f : Fld) (n k : Nat) : (d.incSat f n k).test = d.test := rfl
@[simp] theorem Dev.incSat_base (d : Dev) (f : Fld) (n k : Nat) : (d.incSat f n k).base = d.base := rfl

@[simp] theorem Dev.incWrap_acc (d : Dev) (f : Fld) (n k : Nat) : (d.incWrap f n k).acc = d.acc := rfl
@[simp] theorem Dev.incWrap_staged (d : Dev) (f : Fld) (n k : Nat) : (d.incWrap f n k).staged = d.staged := rfl
@[simp] theorem Dev.incWrap_latch (d : Dev) (f : Fld) (n k : Nat) : (d.incWrap f n k).latch = d.latch := rfl
@[simp] theorem Dev.incWrap_half (d : Dev) (f : Fld) (n k : Nat) : (d.incWrap f n k).half = d.half := rfl
@[simp] theorem Dev.incWrap_tick (d : Dev) (f : Fld) (n k : Nat) : (d.incWrap f n k).tick = d.tick := rfl
@[simp] theorem Dev.incWrap_tickOn (d : Dev) (f : Fld) (n k : Nat) : (d.incWrap f n k).tickOn = d.tickOn := rfl
@[simp] theorem Dev.incWrap_cycle (d : Dev) (f : Fld) (n k : Nat) : (d.incWrap f n k).cycle = d.cycle := rfl
@[simp] theorem Dev.incWrap_free (d : Dev) (f : Fld) (n k : Nat) : (d.incWrap f n k).free = d.free := rfl
@[simp] theorem Dev.incWrap_fresh (d : Dev) (f : Fld) (n k : Nat) : (d.incWrap f n k).fresh = d.fresh := rfl
@[simp] theorem Dev.incWrap_freshAt (d : Dev) (f : Fld) (n k : Nat) : (d.incWrap f n k).freshAt = d.freshAt := rfl
@[simp] theorem Dev.incWrap_outs (d : Dev) (f : Fld) (n k : Nat) : (d.incWrap f n k).outs = d.outs := rfl
@[simp] theorem Dev.incWrap_engs (d : Dev) (f : Fld) (n k : Nat) : (d.incWrap f n k).engs = d.engs := rfl
@[simp] theorem Dev.incWrap_tasks (d : Dev) (f : Fld) (n k : Nat) : (d.incWrap f n k).tasks = d.tasks := rfl
@[simp] theorem Dev.incWrap_tins (d : Dev) (f : Fld) (n k : Nat) : (d.incWrap f n k).tins = d.tins := rfl
@[simp] theorem Dev.incWrap_cluss (d : Dev) (f : Fld) (n k : Nat) : (d.incWrap f n k).cluss = d.cluss := rfl
@[simp] theorem Dev.incWrap_dispatchOn (d : Dev) (f : Fld) (n k : Nat) : (d.incWrap f n k).dispatchOn = d.dispatchOn := rfl
@[simp] theorem Dev.incWrap_lastStart (d : Dev) (f : Fld) (n k : Nat) : (d.incWrap f n k).lastStart = d.lastStart := rfl
@[simp] theorem Dev.incWrap_ageFrom (d : Dev) (f : Fld) (n k : Nat) : (d.incWrap f n k).ageFrom = d.ageFrom := rfl
@[simp] theorem Dev.incWrap_vat (d : Dev) (f : Fld) (n k : Nat) : (d.incWrap f n k).vat = d.vat := rfl
@[simp] theorem Dev.incWrap_grants (d : Dev) (f : Fld) (n k : Nat) : (d.incWrap f n k).grants = d.grants := rfl
@[simp] theorem Dev.incWrap_stagedTabs (d : Dev) (f : Fld) (n k : Nat) : (d.incWrap f n k).stagedTabs = d.stagedTabs := rfl
@[simp] theorem Dev.incWrap_flt (d : Dev) (f : Fld) (n k : Nat) : (d.incWrap f n k).flt = d.flt := rfl
@[simp] theorem Dev.incWrap_mons (d : Dev) (f : Fld) (n k : Nat) : (d.incWrap f n k).mons = d.mons := rfl
@[simp] theorem Dev.incWrap_sels (d : Dev) (f : Fld) (n k : Nat) : (d.incWrap f n k).sels = d.sels := rfl
@[simp] theorem Dev.incWrap_loops (d : Dev) (f : Fld) (n k : Nat) : (d.incWrap f n k).loops = d.loops := rfl
@[simp] theorem Dev.incWrap_slals (d : Dev) (f : Fld) (n k : Nat) : (d.incWrap f n k).slals = d.slals := rfl
@[simp] theorem Dev.incWrap_syns (d : Dev) (f : Fld) (n k : Nat) : (d.incWrap f n k).syns = d.syns := rfl
@[simp] theorem Dev.incWrap_outcs (d : Dev) (f : Fld) (n k : Nat) : (d.incWrap f n k).outcs = d.outcs := rfl
@[simp] theorem Dev.incWrap_bankBad (d : Dev) (f : Fld) (n k : Nat) : (d.incWrap f n k).bankBad = d.bankBad := rfl
@[simp] theorem Dev.incWrap_supplyBad (d : Dev) (f : Fld) (n k : Nat) : (d.incWrap f n k).supplyBad = d.supplyBad := rfl
@[simp] theorem Dev.incWrap_rrefs (d : Dev) (f : Fld) (n k : Nat) : (d.incWrap f n k).rrefs = d.rrefs := rfl
@[simp] theorem Dev.incWrap_rwords (d : Dev) (f : Fld) (n k : Nat) : (d.incWrap f n k).rwords = d.rwords := rfl
@[simp] theorem Dev.incWrap_sensors (d : Dev) (f : Fld) (n k : Nat) : (d.incWrap f n k).sensors = d.sensors := rfl
@[simp] theorem Dev.incWrap_hot (d : Dev) (f : Fld) (n k : Nat) : (d.incWrap f n k).hot = d.hot := rfl
@[simp] theorem Dev.incWrap_xoHz (d : Dev) (f : Fld) (n k : Nat) : (d.incWrap f n k).xoHz = d.xoHz := rfl
@[simp] theorem Dev.incWrap_time (d : Dev) (f : Fld) (n k : Nat) : (d.incWrap f n k).time = d.time := rfl
@[simp] theorem Dev.incWrap_ctxs (d : Dev) (f : Fld) (n k : Nat) : (d.incWrap f n k).ctxs = d.ctxs := rfl
@[simp] theorem Dev.incWrap_evts (d : Dev) (f : Fld) (n k : Nat) : (d.incWrap f n k).evts = d.evts := rfl
@[simp] theorem Dev.incWrap_pi (d : Dev) (f : Fld) (n k : Nat) : (d.incWrap f n k).pi = d.pi := rfl
@[simp] theorem Dev.incWrap_tdcs (d : Dev) (f : Fld) (n k : Nat) : (d.incWrap f n k).tdcs = d.tdcs := rfl
@[simp] theorem Dev.incWrap_mss (d : Dev) (f : Fld) (n k : Nat) : (d.incWrap f n k).mss = d.mss := rfl
@[simp] theorem Dev.incWrap_sts (d : Dev) (f : Fld) (n k : Nat) : (d.incWrap f n k).sts = d.sts := rfl
@[simp] theorem Dev.incWrap_trs (d : Dev) (f : Fld) (n k : Nat) : (d.incWrap f n k).trs = d.trs := rfl
@[simp] theorem Dev.incWrap_frm (d : Dev) (f : Fld) (n k : Nat) : (d.incWrap f n k).frm = d.frm := rfl
@[simp] theorem Dev.incWrap_kl (d : Dev) (f : Fld) (n k : Nat) : (d.incWrap f n k).kl = d.kl := rfl
@[simp] theorem Dev.incWrap_ream (d : Dev) (f : Fld) (n k : Nat) : (d.incWrap f n k).ream = d.ream := rfl
@[simp] theorem Dev.incWrap_boot (d : Dev) (f : Fld) (n k : Nat) : (d.incWrap f n k).boot = d.boot := rfl
@[simp] theorem Dev.incWrap_host (d : Dev) (f : Fld) (n k : Nat) : (d.incWrap f n k).host = d.host := rfl
@[simp] theorem Dev.incWrap_test (d : Dev) (f : Fld) (n k : Nat) : (d.incWrap f n k).test = d.test := rfl
@[simp] theorem Dev.incWrap_base (d : Dev) (f : Fld) (n k : Nat) : (d.incWrap f n k).base = d.base := rfl

@[simp] theorem Dev.freeNext_regs (d : Dev) : (d.freeNext).regs = d.regs := rfl
@[simp] theorem Dev.freeNext_acc (d : Dev) : (d.freeNext).acc = d.acc := rfl
@[simp] theorem Dev.freeNext_staged (d : Dev) : (d.freeNext).staged = d.staged := rfl
@[simp] theorem Dev.freeNext_latch (d : Dev) : (d.freeNext).latch = d.latch := rfl
@[simp] theorem Dev.freeNext_half (d : Dev) : (d.freeNext).half = d.half := rfl
@[simp] theorem Dev.freeNext_tick (d : Dev) : (d.freeNext).tick = d.tick := rfl
@[simp] theorem Dev.freeNext_tickOn (d : Dev) : (d.freeNext).tickOn = d.tickOn := rfl
@[simp] theorem Dev.freeNext_cycle (d : Dev) : (d.freeNext).cycle = d.cycle := rfl
@[simp] theorem Dev.freeNext_fresh (d : Dev) : (d.freeNext).fresh = d.fresh := rfl
@[simp] theorem Dev.freeNext_freshAt (d : Dev) : (d.freeNext).freshAt = d.freshAt := rfl
@[simp] theorem Dev.freeNext_outs (d : Dev) : (d.freeNext).outs = d.outs := rfl
@[simp] theorem Dev.freeNext_engs (d : Dev) : (d.freeNext).engs = d.engs := rfl
@[simp] theorem Dev.freeNext_tasks (d : Dev) : (d.freeNext).tasks = d.tasks := rfl
@[simp] theorem Dev.freeNext_tins (d : Dev) : (d.freeNext).tins = d.tins := rfl
@[simp] theorem Dev.freeNext_cluss (d : Dev) : (d.freeNext).cluss = d.cluss := rfl
@[simp] theorem Dev.freeNext_dispatchOn (d : Dev) : (d.freeNext).dispatchOn = d.dispatchOn := rfl
@[simp] theorem Dev.freeNext_lastStart (d : Dev) : (d.freeNext).lastStart = d.lastStart := rfl
@[simp] theorem Dev.freeNext_ageFrom (d : Dev) : (d.freeNext).ageFrom = d.ageFrom := rfl
@[simp] theorem Dev.freeNext_vat (d : Dev) : (d.freeNext).vat = d.vat := rfl
@[simp] theorem Dev.freeNext_grants (d : Dev) : (d.freeNext).grants = d.grants := rfl
@[simp] theorem Dev.freeNext_stagedTabs (d : Dev) : (d.freeNext).stagedTabs = d.stagedTabs := rfl
@[simp] theorem Dev.freeNext_flt (d : Dev) : (d.freeNext).flt = d.flt := rfl
@[simp] theorem Dev.freeNext_mons (d : Dev) : (d.freeNext).mons = d.mons := rfl
@[simp] theorem Dev.freeNext_sels (d : Dev) : (d.freeNext).sels = d.sels := rfl
@[simp] theorem Dev.freeNext_loops (d : Dev) : (d.freeNext).loops = d.loops := rfl
@[simp] theorem Dev.freeNext_slals (d : Dev) : (d.freeNext).slals = d.slals := rfl
@[simp] theorem Dev.freeNext_syns (d : Dev) : (d.freeNext).syns = d.syns := rfl
@[simp] theorem Dev.freeNext_outcs (d : Dev) : (d.freeNext).outcs = d.outcs := rfl
@[simp] theorem Dev.freeNext_bankBad (d : Dev) : (d.freeNext).bankBad = d.bankBad := rfl
@[simp] theorem Dev.freeNext_supplyBad (d : Dev) : (d.freeNext).supplyBad = d.supplyBad := rfl
@[simp] theorem Dev.freeNext_rrefs (d : Dev) : (d.freeNext).rrefs = d.rrefs := rfl
@[simp] theorem Dev.freeNext_rwords (d : Dev) : (d.freeNext).rwords = d.rwords := rfl
@[simp] theorem Dev.freeNext_sensors (d : Dev) : (d.freeNext).sensors = d.sensors := rfl
@[simp] theorem Dev.freeNext_hot (d : Dev) : (d.freeNext).hot = d.hot := rfl
@[simp] theorem Dev.freeNext_xoHz (d : Dev) : (d.freeNext).xoHz = d.xoHz := rfl
@[simp] theorem Dev.freeNext_time (d : Dev) : (d.freeNext).time = d.time := rfl
@[simp] theorem Dev.freeNext_ctxs (d : Dev) : (d.freeNext).ctxs = d.ctxs := rfl
@[simp] theorem Dev.freeNext_evts (d : Dev) : (d.freeNext).evts = d.evts := rfl
@[simp] theorem Dev.freeNext_pi (d : Dev) : (d.freeNext).pi = d.pi := rfl
@[simp] theorem Dev.freeNext_tdcs (d : Dev) : (d.freeNext).tdcs = d.tdcs := rfl
@[simp] theorem Dev.freeNext_mss (d : Dev) : (d.freeNext).mss = d.mss := rfl
@[simp] theorem Dev.freeNext_sts (d : Dev) : (d.freeNext).sts = d.sts := rfl
@[simp] theorem Dev.freeNext_trs (d : Dev) : (d.freeNext).trs = d.trs := rfl
@[simp] theorem Dev.freeNext_frm (d : Dev) : (d.freeNext).frm = d.frm := rfl
@[simp] theorem Dev.freeNext_kl (d : Dev) : (d.freeNext).kl = d.kl := rfl
@[simp] theorem Dev.freeNext_ream (d : Dev) : (d.freeNext).ream = d.ream := rfl
@[simp] theorem Dev.freeNext_boot (d : Dev) : (d.freeNext).boot = d.boot := rfl
@[simp] theorem Dev.freeNext_host (d : Dev) : (d.freeNext).host = d.host := rfl
@[simp] theorem Dev.freeNext_test (d : Dev) : (d.freeNext).test = d.test := rfl
@[simp] theorem Dev.freeNext_base (d : Dev) : (d.freeNext).base = d.base := rfl

@[simp] theorem Dev.emit_regs (d : Dev) (o : Out) : (d.emit o).regs = d.regs := rfl
@[simp] theorem Dev.emit_acc (d : Dev) (o : Out) : (d.emit o).acc = d.acc := rfl
@[simp] theorem Dev.emit_staged (d : Dev) (o : Out) : (d.emit o).staged = d.staged := rfl
@[simp] theorem Dev.emit_latch (d : Dev) (o : Out) : (d.emit o).latch = d.latch := rfl
@[simp] theorem Dev.emit_half (d : Dev) (o : Out) : (d.emit o).half = d.half := rfl
@[simp] theorem Dev.emit_tick (d : Dev) (o : Out) : (d.emit o).tick = d.tick := rfl
@[simp] theorem Dev.emit_tickOn (d : Dev) (o : Out) : (d.emit o).tickOn = d.tickOn := rfl
@[simp] theorem Dev.emit_cycle (d : Dev) (o : Out) : (d.emit o).cycle = d.cycle := rfl
@[simp] theorem Dev.emit_free (d : Dev) (o : Out) : (d.emit o).free = d.free := rfl
@[simp] theorem Dev.emit_fresh (d : Dev) (o : Out) : (d.emit o).fresh = d.fresh := rfl
@[simp] theorem Dev.emit_freshAt (d : Dev) (o : Out) : (d.emit o).freshAt = d.freshAt := rfl
@[simp] theorem Dev.emit_engs (d : Dev) (o : Out) : (d.emit o).engs = d.engs := rfl
@[simp] theorem Dev.emit_tasks (d : Dev) (o : Out) : (d.emit o).tasks = d.tasks := rfl
@[simp] theorem Dev.emit_tins (d : Dev) (o : Out) : (d.emit o).tins = d.tins := rfl
@[simp] theorem Dev.emit_cluss (d : Dev) (o : Out) : (d.emit o).cluss = d.cluss := rfl
@[simp] theorem Dev.emit_dispatchOn (d : Dev) (o : Out) : (d.emit o).dispatchOn = d.dispatchOn := rfl
@[simp] theorem Dev.emit_lastStart (d : Dev) (o : Out) : (d.emit o).lastStart = d.lastStart := rfl
@[simp] theorem Dev.emit_ageFrom (d : Dev) (o : Out) : (d.emit o).ageFrom = d.ageFrom := rfl
@[simp] theorem Dev.emit_vat (d : Dev) (o : Out) : (d.emit o).vat = d.vat := rfl
@[simp] theorem Dev.emit_grants (d : Dev) (o : Out) : (d.emit o).grants = d.grants := rfl
@[simp] theorem Dev.emit_stagedTabs (d : Dev) (o : Out) : (d.emit o).stagedTabs = d.stagedTabs := rfl
@[simp] theorem Dev.emit_flt (d : Dev) (o : Out) : (d.emit o).flt = d.flt := rfl
@[simp] theorem Dev.emit_mons (d : Dev) (o : Out) : (d.emit o).mons = d.mons := rfl
@[simp] theorem Dev.emit_sels (d : Dev) (o : Out) : (d.emit o).sels = d.sels := rfl
@[simp] theorem Dev.emit_loops (d : Dev) (o : Out) : (d.emit o).loops = d.loops := rfl
@[simp] theorem Dev.emit_slals (d : Dev) (o : Out) : (d.emit o).slals = d.slals := rfl
@[simp] theorem Dev.emit_syns (d : Dev) (o : Out) : (d.emit o).syns = d.syns := rfl
@[simp] theorem Dev.emit_outcs (d : Dev) (o : Out) : (d.emit o).outcs = d.outcs := rfl
@[simp] theorem Dev.emit_bankBad (d : Dev) (o : Out) : (d.emit o).bankBad = d.bankBad := rfl
@[simp] theorem Dev.emit_supplyBad (d : Dev) (o : Out) : (d.emit o).supplyBad = d.supplyBad := rfl
@[simp] theorem Dev.emit_rrefs (d : Dev) (o : Out) : (d.emit o).rrefs = d.rrefs := rfl
@[simp] theorem Dev.emit_rwords (d : Dev) (o : Out) : (d.emit o).rwords = d.rwords := rfl
@[simp] theorem Dev.emit_sensors (d : Dev) (o : Out) : (d.emit o).sensors = d.sensors := rfl
@[simp] theorem Dev.emit_hot (d : Dev) (o : Out) : (d.emit o).hot = d.hot := rfl
@[simp] theorem Dev.emit_xoHz (d : Dev) (o : Out) : (d.emit o).xoHz = d.xoHz := rfl
@[simp] theorem Dev.emit_time (d : Dev) (o : Out) : (d.emit o).time = d.time := rfl
@[simp] theorem Dev.emit_ctxs (d : Dev) (o : Out) : (d.emit o).ctxs = d.ctxs := rfl
@[simp] theorem Dev.emit_evts (d : Dev) (o : Out) : (d.emit o).evts = d.evts := rfl
@[simp] theorem Dev.emit_pi (d : Dev) (o : Out) : (d.emit o).pi = d.pi := rfl
@[simp] theorem Dev.emit_tdcs (d : Dev) (o : Out) : (d.emit o).tdcs = d.tdcs := rfl
@[simp] theorem Dev.emit_mss (d : Dev) (o : Out) : (d.emit o).mss = d.mss := rfl
@[simp] theorem Dev.emit_sts (d : Dev) (o : Out) : (d.emit o).sts = d.sts := rfl
@[simp] theorem Dev.emit_trs (d : Dev) (o : Out) : (d.emit o).trs = d.trs := rfl
@[simp] theorem Dev.emit_frm (d : Dev) (o : Out) : (d.emit o).frm = d.frm := rfl
@[simp] theorem Dev.emit_kl (d : Dev) (o : Out) : (d.emit o).kl = d.kl := rfl
@[simp] theorem Dev.emit_ream (d : Dev) (o : Out) : (d.emit o).ream = d.ream := rfl
@[simp] theorem Dev.emit_boot (d : Dev) (o : Out) : (d.emit o).boot = d.boot := rfl
@[simp] theorem Dev.emit_host (d : Dev) (o : Out) : (d.emit o).host = d.host := rfl
@[simp] theorem Dev.emit_test (d : Dev) (o : Out) : (d.emit o).test = d.test := rfl
@[simp] theorem Dev.emit_base (d : Dev) (o : Out) : (d.emit o).base = d.base := rfl

@[simp] theorem Dev.setEng_regs (d : Dev) (e : Nat) (x : Engine) : (d.setEng e x).regs = d.regs := rfl
@[simp] theorem Dev.setEng_acc (d : Dev) (e : Nat) (x : Engine) : (d.setEng e x).acc = d.acc := rfl
@[simp] theorem Dev.setEng_staged (d : Dev) (e : Nat) (x : Engine) : (d.setEng e x).staged = d.staged := rfl
@[simp] theorem Dev.setEng_latch (d : Dev) (e : Nat) (x : Engine) : (d.setEng e x).latch = d.latch := rfl
@[simp] theorem Dev.setEng_half (d : Dev) (e : Nat) (x : Engine) : (d.setEng e x).half = d.half := rfl
@[simp] theorem Dev.setEng_tick (d : Dev) (e : Nat) (x : Engine) : (d.setEng e x).tick = d.tick := rfl
@[simp] theorem Dev.setEng_tickOn (d : Dev) (e : Nat) (x : Engine) : (d.setEng e x).tickOn = d.tickOn := rfl
@[simp] theorem Dev.setEng_cycle (d : Dev) (e : Nat) (x : Engine) : (d.setEng e x).cycle = d.cycle := rfl
@[simp] theorem Dev.setEng_free (d : Dev) (e : Nat) (x : Engine) : (d.setEng e x).free = d.free := rfl
@[simp] theorem Dev.setEng_fresh (d : Dev) (e : Nat) (x : Engine) : (d.setEng e x).fresh = d.fresh := rfl
@[simp] theorem Dev.setEng_freshAt (d : Dev) (e : Nat) (x : Engine) : (d.setEng e x).freshAt = d.freshAt := rfl
@[simp] theorem Dev.setEng_outs (d : Dev) (e : Nat) (x : Engine) : (d.setEng e x).outs = d.outs := rfl
@[simp] theorem Dev.setEng_tasks (d : Dev) (e : Nat) (x : Engine) : (d.setEng e x).tasks = d.tasks := rfl
@[simp] theorem Dev.setEng_tins (d : Dev) (e : Nat) (x : Engine) : (d.setEng e x).tins = d.tins := rfl
@[simp] theorem Dev.setEng_cluss (d : Dev) (e : Nat) (x : Engine) : (d.setEng e x).cluss = d.cluss := rfl
@[simp] theorem Dev.setEng_dispatchOn (d : Dev) (e : Nat) (x : Engine) : (d.setEng e x).dispatchOn = d.dispatchOn := rfl
@[simp] theorem Dev.setEng_lastStart (d : Dev) (e : Nat) (x : Engine) : (d.setEng e x).lastStart = d.lastStart := rfl
@[simp] theorem Dev.setEng_ageFrom (d : Dev) (e : Nat) (x : Engine) : (d.setEng e x).ageFrom = d.ageFrom := rfl
@[simp] theorem Dev.setEng_vat (d : Dev) (e : Nat) (x : Engine) : (d.setEng e x).vat = d.vat := rfl
@[simp] theorem Dev.setEng_grants (d : Dev) (e : Nat) (x : Engine) : (d.setEng e x).grants = d.grants := rfl
@[simp] theorem Dev.setEng_stagedTabs (d : Dev) (e : Nat) (x : Engine) : (d.setEng e x).stagedTabs = d.stagedTabs := rfl
@[simp] theorem Dev.setEng_flt (d : Dev) (e : Nat) (x : Engine) : (d.setEng e x).flt = d.flt := rfl
@[simp] theorem Dev.setEng_mons (d : Dev) (e : Nat) (x : Engine) : (d.setEng e x).mons = d.mons := rfl
@[simp] theorem Dev.setEng_sels (d : Dev) (e : Nat) (x : Engine) : (d.setEng e x).sels = d.sels := rfl
@[simp] theorem Dev.setEng_loops (d : Dev) (e : Nat) (x : Engine) : (d.setEng e x).loops = d.loops := rfl
@[simp] theorem Dev.setEng_slals (d : Dev) (e : Nat) (x : Engine) : (d.setEng e x).slals = d.slals := rfl
@[simp] theorem Dev.setEng_syns (d : Dev) (e : Nat) (x : Engine) : (d.setEng e x).syns = d.syns := rfl
@[simp] theorem Dev.setEng_outcs (d : Dev) (e : Nat) (x : Engine) : (d.setEng e x).outcs = d.outcs := rfl
@[simp] theorem Dev.setEng_bankBad (d : Dev) (e : Nat) (x : Engine) : (d.setEng e x).bankBad = d.bankBad := rfl
@[simp] theorem Dev.setEng_supplyBad (d : Dev) (e : Nat) (x : Engine) : (d.setEng e x).supplyBad = d.supplyBad := rfl
@[simp] theorem Dev.setEng_rrefs (d : Dev) (e : Nat) (x : Engine) : (d.setEng e x).rrefs = d.rrefs := rfl
@[simp] theorem Dev.setEng_rwords (d : Dev) (e : Nat) (x : Engine) : (d.setEng e x).rwords = d.rwords := rfl
@[simp] theorem Dev.setEng_sensors (d : Dev) (e : Nat) (x : Engine) : (d.setEng e x).sensors = d.sensors := rfl
@[simp] theorem Dev.setEng_hot (d : Dev) (e : Nat) (x : Engine) : (d.setEng e x).hot = d.hot := rfl
@[simp] theorem Dev.setEng_xoHz (d : Dev) (e : Nat) (x : Engine) : (d.setEng e x).xoHz = d.xoHz := rfl
@[simp] theorem Dev.setEng_time (d : Dev) (e : Nat) (x : Engine) : (d.setEng e x).time = d.time := rfl
@[simp] theorem Dev.setEng_ctxs (d : Dev) (e : Nat) (x : Engine) : (d.setEng e x).ctxs = d.ctxs := rfl
@[simp] theorem Dev.setEng_evts (d : Dev) (e : Nat) (x : Engine) : (d.setEng e x).evts = d.evts := rfl
@[simp] theorem Dev.setEng_pi (d : Dev) (e : Nat) (x : Engine) : (d.setEng e x).pi = d.pi := rfl
@[simp] theorem Dev.setEng_tdcs (d : Dev) (e : Nat) (x : Engine) : (d.setEng e x).tdcs = d.tdcs := rfl
@[simp] theorem Dev.setEng_mss (d : Dev) (e : Nat) (x : Engine) : (d.setEng e x).mss = d.mss := rfl
@[simp] theorem Dev.setEng_sts (d : Dev) (e : Nat) (x : Engine) : (d.setEng e x).sts = d.sts := rfl
@[simp] theorem Dev.setEng_trs (d : Dev) (e : Nat) (x : Engine) : (d.setEng e x).trs = d.trs := rfl
@[simp] theorem Dev.setEng_frm (d : Dev) (e : Nat) (x : Engine) : (d.setEng e x).frm = d.frm := rfl
@[simp] theorem Dev.setEng_kl (d : Dev) (e : Nat) (x : Engine) : (d.setEng e x).kl = d.kl := rfl
@[simp] theorem Dev.setEng_ream (d : Dev) (e : Nat) (x : Engine) : (d.setEng e x).ream = d.ream := rfl
@[simp] theorem Dev.setEng_boot (d : Dev) (e : Nat) (x : Engine) : (d.setEng e x).boot = d.boot := rfl
@[simp] theorem Dev.setEng_host (d : Dev) (e : Nat) (x : Engine) : (d.setEng e x).host = d.host := rfl
@[simp] theorem Dev.setEng_test (d : Dev) (e : Nat) (x : Engine) : (d.setEng e x).test = d.test := rfl
@[simp] theorem Dev.setEng_base (d : Dev) (e : Nat) (x : Engine) : (d.setEng e x).base = d.base := rfl

@[simp] theorem Dev.setTask_regs (d : Dev) (n : Nat) (x : Task) : (d.setTask n x).regs = d.regs := rfl
@[simp] theorem Dev.setTask_acc (d : Dev) (n : Nat) (x : Task) : (d.setTask n x).acc = d.acc := rfl
@[simp] theorem Dev.setTask_staged (d : Dev) (n : Nat) (x : Task) : (d.setTask n x).staged = d.staged := rfl
@[simp] theorem Dev.setTask_latch (d : Dev) (n : Nat) (x : Task) : (d.setTask n x).latch = d.latch := rfl
@[simp] theorem Dev.setTask_half (d : Dev) (n : Nat) (x : Task) : (d.setTask n x).half = d.half := rfl
@[simp] theorem Dev.setTask_tick (d : Dev) (n : Nat) (x : Task) : (d.setTask n x).tick = d.tick := rfl
@[simp] theorem Dev.setTask_tickOn (d : Dev) (n : Nat) (x : Task) : (d.setTask n x).tickOn = d.tickOn := rfl
@[simp] theorem Dev.setTask_cycle (d : Dev) (n : Nat) (x : Task) : (d.setTask n x).cycle = d.cycle := rfl
@[simp] theorem Dev.setTask_free (d : Dev) (n : Nat) (x : Task) : (d.setTask n x).free = d.free := rfl
@[simp] theorem Dev.setTask_fresh (d : Dev) (n : Nat) (x : Task) : (d.setTask n x).fresh = d.fresh := rfl
@[simp] theorem Dev.setTask_freshAt (d : Dev) (n : Nat) (x : Task) : (d.setTask n x).freshAt = d.freshAt := rfl
@[simp] theorem Dev.setTask_outs (d : Dev) (n : Nat) (x : Task) : (d.setTask n x).outs = d.outs := rfl
@[simp] theorem Dev.setTask_engs (d : Dev) (n : Nat) (x : Task) : (d.setTask n x).engs = d.engs := rfl
@[simp] theorem Dev.setTask_tins (d : Dev) (n : Nat) (x : Task) : (d.setTask n x).tins = d.tins := rfl
@[simp] theorem Dev.setTask_cluss (d : Dev) (n : Nat) (x : Task) : (d.setTask n x).cluss = d.cluss := rfl
@[simp] theorem Dev.setTask_dispatchOn (d : Dev) (n : Nat) (x : Task) : (d.setTask n x).dispatchOn = d.dispatchOn := rfl
@[simp] theorem Dev.setTask_lastStart (d : Dev) (n : Nat) (x : Task) : (d.setTask n x).lastStart = d.lastStart := rfl
@[simp] theorem Dev.setTask_ageFrom (d : Dev) (n : Nat) (x : Task) : (d.setTask n x).ageFrom = d.ageFrom := rfl
@[simp] theorem Dev.setTask_vat (d : Dev) (n : Nat) (x : Task) : (d.setTask n x).vat = d.vat := rfl
@[simp] theorem Dev.setTask_grants (d : Dev) (n : Nat) (x : Task) : (d.setTask n x).grants = d.grants := rfl
@[simp] theorem Dev.setTask_stagedTabs (d : Dev) (n : Nat) (x : Task) : (d.setTask n x).stagedTabs = d.stagedTabs := rfl
@[simp] theorem Dev.setTask_flt (d : Dev) (n : Nat) (x : Task) : (d.setTask n x).flt = d.flt := rfl
@[simp] theorem Dev.setTask_mons (d : Dev) (n : Nat) (x : Task) : (d.setTask n x).mons = d.mons := rfl
@[simp] theorem Dev.setTask_sels (d : Dev) (n : Nat) (x : Task) : (d.setTask n x).sels = d.sels := rfl
@[simp] theorem Dev.setTask_loops (d : Dev) (n : Nat) (x : Task) : (d.setTask n x).loops = d.loops := rfl
@[simp] theorem Dev.setTask_slals (d : Dev) (n : Nat) (x : Task) : (d.setTask n x).slals = d.slals := rfl
@[simp] theorem Dev.setTask_syns (d : Dev) (n : Nat) (x : Task) : (d.setTask n x).syns = d.syns := rfl
@[simp] theorem Dev.setTask_outcs (d : Dev) (n : Nat) (x : Task) : (d.setTask n x).outcs = d.outcs := rfl
@[simp] theorem Dev.setTask_bankBad (d : Dev) (n : Nat) (x : Task) : (d.setTask n x).bankBad = d.bankBad := rfl
@[simp] theorem Dev.setTask_supplyBad (d : Dev) (n : Nat) (x : Task) : (d.setTask n x).supplyBad = d.supplyBad := rfl
@[simp] theorem Dev.setTask_rrefs (d : Dev) (n : Nat) (x : Task) : (d.setTask n x).rrefs = d.rrefs := rfl
@[simp] theorem Dev.setTask_rwords (d : Dev) (n : Nat) (x : Task) : (d.setTask n x).rwords = d.rwords := rfl
@[simp] theorem Dev.setTask_sensors (d : Dev) (n : Nat) (x : Task) : (d.setTask n x).sensors = d.sensors := rfl
@[simp] theorem Dev.setTask_hot (d : Dev) (n : Nat) (x : Task) : (d.setTask n x).hot = d.hot := rfl
@[simp] theorem Dev.setTask_xoHz (d : Dev) (n : Nat) (x : Task) : (d.setTask n x).xoHz = d.xoHz := rfl
@[simp] theorem Dev.setTask_time (d : Dev) (n : Nat) (x : Task) : (d.setTask n x).time = d.time := rfl
@[simp] theorem Dev.setTask_ctxs (d : Dev) (n : Nat) (x : Task) : (d.setTask n x).ctxs = d.ctxs := rfl
@[simp] theorem Dev.setTask_evts (d : Dev) (n : Nat) (x : Task) : (d.setTask n x).evts = d.evts := rfl
@[simp] theorem Dev.setTask_pi (d : Dev) (n : Nat) (x : Task) : (d.setTask n x).pi = d.pi := rfl
@[simp] theorem Dev.setTask_tdcs (d : Dev) (n : Nat) (x : Task) : (d.setTask n x).tdcs = d.tdcs := rfl
@[simp] theorem Dev.setTask_mss (d : Dev) (n : Nat) (x : Task) : (d.setTask n x).mss = d.mss := rfl
@[simp] theorem Dev.setTask_sts (d : Dev) (n : Nat) (x : Task) : (d.setTask n x).sts = d.sts := rfl
@[simp] theorem Dev.setTask_trs (d : Dev) (n : Nat) (x : Task) : (d.setTask n x).trs = d.trs := rfl
@[simp] theorem Dev.setTask_frm (d : Dev) (n : Nat) (x : Task) : (d.setTask n x).frm = d.frm := rfl
@[simp] theorem Dev.setTask_kl (d : Dev) (n : Nat) (x : Task) : (d.setTask n x).kl = d.kl := rfl
@[simp] theorem Dev.setTask_ream (d : Dev) (n : Nat) (x : Task) : (d.setTask n x).ream = d.ream := rfl
@[simp] theorem Dev.setTask_boot (d : Dev) (n : Nat) (x : Task) : (d.setTask n x).boot = d.boot := rfl
@[simp] theorem Dev.setTask_host (d : Dev) (n : Nat) (x : Task) : (d.setTask n x).host = d.host := rfl
@[simp] theorem Dev.setTask_test (d : Dev) (n : Nat) (x : Task) : (d.setTask n x).test = d.test := rfl
@[simp] theorem Dev.setTask_base (d : Dev) (n : Nat) (x : Task) : (d.setTask n x).base = d.base := rfl

@[simp] theorem Dev.setTin_regs (d : Dev) (n : Nat) (x : TaskIn) : (d.setTin n x).regs = d.regs := rfl
@[simp] theorem Dev.setTin_acc (d : Dev) (n : Nat) (x : TaskIn) : (d.setTin n x).acc = d.acc := rfl
@[simp] theorem Dev.setTin_staged (d : Dev) (n : Nat) (x : TaskIn) : (d.setTin n x).staged = d.staged := rfl
@[simp] theorem Dev.setTin_latch (d : Dev) (n : Nat) (x : TaskIn) : (d.setTin n x).latch = d.latch := rfl
@[simp] theorem Dev.setTin_half (d : Dev) (n : Nat) (x : TaskIn) : (d.setTin n x).half = d.half := rfl
@[simp] theorem Dev.setTin_tick (d : Dev) (n : Nat) (x : TaskIn) : (d.setTin n x).tick = d.tick := rfl
@[simp] theorem Dev.setTin_tickOn (d : Dev) (n : Nat) (x : TaskIn) : (d.setTin n x).tickOn = d.tickOn := rfl
@[simp] theorem Dev.setTin_cycle (d : Dev) (n : Nat) (x : TaskIn) : (d.setTin n x).cycle = d.cycle := rfl
@[simp] theorem Dev.setTin_free (d : Dev) (n : Nat) (x : TaskIn) : (d.setTin n x).free = d.free := rfl
@[simp] theorem Dev.setTin_fresh (d : Dev) (n : Nat) (x : TaskIn) : (d.setTin n x).fresh = d.fresh := rfl
@[simp] theorem Dev.setTin_freshAt (d : Dev) (n : Nat) (x : TaskIn) : (d.setTin n x).freshAt = d.freshAt := rfl
@[simp] theorem Dev.setTin_outs (d : Dev) (n : Nat) (x : TaskIn) : (d.setTin n x).outs = d.outs := rfl
@[simp] theorem Dev.setTin_engs (d : Dev) (n : Nat) (x : TaskIn) : (d.setTin n x).engs = d.engs := rfl
@[simp] theorem Dev.setTin_tasks (d : Dev) (n : Nat) (x : TaskIn) : (d.setTin n x).tasks = d.tasks := rfl
@[simp] theorem Dev.setTin_cluss (d : Dev) (n : Nat) (x : TaskIn) : (d.setTin n x).cluss = d.cluss := rfl
@[simp] theorem Dev.setTin_dispatchOn (d : Dev) (n : Nat) (x : TaskIn) : (d.setTin n x).dispatchOn = d.dispatchOn := rfl
@[simp] theorem Dev.setTin_lastStart (d : Dev) (n : Nat) (x : TaskIn) : (d.setTin n x).lastStart = d.lastStart := rfl
@[simp] theorem Dev.setTin_ageFrom (d : Dev) (n : Nat) (x : TaskIn) : (d.setTin n x).ageFrom = d.ageFrom := rfl
@[simp] theorem Dev.setTin_vat (d : Dev) (n : Nat) (x : TaskIn) : (d.setTin n x).vat = d.vat := rfl
@[simp] theorem Dev.setTin_grants (d : Dev) (n : Nat) (x : TaskIn) : (d.setTin n x).grants = d.grants := rfl
@[simp] theorem Dev.setTin_stagedTabs (d : Dev) (n : Nat) (x : TaskIn) : (d.setTin n x).stagedTabs = d.stagedTabs := rfl
@[simp] theorem Dev.setTin_flt (d : Dev) (n : Nat) (x : TaskIn) : (d.setTin n x).flt = d.flt := rfl
@[simp] theorem Dev.setTin_mons (d : Dev) (n : Nat) (x : TaskIn) : (d.setTin n x).mons = d.mons := rfl
@[simp] theorem Dev.setTin_sels (d : Dev) (n : Nat) (x : TaskIn) : (d.setTin n x).sels = d.sels := rfl
@[simp] theorem Dev.setTin_loops (d : Dev) (n : Nat) (x : TaskIn) : (d.setTin n x).loops = d.loops := rfl
@[simp] theorem Dev.setTin_slals (d : Dev) (n : Nat) (x : TaskIn) : (d.setTin n x).slals = d.slals := rfl
@[simp] theorem Dev.setTin_syns (d : Dev) (n : Nat) (x : TaskIn) : (d.setTin n x).syns = d.syns := rfl
@[simp] theorem Dev.setTin_outcs (d : Dev) (n : Nat) (x : TaskIn) : (d.setTin n x).outcs = d.outcs := rfl
@[simp] theorem Dev.setTin_bankBad (d : Dev) (n : Nat) (x : TaskIn) : (d.setTin n x).bankBad = d.bankBad := rfl
@[simp] theorem Dev.setTin_supplyBad (d : Dev) (n : Nat) (x : TaskIn) : (d.setTin n x).supplyBad = d.supplyBad := rfl
@[simp] theorem Dev.setTin_rrefs (d : Dev) (n : Nat) (x : TaskIn) : (d.setTin n x).rrefs = d.rrefs := rfl
@[simp] theorem Dev.setTin_rwords (d : Dev) (n : Nat) (x : TaskIn) : (d.setTin n x).rwords = d.rwords := rfl
@[simp] theorem Dev.setTin_sensors (d : Dev) (n : Nat) (x : TaskIn) : (d.setTin n x).sensors = d.sensors := rfl
@[simp] theorem Dev.setTin_hot (d : Dev) (n : Nat) (x : TaskIn) : (d.setTin n x).hot = d.hot := rfl
@[simp] theorem Dev.setTin_xoHz (d : Dev) (n : Nat) (x : TaskIn) : (d.setTin n x).xoHz = d.xoHz := rfl
@[simp] theorem Dev.setTin_time (d : Dev) (n : Nat) (x : TaskIn) : (d.setTin n x).time = d.time := rfl
@[simp] theorem Dev.setTin_ctxs (d : Dev) (n : Nat) (x : TaskIn) : (d.setTin n x).ctxs = d.ctxs := rfl
@[simp] theorem Dev.setTin_evts (d : Dev) (n : Nat) (x : TaskIn) : (d.setTin n x).evts = d.evts := rfl
@[simp] theorem Dev.setTin_pi (d : Dev) (n : Nat) (x : TaskIn) : (d.setTin n x).pi = d.pi := rfl
@[simp] theorem Dev.setTin_tdcs (d : Dev) (n : Nat) (x : TaskIn) : (d.setTin n x).tdcs = d.tdcs := rfl
@[simp] theorem Dev.setTin_mss (d : Dev) (n : Nat) (x : TaskIn) : (d.setTin n x).mss = d.mss := rfl
@[simp] theorem Dev.setTin_sts (d : Dev) (n : Nat) (x : TaskIn) : (d.setTin n x).sts = d.sts := rfl
@[simp] theorem Dev.setTin_trs (d : Dev) (n : Nat) (x : TaskIn) : (d.setTin n x).trs = d.trs := rfl
@[simp] theorem Dev.setTin_frm (d : Dev) (n : Nat) (x : TaskIn) : (d.setTin n x).frm = d.frm := rfl
@[simp] theorem Dev.setTin_kl (d : Dev) (n : Nat) (x : TaskIn) : (d.setTin n x).kl = d.kl := rfl
@[simp] theorem Dev.setTin_ream (d : Dev) (n : Nat) (x : TaskIn) : (d.setTin n x).ream = d.ream := rfl
@[simp] theorem Dev.setTin_boot (d : Dev) (n : Nat) (x : TaskIn) : (d.setTin n x).boot = d.boot := rfl
@[simp] theorem Dev.setTin_host (d : Dev) (n : Nat) (x : TaskIn) : (d.setTin n x).host = d.host := rfl
@[simp] theorem Dev.setTin_test (d : Dev) (n : Nat) (x : TaskIn) : (d.setTin n x).test = d.test := rfl
@[simp] theorem Dev.setTin_base (d : Dev) (n : Nat) (x : TaskIn) : (d.setTin n x).base = d.base := rfl

@[simp] theorem Dev.setClus_regs (d : Dev) (n : Nat) (x : Cluster) : (d.setClus n x).regs = d.regs := rfl
@[simp] theorem Dev.setClus_acc (d : Dev) (n : Nat) (x : Cluster) : (d.setClus n x).acc = d.acc := rfl
@[simp] theorem Dev.setClus_staged (d : Dev) (n : Nat) (x : Cluster) : (d.setClus n x).staged = d.staged := rfl
@[simp] theorem Dev.setClus_latch (d : Dev) (n : Nat) (x : Cluster) : (d.setClus n x).latch = d.latch := rfl
@[simp] theorem Dev.setClus_half (d : Dev) (n : Nat) (x : Cluster) : (d.setClus n x).half = d.half := rfl
@[simp] theorem Dev.setClus_tick (d : Dev) (n : Nat) (x : Cluster) : (d.setClus n x).tick = d.tick := rfl
@[simp] theorem Dev.setClus_tickOn (d : Dev) (n : Nat) (x : Cluster) : (d.setClus n x).tickOn = d.tickOn := rfl
@[simp] theorem Dev.setClus_cycle (d : Dev) (n : Nat) (x : Cluster) : (d.setClus n x).cycle = d.cycle := rfl
@[simp] theorem Dev.setClus_free (d : Dev) (n : Nat) (x : Cluster) : (d.setClus n x).free = d.free := rfl
@[simp] theorem Dev.setClus_fresh (d : Dev) (n : Nat) (x : Cluster) : (d.setClus n x).fresh = d.fresh := rfl
@[simp] theorem Dev.setClus_freshAt (d : Dev) (n : Nat) (x : Cluster) : (d.setClus n x).freshAt = d.freshAt := rfl
@[simp] theorem Dev.setClus_outs (d : Dev) (n : Nat) (x : Cluster) : (d.setClus n x).outs = d.outs := rfl
@[simp] theorem Dev.setClus_engs (d : Dev) (n : Nat) (x : Cluster) : (d.setClus n x).engs = d.engs := rfl
@[simp] theorem Dev.setClus_tasks (d : Dev) (n : Nat) (x : Cluster) : (d.setClus n x).tasks = d.tasks := rfl
@[simp] theorem Dev.setClus_tins (d : Dev) (n : Nat) (x : Cluster) : (d.setClus n x).tins = d.tins := rfl
@[simp] theorem Dev.setClus_dispatchOn (d : Dev) (n : Nat) (x : Cluster) : (d.setClus n x).dispatchOn = d.dispatchOn := rfl
@[simp] theorem Dev.setClus_lastStart (d : Dev) (n : Nat) (x : Cluster) : (d.setClus n x).lastStart = d.lastStart := rfl
@[simp] theorem Dev.setClus_ageFrom (d : Dev) (n : Nat) (x : Cluster) : (d.setClus n x).ageFrom = d.ageFrom := rfl
@[simp] theorem Dev.setClus_vat (d : Dev) (n : Nat) (x : Cluster) : (d.setClus n x).vat = d.vat := rfl
@[simp] theorem Dev.setClus_grants (d : Dev) (n : Nat) (x : Cluster) : (d.setClus n x).grants = d.grants := rfl
@[simp] theorem Dev.setClus_stagedTabs (d : Dev) (n : Nat) (x : Cluster) : (d.setClus n x).stagedTabs = d.stagedTabs := rfl
@[simp] theorem Dev.setClus_flt (d : Dev) (n : Nat) (x : Cluster) : (d.setClus n x).flt = d.flt := rfl
@[simp] theorem Dev.setClus_mons (d : Dev) (n : Nat) (x : Cluster) : (d.setClus n x).mons = d.mons := rfl
@[simp] theorem Dev.setClus_sels (d : Dev) (n : Nat) (x : Cluster) : (d.setClus n x).sels = d.sels := rfl
@[simp] theorem Dev.setClus_loops (d : Dev) (n : Nat) (x : Cluster) : (d.setClus n x).loops = d.loops := rfl
@[simp] theorem Dev.setClus_slals (d : Dev) (n : Nat) (x : Cluster) : (d.setClus n x).slals = d.slals := rfl
@[simp] theorem Dev.setClus_syns (d : Dev) (n : Nat) (x : Cluster) : (d.setClus n x).syns = d.syns := rfl
@[simp] theorem Dev.setClus_outcs (d : Dev) (n : Nat) (x : Cluster) : (d.setClus n x).outcs = d.outcs := rfl
@[simp] theorem Dev.setClus_bankBad (d : Dev) (n : Nat) (x : Cluster) : (d.setClus n x).bankBad = d.bankBad := rfl
@[simp] theorem Dev.setClus_supplyBad (d : Dev) (n : Nat) (x : Cluster) : (d.setClus n x).supplyBad = d.supplyBad := rfl
@[simp] theorem Dev.setClus_rrefs (d : Dev) (n : Nat) (x : Cluster) : (d.setClus n x).rrefs = d.rrefs := rfl
@[simp] theorem Dev.setClus_rwords (d : Dev) (n : Nat) (x : Cluster) : (d.setClus n x).rwords = d.rwords := rfl
@[simp] theorem Dev.setClus_sensors (d : Dev) (n : Nat) (x : Cluster) : (d.setClus n x).sensors = d.sensors := rfl
@[simp] theorem Dev.setClus_hot (d : Dev) (n : Nat) (x : Cluster) : (d.setClus n x).hot = d.hot := rfl
@[simp] theorem Dev.setClus_xoHz (d : Dev) (n : Nat) (x : Cluster) : (d.setClus n x).xoHz = d.xoHz := rfl
@[simp] theorem Dev.setClus_time (d : Dev) (n : Nat) (x : Cluster) : (d.setClus n x).time = d.time := rfl
@[simp] theorem Dev.setClus_ctxs (d : Dev) (n : Nat) (x : Cluster) : (d.setClus n x).ctxs = d.ctxs := rfl
@[simp] theorem Dev.setClus_evts (d : Dev) (n : Nat) (x : Cluster) : (d.setClus n x).evts = d.evts := rfl
@[simp] theorem Dev.setClus_pi (d : Dev) (n : Nat) (x : Cluster) : (d.setClus n x).pi = d.pi := rfl
@[simp] theorem Dev.setClus_tdcs (d : Dev) (n : Nat) (x : Cluster) : (d.setClus n x).tdcs = d.tdcs := rfl
@[simp] theorem Dev.setClus_mss (d : Dev) (n : Nat) (x : Cluster) : (d.setClus n x).mss = d.mss := rfl
@[simp] theorem Dev.setClus_sts (d : Dev) (n : Nat) (x : Cluster) : (d.setClus n x).sts = d.sts := rfl
@[simp] theorem Dev.setClus_trs (d : Dev) (n : Nat) (x : Cluster) : (d.setClus n x).trs = d.trs := rfl
@[simp] theorem Dev.setClus_frm (d : Dev) (n : Nat) (x : Cluster) : (d.setClus n x).frm = d.frm := rfl
@[simp] theorem Dev.setClus_kl (d : Dev) (n : Nat) (x : Cluster) : (d.setClus n x).kl = d.kl := rfl
@[simp] theorem Dev.setClus_ream (d : Dev) (n : Nat) (x : Cluster) : (d.setClus n x).ream = d.ream := rfl
@[simp] theorem Dev.setClus_boot (d : Dev) (n : Nat) (x : Cluster) : (d.setClus n x).boot = d.boot := rfl
@[simp] theorem Dev.setClus_host (d : Dev) (n : Nat) (x : Cluster) : (d.setClus n x).host = d.host := rfl
@[simp] theorem Dev.setClus_test (d : Dev) (n : Nat) (x : Cluster) : (d.setClus n x).test = d.test := rfl
@[simp] theorem Dev.setClus_base (d : Dev) (n : Nat) (x : Cluster) : (d.setClus n x).base = d.base := rfl

@[simp] theorem Dev.setW1c_acc (d : Dev) (f : Fld) (n : Nat) : (d.setW1c f n).acc = d.acc := rfl
@[simp] theorem Dev.setW1c_staged (d : Dev) (f : Fld) (n : Nat) : (d.setW1c f n).staged = d.staged := rfl
@[simp] theorem Dev.setW1c_latch (d : Dev) (f : Fld) (n : Nat) : (d.setW1c f n).latch = d.latch := rfl
@[simp] theorem Dev.setW1c_half (d : Dev) (f : Fld) (n : Nat) : (d.setW1c f n).half = d.half := rfl
@[simp] theorem Dev.setW1c_tick (d : Dev) (f : Fld) (n : Nat) : (d.setW1c f n).tick = d.tick := rfl
@[simp] theorem Dev.setW1c_tickOn (d : Dev) (f : Fld) (n : Nat) : (d.setW1c f n).tickOn = d.tickOn := rfl
@[simp] theorem Dev.setW1c_cycle (d : Dev) (f : Fld) (n : Nat) : (d.setW1c f n).cycle = d.cycle := rfl
@[simp] theorem Dev.setW1c_free (d : Dev) (f : Fld) (n : Nat) : (d.setW1c f n).free = d.free := rfl
@[simp] theorem Dev.setW1c_outs (d : Dev) (f : Fld) (n : Nat) : (d.setW1c f n).outs = d.outs := rfl
@[simp] theorem Dev.setW1c_engs (d : Dev) (f : Fld) (n : Nat) : (d.setW1c f n).engs = d.engs := rfl
@[simp] theorem Dev.setW1c_tasks (d : Dev) (f : Fld) (n : Nat) : (d.setW1c f n).tasks = d.tasks := rfl
@[simp] theorem Dev.setW1c_tins (d : Dev) (f : Fld) (n : Nat) : (d.setW1c f n).tins = d.tins := rfl
@[simp] theorem Dev.setW1c_cluss (d : Dev) (f : Fld) (n : Nat) : (d.setW1c f n).cluss = d.cluss := rfl
@[simp] theorem Dev.setW1c_dispatchOn (d : Dev) (f : Fld) (n : Nat) : (d.setW1c f n).dispatchOn = d.dispatchOn := rfl
@[simp] theorem Dev.setW1c_lastStart (d : Dev) (f : Fld) (n : Nat) : (d.setW1c f n).lastStart = d.lastStart := rfl
@[simp] theorem Dev.setW1c_ageFrom (d : Dev) (f : Fld) (n : Nat) : (d.setW1c f n).ageFrom = d.ageFrom := rfl
@[simp] theorem Dev.setW1c_vat (d : Dev) (f : Fld) (n : Nat) : (d.setW1c f n).vat = d.vat := rfl
@[simp] theorem Dev.setW1c_grants (d : Dev) (f : Fld) (n : Nat) : (d.setW1c f n).grants = d.grants := rfl
@[simp] theorem Dev.setW1c_stagedTabs (d : Dev) (f : Fld) (n : Nat) : (d.setW1c f n).stagedTabs = d.stagedTabs := rfl
@[simp] theorem Dev.setW1c_flt (d : Dev) (f : Fld) (n : Nat) : (d.setW1c f n).flt = d.flt := rfl
@[simp] theorem Dev.setW1c_mons (d : Dev) (f : Fld) (n : Nat) : (d.setW1c f n).mons = d.mons := rfl
@[simp] theorem Dev.setW1c_sels (d : Dev) (f : Fld) (n : Nat) : (d.setW1c f n).sels = d.sels := rfl
@[simp] theorem Dev.setW1c_loops (d : Dev) (f : Fld) (n : Nat) : (d.setW1c f n).loops = d.loops := rfl
@[simp] theorem Dev.setW1c_slals (d : Dev) (f : Fld) (n : Nat) : (d.setW1c f n).slals = d.slals := rfl
@[simp] theorem Dev.setW1c_syns (d : Dev) (f : Fld) (n : Nat) : (d.setW1c f n).syns = d.syns := rfl
@[simp] theorem Dev.setW1c_outcs (d : Dev) (f : Fld) (n : Nat) : (d.setW1c f n).outcs = d.outcs := rfl
@[simp] theorem Dev.setW1c_bankBad (d : Dev) (f : Fld) (n : Nat) : (d.setW1c f n).bankBad = d.bankBad := rfl
@[simp] theorem Dev.setW1c_supplyBad (d : Dev) (f : Fld) (n : Nat) : (d.setW1c f n).supplyBad = d.supplyBad := rfl
@[simp] theorem Dev.setW1c_rrefs (d : Dev) (f : Fld) (n : Nat) : (d.setW1c f n).rrefs = d.rrefs := rfl
@[simp] theorem Dev.setW1c_rwords (d : Dev) (f : Fld) (n : Nat) : (d.setW1c f n).rwords = d.rwords := rfl
@[simp] theorem Dev.setW1c_sensors (d : Dev) (f : Fld) (n : Nat) : (d.setW1c f n).sensors = d.sensors := rfl
@[simp] theorem Dev.setW1c_hot (d : Dev) (f : Fld) (n : Nat) : (d.setW1c f n).hot = d.hot := rfl
@[simp] theorem Dev.setW1c_xoHz (d : Dev) (f : Fld) (n : Nat) : (d.setW1c f n).xoHz = d.xoHz := rfl
@[simp] theorem Dev.setW1c_time (d : Dev) (f : Fld) (n : Nat) : (d.setW1c f n).time = d.time := rfl
@[simp] theorem Dev.setW1c_ctxs (d : Dev) (f : Fld) (n : Nat) : (d.setW1c f n).ctxs = d.ctxs := rfl
@[simp] theorem Dev.setW1c_evts (d : Dev) (f : Fld) (n : Nat) : (d.setW1c f n).evts = d.evts := rfl
@[simp] theorem Dev.setW1c_pi (d : Dev) (f : Fld) (n : Nat) : (d.setW1c f n).pi = d.pi := rfl
@[simp] theorem Dev.setW1c_tdcs (d : Dev) (f : Fld) (n : Nat) : (d.setW1c f n).tdcs = d.tdcs := rfl
@[simp] theorem Dev.setW1c_mss (d : Dev) (f : Fld) (n : Nat) : (d.setW1c f n).mss = d.mss := rfl
@[simp] theorem Dev.setW1c_sts (d : Dev) (f : Fld) (n : Nat) : (d.setW1c f n).sts = d.sts := rfl
@[simp] theorem Dev.setW1c_trs (d : Dev) (f : Fld) (n : Nat) : (d.setW1c f n).trs = d.trs := rfl
@[simp] theorem Dev.setW1c_frm (d : Dev) (f : Fld) (n : Nat) : (d.setW1c f n).frm = d.frm := rfl
@[simp] theorem Dev.setW1c_kl (d : Dev) (f : Fld) (n : Nat) : (d.setW1c f n).kl = d.kl := rfl
@[simp] theorem Dev.setW1c_ream (d : Dev) (f : Fld) (n : Nat) : (d.setW1c f n).ream = d.ream := rfl
@[simp] theorem Dev.setW1c_boot (d : Dev) (f : Fld) (n : Nat) : (d.setW1c f n).boot = d.boot := rfl
@[simp] theorem Dev.setW1c_host (d : Dev) (f : Fld) (n : Nat) : (d.setW1c f n).host = d.host := rfl
@[simp] theorem Dev.setW1c_test (d : Dev) (f : Fld) (n : Nat) : (d.setW1c f n).test = d.test := rfl
@[simp] theorem Dev.setW1c_base (d : Dev) (f : Fld) (n : Nat) : (d.setW1c f n).base = d.base := rfl

@[simp] theorem Dev.eng_setEng_self (d : Dev) (n : Nat) (x : Engine) : (d.setEng n x).eng n = x := by simp [Dev.setEng, Dev.eng]
theorem Dev.eng_setEng_ne (d : Dev) (n m : Nat) (x : Engine) (h : m ≠ n) : (d.setEng n x).eng m = d.eng m := by
  simp [Dev.setEng, Dev.eng, Tbl.getD_set_ne _ _ _ _ _ h]
@[simp] theorem Dev.task_setTask_self (d : Dev) (n : Nat) (x : Task) :
    (d.setTask n x).task n = x.asOf (d.get F.ENG_TASK_CFG.CLASS n) d.absCycle := by
  simp [Dev.setTask, Dev.task, Dev.get, Dev.rd, Dev.absCycle]
theorem Dev.task_setTask_ne (d : Dev) (n m : Nat) (x : Task) (h : m ≠ n) : (d.setTask n x).task m = d.task m := by
  simp [Dev.setTask, Dev.task, Dev.get, Dev.rd, Dev.absCycle, Tbl.getD_set_ne _ _ _ _ _ h]
/-- A task with nothing due stands as its entry does. -/
theorem Task.asOf_none (x : Task) (cls now : Nat) (h : x.due = none) : x.asOf cls now = x := by simp [Task.asOf, h]
@[simp] theorem Dev.tin_setTin_self (d : Dev) (n : Nat) (x : TaskIn) : (d.setTin n x).tin n = x := by simp [Dev.setTin, Dev.tin]
theorem Dev.tin_setTin_ne (d : Dev) (n m : Nat) (x : TaskIn) (h : m ≠ n) : (d.setTin n x).tin m = d.tin m := by
  simp [Dev.setTin, Dev.tin, Tbl.getD_set_ne _ _ _ _ _ h]
@[simp] theorem Dev.clus_setClus_self (d : Dev) (n : Nat) (x : Cluster) : (d.setClus n x).clus n = x := by simp [Dev.setClus, Dev.clus]
theorem Dev.clus_setClus_ne (d : Dev) (n m : Nat) (x : Cluster) (h : m ≠ n) : (d.setClus n x).clus m = d.clus m := by
  simp [Dev.setClus, Dev.clus, Tbl.getD_set_ne _ _ _ _ _ h]

end Sys2Proof.Machine
end

