-- ==== Sys2Proof/Laws/Step.lean ====
section
/-! SUPPORT. The step and the queue. -/

namespace Sys2Proof.Machine

/-- A meaning's answer: the device changed, the queue left. -/
@[simp] theorem State.run_eq (s : State) (f : Dev → Dev) : s.run f = .next { s with dev := f s.dev.quiet } := rfl

/-- R328, R337: a path's command, by how its register answers. -/
theorem State.runBy_ok (s : State) (p : Path) (off : Nat) (f : Dev → Dev) (h : s.dev.quiet.access p off true = .ok) :
    s.runBy p off f = .next { s with dev := f s.dev.quiet } := by
  unfold State.runBy; simp [h]

theorem State.runBy_next (s : State) (p : Path) (off : Nat) (f : Dev → Dev) :
    ∃ d, s.runBy p off f = .next { s with dev := d } := ⟨_, rfl⟩

/-- The command at the front of the queue runs with the queue's rest. -/
theorem step_cons (s : State) (c : Instr) (r : List Instr) (h : s.pending = c :: r) :
    step s = exec c { s with pending := r } := by
  unfold step; rw [h]

theorem step_nil (s : State) (h : s.pending = []) : step s = .next s := by
  unfold step; rw [h]

end Sys2Proof.Machine
end

