-- ==== Sys2Proof/Laws/Engine.lean ====
section
/-! SUPPORT. One instruction around its body, and what writing a register or a predicate does. -/

namespace Sys2Proof.Machine

/-- R36, R56: an instruction that fits in the budget does its body after its cycles. -/
theorem Dev.issue_fits (d : Dev) (e cost : Nat) (body : Dev → Dev) (h : d.fits e cost) :
    d.issue e cost body = body (d.spend e cost) := by
  obtain ⟨h1, h2⟩ := h
  have h3 : (d.eng e).cyc + cost < ({ d with cycle := (d.eng e).cyc } : Dev).limit e := h2
  unfold Dev.issue
  rw [if_pos h1]
  simp only [if_pos h3]
  rfl

/-- R36: an instruction that does not fit overruns. -/
theorem Dev.issue_overrun (d : Dev) (e cost : Nat) (body : Dev → Dev) (h1 : d.running e = true)
    (h2 : (d.eng e).start + d.get F.ENG_TASK_BUDGET.BUDGET (d.runTask e) ≤ (d.eng e).cyc + cost) :
    d.issue e cost body = ({ d with cycle := (d.eng e).cyc } : Dev).overrun e := by
  have h3 : ¬ (d.eng e).cyc + cost < ({ d with cycle := (d.eng e).cyc } : Dev).limit e := Nat.not_lt.mpr h2
  unfold Dev.issue
  rw [if_pos h1]
  simp only [if_neg h3]

@[simp] theorem Engine.rg_zero (x : Engine) : x.rg 0 = 0 := rfl

theorem Engine.setRg_self (x : Engine) (n : Fin 16) (v : DWord) (h : n ≠ 0) : (x.setRg n v).rg n = v := by
  unfold Engine.setRg Engine.rg; simp [h]

theorem Engine.setRg_ne (x : Engine) (n r : Fin 16) (v : DWord) (h : r ≠ n) : (x.setRg n v).rg r = x.rg r := by
  unfold Engine.setRg Engine.rg
  by_cases h0 : n = 0
  · simp [h0]
  · have : (n : Nat) ≠ r := fun g => h (Fin.ext g.symm)
    simp [h0, this]

theorem Engine.setRg_p (x : Engine) (n : Fin 16) (v : DWord) : (x.setRg n v).p = x.p := by
  unfold Engine.setRg; split <;> rfl

theorem Engine.setPred_rg (x : Engine) (pc : Nat) (v : Option Bool) (r : Fin 16) : (x.setPred pc v).rg r = x.rg r := by
  unfold Engine.setPred; split <;> rfl

/-- R51: a predicate after a write under a control that some instruction can carry. -/
theorem Engine.write_p (x : Engine) (d : Fin 16) (pc : Nat) (r : Res) (h : pc < 16) (i : Fin 4) :
    (x.write d pc r).p[i] = predAfter pc x r.val r.s i := by
  have hp := Engine.setRg_p x d r.val
  have hz : (r.val == 0) = decide (r.val = 0) := by rw [Bool.eq_iff_iff]; simp
  have hm : r.val.msb = decide (r.val.toInt < 0) := BitVec.msb_eq_toInt
  have e : (pc / 4 = 0) ∨ (pc / 4 = 1) ∨ (pc / 4 = 2) ∨ (pc / 4 = 3) := by omega
  unfold Engine.write Engine.setPred predAfter predValue
  rcases e with e | e | e | e <;> simp [e, hp, Vector.getElem_set] <;> grind

/-- R51, R58: a result written is a result written as statements say it. -/
theorem Engine.write_wrote (x : Engine) (d : Fin 16) (pc : Nat) (r : Res) (h : pc < 16) :
    x.wrote { x.write d pc r with pc := x.pc + 1 } d pc r.val r.s := by
  refine ⟨?_, rfl, ?_, ?_, ?_⟩
  · unfold Engine.write Engine.setPred Engine.setRg; split <;> split <;> rfl
  · intro g
    show ((x.setRg d r.val).setPred pc (predValue pc r)).rg d = _
    rw [Engine.setPred_rg, Engine.setRg_self _ _ _ g]
  · intro q g
    show ((x.setRg d r.val).setPred pc (predValue pc r)).rg q = _
    rw [Engine.setPred_rg, Engine.setRg_ne _ _ _ _ g]
  · exact fun i => Engine.write_p x d pc r h i

/-- An arithmetic instruction does what statements say, once its value and status bit are known. -/
theorem Dev.alu_gives (d : Dev) (e cost : Nat) (ok : Bool) (o : EOp) (pc : Nat) (r : Engine → Res) (h : ok = true)
    (g : d.fits e cost) :
    d.alu e cost ok o pc r = (d.spend e cost).setEng e
      { ((d.spend e cost).eng e).write o.d pc (r ((d.spend e cost).eng e)) with pc := ((d.spend e cost).eng e).pc + 1 } := by
  unfold Dev.alu
  rw [Dev.issue_fits _ _ _ _ g, if_pos h]
  rfl

end Sys2Proof.Machine
end

