-- ==== Sys2Proof/Laws/Memory.lean ====
section
/-! SUPPORT. The byte memories: reading after a write, and the canonical form that every memory operation keeps. -/

namespace Sys2Proof.Machine

@[simp] theorem Memory.read_write_self (x : Byte) (m : Memory) (a : Nat) (b : Byte) : (m.write x a b).read x a = b := by
  unfold Memory.write Memory.read
  split
  · next h => subst h; simp [Tbl.getD, Tbl.find?_del]
  · simp

theorem Memory.read_write_ne (x : Byte) (m : Memory) (a c : Nat) (b : Byte) (h : c ≠ a) :
    (m.write x a b).read x c = m.read x c := by
  unfold Memory.write Memory.read
  split
  · simp [Tbl.getD, Tbl.find?_del, h]
  · rw [Tbl.getD_set_ne _ _ _ _ _ h]

/-- Every entry of a table after one was written: the new one or an old one of another key. -/
theorem Tbl.mem_set {α : Type} (t : Tbl α) (k : Nat) (v : α) (hs : t.Pairwise fun x y => x.1 < y.1) (e : Nat × α)
    (h : e ∈ Tbl.set t k v) : e = (k, v) ∨ (e ∈ t ∧ e.1 ≠ k) := by
  induction t with
  | nil => simp [Tbl.set] at h; exact .inl h
  | cons c r ih =>
    obtain ⟨a, w⟩ := c
    rw [List.pairwise_cons] at hs
    unfold Tbl.set at h
    split at h
    · next g =>
      rcases List.mem_cons.1 h with h | h
      · exact .inl h
      · refine .inr ⟨h, ?_⟩
        rcases List.mem_cons.1 h with h | h
        · subst h; exact Nat.ne_of_gt g
        · exact Nat.ne_of_gt (Nat.lt_trans g (hs.1 e h))
    · split at h
      · next g =>
        rcases List.mem_cons.1 h with h | h
        · exact .inl h
        · exact .inr ⟨List.mem_cons_of_mem _ h, by have := hs.1 e h; simp at this; omega⟩
      · next g1 g2 =>
        rcases List.mem_cons.1 h with h | h
        · subst h; exact .inr ⟨List.mem_cons_self .., g2⟩
        · rcases ih hs.2 h with h | h
          · exact .inl h
          · exact .inr ⟨List.mem_cons_of_mem _ h.1, h.2⟩

/-- Rising keys stay rising when an entry is written. -/
theorem Tbl.set_sorted {α : Type} (t : Tbl α) (k : Nat) (v : α) (hs : t.Pairwise fun x y => x.1 < y.1) :
    (Tbl.set t k v).Pairwise fun x y => x.1 < y.1 := by
  induction t with
  | nil => simp [Tbl.set]
  | cons c r ih =>
    obtain ⟨a, w⟩ := c
    have hr := List.pairwise_cons.1 hs
    unfold Tbl.set
    split
    · next g =>
      refine List.pairwise_cons.2 ⟨fun e he => ?_, hs⟩
      rcases List.mem_cons.1 he with he | he
      · subst he; exact g
      · exact Nat.lt_trans g (hr.1 e he)
    · split
      · next g => subst g; exact List.pairwise_cons.2 ⟨hr.1, hr.2⟩
      · next g1 g2 =>
        refine List.pairwise_cons.2 ⟨fun e he => ?_, ih hr.2⟩
        rcases Tbl.mem_set r k v hr.2 e he with he | he
        · subst he; show a < k; omega
        · exact hr.1 e he.1

/-- One byte written keeps the canonical form. -/
theorem Memory.write_wf (x : Byte) (m : Memory) (a : Nat) (b : Byte) (h : m.wf x) : (m.write x a b).wf x := by
  obtain ⟨hs, hd⟩ := h
  unfold Memory.write
  split
  · exact ⟨hs.filter _, fun e he => hd e (List.mem_of_mem_filter he)⟩
  · next g =>
    refine ⟨Tbl.set_sorted _ _ _ hs, fun e he => ?_⟩
    rcases Tbl.mem_set m a b hs e he with he | he
    · subst he; exact g
    · exact hd e he.1

/-- Bytes written keep the canonical form. -/
theorem Memory.writeN_wf (x : Byte) (l : List Byte) (m : Memory) (a : Nat) (h : m.wf x) : (m.writeN x a l).wf x := by
  induction l generalizing m a with
  | nil => exact h
  | cons b r ih => exact ih _ _ (m.write_wf x a b h)

/-- A byte outside a written range is as it was. -/
theorem Memory.read_writeN_out (x : Byte) (l : List Byte) (m : Memory) (a c : Nat) (h : c < a ∨ a + l.length ≤ c) :
    (m.writeN x a l).read x c = m.read x c := by
  induction l generalizing m a with
  | nil => rfl
  | cons b r ih =>
    simp only [List.length_cons] at h
    show ((m.write x a b).writeN x (a + 1) r).read x c = _
    rw [ih _ _ (by omega), m.read_write_ne x a c b (by omega)]

/-- A byte inside a written range is the byte written. -/
theorem Memory.read_writeN_in (x : Byte) (l : List Byte) (m : Memory) (a i : Nat) (h : i < l.length) :
    (m.writeN x a l).read x (a + i) = l[i] := by
  induction l generalizing m a i with
  | nil => simp at h
  | cons b r ih =>
    show ((m.write x a b).writeN x (a + 1) r).read x (a + i) = _
    cases i with
    | zero => rw [Memory.read_writeN_out _ _ _ _ _ (by omega)]; simp
    | succ j =>
      have := ih (m.write x a b) (a + 1) j (by simpa using h)
      rw [show a + (j + 1) = a + 1 + j by omega, this]; rfl

end Sys2Proof.Machine
end

