-- ==== Sys2Proof/Laws/Memories.lean ====
section
/-! SUPPORT. What keeps the canonical form of all the memories of the device (`Dev.memoriesOk`): whatever leaves them alone, a
store to the Vat, and an engine or a cluster put back with its memories in form. -/

namespace Sys2Proof.Machine

/-- Leaving entries out keeps the canonical form. -/
theorem Memory.filter_wf (x : Byte) (m : Memory) (p : Nat × Byte → Bool) (h : m.wf x) : Memory.wf x (m.filter p) :=
  ⟨h.1.filter _, fun e he => h.2 e (List.mem_of_mem_filter he)⟩

/-- Free values keep the canonical form. -/
theorem freeFill_wf (m : Memory) (a n free : Nat) (h : m.wf 0) : Memory.wf 0 (freeFill m a n free) := by
  unfold freeFill
  generalize List.range n = l
  induction l generalizing m with
  | nil => exact h
  | cons i r ih => exact ih _ (Memory.writeN_wf _ _ _ _ h)

/-- The form is a matter of four fields. -/
theorem Dev.memoriesOk_congr (d e : Dev) (hv : e.vat.mem = d.vat.mem) (hr : e.ream.mem = d.ream.mem) (hc : e.cluss = d.cluss)
    (he : e.engs = d.engs) (h : d.memoriesOk) : e.memoriesOk := by
  unfold Dev.memoriesOk at h ⊢
  rw [hv, hr, hc, he]; exact h

/-- An engine's memory has the form. -/
theorem Dev.memoriesOk_eng (d : Dev) (e : Nat) (h : d.memoriesOk) : (d.eng e).lmem.wf 0 := by
  rcases Tbl.getD_mem d.engs e Engine.reset with ⟨x, hx, g⟩ | g
  · unfold Dev.eng; rw [← g]; exact h.2.2.2 x hx
  · unfold Dev.eng; rw [g]; exact ⟨List.Pairwise.nil, fun _ h => nomatch h⟩

/-- A cluster's memories have the form. -/
theorem Dev.memoriesOk_clus (d : Dev) (c : Nat) (h : d.memoriesOk) : (d.clus c).istore.wf 0 ∧ (d.clus c).cmem.wf 0 := by
  rcases Tbl.getD_mem d.cluss c Cluster.reset with ⟨x, hx, g⟩ | g
  · unfold Dev.clus; rw [← g]; exact h.2.2.1 x hx
  · unfold Dev.clus; rw [g]; exact ⟨⟨List.Pairwise.nil, fun _ h => nomatch h⟩, ⟨List.Pairwise.nil, fun _ h => nomatch h⟩⟩

/-- An engine whose memory has the form is put back. -/
theorem Dev.memoriesOk_setEng (d : Dev) (e : Nat) (x : Engine) (h : d.memoriesOk) (hx : x.lmem.wf 0) :
    (d.setEng e x).memoriesOk := by
  refine ⟨h.1, h.2.1, h.2.2.1, fun y hy => ?_⟩
  rcases Tbl.mem_of_mem_set _ _ _ _ hy with rfl | hy
  · exact hx
  · exact h.2.2.2 y hy

/-- A cluster whose memories have the form is put back. -/
theorem Dev.memoriesOk_setClus (d : Dev) (c : Nat) (x : Cluster) (h : d.memoriesOk) (hi : x.istore.wf 0) (hm : x.cmem.wf 0) :
    (d.setClus c x).memoriesOk := by
  refine ⟨h.1, h.2.1, fun y hy => ?_, h.2.2.2⟩
  rcases Tbl.mem_of_mem_set _ _ _ _ hy with rfl | hy
  · exact ⟨hi, hm⟩
  · exact h.2.2.1 y hy

end Sys2Proof.Machine
end

