-- ==== Sys2Proof/Tests/Slice0.lean ====
section
/-! SUPPORT. The model's own tests: an ill-formed term for each check of WellFormed.lean, small results taken from the spec's
words, and for each statement of Obligations.lean states and operands that meet its hypotheses, clause by clause. -/

open Sys2Proof Sys2Proof.Machine

namespace Sys2Proof.Tests

set_option maxRecDepth 100000
set_option Elab.async false

/-! ## States -/

/-- A device that has started: boot complete, TICK_COUNT and dispatch run, PCIe in L0. -/
def on : Dev :=
  let d : Dev := { Dev.reset with tickOn := true, dispatchOn := true, tick := 5000 }
  let d := (d.put F.BOOT_STAT.STEP 13).put F.HOST_PCIE_STAT.L0 1
  d.setBoot { d.boot with low := false, outsHeld := false, live := true }

/-- No command waits. -/
def st (d : Dev) : State := ⟨d, []⟩

/-- What a command makes of a device. -/
def after (c : Instr) (d : Dev) : Dev :=
  match exec c (st d) with
  | .next s => s.dev
  | _ => d

/-- A command answers a next state whose queue is empty, as the one before. -/
def completes (c : Instr) (d : Dev) : Bool :=
  match exec c (st d) with
  | .next s => s.pending.isEmpty
  | _ => false

/-- Engine 0 runs slot 0 with 1,000 cycles of budget, from cycle 50 on; it is at cycle 60 and instruction 7. -/
def engAt (x : Engine) : Dev :=
  ((on.put F.ENG_CLUSTER_STAT.POWERED 0xFFFF).put F.ENG_TASK_BUDGET.BUDGET 1000 0).setEng 0
    { x with run := some 0, start := 50, cyc := 60, pc := 7 }

/-- An engine whose g1 to g3 hold values. -/
def withRegs (a b c : DWord) : Engine := { Engine.reset with g := ((Engine.reset.g.set 1 a).set 2 b).set 3 c }

def e0 : Eng := 0

/-! ## Engines -/

theorem test_add_wraps :
    ((after (.add e0 false ⟨3, 1, 2, 0⟩) (engAt (withRegs 0x7FFFFFFFFFFFFFFF 1 0))).eng 0).rg 3 = 0x8000000000000000 := by decide

theorem test_sub_imm_signed :
    ((after (.sub e0 true ⟨3, 1, 0, 0x3FFF⟩) (engAt (withRegs 5 0 0))).eng 0).rg 3 = 6 := by decide

theorem test_sar_is_arithmetic :
    ((after (.sar e0 true ⟨3, 1, 0, 4⟩) (engAt (withRegs 0xFFFFFFFFFFFFFF00 0 0))).eng 0).rg 3 = 0xFFFFFFFFFFFFFFF0 := by decide

theorem test_write_to_g0_is_discarded :
    ((after (.add e0 true ⟨0, 1, 0, 1⟩) (engAt (withRegs 5 0 0))).eng 0).rg 0 = 0 := by decide

theorem test_mul_high : ((after (.mul e0 ⟨3, 1, 2, 0x2000⟩) (engAt (withRegs 0x4000000000000000 8 0))).eng 0).rg 3 = 2 := by decide

theorem test_branch_is_relative_to_its_own_index : ((after (.b e0 ⟨0, 0, 0, 0x3FFE⟩) (engAt Engine.reset)).eng 0).pc = 5 := by decide

theorem witness_AddSubMinMaxResults : aluOk true ⟨3, 1, 6, 0x3FFF⟩ = true ∧ aluOk false ⟨0, 1, 2, 0⟩ = true ∧
    (st (engAt Engine.reset)).dev.quiet.fits e0 1 := by decide

theorem witness_LogicAndShiftResults : aluOk true ⟨3, 1, 6, 63⟩ = true ∧ (63 : BitVec 14).toNat < 64 ∧
    aluOk false ⟨0, 1, 2, 0⟩ = true ∧ (st (engAt Engine.reset)).dev.quiet.fits e0 1 := by decide

theorem witness_SdiffSatLdhMulGetaccResults : (func ⟨3, 1, 2, 0x2000⟩ = 512 ∧ pcOk (pcR ⟨3, 1, 2, 0x2000⟩) = true) ∧
    (func ⟨3, 1, 2, 0⟩ = 0 ∧ pcOk (pcR ⟨3, 1, 2, 0⟩) = true) ∧
    (pcOk 0 = true ∧ 2 ≤ (192 : BitVec 14).toNat % 128 ∧ (192 : BitVec 14).toNat % 128 ≤ 64 ∧ (192 : BitVec 14).toNat < 256) ∧
    ((4 : Fin 16).val = 4 ∧ (255 : BitVec 14).toNat < 256) ∧ (127 : BitVec 14).toNat < 128 ∧
    (st (engAt Engine.reset)).dev.quiet.fits e0 1 ∧ (st (engAt Engine.reset)).dev.quiet.fits e0 4 ∧
    (65 : BitVec 14).toNat % 128 = 65 ∧ 4 < (5 : Fin 16).val := by decide

theorem witness_AccumulatorAndNopResults : aluOk true ⟨0, 1, 4, 0x2000⟩ = true ∧ aluOk false ⟨0, 1, 2, 0⟩ = true ∧
    (255 : BitVec 14).toNat < 256 ∧ (st (engAt Engine.reset)).dev.quiet.fits e0 4 := by decide

/-- Engine 0 at an address in g1. -/
def engG1 (a : DWord) : Dev := engAt (withRegs a 0 0)

theorem witness_LocalAndClusterMemoryAccess :
    (effAddr ((engG1 0xFF8).eng 0) ⟨3, 1, 7, 0⟩ = 0xFF8 ∧ 0xFF8 % 2 ^ 3 = 0 ∧ (engG1 0xFF8).quiet.fits 0 2 ∧
      ((((engG1 0xFF8).quiet.spend 0 2).memRead 0 0xFF8 8).2 = false)) ∧
    (effAddr ((engG1 0x4FFF8).eng 0) ⟨3, 1, 3, 0⟩ = 0x4FFF8 ∧ 0x4FFF8 % 2 ^ 3 = 0 ∧ (engG1 0x4FFF8).quiet.fits 0 10 ∧
      ((((engG1 0x4FFF8).quiet.spend 0 10).memRead 0 0x4FFF8 8).2 = false)) := by decide

theorem witness_VatAccessByEngines :
    (effAddr ((engG1 0x3FFFFF8).eng 0) ⟨3, 1, 3, 0⟩ = 0x3FFFFF8 ∧ 0x3FFFFF8 % 8 = 0 ∧ 0x3FFFFF8 + 8 ≤ 2 ^ 26) ∧
    (∀ cost, cost ≤ 64 → (engG1 0x3FFFFF8).quiet.freeNext.fits 0 cost) ∧ pcOk 0 = true ∧
    (engG1 0x3FFFFF8).quiet.fits 0 (1 + ((engG1 0x3FFFFF8).eng 0).vputWait) := by decide

/-- A queue descriptor's bytes: base, entry size, LOG2, FLAGS, PROD, CONS, HEAD, TAIL. -/
def qBytes (base entry log2 flags prod cons head tail : Nat) : List Byte :=
  leBytes 4 base ++ leBytes 2 entry ++ leBytes 1 log2 ++ leBytes 1 flags ++ leBytes 2 prod ++ leBytes 2 cons ++
    leBytes 4 head ++ leBytes 4 tail ++ leBytes 8 0

/-- Queue 4095 with one entry of 8, from engine 0 to engine 0. -/
def engQueue (fill : Nat) : Dev :=
  let d := engAt (withRegs 4095 0 0)
  d.vatStore (d.qaddr 4095) (qBytes 0x10000 8 0 1 0 0 7 (7 + fill))

theorem witness_QueueInstructionResults :
    (effAddr ((engQueue 0).eng 0) ⟨3, 1, 2, 0⟩ = 4095 ∧ pcOk 2 = false ∧ pcOk 0 = true) ∧
    ((engQueue 0).qdesc 4095).prod = 0 ∧ ((engQueue 0).qdesc 4095).cons = 0 ∧
    (engQueue 0).qEnabled 4095 = true ∧ ((engQueue 0).qdesc 4095).fill + 0 < ((engQueue 0).qdesc 4095).size ∧
    ¬ ((engQueue 1).qdesc 4095).fill + 0 < ((engQueue 1).qdesc 4095).size ∧ 0 < ((engQueue 1).qdesc 4095).fill ∧
    (let d := (engQueue 1).vatStore ((engQueue 1).qaddr 4095) (qBytes 0x10000 8 0 3 0 0 7 8)
     d.qEnabled 4095 = true ∧ bit (d.qdesc 4095).flags 1 = true ∧ 0 < (d.qdesc 4095).size) ∧
    (∀ cost, cost ≤ 64 → (engQueue 0).quiet.freeNext.fits 0 cost) := by decide

/-- Engine 0's cluster has table 5: a curve or a state table. -/
def engTable (t : List Byte) : Dev :=
  let d := engAt Engine.reset
  d.setClus 0 { d.clus 0 with live := [(5, t)] }

/-- A curve through (0, 0) and (16, 100), and a state table of one state and one row. -/
def curve2 : List Byte := leBytes 2 1 ++ leBytes 1 2 ++ leBytes 5 0 ++ leBytes 4 0 ++ leBytes 4 0 ++ leBytes 4 16 ++ leBytes 4 100
def table0 : List Byte := leBytes 2 2 ++ leBytes 1 1 ++ leBytes 1 1 ++ leBytes 12 0

/-- The state table's row: from state 0 to state 1 on input 3, with action 7; and the steps that miss it. -/
theorem test_tstep_completes :
    let c : Instr := .tstep e0 ⟨3, 1, 2, 80⟩
    completes c (engTable table0) = true ∧ ((after c (engTable table0)).eng 0).pc = 8 := by
  decide

/-- R71: half way between the points (0, 0) and (16, 100). -/
theorem test_tlook_completes :
    let d := { engTable curve2 with engs := (engAt (withRegs 8 0 0)).engs }
    let c : Instr := .tlook e0 ⟨3, 1, 0, 80⟩
    completes c d = true ∧ ((after c d).eng 0).rg 3 = 50 := by decide

theorem witness_TableInstructionResults :
    pcOk (pcR ⟨3, 1, 0, 80⟩) = true ∧ func ⟨3, 1, 0, 80⟩ = 5 ∧ (engTable curve2).quiet.fits 0 12 ∧
    Tbl.find? (((engTable curve2).quiet.spend 0 12).clus 0).live 5 = some curve2 ∧ tableKind curve2 = 1 ∧
    Tbl.find? (((engTable table0).quiet.spend 0 6).clus 0).live 5 = some table0 ∧ tableKind table0 = 2 ∧
    (engTable table0).quiet.fits 0 6 := by decide

theorem witness_TimeAndTimerInstructionResults :
    (6 : BitVec 14).toNat ≤ 6 ∧ (1249 : BitVec 14).toNat < 1250 ∧ (engAt Engine.reset).quiet.fits 0 1 ∧
    (let d := (engAt Engine.reset).put F.ENG_TASK_BUDGET.BUDGET 1200 0
     d.quiet.fits 0 (max 1 (1249 - (d.eng 0).cyc)) ∧ d.quiet.fits 0 (max 1 (0 - (d.eng 0).cyc))) ∧
    (let d := engAt (withRegs 5001 5000 0)
     d.quiet.fits 0 2 ∧ 1 ≤ wrapDiff 32 (((d.quiet.spend 0 2).eng 0).rg 1).toNat (d.tick % 2 ^ 32) ∧
     wrapDiff 32 (((d.quiet.spend 0 2).eng 0).rg 2).toNat (d.tick % 2 ^ 32) < 1) ∧
    (63 : BitVec 14).toNat = 3 + 16 * 3 + 12 ∧ (255 : BitVec 14).toNat = (3 : Fin 4) + 16 * (15 : Fin 16).val + 12 ∧
    (243 : BitVec 14).toNat = (3 : Fin 4) + 16 * (15 : Fin 16).val ∧
    (8435 : BitVec 14).toNat = (3 : Fin 4) + 16 * (15 : Fin 16).val + 2 ^ 13 ∧
    6 < (7 : BitVec 14).toNat ∧ 1249 < (1250 : BitVec 14).toNat := by decide

theorem witness_EventInstructionResults :
    (engAt Engine.reset).quiet.fits 0 2 ∧ (engAt Engine.reset).quiet.fits 0 1 ∧ (15 : BitVec 14).toNat < 16 ∧
    (511 : BitVec 14).toNat < 512 ∧ pcOk 12 = true ∧
    ((((engAt (withRegs 511 0 0)).quiet.spend 0 1).eng 0).rg 1).toNat < 512 ∧
    512 ≤ ((((engAt (withRegs 512 0 0)).quiet.spend 0 1).eng 0).rg 1).toNat := by decide

theorem witness_BranchResults :
    (engAt Engine.reset).quiet.fits 0 2 ∧ (engAt Engine.reset).quiet.fits 0 1 ∧
    ((((engAt Engine.reset).quiet.spend 0 2).eng 0).pc : Int) + (0x3FF9 : BitVec 14).toInt = (0 : Nat) ∧
    (((engAt Engine.reset).quiet.spend 0 2).eng 0).stack.length < 8 ∧
    (2 = if decide (((engAt (withRegs 0 1 0)).eng 0).rg 1 = 0) then 2 else 1) ∧
    (1 = if decide (((engAt (withRegs 0 1 0)).eng 0).rg 2 = 0) then 2 else 1) ∧ (7 : Fin 16).val = (3 : Fin 4) + 4 ∧
    (((engAt { Engine.reset with stack := [3, 9] }).quiet.spend 0 2).eng 0).stack = 3 :: [9] := by decide

theorem witness_FenceYieldHalt :
    let d := engAt { Engine.reset with vputs := [⟨64, 8, 5, 90⟩], qops := [⟨3, true, 1⟩], ioDone := 80 }
    let d0 := d.quiet.spend 0 1
    let x := d0.eng 0
    d.quiet.fits 0 1 ∧ (∀ v ∈ x.vputs, v.doneAt ≤ 90) ∧ x.ioDone ≤ 90 ∧ x.cyc ≤ 90 ∧ (∃ v ∈ x.vputs, v.doneAt = 90) ∧
    90 + (if x.qops = [] then 0 else 8) < x.start + d0.get F.ENG_TASK_BUDGET.BUDGET (d0.runTask 0) := by decide

/-- The fence of a yield may end with the budget's last cycle, cycle 1,050. -/
theorem witness_FenceYieldHalt_last :
    let d := engAt { Engine.reset with vputs := [⟨64, 8, 5, 1042⟩], qops := [⟨3, true, 1⟩], ioDone := 80 }
    let d0 := d.quiet.spend 0 1
    d.quiet.fits 0 1 ∧ (∀ v ∈ (d0.eng 0).vputs, v.doneAt ≤ 1042) ∧
    1042 + 8 = (d0.eng 0).start + d0.get F.ENG_TASK_BUDGET.BUDGET (d0.runTask 0) := by decide

theorem witness_IoInstructionResults :
    (let d := engG1 0x0880000C
     effAddr (d.eng 0) ⟨3, 1, 0, 0⟩ % 4 = 0 ∧ d.quiet.fits 0 24 ∧ d.quiet.fits 0 2 ∧
     engMayRead (effAddr (d.eng 0) ⟨3, 1, 0, 0⟩) = engMayRead 0x0880000C) ∧
    engMayRead R.LOOP_STATE.off = true ∧ engMayRead 0x0FFFFFFC = false ∧ pcOk 15 = true := by decide

/-- Task slots 0 and 1 of engine 0 are bound and ready, in classes 2 and 1; slot 1's input 3 has two events. -/
def ready2 : Dev :=
  let d := ((on.put F.ENG_CLUSTER_STAT.POWERED 1).put F.ENG_AGE.AGE2 255).put F.ENG_AGE.AGE3 255
  let d := ((d.put F.ENG_TASK_CFG.ENABLE 1 0).put F.ENG_TASK_CFG.MAXDISP 1 0).put F.ENG_TASK_CFG.CLASS 2 0
  let d := (((d.put F.ENG_TASK_CFG.ENABLE 1 1).put F.ENG_TASK_CFG.MAXDISP 1 1).put F.ENG_TASK_CFG.CLASS 1 1).put F.ENG_TASK_CFG.TRIGGER 3 1
  let d := (d.put F.ENG_TASK_BUDGET.BUDGET 1000 1).put F.ENG_TASK_BUDGET.BUDGET 100 0
  let d := (d.setTask 0 { Task.reset with ready := true, since := 6249000, aged := 6249000, eff := 2 }).setTask 1
    { Task.reset with ready := true, since := 6250010, aged := 6250010, eff := 1 }
  d.setTin 3 { d.tin 3 with count := 2, fifo := [17, 18] }

theorem witness_DispatchTakesTheFirstReadyTask :
    let s := st ready2
    let d := ({ s.dev.quiet with cycle := 250 } : Dev).promoteAll e0 (s.dev.tick * 1250 + 250)
    50 ≤ (250 : Cycle).val ∧ s.dev.running e0 = false ∧ s.dev.clusterOn (e0 / 32) = true ∧ s.dev.dispatchOn = true ∧
    d.candidate (16 * e0.val + (1 : Fin 16)) = true ∧
    (∀ u : Fin 16, u ≠ 1 → d.candidate (16 * e0 + u) = true → d.before (16 * e0.val + (1 : Fin 16)) (16 * e0 + u) = true) ∧
    (250 : Cycle).val + d.get F.ENG_TASK_BUDGET.BUDGET (16 * e0.val + (1 : Fin 16)) ≤ 1250 := by decide

theorem test_dispatch : let d := after (.taskDispatch e0 250) ready2
    (d.eng 0).run = some 1 ∧ (d.eng 0).start = 250 ∧ (d.tin 3).count = 0 ∧ (d.tin 3).fifo = [17, 18] := by decide

theorem witness_BudgetOverruns :
    (engAt Engine.reset).running e0 = true ∧
    (let d := engAt Engine.reset
     let at' := fun (c : Nat) => d.setEng 0 { d.eng 0 with cyc := c }
     ∀ n ∈ [1, 4, 12, 24], (at' (1050 - n)).running e0 = true ∧
       ((at' (1050 - n)).eng 0).start + (at' (1050 - n)).get F.ENG_TASK_BUDGET.BUDGET ((at' (1050 - n)).runTask 0) -
         ((at' (1050 - n)).eng 0).cyc = n) := by decide

theorem witness_EngineFaultsEndTheDispatch :
    (engAt Engine.reset).quiet.fits 0 1 ∧ (⟨0, 0, 0, 1⟩ : EOp) ≠ ⟨0, 0, 0, 0⟩ ∧ (engG1 0xFFC).quiet.fits 0 2 ∧
    (effAddr ((engG1 0xFFC).eng 0) ⟨3, 1, 3, 0⟩ % 2 ^ 3 ≠ 0 ∧ effAddr ((engG1 0xFFC).eng 0) ⟨3, 1, 3, 0⟩ < 0x10000) ∧
    (0x1000 ≤ effAddr ((engG1 0x1000).eng 0) ⟨3, 1, 3, 0⟩ ∧ effAddr ((engG1 0x1000).eng 0) ⟨3, 1, 3, 0⟩ < 0x10000) ∧
    0x50000 ≤ effAddr ((engG1 0x50000).eng 0) ⟨3, 1, 3, 0⟩ ∧
    (((engAt Engine.reset).quiet.spend 0 2).eng 0).stack = [] ∧
    (engAt Engine.reset).quiet.fits 0 6 ∧ pcOk (pcR ⟨3, 1, 0, 80⟩) = true ∧
    Tbl.find? (((engAt Engine.reset).quiet.spend 0 6).clus 0).live (func ⟨3, 1, 0, 80⟩) = none := by decide

/-- One operand word that breaks every form: PC 2 is reserved, and fields that must be 0 are not. -/
theorem witness_EngineFaultsEndTheDispatch_fields :
    let o : EOp := ⟨1, 1, 2, 0x3FFE⟩
    let n := o.lo.toNat
    aluOk true o = false ∧ aluOk false ⟨0, 1, 2, 2⟩ = false ∧ 64 ≤ n ∧ o.d ≠ 0 ∧ func o % 512 ≠ 0 ∧ pcOk (pcR ⟨0, 0, 0, 2⟩) = false ∧
    pcOk o.b.val = false ∧ 64 < n % 128 ∧ ((1 : BitVec 14).toNat % 128 < 2) ∧ 256 ≤ n ∧ o.a ≠ 0 ∧ 4 < (5 : Fin 16).val ∧ o.b ≠ 0 ∧
    bits n 12 8 ≠ 0 ∧ bits n 3 2 ≠ 0 ∧ 1250 ≤ n ∧ 8 ≤ (15 : Fin 16).val ∧ 8 ≤ (8 : Fin 16).val ∧
    (∀ cost ∈ [1, 2, 4, 6, 8, 10, 12, 24], (engAt Engine.reset).quiet.fits 0 cost) := by decide

/-- Engine 0 with a full stack; and one whose cluster's memory is uncorrectable at 0. -/
theorem witness_EngineFaultsEndTheDispatch_states :
    (((engAt { Engine.reset with stack := [1, 2, 3, 4, 5, 6, 7, 8] }).eng 0).stack.length = 8 ∧
      (((engAt Engine.reset).eng 0).pc : Int) + (0x3FF9 : BitVec 14).toInt = (0 : Nat)) ∧
    ((7 : Int) + (0x3FF8 : BitVec 14).toInt < 0 ∧ (16383 : Int) + (1 : BitVec 14).toInt = 16384) ∧
    (let d := engG1 0x10000
     let d := d.setClus 0 { d.clus 0 with cue := [0] }
     effAddr (d.eng 0) ⟨3, 1, 3, 0⟩ = 0x10000 ∧ ((d.quiet.spend 0 10).memRead 0 0x10000 8).2 = true) ∧
    (effAddr ((engG1 0x3FFFFFC).eng 0) ⟨3, 1, 0, 0⟩ % 8 ≠ 0 ∧ 2 ^ 26 < effAddr ((engG1 0x4000000).eng 0) ⟨3, 1, 0, 0⟩ + 8) ∧
    (let d := { engG1 0x1000 with vat := { (engG1 0x1000).vat with ue := [0x200] } }
     effAddr (d.eng 0) ⟨3, 1, 0, 0⟩ = 0x1000 ∧ ((d.eng 0).vputs.any fun p => p.addr == 0x1000 && p.width == 8) = false ∧
       ((d.quiet.freeNext.spend 0 1).ctxShow 0x1000 8).vbad 0x1000 8 = true) ∧
    (4096 ≤ effAddr ((engG1 4096).eng 0) ⟨3, 1, 0, 0⟩ ∧ effAddr ((engG1 4095).eng 0) ⟨3, 1, 0, 0⟩ < 4096 ∧
      ((engG1 4095).eng 0).vputs = [] ∧
      (let d := (engG1 4095).vatStore ((engG1 4095).qaddr 4095) (qBytes 0x10000 8 0 1 1 1 7 8)
       (d.qdesc 4095).cons ≠ 0 ∧ (d.qdesc 4095).prod ≠ 0)) ∧
    (effAddr ((engG1 2).eng 0) ⟨3, 1, 0, 0⟩ % 4 ≠ 0) ∧
    ((Tbl.find? ((engTable table0).clus 0).live 5).map tableKind ≠ some 1 ∧ (Tbl.find? ((engTable curve2).clus 0).live 5).map tableKind ≠ some 2) ∧
    ((0 : BitVec 14).toNat < 1250) ∧ ((engAt Engine.reset).eng 0).stack = [] := by decide

theorem witness_TaskEventsAndPromotion :
    (let d := ready2.put F.ENG_AGE.AGE2 125
     max ((d.task 0).aged + 8 * d.get F.ENG_AGE.AGE2) d.ageFrom ≤ d.tick * 1250 + (0 : Cycle) ∧
     (d.task 0).ready = true ∧ (d.task 0).eff = 2 ∧ (d.task 0).aged + 8 * d.get F.ENG_AGE.AGE2 ≤ d.tick * 1250 + (0 : Cycle)) ∧
    (ready2.clusterOn (e0 / 32) = true ∧ ready2.tasksOnInput e0 3 ≠ [] ∧ (ready2.tin 3).fifo.length < 16) ∧
    16 ≤ (((ready2.setTin 3 { ready2.tin 3 with fifo := List.replicate 16 0 }).tin 3).fifo.length) ∧
    (let x := ready2.setTask 1 { ready2.task 1 with cancelAt := some (5000 * 1250 + 7) }
     (∀ u ∈ x.tasksOnInput e0 3, (x.task u).cancelAt = some (x.tick * 1250 + 7)) ∧ x.tasksOnInput e0 3 ≠ [] ∧
       ∀ u ∈ x.tasksOnInput e0 3, (x.task u).cancelAt ≠ some (x.tick * 1250 + 8)) ∧
    ready2.tasksOnInput e0 4 = [] ∧ (st ready2).reaches (.pcie 0) R.ENG_TASK_CANCEL.off ∧
    (let d := engAt { Engine.reset with timers := Engine.reset.timers.set 3 (some 5000) }
     (d.eng e0).timers[(3 : Fin 4)] = some 5000 ∧ 5000 = d.tick % 2 ^ 32) ∧
    (let x := { ready2.tin 3 with last := 5000 * 1250 + 7, same := 2 }
     x.last = ready2.tick * 1250 + (7 : Cycle) ∧ x.fifo.length < 16 ∧ (ready2.tin 3).last ≠ ready2.tick * 1250 + (7 : Cycle)) := by
  decide

/-- R39: events of one cycle stand in ascending source number: 0x11 before 0x12, after what came earlier. -/
theorem test_events_of_one_cycle_are_sorted :
    let d := after (.taskInputEvent e0 3 0x11 7) (after (.taskInputEvent e0 3 0x12 7) ready2)
    ((d.tin 3).fifo.map fun v => v.toNat % 4096) = [17, 18, 0x11, 0x12] := by decide

/-! ## Registers -/

/-- The hypotheses about a write over a path: it reaches a register, and no check refuses it. -/
def writeMeets (d0 : Dev) (p : Path) (off w : Nat) (part : RegPart) : Bool :=
  let d := d0.quiet.atCycle 0
  let o := d.view
  match d.pathOff p off with
  | none => false
  | some a => match siteAt a with
    | none => false
    | some x =>
      let n := d.copyOf p x
      let word := mergeWord (writeMask p x n) (o.rd x.own n) w
      decide (d.access p a true = .ok) && decide (0x08000000 ≤ a ∧ a < 0x0A000000) && !x.is commandRegs &&
      decide (x.reg.part = part) && decide (writeMask p x n ≠ 0) && (Dev.formBad d o p x a n w true).isNone &&
      (Dev.writeBad d o (o.withWords x n [(x, word)]) p x a n [(x, word)] false).isNone

theorem witness_RegisterWriteResults :
    writeMeets (on.put F.KL_STAGE_STAT.STATE 1) .spi (R.LOOP_GATE.off 3) 0x000A000A .whole = true ∧
    writeMeets on (.pcie 0) R.ENG_CLUSTER_PWR.off 0xFFFF .whole = true ∧
    writeMeets (on.put F.IN_CFG.ENABLE 1 39) (.engine 511) (R.IN_STATE.off 39) 4 .whole = true ∧
    writeMeets on (.pcie 0) (R.FRM_POLICE.off 7) 0x040004E3 .whole = true ∧
    writeMeets on (.pcie 0) R.TIME_LT_STEP_LO.off 1 (.lo false) = true := by decide

/-- The hypotheses about a write of a _HI register: its words are apart, and no check refuses them; and how many parts are staged. -/
def hiMeets (d0 : Dev) (p : Path) (off w staged : Nat) : Bool :=
  let d := d0.quiet.atCycle 0
  let o := d.view
  match d.pathOff p off with
  | none => false
  | some a => match siteAt a with
    | none => false
    | some x =>
      let n := d.copyOf p x
      let word := fun (y : Site) (v : Nat) => mergeWord (writeMask p y n) (o.rd y.own n) v
      let parts := x.others.filterMap fun y => (Tbl.find? d.half (pathKey p y.off)).map fun h => (y, word y h.toNat)
      let ws := (x, word x w) :: parts
      decide (d.access p a true = .ok) && !x.is commandRegs && (x.reg.part == .hi true || x.reg.part == .hi false) &&
      decide (parts.length = staged) && decide (List.Nodup (ws.map fun (y : Site × Nat) => y.1.own.key n)) && (Dev.formBad d o p x a n w true).isNone &&
      (Dev.writeBad d o (o.withWords x n ws) p x a n ws false).isNone

theorem witness_RegisterWriteResults_parts :
    writeMeets on .spi R.CTX_SET_FRAC.off 0xFFFFFFFF .frac = true ∧
    hiMeets on (.pcie 0) R.KL_STAGE_TICK_HI.off 1 0 = true ∧
    hiMeets (after (.registerWrite (.pcie 0) (BitVec.ofNat 28 R.KL_STAGE_TICK_LO.off) 9 true false 0) on) (.pcie 0)
      R.KL_STAGE_TICK_HI.off 1 1 = true ∧
    (let d := after (.registerWrite .spi (BitVec.ofNat 28 R.CTX_SET_NS_LO.off) 9 true false 0)
       (after (.registerWrite .spi (BitVec.ofNat 28 R.CTX_SET_FRAC.off) 7 true false 0) on)
     hiMeets d .spi R.CTX_SET_NS_HI.off 1 2 = true) := by decide +kernel

/-- R8: the value of three parts takes effect with its _HI register, and what was staged is used up. -/
theorem test_hi_applies_the_staged_parts :
    let w := fun (off v : Nat) => Instr.registerWrite .spi (BitVec.ofNat 28 off) (BitVec.ofNat 32 v) true false 0
    let d := after (w R.CTX_SET_NS_LO.off 9) (after (w R.CTX_SET_FRAC.off 7) on)
    let e := after (w R.CTX_SET_NS_HI.off 1) d
    d.get F.CTX_SET_NS_LO.VALUE = 0 ∧ d.half.length = 2 ∧ e.half = [] ∧ e.get F.CTX_SET_NS_LO.VALUE = 9 ∧
      e.get F.CTX_SET_NS_HI.VALUE = 1 ∧ e.get F.CTX_SET_FRAC.VALUE = 7 := by decide

/-- R5: a write of 1 clears a W1C bit, but for one that was set in the same cycle. -/
theorem test_w1c_set_wins :
    let d := ({ on with cycle := 9 } : Dev).fault 9
    (after (.faultStatusClear .spi 0 ⟨0x200, 9⟩) d).faultStatus 9 = true ∧
    (after (.faultStatusClear .spi 0 ⟨0x200, 10⟩) d).faultStatus 9 = false := by decide

/-- The hypotheses about a read over a path: it reaches a register of a part. -/
def readMeets (d0 : Dev) (p : Path) (off : Nat) (part : RegPart) : Bool :=
  let d := d0.quiet.atCycle 0
  match d.pathOff p off with
  | none => false
  | some a => match siteAt a with
    | none => false
    | some x => decide (d.access p a false = .ok) && decide (0x08000000 ≤ a ∧ a < 0x09300000) && decide (x.reg.part = part)

theorem witness_ReadsAndRefusedWrites :
    readMeets on (.pcie 0) R.SYS_PROFILE.off .whole = true ∧ readMeets on .spi R.TIME_LT_STEP_LO.off (.lo false) = true ∧
    readMeets on .i2c R.TIME_LT_STEP_HI.off (.hi false) = true ∧ readMeets on (.pcie 0) R.CTX_SET_FRAC.off .frac = true ∧
    readMeets on (.pcie 0) R.CTX_STAT.off .whole = true ∧ readMeets on .spi R.CTX_TIME_NS_LO.off (.lo true) = true ∧
    (siteAt R.CTX_STAT.base).isSome = true ∧
    (Tbl.find? (after (.loRead .spi (BitVec.ofNat 28 R.CTX_TIME_NS_LO.off) true 0) on).latch (ctxStatKey .spi 0)).isSome = true ∧
    (let d := (on.put F.FLT_STATE.STOPPED 1).quiet
     d.access .i2c (R.TDC_MS_CMD.off 63) true = .refused .state ∧ d.access .i2c (R.SYN_CMD.off 15) true = .refused .state ∧
     d.access .i2c R.KL_STAGE_CMD.off true = .refused .state ∧ d.access .i2c R.REAM_CMD.off true = .refused .state ∧
     on.quiet.access (.engine 0) R.BOOT_CMD.off true = .refused .access) := by decide

/-- What a write that a check refuses gives: the reason, and whether the word has a reserved bit. -/
def refusal (d0 : Dev) (p : Path) (off w : Nat) (whole : Bool) : Option Reason × Bool :=
  let d := d0.quiet.atCycle 0
  let o := d.view
  match d.pathOff p off with
  | none => (none, false)
  | some a => match siteAt a with
    | none => (none, false)
    | some x =>
      let n := d.copyOf p x
      let word := mergeWord (writeMask p x n) (o.rd x.own n) w
      (match Dev.formBad d o p x a n w whole with
        | some r => some r
        | none => Dev.writeBad d o (o.withWords x n [(x, word)]) p x a n [(x, word)] false,
       decide (mergeWord (maskOf x.fields fun _ => true) w 0 ≠ 0))

/-- A write for every reason: a reserved bit, a half word, LOOP_STATE from a host, LOOP_GATE with no change open, a value below its
range, an input whose gate is too short, and a write in STOPPED. -/
theorem witness_ReadsAndRefusedWrites_reasons :
    (refusal on .spi R.ENG_CLUSTER_PWR.off 0x10000 true).2 = true ∧ refusal on .spi R.ENG_CLUSTER_PWR.off 1 false = (some .size, false) ∧
    refusal on .spi (R.LOOP_STATE.off 0) 0 true = (some .access, false) := by decide +kernel

theorem witness_ReadsAndRefusedWrites_locked :
    refusal on .spi (R.LOOP_GATE.off 0) 0x000A000A true = (some .locked, false) := by decide +kernel

theorem witness_ReadsAndRefusedWrites_range :
    refusal (on.put F.KL_STAGE_STAT.STATE 1) .spi (R.LOOP_GATE.off 0) 0 true = (some .range, false) := by decide +kernel

theorem witness_ReadsAndRefusedWrites_combination :
    refusal on (.pcie 0) (R.IN_CFG.off 39) 1 true = (some .combination, false) := by decide +kernel

theorem witness_ReadsAndRefusedWrites_state :
    refusal (on.put F.FLT_STATE.STOPPED 1) .i2c (R.XI2C_DATA0.off 0) 1 true = (some .state, false) := by decide +kernel

theorem witness_ReadsAndRefusedWrites_poison :
    let d := on.quiet.atCycle 0
    d.pathOff (.pcie 0) (R.LOOP_GATE.off 0) = some (R.LOOP_GATE.off 0) ∧ d.access (.pcie 0) (R.LOOP_GATE.off 0) true = .ok ∧
    d.pathOff (.pcie 0) 0x100000 = some 0x100000 ∧ d.access (.pcie 0) 0x100000 true = .ok ∧
    (d.fault 259).vatGuarded 0x100000 4 = false ∧ overlap 0x100000 4 (d.fault 259).qtable (4096 * 32) = false := by decide

theorem test_refused_write_is_counted : let d := after (.bootRelease (.engine 7)) on
    d.get F.HOST_WERR_CNT.COUNT = 1 ∧ d.get F.HOST_WERR_SRC.PATH = 7 ∧ d.get F.HOST_WERR_SRC.REASON = 5 ∧
      d.faultStatus 7 = true := by decide

theorem witness_ClusterStartAndStoreResults :
    (let d := { on.setClus 3 { on.clus 3 with waiting := true } with lastStart := some 4500 }
     (d.clus 3).waiting = true ∧ (∀ b, b < 3 → (d.clus b).waiting = false) ∧ 4500 + 500 ≤ d.tick) ∧
    (on.setClus 3 { on.clus 3 with startedAt := some 4500 }).clus 3 = { on.clus 3 with startedAt := some 4500 } ∧
    (let d := on.put F.ENG_CLUSTER_STAT.POWERED 0x8000
     (st d).reaches .spi (0x0A000000 + 0x10000 * (15 : Fin 16) + 4 * (16383 : Fin 16384)) ∧ Path.spi.isHost = true ∧
       d.reachable (15 : Fin 16) (16383 : Fin 16384) = false ∧ d.clusterOn (15 : Fin 16) = true) := by decide

theorem witness_StagedChangeResults_table :
    (let d := on.put F.KL_STAGE_STAT.STATE 1
     (st d).reaches .spi R.TBL_LOAD_CMD.off ∧ d.quiet.view.named 1023 = false) ∧
    (st on).reaches .spi R.KL_STAGE_CMD.off ∧
    (let d := (on.put F.KL_STAGE_STAT.STATE 1).put F.KL_STAGE_TICK_LO.TICK 5016
     d.tick + 16 ≤ d.get64 F.KL_STAGE_TICK_LO.TICK F.KL_STAGE_TICK_HI.TICK ∧
       d.get64 F.KL_STAGE_TICK_LO.TICK F.KL_STAGE_TICK_HI.TICK < d.tick + 2 ^ 31) := by decide

/-- A table that LOAD can take: a state table of no row and 16 bytes, in pool 8, at SPI's source address. -/
def loadable : Dev :=
  let d := on.put F.KL_STAGE_STAT.STATE 1
  let d := (d.put F.VAT_POOL_CFG.BASE 8192 8).put F.VAT_POOL_CFG.COUNT 16 8
  (d.put F.TBL_LOAD_SRC.OFFSET (8192 * 512) (Path.spi).code).vatStore (8192 * 4096) table0

theorem witness_StagedChangeResults_load :
    let d := loadable.quiet
    let src := d.get F.TBL_LOAD_SRC.OFFSET (Path.spi).code * 8
    tableLen (d.vbytes src 16) = some 16 ∧ d.bufferOk (1023 : Fin 1024) src 16 = true ∧ d.get F.KL_STAGE_STAT.STATE = 1 := by decide

/-- A device whose registers are at their reset values but for the pools', with an armed change for the present tick. -/
def armed : Dev :=
  let d := (List.range 16).foldl (fun (d : Dev) k => d.wr R.VAT_POOL_CFG (Dev.reset.rd R.VAT_POOL_CFG k) k)
    { Dev.reset with tick := 5000, regs := [] }
  (d.put F.KL_STAGE_STAT.STATE 2).put F.KL_STAGE_TICK_LO.TICK 5000

/-- An armed change that a check fails: pool 1 would lie in pool 0. -/
def armedBad : Dev := { armed with staged := [(R.VAT_POOL_CFG.key 1, BitVec.ofNat 32 (armed.rd R.VAT_POOL_CFG 0))] }

theorem witness_StagedChangeResults_commit :
    (armed.quiet.get F.KL_STAGE_STAT.STATE = 2 ∧ armed.quiet.stageTick = armed.quiet.tick ∧
      armed.quiet.framesOf (armed.quiet.tick - 1) = []) ∧ armed.quiet.get F.KL_STAGE_STAT.STATE ≠ 1 ∧
    ({ armed with tick := 4999 }).quiet.tick < armed.stageTick := by decide

/-- A key that no entry has is not found. -/
theorem find_none {α : Type} (k : Nat) : ∀ l : Tbl α, (∀ e ∈ l, e.1 ≠ k) → Tbl.find? l k = none
  | [], _ => rfl
  | (a, v) :: r, h => by
    have ha : a ≠ k := h (a, v) (by simp)
    have ih := find_none k r fun e he => h e (by simp [he])
    simp [Tbl.find?, ha, ih]

/-- No register of `armed` is a task's configuration. -/
theorem armed_keys : (armed.quiet.view.regs.all fun e => e.1 % copyStride != R.ENG_TASK_CFG.base) = true := by decide +kernel

theorem armed_cfg (t : Nat) : armed.quiet.view.rd R.ENG_TASK_CFG t = 0 := by
  have h : Tbl.find? armed.quiet.view.regs (R.ENG_TASK_CFG.key t) = none := by
    refine find_none _ _ fun e he g => ?_
    have := List.all_eq_true.mp armed_keys e he
    rw [g] at this
    simp [Reg.key, R.ENG_TASK_CFG, copyStride, Nat.add_mul_mod_self_left] at this
  unfold Dev.rd Tbl.getD
  rw [h]; rfl

/-- An engine without an enabled task breaks no admission. -/
theorem tasksBad_off {v : Dev} (h : ∀ t, v.getS F.ENG_TASK_CFG.ENABLE t = 0) (g : ∀ t, v.get F.ENG_TASK_CFG.ENABLE t = 0) (e : Nat) :
    v.tasksBad e = false := by
  simp [Dev.tasksBad, Dev.admitCode, Dev.admitUsed, Dev.flag, h, g]

theorem armed_admission : ((List.range 512).any fun e => armed.quiet.view.tasksBad e) = false := by
  have g : ∀ t, armed.quiet.view.get F.ENG_TASK_CFG.ENABLE t = 0 := fun t => by
    unfold Dev.get; rw [show F.ENG_TASK_CFG.ENABLE.reg = R.ENG_TASK_CFG from rfl, armed_cfg]; rfl
  have h : ∀ t, armed.quiet.view.getS F.ENG_TASK_CFG.ENABLE t = 0 := fun t => by
    unfold Dev.getS; rw [show F.ENG_TASK_CFG.ENABLE.reg = R.ENG_TASK_CFG from rfl, armed_cfg, show armed.quiet.view.staged = [] by decide +kernel]
    simp [Tbl.getD, Tbl.find?, bits]
  simp [tasksBad_off h g]

theorem witness_StagedChangeResults_good : armed.quiet.changeBad armed.quiet.view = false := by
  have h : (armed.quiet.profileBad armed.quiet.view != 0 || (armed.quiet.vatBad armed.quiet.view).isSome ||
    armed.quiet.view.rewindOver || armed.quiet.view.rewindBad) = false := by decide +kernel
  have k : (armed.quiet.stagedBad armed.quiet.view || (!armed.quiet.stagedTabs.isEmpty && armed.quiet.view.namesBad) ||
    (armed.quiet.poolsStaged && armed.quiet.view.placesBad)) = false := by decide +kernel
  unfold Dev.changeBad
  rw [h, armed_admission]; simpa using k

theorem witness_StagedChangeResults_bad : armedBad.quiet.changeBad armedBad.quiet.view = true := by decide +kernel

/-- No change is armed, and link 0's last frame, of the previous tick, announced one for this tick. -/
def peerArmedDev : Dev :=
  let d := armed.put F.KL_STAGE_STAT.STATE 0
  d.setKlink 0 { d.klink 0 with rxTick := some 4999, body := List.replicate 54 0 ++ [1, 0] ++ leBytes 4 5000 ++ List.replicate 380 0 }

theorem witness_StagedChangeResults_missing :
    peerArmedDev.quiet.get F.KL_STAGE_STAT.STATE ≠ 2 ∧
    (∃ k ∈ peerArmedDev.quiet.framesOf (peerArmedDev.quiet.tick - 1), peerArmedDev.quiet.peerArmed k peerArmedDev.quiet.tick = true) := by
  decide

theorem witness_VatWindowAccess :
    (st on).reaches (.pcie 0) 0x3FFFFFE ∧ 0x3FFFFFE + [((1 : Byte), true), (2, false)].length ≤ 2 ^ 26 ∧
    (∀ r ∈ byteRuns 0x3FFFFFE [((1 : Byte), true), (2, false)], (on.quiet.atCycle 0).vatGuarded r.1 r.2.length = false) ∧
    on.quiet.access (.pcie 0) 0x3FFFF00 false = .ok ∧ 0x3FFFF00 + (256 : BitVec 13).toNat ≤ 2 ^ 26 := by decide

/-- A run in the queue table touches a structure that discards writes; one beside it does not, with EP set either. -/
theorem witness_VatWindowAccess_guarded :
    let d := on.quiet.atCycle 0
    let a := d.ctxAddr 7
    (∀ r ∈ byteRuns 0x100000 [((1 : Byte), true), (2, false), (3, true)], (d.fault 259).vatGuarded r.1 r.2.length = false) ∧
    (st on).reaches (.pcie 0) a ∧ a + 2 ≤ 2 ^ 26 ∧
    (byteRuns a [((1 : Byte), true), (2, false)]).find? (fun r => d.vatGuarded r.1 r.2.length) = some (a, [1]) ∧
    (byteRuns a [((1 : Byte), true), (2, false)]).find? (fun r => (d.fault 259).vatGuarded r.1 r.2.length) = some (a, [1]) := by decide

/-- R346: a poisoned write through the window leaves its words poisoned and raises PCIE_POISON. -/
theorem test_poisoned_window_write :
    let d := after (.vatWindowWrite 0x100000 [(1, true)] true 0) on
    d.vbad 0x100000 8 = true ∧ d.vbad 0x100008 8 = false ∧ d.faultStatus 259 = true := by decide

/-- VF 31 has an aperture of one granule. -/
def vfOn : Dev := ((on.put F.HOST_VF_APT.SIZE 1 31).put F.HOST_VF_APT.GRANULE 8192 31).put F.HOST_PCIE_STAT.NUMVF 31

theorem witness_ApertureAccess :
    let d := vfOn.quiet.atCycle 0
    5 ≤ d.get F.BOOT_STAT.STEP ∧ vfOn.quiet.access (.pcie 31) R.VAT_QHOST_CMD.off false = .ok ∧
    (0xFFF : BitVec 20).toNat + [((1 : Byte), true)].length ≤ d.get F.HOST_VF_APT.SIZE (31 : Fin 32) * 4096 ∧
    d.get F.HOST_VF_APT.SIZE (31 : Fin 32) * 4096 < (0xFFF : BitVec 20).toNat + [((1 : Byte), true), (1, true)].length := by decide

/-- Queue 9 from and to I2C, with two of four entries filled. -/
def hostQ : Dev :=
  (on.put F.HOST_PCIE_STAT.NUMVF 31).vatStore (on.qaddr 9) (qBytes 0x10000 8 2 1 0x2021 0x2021 5 7)

theorem witness_HostQueueGrants :
    (st hostQ).reaches (hostPath 33) R.VAT_QHOST_CMD.off ∧ (hostQ.quiet.qCheck 9).qEnabled 9 = true ∧ (3 : BitVec 16).toNat ≠ 0 ∧
    ((hostQ.quiet.qCheck 9).qdesc 9).cons = 0x2021 ∧ ((hostQ.quiet.qCheck 9).qdesc 9).prod = 0x2021 ∧ (on.quiet.qCheck 9).qEnabled 9 = false ∧
    (let d := { hostQ with vat := { hostQ.vat with ue := [hostQ.qaddr 9 / 8] } }
     (d.quiet.qCheck 9).qEnabled 9 = false) ∧
    (st hostQ).reaches (hostPath 0) R.VAT_QHOST_CMD.off ∧ (st hostQ).reaches (hostPath 31) R.VAT_QHOST_CMD.off ∧
    (let d := after (.qhostPop 33 9 3) hostQ
     Tbl.find? d.grants 545 = some ⟨9, false, 2, 5000⟩ ∧ d.get F.VAT_QHOST_STAT.GRANTED 545 = 2) ∧
    5000 + 10000 ≤ ({ after (.qhostPop 33 9 3) hostQ with tick := 15000 } : Dev).tick := by decide

/-- A line with an error that can be corrected and one that cannot: the first is corrected unless another write collides. -/
theorem test_scrub_line_completes :
    let c := fun (k : Bool) => Instr.scrubLine ⟨5, k⟩ [1] [2]
    completes (c false) on = true ∧ completes (c true) on = true ∧ (after (c false) on).vat.ce = [] ∧
    (after (c true) on).vat.ce = [21] ∧ (after (c false) on).vat.ue = [22] ∧ (after (c false) on).get F.VAT_ECC_UE.COUNT = 1 := by
  decide

theorem witness_ScrubLineResults :
    on.quiet.flag F.VAT_SCRUB.ENABLE = true ∧ (on.put F.VAT_SCRUB.ENABLE 0).quiet.flag F.VAT_SCRUB.ENABLE = false := by decide

theorem witness_SerialTargets :
    (on.quiet.atCycle 0).access .spi R.BOOT_STAT.off false ≠ .absent ∧
    (on.quiet.atCycle 0).access .i2c R.BOOT_STAT.off false ≠ .absent ∧ 0 < (3 : Fin 5).val ∧ (3 : Fin 5).val < 4 ∧
    (0x4F : BitVec 7) ≠ BitVec.ofNat 7 (0x4C + 2 * b2n (on.boot.pinSeen.getLsbD 6) + b2n (on.boot.pinSeen.getLsbD 7)) := by decide

/-- R352: MI2C_A1 and MI2C_A0 give the low bits of the address. -/
theorem test_i2c_address :
    let d : Dev := { on with boot := { on.boot with pinSeen := 0x80 } }
    let read := fun (a : BitVec 7) => (after (.i2cRead ⟨a, 1⟩ 0) d).outs.length
    read 0x4D = 1 ∧ read 0x4C = 0 ∧ read 0x4E = 0 := by decide

theorem witness_PcieEvents :
    (let d := ({ on with host := { on.host with perst := false } }).quiet
     d.mayTrain = true ∧ 2 ^ (2 : Fin 3).val + ((List.range 4).filter fun l => (d.loopDepth 4 l).isSome).length ≤ 4) ∧
    ({ on with host := { on.host with trained := true } }).quiet.host.trained = true ∧ (Path.spi).isHost = true := by decide

/-! ## Stamps, monitors, slots, recorders -/

/-- Channel `c`'s edges of this tick are calibrated; the last one came at XO time `l`. -/
def stampDev (c t : Nat) (l : Option Nat) : Dev :=
  ({ on with tick := t }).setTdc c { TdcCh.reset with calA := some (500, 1500), calB := some (600, 1590), last := l }

/-- Both edges of a near pair: just 2.5 ns after the last edge, and just before. The prescaler of 2 passes the second. -/
theorem witness_StampAndCalibrationResults_stamp :
    (let d := (stampDev 39 5000 none).quiet.atCycle 1249
     let xo := d.edgeXo (39 : Fin 136) 2499 1000
     let at' := (roundDiv xo.1 xo.2).toNat
     (d.tdc 39).calB = some (600, 1590) ∧ (600 : Nat) < 1590 ∧ d.selfStamping 39 = false ∧ d.edgePasses 39 false = true ∧
     d.chDiv 39 = 1 ∧ d.glitch 39 = 0 ∧ (d.put F.IN_PRESCALE.DIV 2 39).chDiv 39 = 2 ∧ (d.tdc 39).pre = 0 ∧
     (let g := (d.put F.IN_CFG.MODE 1 39).put F.IN_CFG.GLITCH 3 39
      (2 : BitVec 8).toNat < g.glitch 39 ∧ g.glitch 39 ≤ (3 : BitVec 8).toNat) ∧
     let far := (stampDev 39 5000 (some (at' - 10737418240))).quiet.atCycle 1249
     (¬ ∃ l, (far.tdc 39).last = some l ∧ at' < l + 10737418240) ∧
     let near := (stampDev 39 5000 (some (at' - 10737418239))).quiet.atCycle 1249
     at' < ((near.tdc 39).last.getD 0) + 10737418240 ∧ (near.tdc 39).last ≠ none) ∧
    (let d := (((stampDev 127 5000 none).setEvt 15 { Evt.reset with func := 2, want := 2, clean := 2 }).quiet.atCycle 0)
     d.evtPresents (127 - 112) = true ∧ d.edgePasses 127 false = true ∧ d.selfStamping 127 = false) ∧
    ((stampDev 135 5001 none).quiet.atCycle 0).edgePasses 135 false = true ∧
    ((stampDev 135 5001 none).quiet.atCycle 0).selfStamping 135 = false ∧ ((stampDev 135 5001 none).tdc 135).calA = some (500, 1500) := by
  decide

/-- An edge comes: without a filter, with a pulse that it passes, at an output and an event port; or it does not. -/
theorem witness_StampAndCalibrationResults_edges :
    let d := (stampDev 39 5000 none).quiet.atCycle 1249
    let g := (d.put F.IN_CFG.MODE 1 39).put F.IN_CFG.GLITCH 3 39
    d.loopDepth 0 39 = none ∧ d.pinsLive = true ∧ d.edgeComes 39 2499 false 0 = true ∧ d.loopDepth 1 71 = none ∧
    d.edgeComes 111 2499 false 0 = true ∧ d.edgeComes 135 0 false 0 = true ∧
    (2 : BitVec 8).toNat < g.glitch 39 ∧ g.loopDepth 0 39 ≠ some 2 ∧ g.glitch 39 ≤ (3 : BitVec 8).toNat ∧
    (g.tdc 39).level ≠ some true ∧ g.edgeComes 39 2499 false 3 = true ∧
    (g.setTdc 39 { g.tdc 39 with level := some true }).edgeComes 39 2499 false 3 = false ∧
    ((d.put F.TST_LB_CFG.ENABLE 1 39).put F.TST_LB_CFG.DEPTH 3 39).loopDepth 0 39 = some 3 := by decide

theorem witness_StampAndCalibrationResults_drain :
    ((on.setTdc 3 { TdcCh.reset with burst := [List.replicate 16 1, []] }).tdc 3).burst = List.replicate 16 1 :: [[]] := by decide

/-- Channel 39's input is on and stamped; its calibrations come from both interpolators; slots 0 and 1 wait for it, slot 1 with an edge. -/
def calDev (t : Nat) : Dev :=
  let d := ((stampDev 39 t none).put F.IN_CFG.MODE 1 39).put F.IN_CFG.ENABLE 1 39
  let d := ((d.put F.TDC_MS_STAT.STATE 1 0).put F.TDC_MS_STAT.STATE 1 1).put F.TDC_CH_CFG.MODE 1 39
  (d.setMs 0 { MsSlot.reset with cal := [39] }).setMs 1 { MsSlot.reset with cal := [39], start := some ⟨1, 1, false, 0⟩ }

theorem witness_StampAndCalibrationResults_calibration :
    ((calDev 5001).quiet.calibrating 39 = true ∧ calAccepted ((calDev 5001).quiet.tdc 39).calB 100 1090 = true ∧
      calAccepted ((calDev 5001).quiet.tdc 39).calB 100 1150 = false ∧ (calDev 5000).quiet.calibrating 39 = true ∧
      calAccepted ((calDev 5000).quiet.tdc 39).calA 100 1110 = true ∧ calAccepted ((calDev 5000).quiet.tdc 39).calA 100 1111 = false) ∧
    calAccepted none 0 900 = true ∧ calAccepted none 0 899 = false ∧ calAccepted none 0 1150 = true ∧
    calAccepted none 0 1151 = false ∧
    (let d := (calDev 5000).quiet
     d.msState 0 = 1 ∧ 39 ∈ (d.ms 0).cal ∧ (d.ms 1).cal = [39] ∧ (d.ms 1).start.isSome = true ∧ d.msState 2 ≠ 1) := by decide

/-- Input 39 is watched: a window that opened at coarse period 100, a bucket at 240 of REJECT 255. -/
def monDev (x : InMon) : Dev :=
  let d := ((on.put F.IN_CFG.ENABLE 1 39).put F.IN_NOM_LO.NOM_LO 0x96800000 39).put F.IN_NOM_HI.NOM_HI 0x98 39
  d.setMon 39 x

theorem witness_InputMonitorEvents :
    (let d := (monDev { InMon.reset with windowFrom := some 100 }).quiet
     d.inEnabled 39 = true ∧ (d.mon 39).windowFrom = some 100 ∧
       100 + d.windowLen 39 (d.mon 39).winTol ≤ d.tick * 2500 + 2 * 0 + 2) ∧
    (let d := ((monDev { InMon.reset with obsFrom := some 1 }).put F.IN_STATE.STATE 2 39).put F.IN_QUAL.HOLDOFF 0 39
     (d.mon 39).obsFrom = some 1 ∧ d.get F.IN_STATE.STATE 39 = 2 ∧ d.get F.IN_QUAL.HOLDOFF 39 = 0 ∧
       d.flag F.IN_STATE.EVER_GOOD 39 = false) ∧
    (let d := ((monDev { InMon.reset with gateFirst := some 7, gateLast := 7 + 2 ^ 45, gateK := 1, gateFrom := 4001 }).put
       F.IN_MON_CFG.GATE 1 39).quiet
     d.gateDue 39 = true ∧ d.get F.IN_MON_CFG.BASIS 39 = 0 ∧ (d.mon 39).gateFirst = some 7 ∧ 0 < d.inNom 39) ∧
    (let d := ({ (monDev { InMon.reset with baseline := some (0, 5, 4488), samples := [(4500, 5), (4600, 5), (4700, 5)] })
                 with tick := 5119 }).quiet
     d.susGateDue 39 = true ∧ (d.mon 39).confirm = false ∧ (d.mon 39).suspect = false ∧ d.slowInput 39 = false) := by decide

/-- Slot 63 in a state, with a start edge or none; LT is at 0. -/
def slotDev (state : Nat) (deckle : Bool) (start : Option MsEdge) : Dev :=
  ((on.put F.TDC_MS_STAT.STATE state 63).putB F.TDC_MS_CFG.MODE deckle 63).setMs 63
    { MsSlot.reset with start := start, base := -(2 ^ 70) }

theorem witness_MeasurementAndStatisticsSlots :
    (st (slotDev 0 false none)).reaches .spi (R.TDC_MS_CMD.off (63 : Fin 64)) ∧
    (st (slotDev 3 false none)).reaches (.pcie 0) (R.TDC_MS_CMD.off (63 : Fin 64)) ∧
    (let d := ((slotDev 4 false none).put F.TDC_MS_CFG.REPEAT 1 63).setMs 63 { MsSlot.reset with rearm := true }
     (st d).reaches (.pcie 0) (R.TDC_MS_CMD.off (63 : Fin 64)) ∧ (d.ms 63).rearm = true ∧
       d.quiet.flag F.TDC_MS_CFG.REPEAT (63 : Fin 64) = true ∧ d.get F.TDC_MS_STAT.STATE (63 : Fin 64) = 4 ∧
       (d.ms 63).doneAt ≠ some (d.atCycle 3).absCycle) ∧
    (let d := (slotDev 2 false none).quiet
     d.get F.TDC_MS_STAT.STATE (63 : Fin 64) = 2 ∧ d.flag F.TDC_MS_CFG.MODE (63 : Fin 64) = false ∧
       (d.ms 63).base + d.get F.TDC_MS_TIMEOUT.VALUE (63 : Fin 64) * 2 ^ 32 < d.ltEnd 0) ∧
    (let d := (slotDev 1 true none).quiet
     (d.ms 63).start = none ∧ (d.ms 63).base + d.get F.TDC_MS_TIMEOUT.VALUE (63 : Fin 64) * 2 ^ 32 < d.ltEnd 1249) ∧
    (let d := (slotDev 3 true (some ⟨0, -(2 ^ 60), false, 0⟩)).quiet
     d.get F.TDC_MS_STAT.STATE (63 : Fin 64) = 3 ∧ d.flag F.TDC_MS_CFG.MODE (63 : Fin 64) = true ∧
       (-(2 ^ 60) : Int) + (d.get F.TDC_MS_WCLOSE.VALUE (63 : Fin 64) + 50) * 2 ^ 32 < d.ltEnd 0) ∧
    (st on).reaches .i2c (R.TDC_ST_CMD.off (15 : Fin 16)) ∧
    (on.quiet.get F.TDC_ST_STAT.STATE (15 : Fin 16) ≠ 1 ∧
      (on.put F.TDC_ST_STAT.STATE 1 15).quiet.get F.TDC_ST_STAT.STATE (15 : Fin 16) = 1) := by decide

/-- Recorder 3 in a state, with a ring of one granule. -/
def recDev (state : Nat) (x : TraceRec) : Dev :=
  (((((on.put F.TDC_TR_STAT.STATE state 3).put F.TDC_TR_BUF.SIZE 1 3).put F.TDC_TR_CFG.TRIG 4 3).put F.TDC_TR_CFG.INDEX 287 3).put
    F.TDC_TR_PRE.COUNT 2 3).setTr 3 x

theorem witness_TraceRecorders :
    (let d := (recDev 1 { TraceRec.reset with fifo := [(false, List.replicate 16 1)] }).quiet
     (st d).reaches (.pcie 0) (R.TDC_TR_CMD.off (3 : Fin 4)) ∧
       d.get F.TDC_TR_BUF.SIZE (3 : Fin 4) ≠ 0 ∧ d.get F.TDC_TR_STAT.STATE (3 : Fin 4) = 1 ∧
       d.get F.TDC_TR_CFG.TRIG (3 : Fin 4) = ((3 : Fin 4) : Nat) + 1 ∧ d.get F.TDC_TR_CFG.INDEX (3 : Fin 4) = (287 : Fin 288).val ∧
       (d.tr 3).fifo = (false, List.replicate 16 1) :: [] ∧
       0 < d.get F.TDC_TR_PRE.COUNT (3 : Fin 4) + d.get F.TDC_TR_POST.COUNT (3 : Fin 4)) ∧
    (st (recDev 1 TraceRec.reset)).reaches .spi (R.TDC_TR_CMD.off (3 : Fin 4)) ∧
    (let d := (recDev 2 { TraceRec.reset with post := 1 }).quiet
     d.get F.TDC_TR_STAT.STATE (3 : Fin 4) = 2 ∧ d.get F.TDC_TR_POST.COUNT (3 : Fin 4) ≤ (d.tr 3).post) ∧
    (let d := (recDev 4 { TraceRec.reset with rearmEnd := some 5001 }).quiet
     d.get F.TDC_TR_STAT.STATE (3 : Fin 4) = 4 ∧ 5001 ≤ d.tick + 1 ∧ d.flag F.TDC_TR_CFG.AUTO (3 : Fin 4) = false ∧
       (d.put F.TDC_TR_CFG.AUTO 1 3).flag F.TDC_TR_CFG.AUTO (3 : Fin 4) = true ∧ (d.tr 3).queue = none) := by decide

/-! ## Rewind, loops, synthesizers, outputs, Slalom -/

/-- Loop 31's rewind in a state. -/
def rwdDev (state : Nat) : Dev :=
  ((on.put F.SEL_RWD_CFG.ENABLE 1 31).put F.SEL_RWD_STAT.RSTATE state 31).put F.SEL_RWD_FROM_LO.FROM 4999 31

/-- A splice that is due: slot and word in force are 7. -/
def spliceDev : Dev :=
  let d := (rwdDev 3).put F.LOOP_STATE.STATE 5 31
  let d := (d.vatStore (d.loopBlock 31 + 16) (leBytes 8 7)).setLoop 31 { Loop.reset with applied := 7 }
  d.setSelx 31 { Sel.reset with splicing := true }

theorem witness_RewindCommandsAndEnds :
    (let d := (rwdDev 0).quiet
     (st (rwdDev 0)).reaches .spi (R.SEL_RWD_CMD.off (31 : Fin 32)) ∧ d.flag F.SEL_RWD_CFG.ENABLE (31 : Fin 32) = true ∧
       d.getS F.SEL_RWD_CFG.ENABLE (31 : Fin 32) ≠ 0 ∧
       d.get64 F.SEL_RWD_FROM_LO.FROM F.SEL_RWD_FROM_HI.FROM (31 : Fin 32) < d.tick) ∧
    (rwdDev 2).quiet.get F.SEL_RWD_STAT.RSTATE (31 : Fin 32) = 2 ∧
    (let d := ((rwdDev 1).setSelx 31 { Sel.reset with start := 5000, next := 5000 }).quiet
     d.get F.SEL_RWD_STAT.RSTATE (31 : Fin 32) = 1 ∧ (d.selx 31).start ≤ d.tick ∧ d.tick ≤ (d.selx 31).next) ∧
    (let d := spliceDev.quiet
     d.cycle = 0 ∧ (d.selx 31).splicing = true ∧ d.get F.LOOP_STATE.STATE (31 : Fin 32) = 5 ∧ d.vbad (d.loopBlock 31 + 16) 8 = false ∧
       satSigned 48 (toSigned 64 (d.vraw (d.loopBlock 31 + 16) 8)) = (d.loop 31).applied) := by decide

/-- Loop 31 in a state, at the end of a lock gate of 1 ms; output 0 runs at 10 MHz and is its feedback. -/
def gateDev (state : Nat) : Dev :=
  let d := ((on.put F.LOOP_GATE.GATE 1 31).put F.LOOP_CTRL.FB 40 31).put F.LOOP_STATE.STATE state 31
  let d := (((d.put F.SYN_PLAN.NINT 1000 0).put F.SYN_PLAN.RDIV 1 0).put F.SYN_PLAN.MULT 0 0).put F.SYN_PLAN.POST 2 0
  let d := { d.setOutc 0 { OutCh.reset with src := 0, d2 := 1000 } with xoHz := 10000000 }
  d.setLoop 31 { Loop.reset with gateFrom := some 4001, refFirst := some (0, 0), refLast := 2 ^ 32 * 900000, fbFirst := some (0, 0),
                                 fbLast := 2 ^ 32 * 900000, fbK := 9000, lastSample := some 4, selTick := some 5 }

theorem witness_LoopTimersAndGates :
    (let d := (gateDev 1).quiet
     (d.loop 31).gateFrom = some 4001 ∧ 4001 + d.get F.LOOP_GATE.GATE (31 : Fin 33) * 1000 ≤ d.tick + 1 ∧
       (d.lockGateTick 31).lockOffset 31 = some 0 ∧ d.get F.LOOP_STATE.STATE (31 : Fin 33) = 1) ∧
    (let d := ((gateDev 1).put F.LOOP_GATE.GAP 1 31).quiet
     (∀ t ∈ (d.loop 31).lastSample, t + d.get F.LOOP_GATE.GAP (31 : Fin 33) * 1000 < d.tick) ∧
     (∀ t ∈ (d.loop 31).selTick, t + d.get F.LOOP_GATE.GAP (31 : Fin 33) * 1000 < d.tick)) ∧
    (let d := ((gateDev 3).put F.LOOP_COAST.COAST 5 31).quiet
     d.get F.LOOP_STATE.STATE (31 : Fin 33) = 3 ∧ (d.loop 31).coastFrom + d.get F.LOOP_COAST.COAST (31 : Fin 33) * 1000 ≤ d.tick + 1)
    := by decide

/-- Loops 0 and 32 have a completed second each. -/
def histDev : Dev :=
  let h : HistAcc := { HistAcc.reset with sum := 3, n := 2, state := 1 }
  (on.setLoop 0 { Loop.reset with histPrev := some (7199, h) }).setLoop 32 { Loop.reset with histPrev := some (7200, h) }

theorem witness_HistoryRecordsAreWritten :
    histDev.quiet.vat.ce = [] ∧ histDev.quiet.vat.ue = [] ∧ (histDev.quiet.loop 0).histPrev ≠ none ∧
    (histDev.quiet.loop 32).histPrev ≠ none := by decide

/-- Synthesizer 15 hops (1) or searches (2), since tick `t`. -/
def hopDev (search t : Nat) : Dev := (on.put F.SYN_STAT.SEARCH search 15).setSyn 15 { Syn.reset with hopFrom := t }

theorem witness_HopCommandsAndLock :
    (st on).reaches .spi (R.SYN_CMD.off (15 : Fin 16)) ∧
    ((hopDev 1 4992).quiet.get F.SYN_STAT.SEARCH (15 : Fin 16) = 1 ∧ ((hopDev 1 4992).quiet.syn 15).hopFrom + 8 ≤ (hopDev 1 4992).tick) ∧
    ((hopDev 2 4800).quiet.get F.SYN_STAT.SEARCH (15 : Fin 16) = 2 ∧ ((hopDev 2 4800).quiet.syn 15).hopFrom + 200 ≤ (hopDev 2 4800).tick) ∧
    (hopDev 2 4993).quiet.tick < ((hopDev 2 4993).quiet.syn 15).hopFrom + 8 ∧ on.quiet.get F.SYN_STAT.SEARCH (15 : Fin 16) = 0 := by
  decide

/-- Output 71 has a format; its source is locked if `lock`. -/
def outDev (run lock : Bool) : Dev :=
  (((on.put F.OUT_CFG.FORMAT 1 71).putB F.OUT_CFG.RUN run 71).putB F.SYN_STAT.LOCK lock 0).put F.OUT_CFG.SRC 0 71

theorem witness_OutputLowPhaseResults :
    (let d := (outDev true true).quiet
     d.gateWant 71 = true ∧ d.flag F.OUT_STAT.OPEN (71 : Fin 72) = false ∧ d.boot.outsHeld = false ∧
       d.get F.OUT_CFG.FORMAT (71 : Fin 72) ≠ 0 ∧ d.flag F.OUT_STAT.SAFE (71 : Fin 72) = false ∧ (d.outc 71).src < 16 ∧
       d.flag F.OUT_DPH_CFG.ENABLE (71 : Fin 72) = false) ∧
    (let d := ((outDev false true).put F.OUT_STAT.OPEN 1 71).quiet
     d.gateWant 71 = false ∧ d.flag F.OUT_STAT.OPEN (71 : Fin 72) = true ∧ d.flag F.OUT_CFG.RUN (71 : Fin 72) = false) ∧
    (let d := ((outDev true true).put F.OUT_DIV_LO.D2 9 71).quiet
     (d.outc 71).d2 ≠ d.outD2 71 ∧ d.flag F.OUT_STAT.SAFE (71 : Fin 72) = false) ∧
    (let d := ((outDev true true).setOutc 71 { OutCh.reset with slipTo := some 3, src := 5, safeSrc := 4 }).quiet
     (d.outc 71).src ≠ d.srcWant 71 ∧ (d.outc 71).slipTo = some 3) ∧
    ((outDev true true).outc 71).slipTo = none ∧ 8 ≤ Tbl.getD ({ on with bankBad := [(8, 8)] } : Dev).quiet.bankBad (8 : Fin 9) 0 ∧
    ((outDev true false).flag F.SYN_STAT.LOCK ((outDev true false).outc 71).src = false) ∧
    (on.get F.OUT_CFG.FORMAT (71 : Fin 72) = 0) ∧ (Dev.reset.boot.outsHeld = true) ∧
    (let d := ((outDev true true).put F.OUT_STAT.SAFE 1 71).put F.OUT_STAT.SSTATE 0 71
     d.flag F.OUT_STAT.SAFE (71 : Fin 72) = true ∧ d.get F.OUT_STAT.SSTATE (71 : Fin 72) = 0) ∧
    (let d := (((outDev true true).put F.OUT_STAT.SAFE 1 71).put F.OUT_STAT.SSTATE 2 71).setOutc 71 { OutCh.reset with safeRun := true }
     d.boot.outsHeld = false ∧ d.get F.OUT_CFG.FORMAT (71 : Fin 72) ≠ 0 ∧ d.flag F.OUT_STAT.SAFE (71 : Fin 72) = true ∧
       d.get F.OUT_STAT.SSTATE (71 : Fin 72) = 2 ∧ (d.outc 71).safeRun = true) ∧
    (let d : Dev := { outDev true true with boot := { on.boot with runs := some 0 } }
     d.flag F.OUT_STAT.SAFE (71 : Fin 72) = false ∧ bit 0 71 = false ∧ d.flag F.OUT_CFG.RUN (71 : Fin 72) = true) ∧
    (outDev true true).boot.runs = none ∧ ((outDev true true).outc 71).xo = false := by decide

/-- Output 71 aligns: it measures (2) or trims (4). -/
def dphDev (state : Nat) (x : OutCh) : Dev := ((outDev true true).put F.OUT_DPH_STAT.STATE state 71).setOutc 71 x

theorem witness_DeterministicPhaseSteps :
    (let d := (dphDev 2 { OutCh.reset with pairs := 64 }).quiet
     d.get F.OUT_DPH_STAT.STATE (71 : Fin 72) = 2 ∧ d.get F.OUT_DPH_CFG.AVG (71 : Fin 72) ≤ (d.outc 71).pairs ∧
       (d.put F.OUT_DPH_STAT.RESID 0 71).dphFar 71 = false ∧ (d.outc 71).trimmed = false) ∧
    (let d := (dphDev 2 { OutCh.reset with pairs := 64, trimmed := true }).quiet
     (d.put F.OUT_DPH_STAT.RESID 0 71).dphFar 71 = false ∧ (d.put F.OUT_DPH_STAT.RESID 0 71).dphNear 71 = true) ∧
    (let d := ((dphDev 2 { OutCh.reset with pairs := 64, pairSum := 2 ^ 130 }).put F.SYN_PLAN.NINT 50 0).quiet
     (d.put F.OUT_DPH_STAT.RESID (ofSigned 16 (satSigned 16 (d.dphHalfPs 71))) 71).dphFar 71 = true ∧
       d.flag F.OUT_STAT.OPEN (71 : Fin 72) = false ∧ (d.put F.OUT_STAT.OPEN 1 71).flag F.OUT_STAT.OPEN (71 : Fin 72) = true ∧
       d.flag F.OUT_DPH_CFG.SLIP_RUN (71 : Fin 72) = false) ∧
    (let d := (dphDev 4 { OutCh.reset with trimTo := some 2, trimTick := 4999 }).quiet
     d.get F.OUT_DPH_STAT.STATE (71 : Fin 72) = 4 ∧ d.gets F.OUT_FINE.FINE (71 : Fin 72) + 1 < 2 ∧
       (d.outc 71).trimTick + (if d.flag F.OUT_STAT.OPEN (71 : Fin 72) then d.get F.OUT_DPH_RATE.TRIM_RATE (71 : Fin 72) else 1) ≤ d.tick)
    := by decide

/-- Table 0 lies in the Vat; Slalom generator 31 plays it and is in a state. -/
def slalDev (state seg : Nat) (t : List Byte) : Dev :=
  let d := (((on.dirSet 0 0x100000 t.length).vatStore 0x100000 t).put F.SLAL_STAT.RSTATE state 31).put F.SLAL_STAT.SEG seg 31
  d.setSlal 31 { Slal.reset with dwell := some 5001 }

def profile2 : List Byte := leBytes 2 4 ++ leBytes 1 2 ++ leBytes 5 0 ++ List.replicate 48 0

theorem witness_SlalomCommands :
    (let d := (slalDev 0 0 profile2).quiet
     (st (slalDev 0 0 profile2)).reaches .spi (R.SLAL_CMD.off (31 : Fin 32)) ∧ d.get F.LOOP_STATE.STATE (31 : Fin 32) = 0 ∧
       d.table (d.getA F.SLAL_CFG.PROFILE (31 : Fin 32)) = some profile2 ∧ tableKind profile2 = 4 ∧
       d.get F.SLAL_STAT.RSTATE (31 : Fin 32) ≠ 1) ∧
    (let d := (slalDev 1 0 profile2).quiet
     d.get F.SLAL_STAT.RSTATE (31 : Fin 32) = 1 ∧ (d.slal 31).dwell = some 5001 ∧ 5001 ≤ d.tick + 1 ∧
       d.table (d.get F.SLAL_CFG.PROFILE (31 : Fin 32)) = some profile2) := by decide

/-! ## Boundaries, contexts, event ports -/

def tin : TickIn := ⟨Vector.replicate 4 0x3000, Vector.replicate 9 3300, Vector.replicate 6 1000, 0, 0xFF, [], []⟩

theorem witness_TickBoundaryOrder :
    ((Dev.reset.quiet.atCycle 0).outsCut).boot.low = true ∧
    (let d := (({ on with tickOn := false } : Dev).quiet.atCycle 0).outsCut
     d.boot.low = false ∧ d.tickOn = false ∧ (d.sample tin).boot.low = false ∧
       (({ d with boot := { d.boot with pinLast := 0, pinSeen := 1 } } : Dev).sample { tin with pins := 0 }).boot.low = true) ∧
    (let d := ({ on with boot := { on.boot with halted := true, stopLeft := 1 } } : Dev).quiet.atCycle 0
     d.outsCut.boot.low = false ∧ d.outsCut.tickOn = true ∧ d.outsCut.boot.halted = true) ∧
    (let d := (on.quiet.atCycle 0).outsCut
     d.boot.low = false ∧ d.tickOn = true ∧ d.boot.halted = false) := by decide

/-- Two samples of a low RESET_N assert the reset; one does not. -/
theorem test_two_samples_recognise_a_pin :
    let d := ({ on with boot := { on.boot with pinLast := 0xFF, pinSeen := 0xFF } } : Dev).pinsSample 0xFE
    d.boot.low = false ∧ (d.pinsSample 0xFE).boot.low = true ∧ (d.pinsSample 0xFF).boot.low = false := by decide

/-- Context 0 runs; LT is in its second tick. -/
def ctxDev : Dev :=
  { on.put F.CTX_STAT.ENABLE 1 0 with time := { Time.reset with lt := 1000 * 2 ^ 48, prev := 0 }, ctxs := [(0, ⟨5, 4, 1000 * 2 ^ 32, 1000 * 2 ^ 32, true, false, none, none, false, false⟩)] }

theorem witness_ContextCommands :
    (st ctxDev).reaches (.pcie 0) R.TIME_LT_STEP_HI.off ∧ ctxDev.quiet.get F.TLOOP_CFG.SRC = 0 ∧
    ctxDev.quiet.getA F.TLOOP_CFG.SRC = 0 ∧ ctxDev.quiet.getS F.TLOOP_CFG.SRC = 0 ∧
    (st ctxDev).reaches (.pcie 0) R.CTX_CMD.off ∧ (st ctxDev).reaches (.pcie 0) R.CTX_CONV_IN_NS_HI.off ∧
    (st ctxDev).reaches (.pcie 0) R.CTX_LEAP_HI.off ∧ ctxDev.get F.CTX_SEL.INDEX (Path.pcie 0).code = 0 ∧
    ctxDev.flag F.CTX_STAT.ENABLE 0 = true ∧ ctxDev.time.lt ≤ 1999 * 2 ^ 48 ∧ 1999 * 2 ^ 48 < ctxDev.time.lt + ctxDev.time.dlt ∧
    ctxDev.time.prev ≤ ctxDev.time.lt ∧ ctxDev.time.lt + ctxDev.time.dlt ≤ 2000 * 2 ^ 48 ∧
    atOrAfter (ctxDev.quiet.ctxNow 0) (wrap96 (secs 1)) = false := by decide

/-- Context 4095 with a pending command, in the last tick of a slew, with a leap to the second that begins. -/
def ctxEv (k : Option CtxCmd) : Dev :=
  let d := (on.put F.CTX_STAT.ENABLE 1 4095).setCtx 4095 { Ctx.reset with c := 10 ^ 9 * 2 ^ 32 - 1000 * 2 ^ 32, cmd := k }
  ((d.put F.CTX_SLEW_LEFT.TICKS 1 4095).put F.CTX_STAT.LEAP 1 4095).put F.CTX_LEAP_LO.LEAP 1 4095

theorem witness_ContextStepperAndEvents :
    (∀ k ∈ [none, some (.set 3), some (.step (-1)), some CtxCmd.disable],
      ((ctxEv k).ctx 4095).cmd = k ∧ (ctxEv k).vbad ((ctxEv k).ctxAddr 4095) 64 = false) ∧
    (let d := (ctxEv none).quiet
     d.flag F.CTX_STAT.ENABLE 4095 = true ∧ d.get F.CTX_SLEW_LEFT.TICKS (4095 : Fin 4096) = 1 ∧
       d.get F.CTX_STAT.LEAP (4095 : Fin 4096) = 1 ∧
       atOrAfter (d.ctxNow 4095) (wrap96 (secs (d.leapAt 4095) - (d.get F.CTX_UTC.ANNOUNCE 4095 : Int) * secs 60)) = true ∧
       (let e := d.setCtx 4095 { d.ctx 4095 with c := 10 ^ 9 * 2 ^ 32 }
        e.get F.CTX_STAT.LEAP (4095 : Fin 4096) = 1 ∧ atOrAfter (e.ctx 4095).c (wrap96 (secs (e.leapAt 4095))) = true ∧
          (e.ctx 4095).fresh = false) ∧
       (d.put F.CTX_STAT.LEAP 0 4095).get F.CTX_STAT.LEAP (4095 : Fin 4096) ≠ 1) ∧
    (let d := ({ on with pi := { on.pi with isOpen := true } } : Dev).quiet
     d.pi.isOpen = true ∧ d.cycle = 0 ∧ (d.atCycle 9).cycle ≠ 0 ∧ on.pi.isOpen = false) := by decide

/-- Event port 15 emits a train from context 0 with its next edge at ns `t`. -/
def evtDev (state t : Nat) : Dev :=
  let d := ((ctxDev.put F.EVT_STAT.STATE state 15).put F.EVT_WIDTH.WIDTH 3 15).put F.EVT_START_NS_LO.START t 15
  d.setEvt 15 { Evt.reset with func := 1, want := 1 }

theorem witness_EventPortCommands_commands :
    (let d := (evtDev 0 0).quiet
     (st (evtDev 0 0)).reaches (.pcie 0) (R.EVT_CMD.off (15 : Fin 16)) ∧
       d.flag F.CTX_STAT.ENABLE (d.getA F.EVT_CFG.CTX (15 : Fin 16)) = true ∧ d.evtRateOk 15 = true ∧
       (d.put F.EVT_WIDTH.WIDTH 2 15).evtRateOk 15 = false ∧
       (d.put F.CTX_STAT.ENABLE 0 0).flag F.CTX_STAT.ENABLE (d.getA F.EVT_CFG.CTX (15 : Fin 16)) = false) := by decide

/-- An edge in the tick, one of the arm's first 32 cycles, one after the tick, and one before it, in a train and alone. -/
theorem witness_EventPortCommands_edges :
    (let d := (evtDev 1 500).quiet
     (d.evt 15).func = 1 ∧ (d.evt 15).active = none ∧ d.get F.EVT_STAT.STATE (15 : Fin 16) = 1 ∧
       d.edgeIn 0 (d.edgeTime 15 0) = .eq ∧ d.edgeEarly 15 0 (d.edgeTime 15 0) = false) ∧
    (let d := ((evtDev 1 25).setEvt 15 { Evt.reset with func := 1, want := 1, armAt := 5000 }).quiet
     d.edgeIn 0 (d.edgeTime 15 0) = .eq ∧ d.edgeEarly 15 0 (d.edgeTime 15 0) = true) ∧
    (let d := ((evtDev 1 26).setEvt 15 { Evt.reset with func := 1, want := 1, armAt := 5000 }).quiet
     d.edgeIn 0 (d.edgeTime 15 0) = .eq ∧ d.edgeEarly 15 0 (d.edgeTime 15 0) = false) ∧
    (let d := (evtDev 2 5000).quiet
     d.get F.EVT_STAT.STATE (15 : Fin 16) = 2 ∧ d.edgeIn 0 (d.edgeTime 15 0) = .gt) ∧
    (let d := (evtDev 1 0).quiet
     d.edgeIn 0 (d.edgeTime 15 0) = .lt ∧ d.flag F.EVT_CFG.PERIODIC (15 : Fin 16) = false ∧
       (d.put F.EVT_CFG.PERIODIC 1 15).flag F.EVT_CFG.PERIODIC (15 : Fin 16) = true) ∧
    (evtDev 3 0).get F.EVT_STAT.STATE (15 : Fin 16) = 3 ∧ on.get F.EVT_STAT.STATE (15 : Fin 16) = 0 := by decide

/-- R236: a train of 100 ns whose edges 0 to 2 are past goes on with edge 3; a single pulse ends in MISSED. -/
theorem test_late_edges_are_skipped :
    let d0 := ((((evtDev 1 0).put F.EVT_CFG.PERIODIC 1 15).put F.EVT_PERIOD_LO.PERIOD 100 15).setCtx 0
      { ctxDev.ctx 0 with c := 250 * 2 ^ 32 })
    let d := after (.pulseEdge 15) d0
    (d.evt 15).k = 3 ∧ d.get F.EVT_STAT.SKIPPED 15 = 3 ∧ d.get F.EVT_STAT.STATE 15 = 1 ∧ d.faultStatus 164 = true ∧
    (let e := after (.pulseEdge 15) (evtDev 1 0)
     e.get F.EVT_STAT.SKIPPED 15 = 1 ∧ e.get F.EVT_STAT.STATE 15 = 5) := by decide

theorem witness_EventPortCommands_phase :
    (let d := ((evtDev 2 0).setEvt 15 { Evt.reset with func := 1, want := 1, active := some (500 * 2 ^ 32) }).quiet
     (d.evt 15).rearmed = false ∧ d.phaseIn 15 (500 * 2 ^ 32) = .eq ∧ d.phaseIn 15 (5000 * 2 ^ 32) = .gt) ∧
    (let d := ((evtDev 1 0).put F.EVT_STAT.PARK 1 15).quiet
     d.pinsLive = true ∧ (d.evt 15).active = none ∧ d.flag F.EVT_STAT.PARK (15 : Fin 16) = true ∧ (d.evt 15).parkEnd ≤ d.tick ∧
       inputFunc (d.evt 15).want = false ∧ inputFunc 4 = true ∧ 0 < { d.evt 15 with want := 4, clean := 1 }.clean) ∧
    (evtDev 1 0).flag F.EVT_STAT.PARK (15 : Fin 16) = false := by decide

/-! ## Frames and DMA rings -/

/-- A frame of an EtherType with its steering header: class, STAMP_VALID. -/
def frm (cls et : Nat) (valid : Bool) (body : List Byte) : List Byte :=
  List.replicate 12 0 ++ [0x10, 0, BitVec.ofNat 8 (64 * cls + 32 * b2n valid), 0] ++ List.replicate 12 1 ++ beBytes 2 et ++ body

/-- A PTP header over L2: a one-step Sync, then zeros. -/
def ptpBody : List Byte := [0, 2] ++ List.replicate 44 0

/-- Parser rows: L2 PTP in transit, ANY 0x1234 dropped, ANY in Class D to queue 9. -/
def rows : List Byte :=
  leBytes 2 5 ++ leBytes 1 3 ++ leBytes 5 0 ++
  (leBytes 1 0 ++ leBytes 1 2 ++ leBytes 2 0 ++ leBytes 2 0 ++ leBytes 2 0xF ++ [0, 255, 0, 1] ++ leBytes 4 0) ++
  (leBytes 1 5 ++ leBytes 1 2 ++ leBytes 2 0x1234 ++ leBytes 4 0 ++ [0, 255, 3, 4] ++ leBytes 4 0) ++
  (leBytes 1 5 ++ leBytes 1 2 ++ leBytes 2 0x1235 ++ leBytes 4 0 ++ [0, 255, 3, 0] ++ leBytes 2 9 ++ leBytes 2 0)

/-- Port 7 is UP (1) or DRAINING (2), its policer full, the parser's rows in force, the FRAME pool at its least size. -/
def portDev (state : Nat) : Dev :=
  let d := (on.put F.FRM_PORT_STAT.STATE state 7).dirSet 0x40 0x100000 rows.length
  ((d.vatStore 0x100000 rows).put F.FRM_POLICE.A_BURST 4095 7).put F.VAT_POOL_CFG.COUNT 4 2

theorem witness_FrameReception :
    (let d := (portDev 1).quiet.atCycle 0
     let g := (d.frmCount 7 0).parseTouch
     d.flag F.FLT_STATE.STOPPED = false ∧ d.loopDepth 2 7 = none ∧ (d.put F.TST_LB_CFG.ENABLE 1 (128 * 2 + 7)).loopDepth 2 7 ≠ none ∧
       d.get F.FRM_PORT_STAT.STATE (7 : Fin 8) = 1 ∧
       (frm 0 0x88F7 true ptpBody).length = 76 ∧ formatOk (frm 0 0x88F7 true ptpBody) = true ∧
       formatOk (frm 1 0x88F7 true ptpBody) = false ∧
       g.parse (frm 0 0x8808 true (beBytes 2 1 ++ ptpBody)) = none ∧ g.parse (frm 0 0x1234 true ptpBody) = some ⟨1, 3, 4, 0, 0⟩ ∧
       g.parse (frm 2 0x1235 true ptpBody) = some ⟨2, 3, 0, 9, 0⟩ ∧ g.parse (frm 0 0x88F7 true ptpBody) = some ⟨0, 0, 1, 0, 30⟩ ∧
       (76 + 24) * 10000 ≤ g.tokens 7 ∧ (g.put F.FRM_POLICE.A_BURST 99 7).tokens 7 < (76 + 24) * 10000) ∧
    (portDev 2).quiet.get F.FRM_PORT_STAT.STATE (7 : Fin 8) = 2 ∧ (portDev 0).quiet.get F.FRM_PORT_STAT.STATE (7 : Fin 8) = 0 := by
  decide +kernel

theorem witness_FrameReception_cells :
    ((((portDev 1).quiet.atCycle 0).frmCount 7 0).parseTouch.cellsTake 76 false 65535).isSome = true ∧
    (({ (portDev 1) with frm := { Frm.reset with allocs := [⟨0, 2 ^ 20, false⟩] } } : Dev).cellsTake 76 false 0) = none := by
  decide +kernel

/-- A frame of 80 bytes waits on port 7 of a device whose context 0 runs. -/
def sendDev (x : FrmTx) (f : List Byte) : Dev :=
  { (ctxDev.put F.FRM_PORT_STAT.STATE 1 7).vatStore 0x100000 f with frm := { Frm.reset with txs := [x] } }

def txA : FrmTx := ⟨7, 0, 0x100000, 76, true, false, 30, 1, none, []⟩
def txC : FrmTx := ⟨7, 2, 0x100000, 76, false, false, 0, 0, none, []⟩

theorem witness_FrameTransmissionAndPortEvents :
    (let d := (sendDev txA (frm 0 0x88F7 true ptpBody)).quiet.atCycle 0
     let e := d.egressPull
     d.get F.FRM_PORT_STAT.STATE (7 : Fin 8) ≠ 0 ∧ d.flag F.FLT_STATE.STOPPED = false ∧ e.nextFrame 7 = some txA ∧ txA.ring = none ∧
       e.vbad txA.addr txA.len = false ∧
       (let e := e.vatTouch txA.addr txA.len 4
        let f := e.vbytes txA.addr txA.len
        d.boot.halted = false ∧ e.loopDepth 2 txA.port = none ∧
          hdrStampValid f = true ∧ e.frameTime f e.t96 = some 5 ∧ 0 ≤ e.residence f 5 ∧
          e.residence f 5 ≤ 1000000 * 2 ^ 32 ∧ ptpTwoStep f 30 = false ∧ ptpAt f 1 ≠ some 30 ∧ ptpAt f 2 ≠ some 30)) ∧
    ((sendDev txC (frm 2 0x1235 true ptpBody)).quiet.atCycle 0).egressPull.nextFrame 7 = some txC ∧
    ((portDev 1).quiet.atCycle 0).egressPull.nextFrame 7 = none ∧
    (let d := ((sendDev txC (frm 2 0x1235 true ptpBody)).put F.TST_LB_CFG.ENABLE 1 (128 * 2 + 7)).quiet.atCycle 0
     d.boot.halted = false ∧ (d.egressPull.vatTouch txC.addr txC.len 4).loopDepth 2 txC.port = some 0 ∧ txC.cls ≠ 0 ∧ txC.insert = false) ∧
    ({ on with boot := { on.boot with halted := true } } : Dev).boot.halted = true ∧
    ({ sendDev txC [] with vat := { (sendDev txC []).vat with ue := [0x20000] } } : Dev).vbad txC.addr txC.len = true ∧
    (let d := (portDev 2).quiet
     d.get F.FRM_PORT_STAT.DRAIN_LEFT (7 : Fin 8) ≤ 1 ∧ d.egressPull.frm.txs = []) := by decide +kernel

/-- Ring 255 is enabled in a direction, its TAIL before it. -/
def ringDev (dir : Nat) : Dev :=
  ((((portDev 1).put F.FRM_RING_CFG.ENABLE 1 255).put F.FRM_RING_CFG.DIR dir 255).put F.FRM_RING_TAIL.INDEX 3 255).put
    F.FRM_RING_CFG.LOG2 8 255

/-- A descriptor with OWN set: buffer, length, port. -/
def dmaDesc (len port : Nat) : List Byte := leBytes 8 0x1000 ++ leBytes 2 len ++ leBytes 1 port ++ [1] ++ List.replicate 20 0

/-- Queue 0 holds a frame for ring 255. -/
def rxDev : Dev :=
  let d := (ringDev 1).vatStore ((ringDev 1).qaddr 0) (qBytes 0x200000 32 2 1 0x1030 0x11FF 0 1)
  (d.vatStore 0x200000 (frameEntry 0x300000 76 7 0 0 0 0)).vatStore 0x300000 (frm 0 0x88F7 true ptpBody)

theorem witness_DmaRings :
    (let d := (ringDev 0).quiet
     d.flag F.FRM_RING_CFG.ENABLE (255 : Fin 256) = true ∧ d.get F.FRM_RING_CFG.DIR (255 : Fin 256) = 0 ∧
       d.get F.FRM_RING_HEAD.INDEX (255 : Fin 256) ≠ d.get F.FRM_RING_TAIL.INDEX (255 : Fin 256) ∧ d.frm.txs = [] ∧
       (∀ n ∈ [75, 76, 2048, 2049], bit (leAt (sliceB (dmaDesc n 7) 0 32) 11 1) 0 = true ∧
         leAt (sliceB (dmaDesc n 7) 0 32) 8 2 = n ∧ leAt (sliceB (dmaDesc n 7) 0 32) 10 1 = 7) ∧
       d.get F.FRM_PORT_STAT.STATE 7 = 1 ∧ d.get F.FRM_PORT_STAT.STATE 6 ≠ 1 ∧
       d.get F.SYS_PROFILE.ACTIVE ≠ 3 ∧ Tbl.find? d.frm.reads 255 = none ∧
       (d.cellsTake 76 false 9).isSome = true ∧
       Tbl.find? ((d.setRead 255 (some (dmaDesc 76 7))).frm.reads) 255 = some (dmaDesc 76 7) ∧
       (st (ringDev 0)).reaches .spi (R.FRM_RING_CFG.off (255 : Fin 256)) ∧ Tbl.find? d.frm.lastDone 255 = none ∧
       Tbl.find? ({ d.frm with lastDone := [(255, (d.atCycle 9).absCycle, 0x1000, List.replicate 32 0)] } : Machine.Frm).lastDone 255 =
         some ((d.atCycle 9).absCycle, 0x1000, List.replicate 32 0)) ∧
    (let e := rxDev.quiet.atCycle 0
     let y := e.qdesc 0
     let entry := e.vbytes (y.entryAddr y.head) 32
     e.get F.FRM_RING_CFG.QUEUE (255 : Fin 256) = 0 ∧ y.cons = 0x1100 + 255 ∧ e.vbad (leAt entry 0 4) (leAt entry 4 2) = false ∧
       (e.qPop 0).2.isSome = true ∧ ((ringDev 1).quiet.qPop 0).2 = none) ∧
    (({ (ringDev 0) with frm := { Frm.reset with txs := [{ txC with ring := some 255 }] } } : Dev).atCycle 0).frm.txs.find?
      (fun x => x.ring == some 255) = some { txC with ring := some 255 } := by decide +kernel

/-! ## Joined devices -/

/-- Link 7 in a state, with what the model holds of it. -/
def linkDev (state : Nat) (x : KlLink) : Dev :=
  ((on.put F.KL_LINK_CFG.ENABLE 1 7).put F.KL_LINK_STAT.STATE state 7).setKlink 7 x

/-- A body whose CRC is good: TICK of its echo 0, HOPS 2, epoch 9, lead 3, PRIO 5, LT 1 ms, TWORD 7. -/
def body1 : List Byte :=
  let b := List.replicate 20 0 ++ [2, 3, 9, 5] ++ leBytes 12 (10 ^ 6 * 2 ^ 32) ++ leBytes 6 7 ++ List.replicate 394 0
  b ++ leBytes 4 (crc32 b)

/-- SYNC of device 4 in tick `t`. -/
def sync1 (t : Nat) : List Byte := [0x78, 4] ++ leBytes 4 t ++ [0, 0]

/-- The blocks of a frame, and of a burst of 64 bytes, from the scrambler's state of 0. -/
def frame1 : List Block := (sendBlocks 0 (frameBlocks (sync1 5000 ++ body1))).1
def burst1 : List Block := (sendBlocks 0 (burstBlocks 9 (List.replicate 64 1))).1

/-- A body whose CRC is bad, and a frame without its END. -/
def frame2 : List Block := (sendBlocks 0 (frameBlocks (sync1 5000 ++ List.replicate 440 1))).1
def frame3 : List Block := (sendBlocks 0 ((frameBlocks (sync1 5000 ++ body1)).take 56 ++ [controlBlock blockIdle []])).1

theorem witness_TickFramesAndBursts :
    (let d := (linkDev 2 { KlLink.reset with lock := true }).quiet
     d.flag F.FLT_STATE.STOPPED = false ∧ d.boot.low = false ∧ d.boot.halted = false ∧
       (∀ j, j < 8 → (d.atCycle 64).exportTouch.loopDepth 3 j = none) ∧ Dev.reset.boot.low = true ∧
       d.get F.KL_LINK_STAT.STATE (7 : Fin 8) ≠ 0 ∧ d.flag F.KL_LINK_CFG.ENABLE (7 : Fin 8) = true ∧
       d.flag F.KL_LINK_CFG.ENABLE (6 : Fin 8) = false ∧ (linkDev 0 KlLink.reset).get F.KL_LINK_STAT.STATE 7 = 0 ∧
       d.loopDepth 3 7 = none ∧ (d.put F.TST_LB_CFG.ENABLE 1 (128 * 3 + 7)).loopDepth 3 7 ≠ none ∧ d.klLooped 7 = false ∧
       (d.klink 7).lock = true) ∧
    (linkDev 3 { KlLink.reset with mism := 3 }).quiet.get F.KL_LINK_STAT.STATE (7 : Fin 8) = 3 := by decide +kernel

theorem witness_TickFramesAndBursts_blocks :
    let d := (linkDev 2 { KlLink.reset with lock := true }).quiet
    let r := Dev.blocksTake 7 d
    frameOf (r burst1).2 = none ∧ (frameOf (r frame1).2 = some (sync1 5000, body1, true)) ∧
    leAt body1 436 4 = crc32 (body1.take 436) ∧ ((r frame1).1.klink 7).lock = true ∧
    (r frame1).1.get F.KL_LINK_STAT.STATE (7 : Fin 8) ≠ 0 ∧ (r frame1).1.get F.KL_LINK_STAT.STATE (7 : Fin 8) = 2 ∧
    frameEnd (r frame1).2 = 57 ∧ ((r (frame1.take (frameEnd (r frame1).2))).1.get F.KL_LINK_STAT.STATE (7 : Fin 8) ≠ 0) ∧
    ((frameOf (r frame2).2).map (·.2.2)) = some true ∧
    leAt (List.replicate 440 1) 436 4 ≠ crc32 ((List.replicate 440 (1 : Byte)).take 436) ∧
    ((frameOf (r frame3).2).map (·.2.2)) = some false := by decide +kernel

theorem witness_TickFramesAndBursts_bursts :
    let r := Dev.blocksTake 7 (linkDev 2 { KlLink.reset with lock := true }).quiet
    burstOf (r burst1).2 = some (9, List.replicate 64 1, true) ∧ ((r burst1).1.klink 7).lock = true ∧
    ((burstOf (r (burst1.take 8 ++ burst1.drop 9)).2).map (·.2.2)) = some false := by decide +kernel

theorem witness_LinkStatesAndCalibration :
    (let d := (linkDev 2 { KlLink.reset with lock := true, good := 16, missed := 3 }).quiet
     d.loopDepth 3 7 = none ∧
     d.get F.KL_LINK_STAT.STATE (7 : Fin 8) = 2 ∧ (d.klink 7).lock = true ∧ 16 ≤ (d.klink 7).good ∧ 3 ≤ (d.klink 7).missed ∧
       d.get F.KL_LINK_STAT.CAL (7 : Fin 8) = 0 ∧ d.flag F.KL_LINK_CFG.ENABLE (7 : Fin 8) = true) ∧
    (min 64 ({ KlLink.reset with run := 63 }.run + 1) = 64 ∧ min 64 (KlLink.reset.run + 1) < 64 ∧
      (List.range 64).countP (fun i => ((0x7FFF : BitVec 64) <<< 1 ||| 1).getLsbD i) = 16 ∧
      (List.range 64).countP (fun i => ((0x7FFF : BitVec 64) <<< 1).getLsbD i) < 16) ∧
    (st (linkDev 3 KlLink.reset)).reaches .spi (R.KL_LINK_CMD.off (7 : Fin 8)) ∧
    (16 ≤ ((5016 : BitVec 30).toNat + 2 ^ 30 - 5000 % 2 ^ 30) % 2 ^ 30 ∧
      ((5015 : BitVec 30).toNat + 2 ^ 30 - 5000 % 2 ^ 30) % 2 ^ 30 < 16) ∧
    (((linkDev 3 { KlLink.reset with calS := 3977 }).put F.KL_LINK_STAT.CAL 1 7).get F.KL_LINK_STAT.CAL (7 : Fin 8) = 1 ∧
      3977 + 1024 ≤ on.tick + 1) ∧
    (((linkDev 3 { KlLink.reset with calS := 2953 }).put F.KL_LINK_STAT.CAL 2 7).get F.KL_LINK_STAT.CAL (7 : Fin 8) = 2 ∧
      2953 + 2048 ≤ on.tick + 1) := by decide

/-- A device of a group in a role; link 7 is UP, and came up with its frame of the tick before. -/
def groupDev (role : Nat) : Dev :=
  let d := linkDev 3 { KlLink.reset with sync := sync1 4999, body := body1, rxTick := some 4999, newUp := true }
  (d.put F.KL_CFG.GROUP 1).put F.KL_GROUP_STAT.ROLE role

/-- A device that waits to join, alone, for as long as JOIN_WAIT says. -/
def aloneDev : Dev :=
  let d := (on.put F.KL_CFG.GROUP 1).put F.KL_CFG.JOIN_WAIT 1
  { d with tickOn := false, kl := { Kl.reset with wait := 1000, heard := [(15, 7)] } }

theorem witness_GroupLifecycle :
    (let d := aloneDev.quiet
     d.flag F.KL_CFG.GROUP = true ∧ d.get F.KL_GROUP_STAT.ROLE = 0 ∧ d.get F.KL_CFG.JOIN_WAIT * 1000 ≤ d.kl.wait ∧
       ∀ h ∈ d.kl.heard, d.get F.KL_CFG.PRIO * 8 + d.get F.KL_CFG.DEV ≤ h.1 * 8 + h.2) ∧
    (groupDev 0).quiet.bestUp = some 7 ∧
    (let d := (((groupDev 2).put F.KL_GROUP_STAT.NEXT_VALID 1).put F.KL_GROUP_STAT.LEAD 3).quiet
     d.get F.KL_GROUP_STAT.ROLE = 2 ∧ d.get F.KL_GROUP_STAT.NEXT = d.get F.KL_CFG.DEV ∧
       (∀ k, k < 8 → d.linkUp k = true → klDev (d.klink k) ≠ d.get F.KL_GROUP_STAT.LEAD) ∧
       (∀ k ∈ d.framesOf (d.tick - 1), klDirect (d.klink k) = false) ∧ d.framesOf (d.tick - 1) = [7]) ∧
    (let d := (groupDev 2).quiet
     d.kl.lastLead + d.get F.KL_CFG.DEPTH + 3 < d.tick) ∧
    (let d := ((linkDev 0 KlLink.reset).put F.KL_GROUP_STAT.ROLE 2).quiet
     ∀ k, k < 8 → d.linkUp k = false) ∧
    (let d := (groupDev 3).quiet
     d.get F.KL_GROUP_STAT.ROLE = 3 ∧ d.linkUp 7 = true ∧ (d.klink 7).newUp = true ∧ (d.klink 7).rxTick = some (d.tick - 1) ∧
       klTick (d.klink 7) = (d.tick - 1) % 2 ^ 32 ∧
       klHops (d.klink 7) < 15 ∧ (d.gets F.KL_LINK_OFFSET.VALUE 7).natAbs ≤ 500 * 2 ^ 16) ∧
    (let d := (((groupDev 2).put F.KL_GROUP_STAT.UPSTREAM 7).put F.KL_LINK_OFFSET.VALUE 65537 7).quiet
     d.linkUp 7 = true ∧ (d.klink 7).rxTick = some (d.tick - 1) ∧ d.get F.KL_LINK_STAT.CAL 7 ≠ 2 ∧ d.kl.pll ≠ .pullIn ∧
       2 ^ 16 < (d.gets F.KL_LINK_OFFSET.VALUE 7).natAbs ∧ (d.put F.KL_LINK_STAT.CAL 2 7).get F.KL_LINK_STAT.CAL 7 = 2) := by
  decide +kernel

/-! ## The Ream -/

/-- SPI's REAM_ADDR is `addr`; a region 1 of method 0 holds every sector. -/
def reamDev (addr : Nat) (cmd : Option ReamCmd) : Dev :=
  let d := ((on.put F.REAM_ADDR.ADDR addr Path.spi.code).put F.REAM_VAT.OFFSET 0x3FFFF00 Path.spi.code)
  { d with ream := { Ream.reset with cmd := cmd } }

theorem witness_ReamCommands_start :
    (let d := (reamDev 0x40F8 none).quiet
     (st (reamDev 0x40F8 none)).reaches .spi R.REAM_CMD.off ∧ d.get F.REAM_ADDR.ADDR Path.spi.code = 0x40F8 ∧
       d.get F.REAM_VAT.OFFSET Path.spi.code = 0x3FFFF00 ∧ d.flag F.FLT_STATE.STOPPED = false ∧ d.ream.cmd = none ∧
       d.ream.save = none ∧ d.ream.arm = none ∧ d.logBusy = false ∧ 0x3FFFF00 + (256 : BitVec 17).toNat ≤ 2 ^ 26 ∧ d.ream.half = [] ∧
       d.regionOf (0x40F8 / 4096) = some 1 ∧ d.regionOfS (0x40F8 / 4096) = some 1 ∧ d.flag F.REAM_STAT.NVWP = false ∧
       (0x4000 : Nat) % 4096 = 0 ∧ (4 ∈ ({ d.ream with half := [4] } : Machine.Ream).half)) ∧
    (let d := ({ reamDev 0 none with ream := { Ream.reset with writing := some ⟨5001, 0x4000⟩ } } : Dev)
     d.logBusy = true) := by decide

/-- A PROGRAM of two groups that wrap inside their page, an ERASE, a READ. -/
theorem witness_ReamCommands_end :
    (let d := (reamDev 0 (some ⟨2, 0x40F8, 16, 0x100000⟩)).quiet
     (let src := (d.ctxShow 0x100000 16).vatTouch 0x100000 16 4
      src.vbad 0x100000 16 = false ∧
        (∀ i, i < 16 / 8 → src.groupBlank (32 * (0x40F8 / 256) + (0x40F8 / 8 % 32 + i) % 32) = true)) ∧
     (let src := (d.atCycle 7).ctxShow 0x100000 16
      src.vbad 0x100000 16 = false ∧
        (∀ i, i < 16 / 8 → src.groupBlank (32 * (0x40F8 / 256) + (0x40F8 / 8 % 32 + i) % 32) = true))) ∧
    (reamDev 0 (some ⟨3, 0x4000, 0, 0⟩)).quiet.ream.cmd = some ⟨3, 0x4000, 0, 0⟩ ∧
    (reamDev 0 (some ⟨1, 0x4000, 65536, 0⟩)).quiet.ream.cmd.isSome = true ∧ (5 : Nat) ∉ (reamDev 0 none).ream.ue ∧
    (let d := { reamDev 0 none with ream := { Ream.reset with doneAt := some (5000 * 1250 + 7) } }
     d.quiet.ream.cmd = none ∧ d.quiet.ream.doneAt = some (d.quiet.atCycle 7).absCycle) := by decide

/-! ## Faults, power failure, start -/

/-- An entry waits for the fault log. -/
def logDev (flags : Nat) : Dev := { on with flt := { Flt.reset with log := [⟨5, 4, 2, flags, 1, 9, none⟩] } }

theorem witness_FaultCommands :
    (287 ∉ namedSources ∧ 193 ∈ namedSources ∧ 193 ∈ levelSources ∧ 9 ∈ namedSources ∧ 9 ∉ levelSources ∧
      (14 : Word).toNat ≤ 14 ∧ ¬ (15 : Word).toNat ≤ 14) ∧
    (let d := (logDev 0).quiet
     d.flt.log = [⟨5, 4, 2, 0, 1, 9, none⟩] ∧ d.ream.cmd = none ∧ d.ream.save = none ∧ d.logBusy = false ∧ 3 ≤ d.get F.BOOT_STAT.STEP ∧
       d.flt.stopLogged = false ∧ bit 0 2 = false ∧ bit 4 2 = true) ∧
    (let d := ({ on with flt := { Flt.reset with pulseEnd := some 5000 } } : Dev).quiet
     d.flt.pulseEnd = some 5000 ∧ 5000 ≤ d.tick ∧ d.pinsLive = true ∧ d.flag F.FLT_STATE.STOPPED = false) ∧
    (let d := (on.quiet.atCycle 1249)
     (st on).reaches .spi (R.FLT_FORCE.off (8 : Fin 9)) ∧
       (∀ i ∈ (List.range 32).filter fun i => bit 1 i && !bit (d.rd R.FLT_FORCE (8 : Fin 9)) i, d.faultClass (32 * (8 : Fin 9) + i) ≠ 3 ∧
         d.faultClassS (32 * (8 : Fin 9) + i) ≠ 3) ∧
       (d.put F.FLT_CTRL.FORCE_STOP_EN 1).flag F.FLT_CTRL.FORCE_STOP_EN = true ∧
       (d.put F.FLT_CTRL.FORCE_STOP_EN 1).getS F.FLT_CTRL.FORCE_STOP_EN = 1) ∧
    (st on).reaches .spi (R.FLT_STATUS.off (8 : Fin 9)) ∧ (st on).reaches .spi R.HOST_IRQ_CAUSE.off := by decide +kernel

/-- PFAIL_N was recognised; area 1 is armed. -/
def saveDev (area : Option Nat) : Dev :=
  let d := on.put F.REAM_SAVE_CFG.ENABLE 1
  { d with boot := { d.boot with pfail := true }, ream := { Ream.reset with armed := area } }

theorem witness_PowerFailAndSave :
    (let e := (on.quiet.pinSee 2 false).fault 9
     e.flag F.FLT_STATE.STOPPED = false ∧ 12 ≤ e.get F.BOOT_STAT.STEP ∧ e.boot.live = true) ∧
    (let d := (on.put F.BOOT_STAT.STEP 11).setBoot { on.boot with live := false }
     let e := (d.quiet.pinSee 2 false).fault 9
     e.get F.BOOT_STAT.STEP < 12 ∧ e.boot.live = false) ∧ on.quiet.boot.pfail = false ∧
    (let d := (saveDev none).quiet
     d.boot.pfail = true ∧ d.test.run = none ∧ d.pi.isOpen = false ∧ d.ream.armed = none) ∧
    (let d := (saveDev (some 1)).quiet
     d.boot.pfail = true ∧ d.ream.armed = some 1 ∧ d.flag F.REAM_SAVE_CFG.ENABLE = true ∧ d.ream.cmd = none ∧ d.vat.ue = [] ∧ d.vat.ce = []) ∧
    ((saveDev (some 1)).put F.REAM_SAVE_CFG.ENABLE 0).quiet.flag F.REAM_SAVE_CFG.ENABLE = false ∧
    (let d := ({ on with ream := { Ream.reset with save := some ⟨1, List.replicate 300 1, []⟩ } } : Dev).quiet
     d.ream.save = some ⟨1, List.replicate 300 1, []⟩ ∧ d.boot.resetPend = 0) := by decide

/-- At the end of the outputs' time a running output is cut; once all have stopped after a loss, the synthesizers stop. -/
theorem witness_PowerFailAndSave_loss :
    (let d := (on.put F.OUT_STAT.OPEN 1 71).setBoot { on.boot with stopLeft := 1 }
     d.boot.stopLeft = 1 ∧ d.outsCut.flag F.OUT_STAT.OPEN 71 = false) ∧
    (let d := (on.put F.SYN_STAT.LOCK 1 15).setBoot { on.boot with loss := true }
     d.boot.loss = true ∧ (∀ k : Fin 72, d.flag F.OUT_STAT.OPEN k = false) ∧ d.lossBoundary.flag F.SYN_STAT.LOCK 15 = false) := by decide

/-- What a start meets: everything passes, at once, and the flash holds nothing. -/
def bootIn : BootIn := { BootIn.reset with ok := 0xFFF }

theorem witness_ResetAndBootCommands :
    ((on.put F.FLT_STATE.STOPPED 1).quiet.flag F.FLT_STATE.STOPPED = true ∧ on.quiet.flag F.FLT_STATE.STOPPED = false) ∧
    ({ on with ream := { Ream.reset with save := some ⟨1, [], []⟩ } } : Dev).quiet.ream.save.isSome = true ∧
    (on.quiet.ream.save = none ∧ on.quiet.boot.low = false ∧ on.quiet.ream.cmd = none ∧ on.quiet.ream.arm = none ∧ on.quiet.logBusy = false) ∧
    (Dev.reset.quiet.flag F.FLT_STATE.STOPPED = false ∧ Dev.reset.quiet.boot.resetPend = 0 ∧ Dev.reset.quiet.boot.low = true) ∧
    ({ on with boot := { on.boot with failed := true } } : Dev).quiet.boot.failed = true ∧
    ((st on).reaches .spi R.BOOT_CMD.off ∧ (2 : BitVec 2).toNat ≠ 3 ∧ on.quiet.get F.BOOT_STAT.RESTART ≠ 1 ∧
      on.quiet.boot.cmdRestart = none ∧ on.quiet.get F.KL_STAGE_STAT.STATE = 0) ∧
    (let d := (on.put F.BOOT_ALT.ALT 0x800).quiet
     d.get F.BOOT_STAT.STEP = 13 ∧ bit (d.get F.BOOT_ALT.ALT) 11 = true ∧ d.boot.loss = false ∧ d.boot.halted = false) ∧
    (let d := ({ on with boot := { on.boot with next := some [] } } : Dev).quiet
     let down := fun (d : Dev) => (List.range 8).foldl Dev.portDown (d.bootTime 8 (d.tick - d.boot.waitFrom - d.get F.BOOT_TIME.US 6))
     d.boot.next = some [] ∧ d.boot.switching = false ∧ d.boot.halted = false ∧ d.boot.low = false ∧
       (∀ k : Fin 8, (down d).get F.FRM_PORT_STAT.STATE k = 0) ∧
       (down (d.put F.FRM_PORT_STAT.STATE 1 7)).get F.FRM_PORT_STAT.STATE (7 : Fin 8) ≠ 0) ∧
    (let x := { on with boot := { on.boot with pinLast := 0xFE, pinSeen := 0xFF } }
     let seen := ((0xFE : BitVec 8) &&& ~~~(x.boot.pinLast ^^^ 0xFE)) ||| (x.boot.pinSeen &&& (x.boot.pinLast ^^^ 0xFE))
     seen.getLsbD 0 = false ∧ x.boot.pinSeen.getLsbD 0 = true ∧ seen.getLsbD 1 = x.boot.pinSeen.getLsbD 1 ∧
       seen.getLsbD 2 = x.boot.pinSeen.getLsbD 2) := by decide

/-- Both ends of the start's test of a halt: nothing halts it, and a DIAG start with an alternative halt does. -/
theorem witness_ResetAndBootCommands_scan :
    (let y := Dev.reset.cold
     let z := ((({ y with boot := { y.boot with low := false, inp := bootIn } } : Dev).put F.BOOT_STAT.BOOTSEL Dev.reset.boot.sel).put
       F.BOOT_STAT.CAUSE 1).bootTime 1 0
     ((z.put F.BOOT_STAT.STEP 2).bootScan.flag F.BOOT_STAT.HALTED = false)) ∧
    (on.put F.FLT_STATE.STOPPED 1).flag F.FLT_STATE.STOPPED = true := by decide +kernel

/-! ## Host controllers and test -/

/-- Controller 1 is enabled and in a state, with a read of `rlen` bytes. -/
def xiDev (state rlen : Nat) : Dev :=
  ((on.put F.XI2C_CFG.ENABLE 1 1).put F.XI2C_STAT.STATE state 1).setXi2c 1 { Xi2c.reset with rlen := rlen }

theorem witness_XI2cCommands :
    ((st (xiDev 0 0)).reaches .spi (R.XI2C_CMD.off (1 : Fin 2)) ∧ (8 : BitVec 4).toNat ≤ 8 ∧ (0 : BitVec 4).toNat + (8 : BitVec 4).toNat ≠ 0 ∧
      (xiDev 0 0).quiet.get F.XI2C_STAT.STATE (1 : Fin 2) = 0 ∧ (xiDev 0 0).quiet.flag F.XI2C_CFG.ENABLE (1 : Fin 2) = true) ∧
    ((xiDev 1 8).quiet.get F.XI2C_STAT.STATE (1 : Fin 2) = 1 ∧ ((xiDev 1 8).quiet.xi2c 1).rlen = 8 ∧
      ((xiDev 1 0).quiet.xi2c 1).rlen = 0) ∧
    ((xiDev 1 8).quiet.xi2c 1).doneAt ≠ some ((xiDev 1 8).quiet.atCycle 9).absCycle ∧
    ((((xiDev 2 8).setXi2c 1 { Xi2c.reset with doneAt := some (5000 * 1250 + 9) }).quiet.xi2c 1).doneAt =
      some ((xiDev 2 8).quiet.atCycle 9).absCycle) ∧
    (let d := ((xiDev 6 0).put F.XI2C_STAT.RETRIES 7 1)
     d.get F.XI2C_STAT.STATE (1 : Fin 2) = 6 ∧ (({ d with tick := 100000 } : Dev).quiet.xi2c 1).since + 100000 ≤ 100000 ∧
       min 8 (d.get F.XI2C_STAT.RETRIES (1 : Fin 2) + 1) = 8 ∧ min 8 ((xiDev 6 0).get F.XI2C_STAT.RETRIES (1 : Fin 2) + 1) < 8) := by
  decide

/-- A recovery that is over, and one that is not; SDA high and low. -/
theorem witness_XI2cCommands_recovery :
    let z := fun (r : Recovery) => (xiDev 5 0).setXi2c 1 { Xi2c.reset with recover := some r }
    ((z ⟨5000, true, false⟩).xi2c 1).recover = some ⟨5000, true, false⟩ ∧ (z ⟨5000, true, false⟩).tick = 5000 ∧
    (z ⟨5001, true, false⟩).tick < 5001 ∧ ((z ⟨5000, false, true⟩).xi2c 1).recover = some ⟨5000, false, true⟩ ∧
    ((z ⟨5000, false, true⟩).put F.XI2C_STAT.RETRIES 8 1).get F.XI2C_STAT.RETRIES 1 = 8 := by decide

/-- R355: SDA high after three pulses: IDLE, 50 µs after the reset; low throughout: STUCK, with its fault. -/
theorem test_xi2c_recovery :
    let d := after (.xi2cReset .spi 1 ⟨3, true⟩ 0) (xiDev 1 0)
    d.get F.XI2C_STAT.STATE 1 = 5 ∧ (d.xi2c 1).recover = some ⟨5050, true, false⟩ ∧
    (({ d with tick := 5049 } : Dev).xiBoundary 1).get F.XI2C_STAT.STATE 1 = 5 ∧
    (({ d with tick := 5050 } : Dev).xiBoundary 1).get F.XI2C_STAT.STATE 1 = 0 ∧
    (({ d.setXi2c 1 { d.xi2c 1 with recover := some ⟨5050, false, false⟩ } with tick := 5050 } : Dev).xiBoundary 1).get
      F.XI2C_STAT.STATE 1 = 6 := by decide

/-- The FSPI controller runs a command of 3 bytes, or none. -/
def fspiDev (state op : Nat) (abort : Bool) : Dev :=
  let d := (on.put F.FSPI_STAT.STATE state).put F.FSPI_VAT.VALUE 0x3FFFF00
  { d with host := { d.host with fspi := { Fspi.reset with op := op, vat := 0x100000, len := 3, abort := abort, doneAt := some 6250009 } } }

theorem witness_FspiCommands :
    (let d := (fspiDev 0 0 false).quiet
     (st (fspiDev 0 0 false)).reaches .spi R.FSPI_CMD.off ∧ d.get F.FSPI_STAT.STATE ≠ 1 ∧ d.get F.BOOT_STAT.STEP ≠ 7 ∧
       d.get F.BOOT_STAT.RESTART ≠ 1 ∧ d.get F.FSPI_VAT.VALUE + (256 : BitVec 24).toNat ≤ 2 ^ 26 ∧
       d.get F.FSPI_ADDR.VALUE % 256 + (256 : BitVec 24).toNat ≤ 256 ∧ on.get F.FSPI_VAT.VALUE + 2 ^ 24 ≤ 2 ^ 26 ∧
       d.host.fspi.doneAt = some (d.atCycle 9).absCycle) ∧
    (fspiDev 1 1 false).quiet.get F.FSPI_STAT.STATE = 1 := by decide

/-- Granules 15000 to 15001 are to be tested, or are under test. -/
def bistDev (run : Option (Nat × Nat × Nat)) : Dev :=
  let d := ((on.put F.TST_BIST_RANGE.GRANULE 15000).put F.TST_BIST_RANGE.COUNT 2).put F.ENG_CLUSTER_STAT.POWERED 0x8000
  { d with test := { d.test with run := run, doneAt := some 6250009 } }

theorem witness_TestCommands :
    (let d := (bistDev none).quiet
     (st (bistDev none)).reaches .spi R.TST_BIST_CMD.off ∧ d.get F.TST_BIST_STAT.STATE ≠ 1 ∧ d.test.cmd = none ∧
       0 < d.get F.TST_BIST_RANGE.COUNT ∧ on.get F.TST_BIST_RANGE.COUNT = 0 ∧ bit (d.get F.ENG_CLUSTER_STAT.POWERED) (15 : Fin 16) = true ∧
       d.test.doneAt = some (d.atCycle 9).absCycle) ∧
    ((bistDev none).put F.TST_BIST_STAT.STATE 1).quiet.get F.TST_BIST_STAT.STATE = 1 ∧
    (bistDev (some (1, 15000, 2))).quiet.test.run = some (1, 15000, 2) ∧
    ((bistDev (some (1, 15000, 2))).test.start + (2 + 2) ≤ on.tick ∧
      on.tick < ({ (bistDev (some (2, 15, 0))).test with start := 3001 } : Machine.Test).start + 2000) ∧
    (let d := (((on.put F.TST_SELF_CFG.ENABLE 1).put F.TST_SELF_CFG.FIRST 3).put F.TST_SELF_CFG.LAST 135).quiet
     d.flag F.TST_SELF_CFG.ENABLE = true ∧ d.test.lastTick ≠ some d.tick ∧ d.get F.TST_SELF_CFG.FIRST ≤ (135 : Fin 136).val ∧
       (135 : Fin 136).val ≤ d.get F.TST_SELF_CFG.LAST ∧
       on.flag F.TST_SELF_CFG.ENABLE = false ∧ ({ d.test with lastTick := some 5000 } : Machine.Test).lastTick = some d.tick) ∧
    (let d := ((((stampDev 39 5000 none).put F.TST_SELF_CFG.ENABLE 1).put F.TST_SELF_CFG.FIRST 39).put F.TST_SELF_CFG.LAST 39).quiet
     d.flag F.TST_SELF_CFG.ENABLE = true ∧ d.test.lastTick ≠ some d.tick ∧ d.get F.TST_SELF_CFG.FIRST = (39 : Fin 136).val ∧
       d.get F.TST_SELF_CFG.LAST = (39 : Fin 136).val ∧ d.tick % 2 = 0 ∧ (d.tdc (39 : Fin 136)).calB.isSome = true) ∧
    (3 ≤ (5 : Fin 6).val ∧ on.boot.low = false ∧ Dev.reset.boot.low = true) := by decide

/-- R363: IDCODE after TRST_N; EXTEST loads BYPASS while RESET_N is high. -/
theorem test_tap :
    (after (.tapInstruction ⟨false, 3, [], []⟩) on).test.ir = 1 ∧
    (after (.tapInstruction ⟨true, 1, [], []⟩) on).outs = [.tap ((List.range 32).map (bit 0x196401F5))] ∧
    (after (.tapInstruction ⟨true, 4, [true], [true]⟩) on).test.ir = 0 ∧
    (after (.tapInstruction ⟨true, 4, [true], [true]⟩) Dev.reset).test.ir = 4 := by decide

theorem witness_TestCommands_range : (bistDev none).quiet.bistRangeOk 15000 2 = true := by decide +kernel

theorem witness_TestCommands_cluster : (bistDev none).quiet.clusterBound 15 = false := by decide +kernel

/-! ## Well-formed commands -/

/-- No command register is written by the loader: every row that names a path refuses PARAMS and REGS. -/
theorem test_illformed_paths :
    ∀ c ∈ ([
      .instructionStoreWrite .regs 0 0 0, .clusterPower .params 0 0, .taskCancel .regs 0 ⟨0, 0⟩, .tableLoad .params 0 0,
      .tableDelete .regs 0, .rewindStart .params 0 0, .rewindAbort .regs 0, .rewindSplice .params 0, .synSearch .regs 0,
      .synAbort .params 0, .slalomStart .regs 0, .slalomAbort .params 0, .slalomClear .regs 0, .msArm .params 0,
      .msAbort .regs 0 0, .stStart .params 0, .stAbort .regs 0 0, .traceArm .params 0, .traceAbort .regs 0 0,
      .ltStep .params 0, .contextConversion .regs 0, .ctxSet .params, .ctxStep .regs, .ctxSlew .params, .ctxCancel .regs,
      .ctxDisable .params, .leapArm .regs 0 false, .leapDisarm .params 0 false, .evtArm .regs 0, .evtStop .params 0,
      .ringDisable .regs 0 0, .linkCal .params 0 0, .linkCalAbort .regs 0, .stageOpen .params, .stageArm .regs,
      .stageDiscard .params, .reamRead .regs 0, .reamProgram .params 0, .reamErase .regs, .reamAbort .params 0 0,
      .faultForce .regs 0 0 0, .faultStatusClear .params 0 ⟨0, 0⟩, .bootRestart .regs 0 [], .bootRelease .params, .pushGo .regs,
      .hostAccessTimeout .params false, .irqCauseClear .regs ⟨0, 0⟩, .xi2cXfer .params 0 0 0 0, .xi2cReset .regs 0 ⟨0, false⟩ 0,
      .fspiRead .params 0 0, .fspiProgram .regs 0, .fspiErase .params, .fspiAbort .regs 0, .bistVat .params,
      .bistEngine .regs 0, .bistAbort .params 0] : List Instr), c.wellFormed = false := by decide

theorem test_illformed_register_access :
    (Instr.registerWrite (.engine 3) 0 0 true false 0).wellFormed = false ∧ (Instr.loRead (.engine 3) 0 true 0).wellFormed = false := by
  decide

/-- R32, R344: window accesses that are empty, too long, or leave their window; function 0 has no aperture. -/
theorem test_illformed_windows :
    (Instr.vatWindowWrite 0 [] false 0).wellFormed = false ∧
    (Instr.vatWindowWrite 0x3FFFFFF [(1, true), (1, true)] false 0).wellFormed = false ∧
    (Instr.vatWindowRead 0x3FFFFFF 2 0).wellFormed = false ∧ (Instr.vatWindowRead 0 4097 0).wellFormed = false ∧
    (Instr.vfApertureAccess 0 0 (some [(1, true)]) 1 false 0).wellFormed = false ∧
    (Instr.vfApertureAccess 1 0xFFFFF (some [(1, true), (1, true)]) 0 false 0).wellFormed = false ∧
    (Instr.vfApertureAccess 1 0 none 0 false 0).wellFormed = false := by decide

theorem test_illformed_long_write : (Instr.vatWindowWrite 0 (List.replicate 513 (1, true)) false 0).wellFormed = false := by
  decide

/-- Lengths and repeats. -/
theorem test_illformed_lengths :
    (Instr.scrubLine ⟨0, false⟩ [1, 1] []).wellFormed = false ∧ (Instr.scrubLine ⟨0, true⟩ [] [2, 2]).wellFormed = false ∧
    (Instr.frameReceive 0 [] 0 true ⟨0, 0⟩ 0).wellFormed = false ∧
    (Instr.dmaDescriptorFetch 0 [1] ⟨[], false, 0⟩ false 0).wellFormed = false ∧ (Instr.dmaReceive 0 [1] 0).wellFormed = false ∧
    (Instr.dmaReadTimeout 0 [1]).wellFormed = false ∧ (Instr.tickFrameReceive 0 (List.replicate 55 ⟨1, 0⟩) [⟨1, 0⟩] []).wellFormed = false ∧
    (Instr.bulkBurstReceive 0 [] (List.replicate 2 ⟨1, 0⟩) []).wellFormed = false ∧
    (Instr.blockLockGained ⟨0, []⟩).wellFormed = false ∧ (Instr.blockLockLost ⟨0, []⟩).wellFormed = false ∧ (Instr.i2cWrite ⟨0x4C, 3⟩ 0 [5] 0 0).wellFormed = false ∧
    (Instr.i2cWrite ⟨0x4C, 3⟩ 0 [] 1 0).wellFormed = false ∧ (Instr.xi2cXfer .spi 0 0 9 0).wellFormed = false ∧
    (Instr.xi2cXfer .spi 0 0 0 9).wellFormed = false ∧ (Instr.selfStampPulse [⟨1, 0⟩, ⟨1, 5⟩]).wellFormed = false ∧
    (Instr.resetRelease bootIn).wellFormed = false ∧ (Instr.bootStepFail bootIn).wellFormed = false := by decide

/-- R332, R356: more than 16 MiB of flash. -/
theorem test_illformed_flash (f : List Byte) (h : 2 ^ 24 < f.length) :
    (Instr.bootRestart .spi 0 f).wellFormed = false ∧ (Instr.fspiCommandEnd f false 0).wellFormed = false ∧
    (Instr.resetRelease { bootIn with primary := f }).wellFormed = false ∧
    (Instr.resetRelease { bootIn with secondary := f }).wellFormed = false := by
  refine ⟨?_, ?_, ?_, ?_⟩ <;> simp only [Instr.wellFormed, BootIn.wellFormed, Bool.and_eq_false_iff, decide_eq_false_iff_not] <;> omega

/-! ## Instruction words -/

/-- R50, R57: the example of sdiff g4, g5, g6, w32, s.p1; NOP is the all-zero word; 0x3F is reserved. -/
theorem test_instruction_words :
    decodeEngine 3 0x5915800D = .sdiff 3 ⟨4, 5, 6, 0xD⟩ ∧ encodeEngine (.sdiff 3 ⟨4, 5, 6, 0xD⟩) = some 0x5915800D ∧
    decodeEngine 3 0 = .nop 3 ⟨0, ⟨0, 0, 0, 0⟩⟩ ∧ decodeEngine 3 0xFC000000 = .nop 3 ⟨6, ⟨0, 0, 0, 0⟩⟩ := by decide

/-! ## The base image -/

/-- R130: the example of LOOP4, with its three members and after IN3 leaves. -/
theorem test_weights_example :
    shareWeights [(0, 40), (1, 80), (2, 160)] = [(0, 37449), (1, 18725), (2, 9362)] ∧
    shareWeights [(1, 80), (2, 160)] = [(1, 43691), (2, 21845)] := by decide

/-- R159: the example of LOOP6: +917,692 in second 7,202, with a model term. -/
theorem test_glide_example :
    glideOf ⟨7200400123, 900, 921830 * 900, 6020550, 5824 * 900, 900⟩
      ⟨0, 45 * 128, 14074, -5629, 1126, 0, 0, 0, true, true⟩ true (some (47 * 128)) 7202 = (917692, true) := by decide

/-! ## The whole machine -/

/-- A queue of three commands, the last of them a start that meets two boot pointers. -/
def queued : State :=
  ⟨on, [.add e0 0 ⟨1, 0, 0, 0⟩, .stageOpen .spi,
    .resetRelease { bootIn with ptr0 := List.replicate 20 0, ptr1 := List.replicate 20 0 }]⟩

theorem witness_StepRunsTheFrontCommand : queued.pending = .add e0 0 ⟨1, 0, 0, 0⟩ :: queued.pending.tail ∧ (st on).pending = [] := by
  decide

theorem witness_StepsKeepTheQueueWellFormed : queued.queueOk ∧ (st on).queueOk := by
  unfold State.queueOk; decide

/-- A device whose Vat holds a table, and whose engine 0 and cluster 15 hold data. -/
def filled : Dev :=
  let d := engAt { Engine.reset with lmem := [(0, 1), (4095, 2)] }
  (d.setClus 15 { d.clus 15 with cmem := [(7, 9)] }).vatStore 0x100000 table0

theorem witness_MemoryKeepsItsForm : Memory.wf 0 [(3, 1), (7, 2)] ∧ Memory.wf 0xFF [] ∧ filled.memoriesOk ∧
    ¬ Memory.wf 0 [(7, 1), (3, 2)] ∧ ¬ Memory.wf 0xFF [(3, 0xFF)] := by
  unfold Dev.memoriesOk; decide

end Sys2Proof.Tests
end

section
/-! SUPPORT and proofs. What one engine instruction leaves (R36, R51, R54), and the results of R57, R59, R60, R62, R73 to R75 and
R78. -/

namespace Sys2Proof.Machine

/-! ## One instruction around its body -/

/-- R36, R56: a command that issues one instruction gives what the body makes of the device after its cycles. -/
theorem gives_of_issue {c : Instr} {s : State} {e cost : Nat} {body : Dev → Dev}
    (hexec : exec c s = .next { s with dev := s.dev.quiet.issue e cost body }) (hfits : s.dev.quiet.fits e cost) :
    Gives c s (body (s.dev.quiet.spend e cost)) := by
  unfold Gives
  rw [hexec, Dev.issue_fits _ _ _ _ hfits]

/-- As `gives_of_issue`, for a cost that is known by an equation. -/
theorem gives_of_issue_of_eq {c : Instr} {s : State} {e cost cost' : Nat} {body : Dev → Dev}
    (hexec : exec c s = .next { s with dev := s.dev.quiet.issue e cost' body }) (hcost : cost' = cost)
    (hfits : s.dev.quiet.fits e cost) : Gives c s (body (s.dev.quiet.spend e cost)) := by
  subst hcost
  exact gives_of_issue hexec hfits

/-- R54: an engine fault leaves what statements say of the end of a dispatch by its source. -/
theorem Dev.engFault_eq_endedBy (d : Dev) (e source : Nat) : d.engFault e source = d.endedBy e source := rfl

theorem Dev.engIllegal_eq_endedBy (d : Dev) (e : Nat) : d.engIllegal e = d.endedBy e 33 := rfl

theorem Dev.advance_eq_setEng_next (d : Dev) (e : Nat) : d.advance e = d.setEng e (d.eng e).next := rfl

/-- R50, R57: an arithmetic instruction whose fields are well formed computes its result and status bit. -/
theorem computes_of_alu {c : Instr} {e cost pc : Nat} {ok : Bool} {o : EOp} {r : Engine → Res} {val : Engine → DWord}
    {S : Engine → Bool} (hexec : ∀ s, exec c s = s.run fun d => d.alu e cost ok o pc r) (hok : ok = true) (hpc : pc < 16)
    (hres : ∀ x, r x = ⟨val x, S x⟩) : Computes c e cost o.d pc val S := by
  obtain rfl : r = fun x => ⟨val x, S x⟩ := funext hres
  intro s hfits d
  refine ⟨_, ?_, Engine.write_wrote (d.eng e) o.d pc ⟨val (d.eng e), S (d.eng e)⟩ hpc⟩
  unfold Gives
  rw [hexec, State.run_eq, Dev.alu_gives _ _ _ _ _ _ _ hok hfits]

/-- As `computes_of_alu`, for a result that is read from more than the engine. -/
theorem wrote_of_alu' {c : Instr} {s : State} {e cost : Nat} {ok : Bool} {o : EOp} {r : Dev → Res}
    (hexec : exec c s = s.run fun d => d.alu' e cost ok o r) (hok : ok = true) (hfits : s.dev.quiet.fits e cost) :
    let d := s.dev.quiet.spend e cost
    ∃ y, Gives c s (d.setEng e y) ∧ (d.eng e).wrote y o.d o.b.val (r d).val (r d).s := by
  intro d
  have hgives := gives_of_issue hexec hfits
  rw [if_pos hok] at hgives
  exact ⟨_, hgives, Engine.write_wrote (d.eng e) o.d o.b.val (r d) o.b.isLt⟩

/-- R50, R54: an arithmetic instruction whose fields are not well formed raises ENG_ILLEGAL. -/
theorem ends_of_alu {c : Instr} {e cost pc : Nat} {ok : Bool} {o : EOp} {r : Engine → Res}
    (hexec : ∀ s, exec c s = s.run fun d => d.alu e cost ok o pc r) (hok : ok = false) : Ends c e cost 33 := by
  intro s hfits
  have hgives := gives_of_issue (hexec s) hfits
  rwa [hok, if_neg Bool.false_ne_true, Dev.engIllegal_eq_endedBy] at hgives

theorem pcR_lt (o : EOp) : pcR o < 16 := Nat.mod_lt _ (by decide)

/-! ## An instruction without a result (R51, log entry 7) -/

theorem Dev.setEng_setEng (d : Dev) (e : Nat) (x y : Engine) : (d.setEng e x).setEng e y = d.setEng e y := by
  simp [Dev.setEng]

/-- R51: a predicate control writes the predicate that it names, and no other. -/
theorem Engine.setPred_some_p (x : Engine) (pc : Nat) (b : Bool) (i : Fin 4) :
    (x.setPred pc (some b)).p[i] = if pc % 4 = i.val then b else x.p[i] := by
  simp [Engine.setPred, Vector.getElem_set]

/-- R51, log entry 7: the predicate write that follows an instruction without a result is the one that statements describe. -/
theorem givesPred_of_predOnly {c : Instr} {s : State} {d : Dev} {e pc : Nat} {x : Engine} {S : Bool} (hpc : pc < 16)
    (hgives : Gives c s ((d.setEng e x).predOnly e pc S)) : GivesPred c s (d.setEng e x) e pc S := by
  have hother (b : Bool) (i : Fin 4) (hi : pc % 4 ≠ i.val) : (x.setPred pc (some b)).p[i] = x.p[i] := by
    rw [Engine.setPred_some_p, if_neg hi]
  simp only [GivesPred, Dev.predOnly, Dev.eng_setEng_self, Dev.setEng_setEng] at hgives ⊢
  have hcases : pc / 4 = 0 ∨ pc / 4 = 3 ∨ (pc / 4 = 1 ∨ pc / 4 = 2) := by omega
  rcases hcases with hnone | hstatus | hfree
  · rw [if_pos hnone] at hgives
    refine ⟨x.p, fun _ _ => rfl, ?_⟩
    rw [if_neg (by omega)]
    exact ⟨hgives, fun i => by simp [predAfter, hnone]⟩
  · rw [if_neg (by omega), if_pos hstatus] at hgives
    refine ⟨_, hother S, ?_⟩
    rw [if_neg (by omega)]
    refine ⟨hgives, fun i => ?_⟩
    rw [Engine.setPred_some_p]
    by_cases hi : pc % 4 = i.val <;> simp [predAfter, hstatus, hi]
  · rw [if_neg (by omega), if_neg (by omega)] at hgives
    refine ⟨_, hother (bit (d.setEng e x).freeVal 0), ?_⟩
    rw [if_pos hfree]
    exact hgives

/-! ## Results (R57, R59, R60, R62) -/

/-- A pattern read as a signed number is the bit vector's own reading of it. -/
theorem toSigned_eq_toInt (w v : Nat) : toSigned w v = (BitVec.ofNat w v).toInt := by
  rw [BitVec.toInt_eq_toNat_cond, BitVec.toNat_ofNat]
  unfold toSigned
  cases w with
  | zero => simp [Nat.mod_one]
  | succ n => rw [Nat.add_sub_cancel, pow_succ]; split <;> split <;> omega

theorem ofNat_ofSigned (w : Nat) (x : Int) : BitVec.ofNat w (ofSigned w x) = BitVec.ofInt w x := by
  apply BitVec.eq_of_toNat_eq
  rw [BitVec.toNat_ofNat, BitVec.toNat_ofInt, ofSigned]
  have hlt : x % (2 ^ w : Nat) < (2 ^ w : Nat) := Int.emod_lt_of_pos _ (by positivity)
  exact Nat.mod_eq_of_lt (by omega)

/-- R11: the wrap difference is the signed difference of the low w bits. -/
theorem wrapDiff_eq_toInt_sub {n : Nat} (w : Nat) (a b : BitVec n) :
    wrapDiff w a.toNat b.toNat = (a.setWidth w - b.setWidth w).toInt := by
  unfold wrapDiff
  rw [toSigned_eq_toInt, ofNat_ofSigned, BitVec.toInt_ofInt, BitVec.toInt_sub, BitVec.toInt_setWidth, BitVec.toInt_setWidth,
    ← Int.sub_bmod]

/-- R59: sdiff at the width that its code selects. -/
theorem resSdiff_eq (n : Nat) (a b : DWord) :
    resSdiff (n == 512) a b = ⟨if n = 512 then a - b else (a.setWidth 32 - b.setWidth 32).signExtend 64,
      decide (0 < wrapDiff (if n = 512 then 64 else 32) a.toNat b.toNat)⟩ := by
  by_cases h : n = 512
  · simp [resSdiff, h, wrapDiff_eq_toInt_sub]
  · simp [resSdiff, h, wrapDiff_eq_toInt_sub]

/-- R57: mul, low or high half as its code selects. -/
theorem resMul_eq (n : Nat) (a b : DWord) :
    resMul (n == 512) a b = ⟨BitVec.ofInt 64 (if n = 512 then a.toInt * b.toInt / 2 ^ 64 else a.toInt * b.toInt),
      outside64 (a.toInt * b.toInt)⟩ := by
  have hfits (p : Int) : (!decide (-(2 ^ 63) ≤ p ∧ p ≤ 2 ^ 63 - 1)) = outside64 p := by
    rw [outside64, ← decide_not, decide_eq_decide]; omega
  simp only [resMul, hfits, beq_iff_eq]

/-- A clamped number differs from the number exactly where that lies outside the bounds. -/
theorem clamp_bne {low high : Int} (h : low ≤ high) (x : Int) :
    (max low (min high x) != x) = decide (x < low ∨ high < x) := by
  rw [Bool.eq_iff_iff, bne_iff_ne, decide_eq_true_iff]; omega

theorem satBounds_le (w : Nat) (uns : Bool) : (satBounds w uns).1 ≤ (satBounds w uns).2 := by
  have hw : (0 : Int) < 2 ^ w := by positivity
  have hw' : (0 : Int) < 2 ^ (w - 1) := by positivity
  cases uns <;> simp only [satBounds, if_true, if_false, Bool.false_eq_true] <;> omega

/-- R60: sat, and S where the operand lies outside the bounds. -/
theorem resSat_eq (a : DWord) (w : Nat) (uns : Bool) :
    resSat a w uns = ⟨BitVec.ofInt 64 (max (satBounds w uns).1 (min (satBounds w uns).2 a.toInt)),
      decide (a.toInt < (satBounds w uns).1 ∨ (satBounds w uns).2 < a.toInt)⟩ := by
  simp only [resSat, clamp_bne (satBounds_le w uns)]

/-- R57: getacc, and S where the shifted accumulator does not fit in 64 signed bits. -/
theorem resGetacc_eq (acc : BitVec 128) (n : Nat) :
    resGetacc acc n = ⟨BitVec.ofInt 64 (max (-(2 ^ 63)) (min (2 ^ 63 - 1) (acc.toInt / 2 ^ n))),
      outside64 (acc.toInt / 2 ^ n)⟩ := by
  have hsat (x : Int) : satSigned 64 x = max (-(2 ^ 63)) (min (2 ^ 63 - 1) x) := by
    unfold satSigned; rw [min_comm]; rfl
  have hout (x : Int) : decide (x < -(2 ^ 63) ∨ 2 ^ 63 - 1 < x) = outside64 x := by
    rw [outside64, decide_eq_decide]; omega
  simp only [resGetacc, hsat, clamp_bne (by decide : -(2 ^ 63) ≤ (2 ^ 63 - 1 : Int)), hout]

/-- The bits of a number in which a field was written. -/
theorem testBit_setBits (v hi lo x i : Nat) (h : lo ≤ hi + 1) :
    (setBits v hi lo x).testBit i = if lo ≤ i ∧ i ≤ hi then x.testBit (i - lo) else v.testBit i := by
  have hpow : (2 : Nat) ^ (hi + 1) = 2 ^ lo * 2 ^ (hi + 1 - lo) := by rw [← Nat.pow_add]; congr 1; omega
  have hparts : setBits v hi lo x =
      2 ^ lo * (2 ^ (hi + 1 - lo) * (v / 2 ^ (hi + 1)) + x % 2 ^ (hi + 1 - lo)) + v % 2 ^ lo := by
    rw [setBits_split v hi lo x h, hpow]; ring
  rw [hparts, Nat.testBit_two_pow_mul_add _ (Nat.mod_lt _ (by positivity)),
    Nat.testBit_two_pow_mul_add _ (Nat.mod_lt _ (by positivity))]
  simp only [Nat.testBit_mod_two_pow, Nat.testBit_div_two_pow]
  by_cases hlo : i < lo
  · simp [hlo, Nat.not_le.mpr hlo]
  · by_cases hhi : i ≤ hi
    · have hin : i - lo < hi + 1 - lo := by omega
      simp [hlo, hhi, hin, Nat.not_lt.mp hlo]
    · have hout : ¬ i - lo < hi + 1 - lo := by omega
      have hi' : i - lo - (hi + 1 - lo) + (hi + 1) = i := by omega
      simp [hlo, hhi, hout, hi']

/-- A field of n + 1 bits of a double word written: the field is cleared and the new bits are put in. -/
theorem ofNat_setBits (v : DWord) (imm lo n : Nat) (himm : imm < 2 ^ (n + 1)) :
    BitVec.ofNat 64 (setBits v.toNat (lo + n) lo imm) =
      (v &&& ~~~(BitVec.ofNat 64 (2 ^ (n + 1) - 1) <<< lo)) ||| (BitVec.ofNat 64 imm <<< lo) := by
  apply BitVec.eq_of_getLsbD_eq
  intro i hi
  have hmask := Nat.testBit_two_pow_sub_one (n + 1) (i - lo)
  simp only [BitVec.getLsbD_ofNat, testBit_setBits _ _ _ _ _ (by omega : lo ≤ lo + n + 1), BitVec.getLsbD_or, BitVec.getLsbD_and,
    BitVec.getLsbD_not, BitVec.getLsbD_shiftLeft, BitVec.testBit_toNat, hmask, hi]
  by_cases hlo : i < lo
  · simp [hlo, Nat.not_le.mpr hlo]
  · by_cases hhi : i ≤ lo + n
    · have hin : i - lo < n + 1 := by omega
      have hi' : i - lo < 64 := by omega
      simp [hlo, hhi, hin, hi', Nat.not_lt.mp hlo]
    · have hout : ¬ i - lo < n + 1 := by omega
      have hbit : imm.testBit (i - lo) = false :=
        Nat.testBit_lt_two_pow (himm.trans_le (Nat.pow_le_pow_right (by decide) (by omega)))
      simp [hlo, hhi, hout, hbit]

/-- R62: ldh puts imm in one of the slices 0 to 3 of 14 bits, or in slice 4 of 8 bits. -/
theorem resLdh_eq (v : DWord) (k : Nat) (imm : BitVec 14) (h : k < 4 ∨ k = 4 ∧ imm.toNat < 256) :
    let slice := fun x : DWord => if k = 4 then x <<< 56 else x <<< (14 * k)
    resLdh v k imm.toNat = (v &&& ~~~(slice (if k = 4 then 0xFF else 0x3FFF))) ||| slice (imm.setWidth 64) := by
  intro slice
  rcases h with hk | ⟨rfl, himm⟩
  · have hk' : k ≠ 4 := by omega
    simpa [resLdh, slice, hk', ← BitVec.ofNat_toNat] using ofNat_setBits v imm.toNat (14 * k) 13 imm.isLt
  · simpa [resLdh, slice, ← BitVec.ofNat_toNat] using ofNat_setBits v imm.toNat 56 7 himm

/-! ## Time, timers and events (R73 to R75, R78) -/

theorem Dev.t96_div (d : Dev) : d.t96 / 2 ^ 32 = d.ltAt d.cycle / 2 ^ 48 % 2 ^ 64 := by
  unfold Dev.t96; omega

theorem Dev.t96_mod (d : Dev) : d.t96 % 2 ^ 32 = d.ltAt d.cycle / 2 ^ 16 % 2 ^ 32 := by
  unfold Dev.t96; omega

theorem Dev.s32_eq (d : Dev) : d.s32 = d.ltAt d.cycle / 2 ^ 48 % 2 ^ 32 := by
  unfold Dev.s32; rw [Dev.t96_div]; omega

theorem Engine.setRg_ltFrac (x : Engine) (r : Fin 16) (v : DWord) : (x.setRg r v).ltFrac = x.ltFrac := by
  unfold Engine.setRg; split <;> rfl

/-- R58, R73: a value written to a register, with no predicate and the latched fraction as it was. -/
theorem Engine.setRg_wrote (x : Engine) (r : Fin 16) (v : DWord) :
    x.wrote { x.setRg r v with pc := x.pc + 1, ltFrac := x.ltFrac } r 0 v false := by
  rw [← Engine.setRg_ltFrac x r v]
  exact Engine.write_wrote x r 0 ⟨v, false⟩ (by decide)

/-- R64: with no vput outstanding, an instruction's cycles only move the engine on. -/
theorem Dev.spend_cyc_of_no_vputs (d : Dev) (e cost : Nat) (h : (d.eng e).vputs = []) :
    ((d.spend e cost).eng e).cyc = (d.eng e).cyc + cost := by
  simp [Dev.spend, Dev.vputRetire, h]

/-- R75: the fields of an arm or disarm word: timer, input, and which of the two it is. -/
theorem timer_fields {n : Nat} {t : Fin 4} {input : Fin 16} (disarm : Bool) (h : n = t + 16 * input.val + b2n disarm * 2 ^ 13) :
    bits n 12 8 = 0 ∧ bits n 3 2 = 0 ∧ bit n 13 = disarm ∧ n % 4 = t.val ∧ bits n 7 4 = input.val := by
  have ht := t.isLt
  have hinput := input.isLt
  cases disarm <;> simp only [b2n, if_true, if_false, Bool.false_eq_true] at h <;> simp [bits, bit] <;> omega

/-- R54, R78: signal raises the input of the engine that its register names; without such an engine it raises ENG_ADDRESS. -/
theorem gives_signal {e : Eng} {o : EOp} {s : State} (hd : o.d = 0) (hb : o.b = 0) (hlo : o.lo.toNat < 16)
    (hfits : s.dev.quiet.fits e 1) :
    Gives (.signal e o) s
      (let d := s.dev.quiet.spend e 1
       let t := ((d.eng e).rg o.a).toNat
       if 512 ≤ t then d.endedBy e 34 else (d.taskEvent t o.lo.toNat (0x400 + e)).advance e) := by
  have hgives := gives_of_issue (c := .signal e o) rfl hfits
  simpa only [hd, hb, immN, ge_iff_le, Nat.not_le.mpr hlo, decide_false, bne_self_eq_false, Bool.or_self, Bool.false_eq_true,
    if_false, Dev.engFault_eq_endedBy] using hgives

/-! ## The obligations -/

/-- Settles O3: each instruction is one use of the arithmetic frame, with its result rewritten as the statement gives it. -/
theorem sdiffSatLdhMulGetaccResults : Obligations.SdiffSatLdhMulGetaccResults := by
  intro e o a b w low high slice
  have hbounds : satBounds (immN o % 128) (immN o / 128 == 1) = (low, high) := by
    by_cases h : o.lo.toNat / 128 = 1 <;> simp [satBounds, low, high, w, immN, h]
  refine ⟨fun hfunc hpc => ⟨?sdiff, ?mul⟩, ?sat, ?satIllegal, ?ldhIllegal, ?ldh, ?getacc⟩
  case sdiff =>
    exact computes_of_alu (fun _ => rfl) (by simp [hpc]; omega) (pcR_lt o) fun x => resSdiff_eq _ (a x) (b x)
  case mul =>
    exact computes_of_alu (fun _ => rfl) (by simp [hpc]; omega) (pcR_lt o) fun x => resMul_eq _ (a x) (b x)
  case sat =>
    intro hpc (hmin : 2 ≤ immN o % 128) (hmax : immN o % 128 ≤ 64) (hlo : immN o < 256)
    refine computes_of_alu (fun _ => rfl) (by simp [hpc, hmin, hmax, hlo]) o.b.isLt fun x => ?_
    rw [resSat_eq, hbounds]
  case satIllegal =>
    intro (hw : immN o % 128 < 2 ∨ 64 < immN o % 128)
    refine ends_of_alu (fun _ => rfl) ?_
    rcases hw with hw | hw <;> simp [hw]
  case ldhIllegal =>
    intro hb
    exact ends_of_alu (fun _ => rfl) (by simp; omega)
  case ldh =>
    intro ha (hb : o.b.val < 4 ∨ o.b.val = 4 ∧ immN o < 256)
    refine computes_of_alu (fun _ => rfl) (by simpa [ha] using hb) (by decide) fun x => ?_
    rw [immN, resLdh_eq (x.rg o.d) o.b.val o.lo hb]
  case getacc =>
    intro hpc ha (hlo : immN o < 128)
    exact computes_of_alu (fun _ => rfl) (by simp [hpc, ha, hlo]) o.b.isLt fun x => resGetacc_eq x.acc _

/-- Settles O9: each instruction is its body after its cycles, by the selector of now, the word's fields and whether the deadline
lies ahead. -/
theorem timeAndTimerInstructionResults : Obligations.TimeAndTimerInstructionResults := by
  refine ⟨fun e o s => ⟨?now, ?wait, ?nowIllegal, ?waitIllegal⟩, fun e o s t input hd hpc hfits => ?timers⟩
  case now =>
    intro ha hb hsel hfits d x lt frac v
    have hgives := gives_of_issue (c := .now e o) rfl hfits
    simp only [ha, hb, bne_self_eq_false, Bool.or_self, Bool.false_eq_true, if_false, immN] at hgives
    have htime : d.t96 / 2 ^ 32 = lt / 2 ^ 48 % 2 ^ 64 := Dev.t96_div d
    have hfrac : d.t96 % 2 ^ 32 = frac := Dev.t96_mod d
    have hs32 : d.s32 = lt / 2 ^ 48 % 2 ^ 32 := Dev.s32_eq d
    rcases Nat.eq_zero_or_pos o.lo.toNat with h0 | hpos
    · simp only [v, h0, if_true] at hgives ⊢
      rw [← htime, ← hfrac]
      exact ⟨_, hgives, rfl, Engine.setRg_wrote x o.d _⟩
    · have hput : Gives (.now e o) s (d.engDo e fun x => x.setRg o.d (BitVec.ofNat 64 v)) := by
        have hsels : o.lo.toNat = 1 ∨ o.lo.toNat = 2 ∨ o.lo.toNat = 3 ∨ o.lo.toNat = 4 ∨ o.lo.toNat = 5 ∨ o.lo.toNat = 6 := by
          omega
        rcases hsels with h | h | h | h | h | h <;> simp only [v, h, ← hs32] at hgives ⊢ <;> exact hgives
      rw [if_neg (by omega)]
      exact ⟨_, hput, Engine.setRg_ltFrac _ _ _, Engine.setRg_wrote x o.d _⟩
  case wait =>
    intro hd ha hb hlo cost hfits d
    have hgives := gives_of_issue_of_eq (c := .wait e o) (cost := cost) rfl (if_pos hlo) hfits
    refine ⟨?_, fun hvputs => ?_⟩
    · simpa [hd, ha, hb, immN, Nat.not_le.mpr hlo, Dev.advance_eq_setEng_next] using hgives
    · have hcyc : (d.eng e).cyc = (s.dev.eng e).cyc + max 1 (o.lo.toNat - (s.dev.eng e).cyc) :=
        Dev.spend_cyc_of_no_vputs _ _ _ hvputs
      omega
  case nowIllegal =>
    intro hsel s hfits
    have hgives := gives_of_issue (c := .now e o) rfl hfits
    obtain ⟨k, hk⟩ : ∃ k, immN o = k + 7 := ⟨immN o - 7, by unfold immN; omega⟩
    simpa only [hk, ite_self, Dev.engIllegal_eq_endedBy] using hgives
  case waitIllegal =>
    intro hlo s hfits
    have hgives := gives_of_issue_of_eq (c := .wait e o) rfl (if_neg (Nat.not_lt.mpr hlo)) hfits
    simpa [immN, Nat.succ_le_of_lt hlo, Dev.engIllegal_eq_endedBy] using hgives
  case timers =>
    intro d x dl
    refine ⟨fun hlo => ?arm, fun hlo => ?disarm⟩
    case arm =>
      obtain ⟨hhigh, hmid, hkind, htimer, hinput⟩ := timer_fields false hlo
      have hgives := gives_of_issue (c := .arm e o) rfl hfits
      simp only [hd, hpc, immN, hhigh, hmid, hkind, htimer, hinput, bne_self_eq_false, Bool.not_true, Bool.or_self,
        Bool.false_eq_true, if_false] at hgives
      refine ⟨fun hahead => ?_, fun hpast => ?_⟩
      · have hok : d.deadlineOk dl = true := decide_eq_true hahead
        rw [if_pos hok] at hgives
        exact givesPred_of_predOnly o.b.isLt hgives
      · have hok : ¬ d.deadlineOk dl = true := by
          rw [Dev.deadlineOk, decide_eq_true_iff]; exact not_le.mpr hpast
        rw [if_neg hok] at hgives
        exact givesPred_of_predOnly o.b.isLt hgives
    case disarm =>
      obtain ⟨hhigh, hmid, hkind, htimer, -⟩ := timer_fields true hlo
      have hgives := gives_of_issue (c := .disarm e o) rfl hfits
      simp only [hd, hpc, immN, hhigh, hmid, hkind, htimer, bne_self_eq_false, Bool.not_true, Bool.or_self,
        Bool.false_eq_true, if_false, if_true] at hgives
      rw [Option.beq_none]
      exact givesPred_of_predOnly o.b.isLt hgives

/-- Settles O10: each instruction is its body after its cycles; the FIFO's head and the target's range decide what that is. -/
theorem eventInstructionResults : Obligations.EventInstructionResults := by
  refine fun e o s => ⟨?evtest, ?evclear, ?signal, ?signalAddress⟩
  case evtest =>
    intro ha hpc (hlo : immN o < 16) hfits d q
    obtain ⟨y, hgives, hwrote⟩ := wrote_of_alu' (c := .evtest e o) rfl (by simp [ha, hpc, hlo]) hfits
    refine ⟨y, hgives, ?_⟩
    cases hq : ((s.dev.quiet.spend e 2).tin (16 * e + immN o)).fifo with
    | nil =>
      rw [show q = [] from hq]
      simp only [hq] at hwrote
      exact hwrote
    | cons v rest =>
      rw [show q = v :: rest from hq]
      simp only [hq] at hwrote
      exact hwrote
  case evclear =>
    intro hd ha hpc hlo hfits d i q rest
    have hgives := gives_of_issue (c := .evclear e o) rfl hfits
    simp only [hd, ha, hpc, immN, Nat.not_le.mpr hlo, decide_false, bne_self_eq_false, Bool.not_true, Bool.or_self,
      Bool.false_eq_true, if_false] at hgives
    have hempty : rest.isEmpty = (rest == []) := by cases rest <;> rfl
    rw [← hempty]
    exact givesPred_of_predOnly o.b.isLt hgives
  case signal =>
    intro hd hb hlo hfits d t ht d'
    have hgives := gives_signal hd hb hlo hfits
    rwa [if_neg (Nat.not_le.mpr ht)] at hgives
  case signalAddress =>
    intro hd hb hlo hfits ht
    have hgives := gives_signal hd hb hlo hfits
    rwa [if_pos ht] at hgives

end Sys2Proof.Machine
end

section
/-! SUPPORT and proofs. The step and the queue, and the state after POWER (R334). -/

namespace Sys2Proof.Machine

/-- Every command's meaning is a function of the device: it answers a next state and leaves the queue. -/
theorem exists_gives (c : Instr) (s : State) : ∃ d, Gives c s d := by
  cases c <;> exact ⟨_, rfl⟩

/-- Settles O58: every arm of `exec` is a `State.run`, which answers a next state with the queue as it was. -/
theorem everyCommandCompletes : Obligations.EveryCommandCompletes := exists_gives

/-- Settles O56, by the two equations of `step`. -/
theorem stepRunsTheFrontCommand : Obligations.StepRunsTheFrontCommand :=
  ⟨step_cons, step_nil⟩

/-- Settles O59: the front command answers a next state and leaves the rest of the queue, whose commands are well formed as before. -/
theorem stepsKeepTheQueueWellFormed : Obligations.StepsKeepTheQueueWellFormed := by
  intro s hok
  cases hq : s.pending with
  | nil => exact ⟨s, step_nil s hq, hok, by rw [hq]; rfl, fun _ => rfl⟩
  | cons c rest =>
    obtain ⟨d, hgives⟩ := exists_gives c { s with pending := rest }
    refine ⟨_, (step_cons s c rest hq).trans hgives, fun x hx => hok x ?_, rfl, fun h => nomatch h⟩
    rw [hq]
    exact List.mem_cons_of_mem c hx

/-- No command waits after POWER. -/
theorem State.reset_queueOk : State.reset.queueOk := fun _ h => absurd h List.not_mem_nil

/-- Settles O57: the state after POWER lists nothing, so every table answers its reset value. -/
theorem resetState : Obligations.ResetState := by
  have hregisters (e : Nat) (r : Fin 16) : (State.reset.dev.eng e).rg r = 0 := by
    fin_cases r <;> rfl
  have hstopped : State.reset.dev.flag F.FLT_STATE.STOPPED = false := by decide
  have hloops : ∀ l : Fin 33, State.reset.dev.get F.LOOP_STATE.STATE l = 0 := by decide
  exact ⟨rfl, State.reset_queueOk, rfl, rfl, rfl, rfl, rfl, rfl, hstopped, hregisters, fun _ => rfl, fun _ => rfl, hloops,
    fun _ => rfl, by decide, by decide⟩

end Sys2Proof.Machine
end

section
/-! SUPPORT and proofs. Arithmetic, logic, shifts and the accumulator (R50, R57, R58, R61, R80). -/

namespace Sys2Proof.Machine

/-! ## Sums, differences and the smaller or larger operand (R57) -/

theorem decide_lt_eq_slt (a b : DWord) : decide (a.toInt < b.toInt) = a.slt b := (BitVec.slt_eq_decide).symm

/-- R57: signed overflow is that the exact sum does not fit in 64 signed bits. -/
theorem resAdd_eq (a b : DWord) : resAdd a b = ⟨a + b, outside64 (a.toInt + b.toInt)⟩ := by
  have hs : BitVec.saddOverflow a b = outside64 (a.toInt + b.toInt) := by
    rw [Bool.eq_iff_iff]
    simp only [BitVec.saddOverflow, outside64, Bool.or_eq_true, decide_eq_true_iff]
    omega
  rw [resAdd, hs]

theorem resSub_eq (a b : DWord) : resSub a b = ⟨a - b, outside64 (a.toInt - b.toInt)⟩ := by
  have hs : BitVec.ssubOverflow a b = outside64 (a.toInt - b.toInt) := by
    rw [Bool.eq_iff_iff]
    simp only [BitVec.ssubOverflow, outside64, Bool.or_eq_true, decide_eq_true_iff]
    omega
  rw [resSub, hs]

theorem resMin_eq (a b : DWord) :
    resMin a b = ⟨if b.toInt < a.toInt then b else a, decide (b.toInt < a.toInt)⟩ := by
  by_cases h : b.toInt < a.toInt <;> simp [resMin, ← decide_lt_eq_slt, h]

theorem resMax_eq (a b : DWord) :
    resMax a b = ⟨if a.toInt < b.toInt then b else a, decide (a.toInt < b.toInt)⟩ := by
  by_cases h : a.toInt < b.toInt <;> simp [resMax, ← decide_lt_eq_slt, h]

theorem aluPc_lt (imm : Bool) (o : EOp) : aluPc imm o < 16 := by
  cases imm
  · exact pcR_lt o
  · exact o.b.isLt

/-- Settles O1: each instruction is one use of the arithmetic frame, its result rewritten as the statement gives it. -/
theorem addSubMinMaxResults : Obligations.AddSubMinMaxResults := by
  intro e imm o hok pc a b
  exact ⟨computes_of_alu (fun _ => rfl) hok (aluPc_lt imm o) fun x => resAdd_eq (a x) (b x),
    computes_of_alu (fun _ => rfl) hok (aluPc_lt imm o) fun x => resSub_eq (a x) (b x),
    computes_of_alu (fun _ => rfl) hok (aluPc_lt imm o) fun x => resMin_eq (a x) (b x),
    computes_of_alu (fun _ => rfl) hok (aluPc_lt imm o) fun x => resMax_eq (a x) (b x)⟩

/-! ## Shifts (R57): S says that a 1 bit was shifted out -/

/-- The bits above the n lowest places of the 64 are not all 0 exactly where the shifted number needs more than 64 bits. -/
theorem resShl_eq (a : DWord) {n : Nat} (hn : n < 64) :
    resShl a n = ⟨BitVec.ofNat 64 (a.toNat * 2 ^ n), decide (2 ^ 64 ≤ a.toNat * 2 ^ n)⟩ := by
  have hval : a <<< n = BitVec.ofNat 64 (a.toNat * 2 ^ n) := by
    apply BitVec.eq_of_toNat_eq
    rw [BitVec.toNat_shiftLeft, Nat.shiftLeft_eq, BitVec.toNat_ofNat]
  have hpow : 2 ^ 64 = 2 ^ (64 - n) * 2 ^ n := by rw [← Nat.pow_add]; congr 1; omega
  have hs : (a.toNat / 2 ^ (64 - n) != 0) = decide (2 ^ 64 ≤ a.toNat * 2 ^ n) := by
    rw [Bool.eq_iff_iff, bne_iff_ne, decide_eq_true_iff, hpow, Nat.mul_le_mul_right_iff (by positivity), Ne,
      Nat.div_eq_zero_iff_lt (by positivity), not_lt]
  rw [resShl, hval, hs]

theorem bne_zero_eq_decide (n : Nat) : (n != 0) = decide (n ≠ 0) := by
  rw [Bool.eq_iff_iff, bne_iff_ne, decide_eq_true_iff]

theorem resShr_eq (a : DWord) (n : Nat) :
    resShr a n = ⟨BitVec.ofNat 64 (a.toNat / 2 ^ n), decide (a.toNat % 2 ^ n ≠ 0)⟩ := by
  have hval : a >>> n = BitVec.ofNat 64 (a.toNat / 2 ^ n) := by
    apply BitVec.eq_of_toNat_eq
    rw [BitVec.toNat_ushiftRight, Nat.shiftRight_eq_div_pow, BitVec.toNat_ofNat,
      Nat.mod_eq_of_lt ((Nat.div_le_self _ _).trans_lt a.isLt)]
  rw [resShr, hval, bne_zero_eq_decide]

theorem resSar_eq (a : DWord) (n : Nat) :
    resSar a n = ⟨BitVec.ofInt 64 (a.toInt / 2 ^ n), decide (a.toNat % 2 ^ n ≠ 0)⟩ := by
  rw [resSar, BitVec.sshiftRight, Int.shiftRight_eq_div_pow, bne_zero_eq_decide, Nat.cast_pow, Nat.cast_ofNat]

/-- Settles O2: each instruction is one use of the arithmetic frame; the shifts' numbers are below 64. -/
theorem logicAndShiftResults : Obligations.LogicAndShiftResults := by
  intro e imm o hok pc a b n
  have hlogic {c : Instr} {r : DWord → DWord → DWord}
      (hexec : ∀ s, exec c s = s.run fun d => d.aluLogic e imm o fun x y => ⟨r x y, false⟩) :
      Computes c e 1 o.d pc (fun x => r (a x) (b x)) fun _ => false :=
    computes_of_alu hexec hok (aluPc_lt imm o) fun _ => rfl
  refine ⟨⟨hlogic fun _ => rfl, hlogic fun _ => rfl, hlogic fun _ => rfl⟩, fun himm => ?_⟩
  have hfields : (aluOk imm o && (!imm || decide (immN o < 64))) = true := by
    cases imm
    · simp [hok]
    · simp [hok, immN, himm]
  have hn (x : Engine) : n x < 64 := by
    cases imm
    · exact Nat.mod_lt _ (by decide)
    · exact himm rfl
  exact ⟨computes_of_alu (fun _ => rfl) hfields (aluPc_lt imm o) fun x => resShl_eq (a x) (hn x),
    computes_of_alu (fun _ => rfl) hfields (aluPc_lt imm o) fun x => resShr_eq (a x) (n x),
    computes_of_alu (fun _ => rfl) hfields (aluPc_lt imm o) fun x => resSar_eq (a x) (n x)⟩

/-! ## The accumulator (R61), nop, clracc and fault -/

theorem accMac_eq (acc : BitVec 128) (a b : DWord) :
    accMac acc a b = BitVec.ofInt 128 (acc.toInt + a.toInt * b.toInt) := by
  rw [accMac, BitVec.ofInt_add, BitVec.ofInt_toInt]

theorem bne_eq_decide_ne (x y : Int) : (x != y) = decide (x ≠ y) := by
  rw [Bool.eq_iff_iff, bne_iff_ne, decide_eq_true_iff]

/-- R54, R80: fault raises ENG_SOFT with its immediate, and the dispatch goes on. -/
theorem does_fault {e : Eng} {o : EOp} (hd : o.d = 0) (ha : o.a = 0) (hb : o.b = 0) (hlo : o.lo.toNat < 256) :
    Does (.fault e o) e 2 fun d => (d.fault 39 e (d.engDetail e / 256 * 256 + (d.eng e).run.getD 0 * 2 ^ 12 + o.lo.toNat)).advance e := by
  intro s hfits
  have hgives := gives_of_issue (c := .fault e o) rfl hfits
  simpa [hd, ha, hb, immN, Nat.not_le.mpr hlo] using hgives

/-- Settles O4: nop, clracc and fault are their bodies after their cycles; mac and macs write the accumulator, then a predicate. -/
theorem accumulatorAndNopResults : Obligations.AccumulatorAndNopResults := by
  refine fun e imm o => ⟨?nop, ?reserved, ?clracc, fun hd ha hb hlo => ?fault, ?macs⟩
  case nop => exact fun s hfits => gives_of_issue (c := .nop e ⟨0, ⟨0, 0, 0, 0⟩⟩) rfl hfits
  case reserved =>
    intro k hk s hfits
    have hgives := gives_of_issue (c := .nop e ⟨k, o⟩) rfl hfits
    rwa [if_neg (fun h => hk h.1)] at hgives
  case clracc => exact fun s hfits => gives_of_issue (c := .clracc e ⟨0, 0, 0, 0⟩) rfl hfits
  case fault => exact does_fault hd ha hb hlo
  case macs =>
    intro hok hd pc sum clamp
    have hfields : (aluOk imm o && o.d == 0) = true := by simp [hok, hd]
    refine ⟨fun s hfits => ?_, fun s hfits => ?_⟩
    · have hgives := gives_of_issue (c := .mac e imm o) rfl hfits
      rw [if_pos hfields] at hgives
      simp only [← accMac_eq, sum]
      exact givesPred_of_predOnly (aluPc_lt imm o) hgives
    · have hgives := gives_of_issue (c := .macs e imm o) rfl hfits
      rw [if_pos hfields] at hgives
      simp only [← bne_eq_decide_ne]
      exact givesPred_of_predOnly (aluPc_lt imm o) hgives

end Sys2Proof.Machine
end

section
/-! SUPPORT. What the fault block, triggers and task events leave unchanged: every part of the device but their own records (R41, R215,
R308). -/

namespace Sys2Proof.Machine

/-- The parts of the device that a detection, a trigger and a task event leave as they are; the others are blanked. -/
def Dev.still (d : Dev) : Dev :=
  { d with
    regs := [], fresh := [], freshAt := 0, outs := [], tasks := [], tins := [], flt := Flt.reset, outcs := [], evts := [],
    trs := [], frm := Frm.reset, host := { d.host with msix := [] } }

@[simp] theorem Dev.still_mk
    regs acc staged latch half tick tickOn cycle free fresh freshAt outs engs tasks tins cluss dispatchOn lastStart ageFrom vat
    grants stagedTabs flt mons sels loops slals syns outcs bankBad supplyBad rrefs rwords sensors hot xoHz time ctxs evts pi
    tdcs mss sts trs frm kl ream boot host test base :
    (Dev.mk
      regs acc staged latch half tick tickOn cycle free fresh freshAt outs engs tasks tins cluss dispatchOn lastStart ageFrom
      vat grants stagedTabs flt mons sels loops slals syns outcs bankBad supplyBad rrefs rwords sensors hot xoHz time ctxs evts
      pi tdcs mss sts trs frm kl ream boot host test base).still =
    Dev.mk
      [] acc staged latch half tick tickOn cycle free [] 0 [] engs [] [] cluss dispatchOn lastStart ageFrom vat grants
      stagedTabs Flt.reset mons sels loops slals syns [] bankBad supplyBad rrefs rwords sensors hot xoHz time ctxs [] pi tdcs
      mss sts [] Frm.reset kl ream boot { host with msix := [] } test base := (rfl)

@[simp] theorem Dev.still_fields (d : Dev) :
    Dev.mk
      [] d.acc d.staged d.latch d.half d.tick d.tickOn d.cycle d.free [] 0 [] d.engs [] [] d.cluss d.dispatchOn d.lastStart
      d.ageFrom d.vat d.grants d.stagedTabs Flt.reset d.mons d.sels d.loops d.slals d.syns [] d.bankBad d.supplyBad d.rrefs
      d.rwords d.sensors d.hot d.xoHz d.time d.ctxs [] d.pi d.tdcs d.mss d.sts [] Frm.reset d.kl d.ream d.boot { d.host with
      msix := [] } d.test d.base =
      d.still := (rfl)

@[simp] theorem Dev.still_ite (c : Prop) [Decidable c] (d e : Dev) : (if c then d else e).still = if c then d.still else e.still :=
  apply_ite ..

@[simp] theorem Dev.still_foldl {α : Type} (f : Dev → α → Dev) (hf : ∀ d x, (f d x).still = d.still) (l : List α) (d : Dev) :
    (l.foldl f d).still = d.still := by
  induction l generalizing d with
  | nil => rfl
  | cons x r ih => exact (ih _).trans (hf d x)

@[simp] theorem Dev.still_foldl_fst {α β : Type} (f : Dev × β → α → Dev × β) (hf : ∀ p x, (f p x).1.still = p.1.still) (l : List α)
    (p : Dev × β) : (l.foldl f p).1.still = p.1.still := by
  induction l generalizing p with
  | nil => rfl
  | cons x r ih => exact (ih _).trans (hf p x)

@[simp] theorem Dev.fst_ite {β : Type} (c : Prop) [Decidable c] (p q : Dev × β) : (if c then p else q).1 = if c then p.1 else q.1 :=
  apply_ite Prod.fst ..

/-! ## The register file and the sub-objects -/

@[simp] theorem Dev.wr_still (d : Dev) (r : Reg) (v : Nat) (n : Nat) : (d.wr r v n).still = d.still := (rfl)

@[simp] theorem Dev.put_still (d : Dev) (f : Fld) (v : Nat) (n : Nat) : (d.put f v n).still = d.still := (rfl)

@[simp] theorem Dev.putB_still (d : Dev) (f : Fld) (v : Bool) (n : Nat) : (d.putB f v n).still = d.still := (rfl)

@[simp] theorem Dev.incSat_still (d : Dev) (f : Fld) (n : Nat) (by' : Nat) : (d.incSat f n by').still = d.still := (rfl)

@[simp] theorem Dev.incWrap_still (d : Dev) (f : Fld) (n : Nat) (by' : Nat) : (d.incWrap f n by').still = d.still := (rfl)

@[simp] theorem Dev.put64_still (d : Dev) (lo hi : Fld) (v : Nat) (n : Nat) : (d.put64 lo hi v n).still = d.still := (rfl)

@[simp] theorem Dev.emit_still (d : Dev) (o : Out) : (d.emit o).still = d.still := (rfl)

@[simp] theorem Dev.setTask_still (d : Dev) (t : Nat) (x : Task) : (d.setTask t x).still = d.still := (rfl)

@[simp] theorem Dev.setTin_still (d : Dev) (i : Nat) (x : TaskIn) : (d.setTin i x).still = d.still := (rfl)

@[simp] theorem Dev.noteSet_still (d : Dev) (key mask : Nat) : (d.noteSet key mask).still = d.still := (rfl)

@[simp] theorem Dev.setW1c_still (d : Dev) (f : Fld) (n : Nat) : (d.setW1c f n).still = d.still := (rfl)

/-! ## Task events and safe states -/

@[simp] theorem Dev.makeReady_still (d : Dev) (t : Nat) : (d.makeReady t).still = d.still := by
  simp [Dev.makeReady]

@[simp] theorem Dev.taskEvent_still (d : Dev) (e i source : Nat) : (d.taskEvent e i source).still = d.still := by
  simp [Dev.taskEvent]

@[simp] theorem Dev.event_still (d : Dev) (n : Nat) : (d.event n).still = d.still := by
  simp [Dev.event]

@[simp] theorem Dev.setOutc_still (d : Dev) (k : Nat) (x : OutCh) : (d.setOutc k x).still = d.still := (rfl)

@[simp] theorem Dev.safeEnter_still (d : Dev) (k : Nat) : (d.safeEnter k).still = d.still := by
  simp [Dev.safeEnter]

@[simp] theorem Dev.safeEnterFor_still (d : Dev) (source : Nat) : (d.safeEnterFor source).still = d.still := by
  simp [Dev.safeEnterFor]

/-! ## Trace recorders -/

@[simp] theorem Dev.setTr_still (d : Dev) (r : Nat) (x : TraceRec) : (d.setTr r x).still = d.still := (rfl)

@[simp] theorem Dev.trProduce_still (d : Dev) (r : Nat) (bytes : List Byte) : (d.trProduce r bytes).still = d.still := by
  simp [Dev.trProduce]

@[simp] theorem Dev.trStream_still (d : Dev) (kind src : Nat) (bytes : List Byte) :
    (d.trStream kind src bytes).still = d.still := by
  simp [Dev.trStream]

@[simp] theorem Dev.trPre_still (d : Dev) (r : Nat) : (d.trPre r).still = d.still := (rfl)

@[simp] theorem Dev.trPost_still (d : Dev) (r src tick s32 : Nat) (queued : Bool) : (d.trPost r src tick s32 queued).still = d.still := (rfl)

@[simp] theorem Dev.trMiss_still (d : Dev) (r src : Nat) : (d.trMiss r src).1.still = d.still := by
  simp [Dev.trMiss]

@[simp] theorem Dev.trTrigger_still (d : Dev) (r src : Nat) : (d.trTrigger r src).1.still = d.still := by
  unfold Dev.trTrigger
  split <;> simp

@[simp] theorem Dev.trSource_still (d : Dev) (trig ix : Nat) : (d.trSource trig ix).1.still = d.still := by
  simp [Dev.trSource]

/-! ## Faults and interrupts -/

@[simp] theorem Dev.bar2Put_still (d : Dev) (f x : Nat) (b : Byte) : (d.bar2Put f x b).still = d.still := (rfl)

@[simp] theorem Dev.msixMark_still (d : Dev) (f v : Nat) (on : Bool) : (d.msixMark f v on).still = d.still := (rfl)

@[simp] theorem Dev.msixEmit_still (d : Dev) (f v : Nat) : (d.msixEmit f v).still = d.still := (rfl)

@[simp] theorem Dev.msixSend_still (d : Dev) (f v : Nat) : (d.msixSend f v).still = d.still := by
  simp [Dev.msixSend]

@[simp] theorem Dev.msixFlush_still (d : Dev) (f : Nat) : (d.msixFlush f).still = d.still := by
  simp [Dev.msixFlush]

@[simp] theorem Dev.irqRefresh_still (d : Dev) : (d.irqRefresh).still = d.still := by
  simp [Dev.irqRefresh]

@[simp] theorem Dev.irqSet_still (d : Dev) (f : Fld) : (d.irqSet f).still = d.still := by
  simp [Dev.irqSet]

@[simp] theorem Dev.logQueue_still (d : Dev) (e : LogEntry) : (d.logQueue e).still = d.still := by
  simp [Dev.logQueue]

@[simp] theorem Dev.faultPulse_still (d : Dev) : (d.faultPulse).still = d.still := by
  simp [Dev.faultPulse]

@[simp] theorem Dev.framesStop_still (d : Dev) : (d.framesStop).still = d.still := (rfl)

@[simp] theorem Dev.enterStopped_still (d : Dev) : (d.enterStopped).still = d.still := by
  simp [Dev.enterStopped]

@[simp] theorem Dev.setEvt_still (d : Dev) (p : Nat) (x : Evt) : (d.setEvt p x).still = d.still := (rfl)

@[simp] theorem Dev.evtDrive_still (d : Dev) (p : Nat) (lvl : Bool) (at' : Int) : (d.evtDrive p lvl at').still = d.still := by
  simp [Dev.evtDrive]

@[simp] theorem Dev.evtFaults_still (d : Dev) : (d.evtFaults).still = d.still := by
  simp [Dev.evtFaults]

@[simp] theorem Dev.firstNote_still (d : Dev) (s : Nat) : (d.firstNote s).still = d.still := by
  simp [Dev.firstNote]

@[simp] theorem Dev.detectOne_still (d : Dev) (s inst detail : Nat) (forced : Bool) (wasActive : Bool) :
    (d.detectOne s inst detail forced wasActive).still = d.still := by
  simp [Dev.detectOne]

@[simp] theorem Dev.trMissed_still (d : Dev) (rs : List Nat) : (d.trMissed rs).still = d.still := by
  simp [Dev.trMissed]

@[simp] theorem Dev.trHit_still (d : Dev) (trig ix : Nat) : (d.trHit trig ix).still = d.still := by
  simp [Dev.trHit]

@[simp] theorem Dev.ueNote_still (d : Dev) (w origin : Nat) : (d.ueNote w origin).still = d.still := (rfl)

@[simp] theorem Dev.detectHit_still (d : Dev) (s inst detail : Nat) (forced : Bool) (wasActive : Bool) :
    (d.detectHit s inst detail forced wasActive).still = d.still := by
  simp [Dev.detectHit]

@[simp] theorem Dev.mapTouch_still (d : Dev) : (d.mapTouch).still = d.still := by
  unfold Dev.mapTouch
  dsimp only
  split <;> simp

@[simp] theorem Dev.detect_still (d : Dev) (s inst detail : Nat) (forced : Bool) (wasActive : Bool) :
    (d.detect s inst detail forced wasActive).still = d.still := by
  simp [Dev.detect]

@[simp] theorem Dev.fault_still (d : Dev) (s : Nat) (inst : Nat) (detail : Nat) : (d.fault s inst detail).still = d.still := by
  simp [Dev.fault]

@[simp] theorem Dev.levelOn_still (d : Dev) (s : Nat) (inst : Nat) (detail : Nat) :
    (d.levelOn s inst detail).still = d.still := by
  simp [Dev.levelOn]

@[simp] theorem Dev.levelOff_still (d : Dev) (s : Nat) (inst : Nat) : (d.levelOff s inst).still = d.still := (rfl)

@[simp] theorem Dev.levelSet_still (d : Dev) (s inst : Nat) (on : Bool) : (d.levelSet s inst on).still = d.still := by
  simp [Dev.levelSet]

@[simp] theorem Dev.clearStatus_still (d : Dev) (g mask : Nat) : (d.clearStatus g mask).still = d.still := by
  simp [Dev.clearStatus]

@[simp] theorem Dev.forceWrite_still (d : Dev) (g w : Nat) : (d.forceWrite g w).still = d.still := by
  simp [Dev.forceWrite]

@[simp] theorem Dev.refuse_still (d : Dev) (path off : Nat) (r : Reason) : (d.refuse path off r).still = d.still := by
  simp [Dev.refuse]

end Sys2Proof.Machine
end

section
/-! SUPPORT. What the Vat's accesses leave unchanged (R64, R90, R97 to R100): a store changes the Vat and the records of errors; a write
by a program or a host also queues, grants and the marks of loops. -/

namespace Sys2Proof.Machine

/-! ## Reads and stores -/

/-- The parts of the device that a store in the Vat leaves as they are. -/
def Dev.outsideVat (d : Dev) : Dev := { d.still with vat := Vat.reset }

@[simp] theorem Dev.outsideVat_mk
    regs acc staged latch half tick tickOn cycle free fresh freshAt outs engs tasks tins cluss dispatchOn lastStart ageFrom vat
    grants stagedTabs flt mons sels loops slals syns outcs bankBad supplyBad rrefs rwords sensors hot xoHz time ctxs evts pi
    tdcs mss sts trs frm kl ream boot host test base :
    (Dev.mk
      regs acc staged latch half tick tickOn cycle free fresh freshAt outs engs tasks tins cluss dispatchOn lastStart ageFrom
      vat grants stagedTabs flt mons sels loops slals syns outcs bankBad supplyBad rrefs rwords sensors hot xoHz time ctxs evts
      pi tdcs mss sts trs frm kl ream boot host test base).outsideVat =
    Dev.mk
      [] acc staged latch half tick tickOn cycle free [] 0 [] engs [] [] cluss dispatchOn lastStart ageFrom Vat.reset grants
      stagedTabs Flt.reset mons sels loops slals syns [] bankBad supplyBad rrefs rwords sensors hot xoHz time ctxs [] pi tdcs
      mss sts [] Frm.reset kl ream boot { host with msix := [] } test base := (rfl)

@[simp] theorem Dev.outsideVat_fields (d : Dev) :
    Dev.mk
      [] d.acc d.staged d.latch d.half d.tick d.tickOn d.cycle d.free [] 0 [] d.engs [] [] d.cluss d.dispatchOn d.lastStart
      d.ageFrom Vat.reset d.grants d.stagedTabs Flt.reset d.mons d.sels d.loops d.slals d.syns [] d.bankBad d.supplyBad d.rrefs
      d.rwords d.sensors d.hot d.xoHz d.time d.ctxs [] d.pi d.tdcs d.mss d.sts [] Frm.reset d.kl d.ream d.boot { d.host with
      msix := [] } d.test d.base =
      d.outsideVat := (rfl)

theorem Dev.outsideVat_of_still {d e : Dev} (h : d.still = e.still) : d.outsideVat = e.outsideVat :=
  congrArg (fun x : Dev => { x with vat := Vat.reset }) h

@[simp] theorem Dev.outsideVat_ite (c : Prop) [Decidable c] (d e : Dev) :
    (if c then d else e).outsideVat = if c then d.outsideVat else e.outsideVat := apply_ite ..

@[simp] theorem Dev.outsideVat_foldl {α : Type} (f : Dev → α → Dev) (hf : ∀ d x, (f d x).outsideVat = d.outsideVat) (l : List α)
    (d : Dev) : (l.foldl f d).outsideVat = d.outsideVat := by
  induction l generalizing d with
  | nil => rfl
  | cons x r ih => exact (ih _).trans (hf d x)

@[simp] theorem Dev.ueRecord_still (d : Dev) (w origin : Nat) : (d.ueRecord w origin).still = d.still := by
  simp [Dev.ueRecord]

@[simp] theorem Dev.poisonKept_still (d : Dev) : d.poisonKept.still = d.still := by
  simp [Dev.poisonKept]

@[simp] theorem Dev.ceCount_still (d : Dev) : d.ceCount.still = d.still := by
  simp [Dev.ceCount]

@[simp] theorem Dev.eccRead_still (d : Dev) (origin w : Nat) : (d.eccRead origin w).still = d.still := by
  simp [Dev.eccRead]

/-- R97: reading the Vat changes only the records of errors. -/
@[simp] theorem Dev.vatTouch_still (d : Dev) (a n origin : Nat) : (d.vatTouch a n origin).still = d.still := by
  simp [Dev.vatTouch]

@[simp] theorem Dev.eccWrite_outsideVat (d : Dev) (a n w : Nat) : (d.eccWrite a n w).outsideVat = d.outsideVat := by
  unfold Dev.eccWrite
  split
  · rfl
  · split
    · exact Dev.outsideVat_of_still (by simp)
    · split
      · exact (Dev.outsideVat_of_still (Dev.ceCount_still _)).trans rfl
      · rfl

/-- R84, R98: a store changes the Vat and the records of errors. -/
@[simp] theorem Dev.vatStore_outsideVat (d : Dev) (a : Nat) (l : List Byte) : (d.vatStore a l).outsideVat = d.outsideVat :=
  (Dev.outsideVat_foldl _ (fun d w => d.eccWrite_outsideVat a l.length w) _ _).trans rfl

@[simp] theorem Dev.vatPoison_outsideVat (d : Dev) (a : Nat) (l : List Byte) : (d.vatPoison a l).outsideVat = d.outsideVat :=
  (Dev.outsideVat_foldl _ (fun d w => by dsimp only; split <;> rfl) _ _).trans rfl

@[simp] theorem Dev.vatPut_outsideVat (d : Dev) (a n v : Nat) : (d.vatPut a n v).outsideVat = d.outsideVat :=
  d.vatStore_outsideVat a _

/-- R225: showing the entries of contexts changes the Vat only. -/
@[simp] theorem Dev.ctxShow_outsideVat (d : Dev) (a n : Nat) : (d.ctxShow a n).outsideVat = d.outsideVat := by
  unfold Dev.ctxShow
  extract_lets b i j
  split
  · rfl
  · refine Dev.outsideVat_foldl _ (fun d m => ?_) _ d
    split
    · rfl
    · exact d.vatStore_outsideVat _ _

/-! ## Writes by programs and hosts (R64, R90, R345) -/

/-- An engine without its uncommitted queue operations. -/
def Engine.unqueued (x : Engine) : Engine := { x with qops := [] }

/-- The parts of the device that a write by a program or a host leaves as they are. -/
def Dev.kept (d : Dev) : Dev :=
  { d.outsideVat with grants := [], loops := [], engs := d.engs.map fun p => (p.1, p.2.unqueued) }

@[simp] theorem Dev.kept_mk
    regs acc staged latch half tick tickOn cycle free fresh freshAt outs engs tasks tins cluss dispatchOn lastStart ageFrom vat
    grants stagedTabs flt mons sels loops slals syns outcs bankBad supplyBad rrefs rwords sensors hot xoHz time ctxs evts pi
    tdcs mss sts trs frm kl ream boot host test base :
    (Dev.mk
      regs acc staged latch half tick tickOn cycle free fresh freshAt outs engs tasks tins cluss dispatchOn lastStart ageFrom
      vat grants stagedTabs flt mons sels loops slals syns outcs bankBad supplyBad rrefs rwords sensors hot xoHz time ctxs evts
      pi tdcs mss sts trs frm kl ream boot host test base).kept =
    Dev.mk
      [] acc staged latch half tick tickOn cycle free [] 0 [] (engs.map fun p => (p.1, p.2.unqueued)) [] [] cluss dispatchOn
      lastStart ageFrom Vat.reset [] stagedTabs Flt.reset mons sels [] slals syns [] bankBad supplyBad rrefs rwords sensors hot
      xoHz time ctxs [] pi tdcs mss sts [] Frm.reset kl ream boot { host with msix := [] } test base := (rfl)

@[simp] theorem Dev.kept_fields (d : Dev) :
    Dev.mk
      [] d.acc d.staged d.latch d.half d.tick d.tickOn d.cycle d.free [] 0 [] (d.engs.map fun p => (p.1, p.2.unqueued)) [] []
      d.cluss d.dispatchOn d.lastStart d.ageFrom Vat.reset [] d.stagedTabs Flt.reset d.mons d.sels [] d.slals d.syns []
      d.bankBad d.supplyBad d.rrefs d.rwords d.sensors d.hot d.xoHz d.time d.ctxs [] d.pi d.tdcs d.mss d.sts [] Frm.reset d.kl
      d.ream d.boot { d.host with msix := [] } d.test d.base =
      d.kept := (rfl)

theorem Dev.kept_of_outsideVat {d e : Dev} (h : d.outsideVat = e.outsideVat) : d.kept = e.kept :=
  congrArg (fun x : Dev => { x with grants := [], loops := [], engs := x.engs.map fun (p : Nat × Engine) => (p.1, p.2.unqueued) }) h

@[simp] theorem Dev.kept_ite (c : Prop) [Decidable c] (d e : Dev) : (if c then d else e).kept = if c then d.kept else e.kept :=
  apply_ite ..

@[simp] theorem Dev.kept_foldl {α : Type} (f : Dev → α → Dev) (hf : ∀ d x, (f d x).kept = d.kept) (l : List α) (d : Dev) :
    (l.foldl f d).kept = d.kept := by
  induction l generalizing d with
  | nil => rfl
  | cons x r ih => exact (ih _).trans (hf d x)

@[simp] theorem Dev.put_kept (d : Dev) (f : Fld) (v n : Nat) : (d.put f v n).kept = d.kept := (rfl)

@[simp] theorem Dev.incSat_kept (d : Dev) (f : Fld) (n by' : Nat) : (d.incSat f n by').kept = d.kept := (rfl)

@[simp] theorem Dev.vatStore_kept (d : Dev) (a : Nat) (l : List Byte) : (d.vatStore a l).kept = d.kept :=
  Dev.kept_of_outsideVat (by simp)

@[simp] theorem Dev.vatPoison_kept (d : Dev) (a : Nat) (l : List Byte) : (d.vatPoison a l).kept = d.kept :=
  Dev.kept_of_outsideVat (by simp)

@[simp] theorem Dev.qSetHead_kept (d : Dev) (q v : Nat) : (d.qSetHead q v).kept = d.kept := d.vatStore_kept _ _

@[simp] theorem Dev.qSetTail_kept (d : Dev) (q v : Nat) : (d.qSetTail q v).kept = d.kept := d.vatStore_kept _ _

@[simp] theorem Dev.qSetDrops_kept (d : Dev) (q v : Nat) : (d.qSetDrops q v).kept = d.kept := d.vatStore_kept _ _

@[simp] theorem Dev.grantUndo_kept (d : Dev) (path : Nat) : (d.grantUndo path).kept = d.kept := (rfl)

@[simp] theorem Dev.vatRefuse_kept (d : Dev) (code index : Nat) : (d.vatRefuse code index).kept = d.kept := (rfl)

@[simp] theorem Dev.setLoop_kept (d : Dev) (n : Nat) (x : Loop) : (d.setLoop n x).kept = d.kept := (rfl)

theorem Engine.unqueued_filtered (x : Engine) (l : List QueueOp) : ({ x with qops := l } : Engine).unqueued = x.unqueued := rfl

/-- R90: emptying a queue drops operations and grants on it, and nothing else. -/
@[simp] theorem Dev.qDrop_kept (d : Dev) (q : Nat) : (d.qDrop q).kept = d.kept := by
  unfold Dev.qDrop
  refine (Dev.kept_foldl _ (fun d g => ?_) _ _).trans ?_
  · split <;> simp
  · rw [← d.qSetHead_kept q (d.qdesc q).tail]
    simp only [Dev.kept_mk, List.map_map, Function.comp_def, Engine.unqueued_filtered, Dev.kept_fields]

@[simp] theorem Dev.descWrite_kept (d : Dev) (q : Nat) (l : List Byte) (i j : Nat) : (d.descWrite q l i j).kept = d.kept := by
  unfold Dev.descWrite
  extract_lets a old off bad new x o strip was d1 v d2 d3
  have h1 : d1.kept = d.kept := by simp [d1]
  clear_value d1
  have h2 : d2.kept = d.kept := by
    clear_value off
    cases off <;> exact h1
  clear_value d2
  have h3 : d3.kept = d.kept := by simp [d3, h2]
  clear_value d3
  split
  · simp
  · split
    · simp
    · split
      · simp
      · split
        · exact h3
        · split <;> simp [h2]

@[simp] theorem Dev.userDesc_kept (d : Dev) (a : Nat) (l : List Byte) (q : Nat) : (d.userDesc a l q).kept = d.kept :=
  d.descWrite_kept q _ _ _

@[simp] theorem Dev.markSlots_kept (d : Dev) (a n : Nat) : (d.markSlots a n).kept = d.kept :=
  Dev.kept_foldl _ (fun d l => by dsimp only; split <;> simp) _ d

@[simp] theorem Dev.markServo_kept (d : Dev) (a n : Nat) : (d.markServo a n).kept = d.kept := by
  unfold Dev.markServo
  split <;> simp

section
variable (store : Dev → Nat → List Byte → Dev) (hstore : ∀ d a l, (store d a l).kept = d.kept)
include hstore

theorem Dev.userSplit_kept (d : Dev) (a : Nat) (l : List Byte) : (d.userSplit store a l).kept = d.kept := by
  unfold Dev.userSplit
  refine (Dev.kept_foldl _ (fun d i => d.userDesc_kept _ _ _) _ _).trans ?_
  simp [hstore]

theorem Dev.vatUserWith_kept (d : Dev) (a : Nat) (l : List Byte) : (d.vatUserWith store a l).kept = d.kept := by
  simp [Dev.vatUserWith, Dev.userSplit_kept store hstore, hstore]

end

/-- R64, R345: a write by a program or a host leaves all else as it was. -/
@[simp] theorem Dev.vatUser_kept (d : Dev) (a : Nat) (l : List Byte) : (d.vatUser a l).kept = d.kept :=
  d.vatUserWith_kept _ Dev.vatStore_kept a l

@[simp] theorem Dev.vatUserPoison_kept (d : Dev) (a : Nat) (l : List Byte) : (d.vatUserPoison a l).kept = d.kept :=
  d.vatUserWith_kept _ Dev.vatPoison_kept a l

/-! ## An engine's cycles (R56, R64) -/

theorem Tbl.find?_map {α β : Type} (f : α → β) (t : Tbl α) (k : Nat) :
    Tbl.find? (t.map fun p => (p.1, f p.2)) k = (Tbl.find? t k).map f := by
  induction t with
  | nil => rfl
  | cons p r ih => by_cases h : p.1 = k <;> simp [Tbl.find?, h, ih]

/-- An engine in a device's kept part. -/
theorem Dev.kept_eng (d : Dev) (e : Nat) : d.kept.eng e = (d.eng e).unqueued := by
  have hfind : Tbl.find? d.kept.engs e = (Tbl.find? d.engs e).map Engine.unqueued := Tbl.find?_map _ _ _
  unfold Dev.eng Tbl.getD
  rw [hfind]
  cases Tbl.find? d.engs e <;> rfl

theorem Dev.eng_of_kept {d d' : Dev} (h : d.kept = d'.kept) (e : Nat) : (d.eng e).unqueued = (d'.eng e).unqueued := by
  rw [← Dev.kept_eng, ← Dev.kept_eng, h]

theorem Dev.cluss_of_kept {d d' : Dev} (h : d.kept = d'.kept) : d.cluss = d'.cluss := by
  change d.kept.cluss = d'.kept.cluss
  rw [h]

/-- R64: when vputs complete, their writes leave all else as it was. -/
theorem Dev.vputRetire_kept (d : Dev) (e now : Nat) :
    (d.vputRetire e now).kept =
      (d.setEng e { d.eng e with vputs := (d.eng e).vputs.drop ((d.eng e).vputs.takeWhile fun v => v.doneAt ≤ now).length }).kept :=
  Dev.kept_foldl _ (fun d _ => d.vatUser_kept _ _) _ _

/-- The vputs that an engine has outstanding at a cycle. -/
def Engine.vputsAfter (x : Engine) (now : Nat) : List Vput := x.vputs.drop (x.vputs.takeWhile fun v => v.doneAt ≤ now).length

/-- R64: the engine once its vputs that are done have completed; a write of a descriptor may have dropped queue operations. -/
theorem Dev.eng_vputRetire (d : Dev) (e now : Nat) :
    ((d.vputRetire e now).eng e).unqueued = ({ d.eng e with vputs := (d.eng e).vputsAfter now } : Engine).unqueued := by
  rw [Dev.eng_of_kept (d.vputRetire_kept e now) e, Dev.eng_setEng_self]
  rfl

/-- R36: after an instruction's cycles the engine is as it was, but for its cycle, the vputs that were done and queue operations that
a vput dropped. -/
theorem Dev.eng_spend (d : Dev) (e cost : Nat) :
    ((d.spend e cost).eng e).unqueued =
      ({ d.eng e with cyc := (d.eng e).cyc + cost, vputs := (d.eng e).vputsAfter ((d.eng e).cyc + cost) } : Engine).unqueued := by
  rw [Dev.spend, Dev.eng_vputRetire, Dev.eng_setEng_self]
  rfl

theorem Dev.cluss_spend (d : Dev) (e cost : Nat) : (d.spend e cost).cluss = d.cluss :=
  (Dev.cluss_of_kept (Dev.vputRetire_kept _ _ _)).trans rfl

end Sys2Proof.Machine
end

section
/-! SUPPORT and proofs. Tables and branches of the engines (R56, R57, R69, R71, R72, R79). -/

namespace Sys2Proof.Machine

/-! ## Tables -/

theorem Dev.clus_spend (d : Dev) (e cost c : Nat) : (d.spend e cost).clus c = d.clus c := by
  unfold Dev.clus
  rw [Dev.cluss_spend]

/-- R72: a table instruction reads the live copy that the engine's cluster held when it was issued. -/
theorem gives_of_tableOp {c : Instr} {s : State} {e cost kind : Nat} {o : EOp} {f : List Byte → Engine → Res} {t : List Byte}
    (hexec : exec c s = .next { s with dev := s.dev.quiet.tableOp e cost kind o f }) (hpc : pcOk (pcR o) = true)
    (ht : Tbl.find? (s.dev.clus (e / 32)).live (func o) = some t) (hkind : tableKind t = kind) (hfits : s.dev.quiet.fits e cost) :
    let d := s.dev.quiet.spend e cost
    ∃ y, Gives c s (d.setEng e y) ∧
      (d.eng e).wrote y o.d (pcR o) (f t (d.eng e)).val (f t (d.eng e)).s := by
  intro d
  have hgives := gives_of_issue hexec hfits
  have hlive : Tbl.find? ((s.dev.quiet.spend e cost).clus (e / 32)).live (func o) = some t := by
    rw [Dev.clus_spend]; exact ht
  simp only [hpc, hlive, hkind, Bool.not_true, Bool.false_eq_true, if_false, if_true] at hgives
  exact ⟨_, hgives, Engine.write_wrote (d.eng e) o.d (pcR o) _ (pcR_lt o)⟩

/-- Settles O8: both instructions are one use of what a table instruction gives. -/
theorem tableInstructionResults : Obligations.TableInstructionResults := by
  intro e o s t hpc ht
  refine ⟨fun hb hkind hfits => ?tlook, fun hkind hfits => ?tstep⟩
  case tlook =>
    intro d x r
    have hexec : exec (.tlook e o) s = .next { s with dev := s.dev.quiet.tableOp e 12 1 o fun t x =>
        ⟨BitVec.ofInt 64 (curveAt t (toSigned 32 ((x.rg o.a).toNat % 2 ^ 32))).1,
          (curveAt t (toSigned 32 ((x.rg o.a).toNat % 2 ^ 32))).2⟩ } := by
      change Host.Outcome.next _ = _
      simp only [hb, bne_self_eq_false, Bool.false_eq_true, if_false]
      rfl
    have hpoint : toSigned 32 ((x.rg o.a).toNat % 2 ^ 32) = ((x.rg o.a).setWidth 32).toInt := by
      rw [toSigned_eq_toInt]
      congr 1
      apply BitVec.eq_of_toNat_eq
      simp
    obtain ⟨y, hgives, hwrote⟩ := gives_of_tableOp hexec hpc ht hkind hfits
    exact ⟨y, hgives, by simp only [r, ← hpoint]; exact hwrote⟩
  case tstep => exact gives_of_tableOp (c := .tstep e o) rfl hpc ht hkind hfits

/-! ## Branches -/

/-- R52, R79: a branch whose offset leads to an index of the store goes there. -/
theorem Engine.target_eq_some {x : Engine} {o : EOp} {t : Nat} (ht : t < 16384) (h : (x.pc : Int) + o.lo.toInt = t) :
    x.target o = some t := by
  simp only [Engine.target, h]
  rw [if_pos (by omega), Int.toNat_natCast]

/-- R79: a branch whose fields are well formed and whose target lies in the store. -/
theorem gives_of_branch {c : Instr} {s : State} {e cost t : Nat} {ok taken : Bool} {o : EOp}
    (hexec : exec c s = .next { s with dev := s.dev.quiet.branch e ok o taken }) (hok : ok = true) (hb : o.b = 0)
    (hcost : cost = if taken then 2 else 1) (hfits : s.dev.quiet.fits e cost)
    (htarget : ((s.dev.quiet.spend e cost).eng e).target o = some t) :
    let d := s.dev.quiet.spend e cost
    Gives c s (d.setEng e { d.eng e with pc := if taken then t else (d.eng e).pc + 1 }) := by
  intro d
  have hgives := gives_of_issue_of_eq hexec hcost.symm hfits
  simp only [htarget, hok, hb, Bool.not_true, bne_self_eq_false, Bool.or_self, Bool.false_eq_true, if_false, Bool.false_and] at hgives
  cases taken <;> exact hgives

/-- R79: a call whose fields are well formed and whose target lies in the store, while the stack has room. -/
theorem gives_of_call {s : State} {e : Eng} {t : Nat} {o : EOp} (hd : o.d = 0) (ha : o.a = 0) (hb : o.b = 0)
    (hfits : s.dev.quiet.fits e 2) (htarget : ((s.dev.quiet.spend e 2).eng e).target o = some t)
    (hroom : ((s.dev.quiet.spend e 2).eng e).stack.length < 8) :
    let d := s.dev.quiet.spend e 2
    Gives (.call e o) s (d.setEng e { d.eng e with pc := t, stack := ((d.eng e).pc + 1) :: (d.eng e).stack }) := by
  intro d
  have hgives := gives_of_issue (c := .call e o) (cost := 2) rfl hfits
  simpa [htarget, hd, ha, hb, Nat.not_le.mpr hroom] using hgives

/-- R50: the predicate field of bp names a predicate and says whether it is negated. -/
theorem bp_fields {n : Nat} {i : Fin 4} {neg : Bool} (h : n = i.val + if neg then 4 else 0) : n % 4 = i.val ∧ bit n 2 = neg ∧ n < 8 := by
  have hi := i.isLt
  cases neg <;> simp only [if_true, if_false, Bool.false_eq_true] at h <;> simp [bit] <;> omega

/-- R79: the condition of bp. -/
theorem bp_taken {p : Vector Bool 4} {n : Nat} {i : Fin 4} {neg : Bool} (h : n % 4 = i.val) (hneg : bit n 2 = neg) :
    (p[n % 4]'(Nat.mod_lt _ (by decide)) != bit n 2) = (p[i] != neg) := by
  subst hneg
  simp only [h]
  rfl

/-- Settles O11: every branch is one use of what a branch gives, with its own condition. -/
theorem branchResults : Obligations.BranchResults := by
  intro e o s cost t hb hfits x0 d x goes
  refine ⟨fun ht hpc => ?branches, fun ho hcost i r hstack => ?ret⟩
  case branches =>
    have htarget : x.target o = some t := Engine.target_eq_some ht hpc
    have hgoes {c : Instr} {ok taken : Bool} (hexec : exec c s = .next { s with dev := s.dev.quiet.branch e ok o taken })
        (hok : ok = true) : goes c taken := fun hcost => gives_of_branch hexec hok hb hcost hfits htarget
    refine ⟨fun hd ha => ⟨?b, ?call⟩, fun hd => ⟨?bz, ?bnz⟩, fun ha i neg hdi => ?bp⟩
    case b => exact hgoes (c := .b e o) rfl (by simp [hd, ha])
    case call =>
      rintro rfl hroom
      exact gives_of_call hd ha hb hfits htarget hroom
    case bz => exact hgoes (c := .bz e o) rfl (by simp [hd])
    case bnz =>
      refine hgoes (c := .bnz e o) (ok := o.d == 0) ?_ (by simp [hd])
      have htaken : (x0.rg o.a != 0) = decide (x0.rg o.a ≠ 0) := by
        rw [Bool.eq_iff_iff, bne_iff_ne, decide_eq_true_iff]
      rw [← htaken]
      rfl
    case bp =>
      obtain ⟨hi, hneg, hlt⟩ := bp_fields hdi
      refine hgoes (c := .bp e o) (ok := o.a == 0 && o.d.val < 8) ?_ (by simp [ha, hlt])
      rw [← bp_taken hi hneg]
      rfl
  case ret =>
    subst hcost
    have hgives := gives_of_issue (c := .ret e o) rfl hfits
    simpa only [ho, show ((s.dev.quiet.spend e 2).eng e).stack = i :: r from hstack, bne_self_eq_false, Bool.false_eq_true,
      if_false] using hgives

end Sys2Proof.Machine
end

section
/-! SUPPORT and proofs. Queue and register instructions of the engines (R54 to R56, R66, R77, R89). -/

namespace Sys2Proof.Machine

/-! ## The branches of a body -/

theorem gives_of_if_pos {c : Instr} {s : State} {p : Prop} [Decidable p] {a b : Dev} (h : Gives c s (if p then a else b)) (hp : p) :
    Gives c s a := by rwa [if_pos hp] at h

theorem gives_of_if_neg {c : Instr} {s : State} {p : Prop} [Decidable p] {a b : Dev} (h : Gives c s (if p then a else b))
    (hp : ¬p) : Gives c s b := by rwa [if_neg hp] at h

/-! ## Accesses whose cycles the spec bounds (R55, log entry 6) -/

/-- R55: a Vat access takes between one cycle and its bound, and gives what its body makes of the device after them. -/
theorem gives_of_vatIssue {c : Instr} {s : State} {e bound : Nat} {body : Dev → Dev}
    (hexec : exec c s = .next { s with dev := s.dev.quiet.vatIssue e bound body })
    (hfits : s.dev.quiet.freeNext.fits e (s.dev.quiet.latency bound)) :
    Gives c s (body (s.dev.quiet.freeNext.spend e (s.dev.quiet.latency bound))) := by
  have hrunning : s.dev.quiet.running e = true := hfits.1
  unfold Gives
  rw [hexec, Dev.vatIssue, if_pos hrunning, Dev.issue_fits _ _ _ _ hfits]

theorem Dev.latency_pos (d : Dev) (bound : Nat) : 1 ≤ d.latency bound := Nat.le_add_right 1 _

theorem Dev.latency_le (d : Dev) {bound : Nat} (h : 0 < bound) : d.latency bound ≤ bound := by
  have hmod := Nat.mod_lt d.freeVal h
  unfold Dev.latency
  omega

theorem latV_pos (cls : Nat) : 0 < latV cls := by
  unfold latV; split <;> [decide; (split <;> decide)]

theorem latQ_pos (cls : Nat) : 0 < latQ cls := by
  unfold latQ; split <;> [decide; (split <;> decide)]

/-! ## Uncommitted queue operations (R66, R67) -/

/-- The operation is of that kind on that queue. -/
def QueueOp.on (q : Nat) (push : Bool) (o : QueueOp) : Bool := o.queue == q && o.push == push

/-- One more of an operation. -/
def QueueOp.more (q : Nat) (push : Bool) (o : QueueOp) : QueueOp := if o.on q push then { o with count := o.count + 1 } else o

/-- The operations once one more on a queue is uncommitted. -/
def Engine.qopsMore (x : Engine) (q : Nat) (push : Bool) : List QueueOp :=
  if x.qops.any (QueueOp.on q push) then x.qops.map (QueueOp.more q push) else x.qops ++ [⟨q, push, 1⟩]

theorem Engine.qCount_eq (x : Engine) (q : Nat) (push : Bool) :
    x.qCount q push = ((x.qops.find? (QueueOp.on q push)).map (·.count)).getD 0 := rfl

theorem Engine.qAdd_eq (x : Engine) (q : Nat) (push : Bool) : x.qAdd q push = { x with qops := x.qopsMore q push } :=
  (apply_ite (fun l : List QueueOp => ({ x with qops := l } : Engine)) (x.qops.any (QueueOp.on q push) = true) _ _).symm

/-- One more of an operation is still of its kind and queue. -/
theorem QueueOp.on_more (q r : Nat) (push b : Bool) (o : QueueOp) : (o.more q push).on r b = o.on r b := by
  unfold QueueOp.more
  split <;> rfl

theorem QueueOp.on_iff (q : Nat) (push : Bool) (o : QueueOp) : o.on q push = true ↔ o.queue = q ∧ o.push = push := by
  simp [QueueOp.on]

/-- An operation of another kind or on another queue stays. -/
theorem QueueOp.more_of_other {q r : Nat} {push b : Bool} (hne : (r, b) ≠ (q, push)) {o : QueueOp} (h : o.on r b = true) :
    o.more q push = o := by
  obtain ⟨rfl, rfl⟩ := (QueueOp.on_iff r b o).mp h
  refine if_neg fun h' => hne ?_
  obtain ⟨rfl, rfl⟩ := (QueueOp.on_iff q push o).mp h'
  rfl

theorem Engine.find?_qopsMore (x : Engine) (q r : Nat) (push b : Bool) (h : x.qops.any (QueueOp.on q push) = true) :
    (x.qopsMore q push).find? (QueueOp.on r b) = (x.qops.find? (QueueOp.on r b)).map (QueueOp.more q push) := by
  have hon : QueueOp.on r b ∘ QueueOp.more q push = QueueOp.on r b := funext fun o => QueueOp.on_more q r push b o
  rw [Engine.qopsMore, if_pos h, List.find?_map, hon]

/-- R66: one more operation on a queue counts on that queue. -/
theorem Engine.qCount_qAdd_self (x : Engine) (q : Nat) (push : Bool) : (x.qAdd q push).qCount q push = x.qCount q push + 1 := by
  rw [Engine.qAdd_eq, Engine.qCount_eq, Engine.qCount_eq]
  by_cases h : x.qops.any (QueueOp.on q push) = true
  · obtain ⟨o, ho⟩ := Option.isSome_iff_exists.mp (List.find?_isSome.mpr (List.any_eq_true.mp h))
    have hmore : o.more q push = { o with count := o.count + 1 } := if_pos (List.find?_some ho)
    simp only [Engine.find?_qopsMore x q q push push h, ho, Option.map_some, hmore, Option.getD_some]
  · have hnone : x.qops.find? (QueueOp.on q push) = none := by
      rw [List.find?_eq_none]
      intro o ho hon
      exact h (List.any_eq_true.mpr ⟨o, ho, hon⟩)
    have hself : QueueOp.on q push ⟨q, push, 1⟩ = true := (QueueOp.on_iff q push _).mpr ⟨rfl, rfl⟩
    simp [Engine.qopsMore, h, List.find?_append, hnone, hself]

/-- R66: it does not count on any other. -/
theorem Engine.qCount_qAdd_other (x : Engine) (q r : Nat) (push b : Bool) (hne : (r, b) ≠ (q, push)) :
    (x.qAdd q push).qCount r b = x.qCount r b := by
  rw [Engine.qAdd_eq, Engine.qCount_eq, Engine.qCount_eq]
  by_cases h : x.qops.any (QueueOp.on q push) = true
  · rw [Engine.find?_qopsMore x q r push b h]
    cases ho : x.qops.find? (QueueOp.on r b) with
    | none => rfl
    | some o => simp only [Option.map_some, QueueOp.more_of_other hne (List.find?_some ho)]
  · have hother : QueueOp.on r b ⟨q, push, 1⟩ = false := by
      rw [Bool.eq_false_iff, Ne, QueueOp.on_iff]
      rintro ⟨rfl, rfl⟩
      exact hne rfl
    simp [Engine.qopsMore, h, List.find?_append, hother]

/-! ## Register and predicate writes leave the queue operations -/

theorem Engine.write_withQops (x : Engine) (l : List QueueOp) (d : Fin 16) (pc : Nat) (r : Res) :
    ({ x with qops := l } : Engine).write d pc r = { x.write d pc r with qops := l } := by
  unfold Engine.write Engine.setRg Engine.setPred
  cases predValue pc r <;> by_cases hd : d = 0 <;> simp [hd]

theorem Engine.write_qops (x : Engine) (d : Fin 16) (pc : Nat) (r : Res) : (x.write d pc r).qops = x.qops := by
  have h := congrArg Engine.qops (Engine.write_withQops x x.qops d pc r)
  exact h

/-! ## qpop and qpush -/

/-- R66, R89: what qpop and qpush are, with their fields well formed and the engine the queue's party. -/
theorem gives_of_queueOp {c : Instr} {s : State} {e : Nat} {o : EOp} {push : Bool}
    (hexec : exec c s = .next { s with dev := s.dev.quiet.queueOp e o push }) (hpc : pcOk o.b.val = true)
    (hq : effAddr (s.dev.eng e) o < 4096)
    (hfits : s.dev.quiet.freeNext.fits e (s.dev.quiet.latency (latQ (s.dev.runClass e))))
    (hparty :
      let y := (s.dev.quiet.freeNext.spend e (s.dev.quiet.latency (latQ (s.dev.runClass e)))).qdesc (effAddr (s.dev.eng e) o)
      (if push then y.prod else y.cons) = e) :
    let d := s.dev.quiet.freeNext.spend e (s.dev.quiet.latency (latQ (s.dev.runClass e)))
    let q := effAddr (s.dev.eng e) o
    let x := d.eng e
    let y := d.qdesc q
    let n := x.qCount q push
    let d' := if d.qEnabled q && push && !bit y.flags 1 then d.qSetDrops q (y.drops + 1) else d
    Gives c s
      (if d.qEnabled q && (if push then decide (y.fill + n < y.size) else decide (n < y.fill)) then
        (d.setEng e (x.qAdd q push)).engDo e fun x =>
          x.write o.d o.b.val ⟨BitVec.ofNat 64 (y.entryAddr ((if push then y.tail else y.head) + n)), true⟩
      else d'.engDo e fun x => x.write o.d o.b.val ⟨0, false⟩) := by
  intro d q x y n d'
  have hissue := gives_of_vatIssue hexec hfits
  have hillegal := gives_of_if_neg hissue (by simp [hpc])
  have haddress := gives_of_if_neg hillegal (Nat.not_le.mpr hq)
  exact gives_of_if_neg haddress (bne_iff_ne.not.mpr (not_not_intro hparty))

/-- Settles O7: by whether the queue has an entry or room. -/
theorem queueInstructionResults : Obligations.QueueInstructionResults := by
  intro e o s push q c hq hpc
  refine ⟨_, Dev.latency_pos s.dev.quiet _, Dev.latency_le _ (latQ_pos _), fun hfits => ?_⟩
  intro d x y n hparty open' d'
  have hexec : exec c s = .next { s with dev := s.dev.quiet.queueOp e o push } := by cases push <;> rfl
  have hgives := gives_of_queueOp hexec hpc hq hfits hparty
  change Gives c s (if (d.qEnabled q && (if push then decide (y.fill + n < y.size) else decide (n < y.fill))) = true then _ else _)
    at hgives
  have hopen : (d.qEnabled q && (if push then decide (y.fill + n < y.size) else decide (n < y.fill))) = true ↔ open' := by
    cases push <;> simp [open']
  refine ⟨fun h => ?taken, fun h => ?refused⟩
  case taken =>
    rw [if_pos (hopen.mpr h)] at hgives
    let r : Res := ⟨BitVec.ofNat 64 (y.entryAddr ((if push then y.tail else y.head) + n)), true⟩
    have hqops : ((x.qAdd q push).write o.d o.b.val r).qops = (x.qAdd q push).qops := Engine.write_qops _ _ _ _
    refine ⟨{ (x.qAdd q push).write o.d o.b.val r with pc := (x.qAdd q push).pc + 1 }, ?_, ?_, fun p b hne => ?_, ?_⟩
    · simpa only [Dev.engDo, Dev.eng_setEng_self, Dev.setEng_setEng] using hgives
    · rw [Engine.qCount, hqops]
      exact Engine.qCount_qAdd_self x q push
    · rw [Engine.qCount, hqops]
      exact Engine.qCount_qAdd_other x q p push b hne
    · have hwrote := Engine.write_wrote x o.d o.b.val r o.b.isLt
      rw [Engine.qAdd_eq, Engine.write_withQops]
      have hkeep : x.write o.d o.b.val r = { x.write o.d o.b.val r with qops := x.qops } := by
        rw [← Engine.write_qops x o.d o.b.val r]
      rw [hkeep] at hwrote
      exact hwrote
  case refused =>
    rw [if_neg fun h' => h (hopen.mp h')] at hgives
    exact ⟨_, hgives, Engine.write_wrote (d'.eng e) o.d o.b.val ⟨0, false⟩ o.b.isLt⟩

/-! ## io.ld and io.st -/

theorem Dev.advance_setEng (d : Dev) (e : Nat) (x : Engine) : (d.setEng e x).advance e = d.setEng e x.next := by
  rw [Dev.advance_eq_setEng_next, Dev.eng_setEng_self, Dev.setEng_setEng]

/-- Settles O13: each instruction is its body after its cycles; the offset decides whether the block answers. -/
theorem ioInstructionResults : Obligations.IoInstructionResults := by
  intro e o s a ha hpc
  refine ⟨fun hfits => ?load, fun hfits => ?store⟩
  case load =>
    intro d
    have hissue := gives_of_issue (c := .ioLd e o) rfl hfits
    have hillegal := gives_of_if_neg hissue (by simp [hpc])
    have hgives := gives_of_if_neg hillegal (not_not_intro ha)
    refine ⟨fun hread => ?_, fun hread => ?_⟩
    · intro r
      have hload := gives_of_if_pos hgives hread
      exact ⟨_, hload, Engine.write_wrote (r.1.eng e) o.d o.b.val ⟨BitVec.ofNat 64 r.2.1, false⟩ o.b.isLt⟩
    · have hnone := gives_of_if_neg hgives (Bool.eq_false_iff.mp hread)
      exact ⟨_, hnone, Engine.write_wrote (d.eng e) o.d o.b.val ⟨0, true⟩ o.b.isLt⟩
  case store =>
    intro d w r
    refine ⟨_, Dev.latency_pos (s.dev.quiet.spend e 2) 24, Dev.latency_le _ (by decide), ?_⟩
    intro x
    have hissue := gives_of_issue (c := .ioSt e o) rfl hfits
    have hillegal := gives_of_if_neg hissue (by simp [hpc])
    have hgives := gives_of_if_neg hillegal (not_not_intro ha)
    change Gives (.ioSt e o) s (((r.1.setEng e { x with
      ioDone := max x.ioDone ((s.dev.eng e).cyc + 2 + (s.dev.quiet.spend e 2).latency 24) }).advance e).predOnly e o.b.val r.2) at hgives
    rw [Dev.advance_setEng] at hgives
    exact givesPred_of_predOnly o.b.isLt hgives

end Sys2Proof.Machine
end

section
/-! Refutation of O12. R36, R76: a fence counts the queue operations that are uncommitted when it begins. A vput that completes
while it waits may disable their queue and drop them (R90), so that after the fence's first cycle none is left: the 8 cycles are
spent all the same. -/

namespace Sys2Proof.Machine

/-- A descriptor of an enabled queue of two entries of 8 bytes at the Vat's start, with NOTIFY 1. -/
def enabledDesc : List Byte :=
  [0, 0, 0, 0, 8, 0, 1, 1, 0, 0, 0, 0, 0, 0, 0, 0, 0, 0, 0, 0, 1, 0, 0, 0, 0, 0, 0, 0, 0, 0, 0, 0]

/-- An engine in a dispatch with an operation uncommitted on queue 0, and a vput outstanding that clears the queue's ENABLE. -/
def disablingEngine : Engine :=
  { Engine.reset with run := some 0, vputs := [⟨18874368 + 7, 1, 0, 0⟩], qops := [⟨0, false, 1⟩] }

/-- Engine 0 so, with a budget of 100 cycles; the queue descriptor table is where it is after reset. -/
def disablingVput : State :=
  let d := Dev.reset.put F.ENG_TASK_BUDGET.BUDGET 100
  ⟨{ d with vat := { d.vat with mem := Memory.writeN 0 [] 18874368 enabledDesc }, engs := [(0, disablingEngine)] }, []⟩

/-- The cycle that engine 0 has reached in the state that a command answers. -/
def StepOut.cycle0 : StepOut → Nat
  | .next s => (s.dev.eng (0 : Eng)).cyc
  | _ => 0

/-- After the fence's first cycle the vput is complete, and the queue operation is gone. -/
theorem disablingVput_spent :
    let x := (disablingVput.dev.quiet.spend (0 : Eng) 1).eng (0 : Eng)
    x.vputs = [] ∧ x.qops = [] ∧ x.cyc = 1 ∧ x.ioDone = 0 ∧ x.start = 0 := by decide +kernel

theorem disablingVput_limit :
    let d := disablingVput.dev.quiet.spend (0 : Eng) 1
    d.get F.ENG_TASK_BUDGET.BUDGET (d.runTask (0 : Eng)) = 100 := by decide +kernel

/-- The fence takes the 8 cycles of a commit. -/
theorem disablingVput_fence : StepOut.cycle0 (exec (.fence 0 ⟨0, 0, 0, 0⟩) disablingVput) = 9 := by decide +kernel

/-- The device after a fence that began at `d` and ends at cycle `fin`. -/
def Dev.fenced (d : Dev) (e fin : Nat) : Dev := ((d.setEng e { d.eng e with cyc := fin }).vputRetire e fin).commitQops e

theorem Engine.next_cyc (x : Engine) : x.next.cyc = x.cyc := rfl

/-- With no vput and no queue operation left, the engine is at the fence's cycle. -/
theorem Dev.cyc_fenced (d : Dev) (e fin : Nat) (hvputs : (d.eng e).vputs = []) (hqops : (d.eng e).qops = []) :
    ((d.fenced e fin).eng e).cyc = fin := by
  simp [Dev.fenced, Dev.commitQops, Dev.vputRetire, hvputs, hqops]

/-- Refutes O12: with `disablingVput` the fence ends in cycle 9, not in cycle 1. -/
theorem not_fenceYieldHalt : ¬ Obligations.FenceYieldHalt := by
  intro h
  obtain ⟨hvputs, hqops, hcyc, hio, hstart⟩ := disablingVput_spent
  have hlimit := disablingVput_limit
  have hfits : disablingVput.dev.quiet.fits (0 : Eng) 1 := by decide +kernel
  have hfin : 1 + (if ((disablingVput.dev.quiet.spend (0 : Eng) 1).eng (0 : Eng)).qops = [] then 0 else 8) = 1 := by rw [if_pos hqops]
  have hdrained (v : Vput) (hv : v ∈ ((disablingVput.dev.quiet.spend (0 : Eng) 1).eng (0 : Eng)).vputs) : v.doneAt ≤ 1 := by
    rw [hvputs] at hv
    exact absurd hv List.not_mem_nil
  have hend : ((disablingVput.dev.quiet.spend (0 : Eng) 1).eng (0 : Eng)).start + (disablingVput.dev.quiet.spend (0 : Eng) 1).get
      F.ENG_TASK_BUDGET.BUDGET ((disablingVput.dev.quiet.spend (0 : Eng) 1).runTask (0 : Eng)) = 100 := by
    rw [hstart, hlimit]
  obtain ⟨hfence, -⟩ := h 0 disablingVput 1 hfits hdrained (hio.le.trans (Nat.zero_le 1)) hcyc.le (Or.inl hcyc.symm)
    (by rw [hfin, hend]; decide)
  have hgives := hfence (by rw [hfin, hend]; decide)
  have hcycles : StepOut.cycle0 _ = 9 := hgives ▸ disablingVput_fence
  have hone := Dev.cyc_fenced (disablingVput.dev.quiet.spend (0 : Eng) 1) (0 : Eng) 1 hvputs hqops
  rw [hfin] at hcycles
  change ((Dev.setEng _ _ _).eng _).cyc = 9 at hcycles
  rw [Dev.eng_setEng_self, Engine.next_cyc, ← Dev.fenced, hone] at hcycles
  exact absurd hcycles (by decide)

end Sys2Proof.Machine
end

section
/-! SUPPORT and proof of O5. Bytes of numbers (R4), and local and cluster memory (R31, R63, R98). -/

namespace Sys2Proof.Machine

/-! ## Bytes of a number (R4) -/

@[simp] theorem leBytes_length (n v : Nat) : (leBytes n v).length = n := by
  induction n generalizing v with
  | zero => rfl
  | succ n ih => simp [leBytes, ih]

/-- Byte k of a number, least significant first. -/
theorem getElem_leBytes (n v k : Nat) (h : k < (leBytes n v).length) : (leBytes n v)[k] = BitVec.ofNat 8 (v / 2 ^ (8 * k)) := by
  induction n generalizing v k with
  | zero => simp at h
  | succ n ih =>
    cases k with
    | zero => simp [leBytes]
    | succ k =>
      have hpow : 2 ^ (8 * (k + 1)) = 256 * 2 ^ (8 * k) := by rw [Nat.mul_add, Nat.pow_add, Nat.mul_comm]
      simp only [leBytes, List.getElem_cons_succ]
      rw [ih, Nat.div_div_eq_div_mul, hpow]

/-! ## Local and cluster memory -/

/-- An aligned access of at most 8 bytes lies in local memory with all its bytes. -/
theorem aligned_local {a n k : Nat} (hn : n < 4) (halign : a % 2 ^ n = 0) (ha : a < 0x1000) (hk : k < 2 ^ n) : a + k < 0x1000 := by
  interval_cases n <;> omega

/-- The number at an aligned address of local or cluster memory. -/
theorem Dev.memRead_fst (d : Dev) (e a n : Nat) (hn : n < 4) (halign : a % 2 ^ n = 0) (ha : a < 0x1000 ∨ 0x10000 ≤ a) :
    (d.memRead e a (2 ^ n)).1 = d.memNum e a (2 ^ n) := by
  by_cases hlocal : a < 0x1000
  · have hbytes : (List.range (2 ^ n)).map (fun k => d.memByte e (a + k)) = Memory.readN 0 (d.eng e).lmem a (2 ^ n) :=
      List.map_congr_left fun k hk => if_pos (aligned_local hn halign hlocal (List.mem_range.mp hk))
    rw [Dev.memNum, hbytes, Dev.memRead, if_pos (by simpa [isLocal] using hlocal)]
    rfl
  · have hcluster : 0x10000 ≤ a := ha.resolve_left hlocal
    have hbytes : (List.range (2 ^ n)).map (fun k => d.memByte e (a + k)) =
        Memory.readN 0 (d.clus (e / 32)).cmem (a - 0x10000) (2 ^ n) := by
      refine List.map_congr_left fun k _ => (if_neg (by omega)).trans ?_
      rw [Nat.sub_add_comm hcluster]
    rw [Dev.memNum, hbytes, Dev.memRead, if_neg (by simpa [isLocal] using hlocal)]
    rfl

theorem isLocal_iff (a : Nat) : isLocal a = true ↔ a < 0x1000 := decide_eq_true_iff

theorem isCmem_iff (a : Nat) : isCmem a = true ↔ 0x10000 ≤ a ∧ a < 0x50000 := by simp [isCmem]

theorem isCmem_eq (a : Nat) : isCmem a = decide (0x10000 ≤ a ∧ a < 0x50000) := by
  rw [Bool.eq_iff_iff, isCmem_iff, decide_eq_true_iff]

theorem memOk_iff (a w : Nat) : memOk a w = true ↔ a % w = 0 ∧ (a < 0x1000 ∨ (0x10000 ≤ a ∧ a < 0x50000)) := by
  simp [memOk, isLocal_iff, isCmem_iff]

/-! ## What a store leaves -/

/-- The word of an address: its number in its memory. -/
def memWord (a : Nat) : Nat := if isLocal a then a / 8 else (a - 0x10000) / 8

/-- A word's uncorrectable and correctable errors stand in the memory's lists. -/
theorem Dev.memRead_snd (d : Dev) (e a w : Nat) :
    (d.memRead e a w).2 = (if isLocal a then (d.eng e).lue else (d.clus (e / 32)).cue).contains (memWord a) := by
  unfold Dev.memRead memWord
  split <;> rfl

theorem Dev.memCe_eq (d : Dev) (e a : Nat) :
    d.memCe e a = (if isLocal a then (d.eng e).lce else (d.clus (e / 32)).cce).contains (memWord a) := by
  unfold Dev.memCe memWord
  split <;> rfl

section
variable (d : Dev) (e a v : Nat) {n : Nat}

/-- R31: the bytes that a store in local memory leaves. -/
theorem Dev.memByte_store_local {lue lce : List Nat} (ha : a + 2 ^ n ≤ 0x1000) :
    let d' := d.setEng e { d.eng e with lmem := Memory.writeN 0 (d.eng e).lmem a (leBytes (2 ^ n) v), lue := lue, lce := lce }
    (∀ k, k < 2 ^ n → d'.memByte e (a + k) = BitVec.ofNat 8 (v / 2 ^ (8 * k))) ∧
    ∀ b, b < a ∨ a + 2 ^ n ≤ b → d'.memByte e b = d.memByte e b := by
  intro d'
  have heng : d'.eng e = _ := Dev.eng_setEng_self ..
  refine ⟨fun k hk => ?_, fun b hb => ?_⟩
  · rw [Dev.memByte, if_pos (by omega), heng]
    exact (Memory.read_writeN_in 0 _ _ a k (by simpa using hk)).trans (getElem_leBytes ..)
  · unfold Dev.memByte
    split
    · rw [heng]
      exact Memory.read_writeN_out 0 _ _ a b (by simpa using hb)
    · rfl

/-- R31: the bytes that a store in cluster memory leaves. -/
theorem Dev.memByte_store_cluster {cue cce : List Nat} (ha : 0x10000 ≤ a) :
    let c := d.clus (e / 32)
    let d' := d.setClus (e / 32) { c with
      cmem := Memory.writeN 0 c.cmem (a - 0x10000) (leBytes (2 ^ n) v), cue := cue, cce := cce }
    (∀ k, k < 2 ^ n → d'.memByte e (a + k) = BitVec.ofNat 8 (v / 2 ^ (8 * k))) ∧
    ∀ b, b < 0x1000 ∨ 0x10000 ≤ b → b < a ∨ a + 2 ^ n ≤ b → d'.memByte e b = d.memByte e b := by
  intro c d'
  have hclus : d'.clus (e / 32) = _ := Dev.clus_setClus_self ..
  refine ⟨fun k hk => ?_, fun b hin hb => ?_⟩
  · rw [Dev.memByte, if_neg (by omega), hclus, Nat.sub_add_comm ha]
    exact (Memory.read_writeN_in 0 _ _ _ k (by simpa using hk)).trans (getElem_leBytes ..)
  · unfold Dev.memByte
    split
    · rfl
    · rw [hclus]
      exact Memory.read_writeN_out 0 _ _ _ _ (by rw [leBytes_length]; omega)

end

/-! ## ld and st -/

theorem not_bnot_of_true {b : Bool} (h : b = true) : ¬(!b) = true := by simp [h]

/-- R57, R63: ld of an aligned word without error. -/
theorem gives_of_ld {e : Eng} {o : EOp} {s : State} (hb : o.b.val < 8)
    (hok : memOk (effAddr (s.dev.eng e) o) (2 ^ (o.b.val % 4)) = true)
    {cost : Nat} (hcost : (if isCmem (effAddr (s.dev.eng e) o) then 10 else 2) = cost) (hfits : s.dev.quiet.fits e cost)
    (hclean : ((s.dev.quiet.spend e cost).memRead e (effAddr (s.dev.eng e) o) (2 ^ (o.b.val % 4))).2 = false) :
    let a := effAddr (s.dev.eng e) o
    let w := 2 ^ (o.b.val % 4)
    let d := s.dev.quiet.spend e cost
    let d' := if d.memCe e a then d.ceCount else d
    Gives (.ld e o) s (d'.engDo e fun x => x.setRg o.d
      (if bit o.b.val 2 then BitVec.ofInt 64 (toSigned (8 * w) (d.memRead e a w).1) else BitVec.ofNat 64 (d.memRead e a w).1)) := by
  intro a w d d'
  have hissue := gives_of_issue_of_eq (c := .ld e o) rfl hcost hfits
  have hillegal := gives_of_if_neg hissue (Nat.not_le.mpr hb)
  have haddress := gives_of_if_neg hillegal (not_bnot_of_true hok)
  exact gives_of_if_neg haddress (Bool.eq_false_iff.mp hclean)

/-- R57, R63: st of an aligned word. -/
theorem gives_of_st {e : Eng} {o : EOp} {s : State} (hb : o.b.val < 4)
    (hok : memOk (effAddr (s.dev.eng e) o) (2 ^ (o.b.val % 4)) = true)
    {cost : Nat} (hcost : (if isCmem (effAddr (s.dev.eng e) o) then 8 else 1) = cost) (hfits : s.dev.quiet.fits e cost) :
    let d := s.dev.quiet.spend e cost
    Gives (.st e o) s ((d.memWrite e (effAddr (s.dev.eng e) o) (2 ^ (o.b.val % 4)) ((d.eng e).rg o.d).toNat).advance e) := by
  have hissue := gives_of_issue_of_eq (c := .st e o) rfl hcost hfits
  have hillegal := gives_of_if_neg hissue (Nat.not_le.mpr hb)
  exact gives_of_if_neg hillegal (not_bnot_of_true hok)

theorem contains_eq_decide (l : List Nat) (w : Nat) : l.contains w = decide (w ∈ l) := by
  rw [Bool.eq_iff_iff, List.contains_iff_mem, decide_eq_true_iff]

/-- What a store does to the list of correctable errors, and to that of uncorrectable ones. -/
theorem mem_filter_ne (l : List Nat) (w v : Nat) : v ∈ l.filter (· != w) ↔ v ≠ w ∧ v ∈ l := by
  simp [and_comm]

theorem two_pow_eq_eight {n : Nat} (hn : n < 4) : 2 ^ n = 8 ↔ n = 3 := by interval_cases n <;> simp

section
variable (d : Dev) (e a v : Nat) {n : Nat} (hn : n < 4)
include hn

/-- R63, R98: a store in local memory and what it raises. -/
theorem Dev.memWrite_local (ha : isLocal a = true) :
    let x := d.eng e
    let d1 := d.setEng e { x with
      lmem := Memory.writeN 0 x.lmem a (leBytes (2 ^ n) v)
      lue := if n = 3 then x.lue.filter (· != a / 8) else x.lue, lce := x.lce.filter (· != a / 8) }
    d.memWrite e a (2 ^ n) v =
      if n = 3 then d1 else if a / 8 ∈ x.lue then (d1.fault 41 0 (d.engDetail e)).poisonKept
      else if a / 8 ∈ x.lce then d1.ceCount else d1 := by
  simp only [Dev.memWrite, Dev.memStore, Dev.memRead_snd, Dev.memCe_eq, memWord, ha, if_true, two_pow_eq_eight hn,
    contains_eq_decide, decide_eq_true_eq]

/-- R63, R98: a store in cluster memory and what it raises. -/
theorem Dev.memWrite_cluster (ha : ¬isLocal a = true) :
    let c := d.clus (e / 32)
    let w := (a - 0x10000) / 8
    let d1 := d.setClus (e / 32) { c with
      cmem := Memory.writeN 0 c.cmem (a - 0x10000) (leBytes (2 ^ n) v)
      cue := if n = 3 then c.cue.filter (· != w) else c.cue, cce := c.cce.filter (· != w) }
    d.memWrite e a (2 ^ n) v =
      if n = 3 then d1 else if w ∈ c.cue then (d1.fault 41 0 (d.engDetail e)).poisonKept
      else if w ∈ c.cce then d1.ceCount else d1 := by
  simp only [Dev.memWrite, Dev.memStore, Dev.memRead_snd, Dev.memCe_eq, memWord, if_neg ha, two_pow_eq_eight hn,
    contains_eq_decide, decide_eq_true_eq]

end

/-- The list of uncorrectable errors after a store: a full word clears its own. -/
theorem ue_after_store (l : List Nat) (w n : Nat) :
    (n < 3 → (if n = 3 then l.filter (· != w) else l) = l) ∧
    (n = 3 → ∀ v, v ∈ (if n = 3 then l.filter (· != w) else l) ↔ v ≠ w ∧ v ∈ l) :=
  ⟨fun h => if_neg h.ne, fun h v => by rw [if_pos h, mem_filter_ne]⟩

/-- Settles O5: by the memory that the address lies in. -/
theorem localAndClusterMemoryAccess : Obligations.LocalAndClusterMemoryAccess := by
  intro e o s a n cluster halign hin
  have hn : n < 4 := Nat.mod_lt _ (by decide)
  have hcl : isCmem a = cluster := isCmem_eq a
  have hcluster : cluster = true ↔ 0x10000 ≤ a ∧ a < 0x50000 := decide_eq_true_iff
  have hok : memOk a (2 ^ n) = true := (memOk_iff a _).mpr ⟨halign, hin.imp_right hcluster.mp⟩
  refine ⟨fun hb hfits => ?load, fun hb hfits => ?store⟩
  case load =>
    intro d hclean d'
    have hgives := gives_of_ld hb hok (by rw [hcl]) hfits hclean
    have hbit : bit o.b.val 2 = decide (4 ≤ o.b.val) := by
      rw [Bool.eq_iff_iff, decide_eq_true_iff]
      unfold bit
      simp only [beq_iff_eq]
      omega
    have hnum : (d.memRead e a (2 ^ n)).1 = d.memNum e a (2 ^ n) :=
      d.memRead_fst e a n hn halign (hin.imp_right fun h => (hcluster.mp h).1)
    simp only [hbit, decide_eq_true_eq] at hgives
    rw [← hnum]
    exact ⟨_, hgives, Engine.write_wrote (d'.eng e) o.d 0 ⟨_, false⟩ (by decide)⟩
  case store =>
    intro d x c word ue ce
    have hgives := gives_of_st hb hok (by rw [hcl]) hfits
    by_cases hlocal : a < 0x1000
    · have hno : cluster = false := Bool.eq_false_iff.mpr fun h => absurd (hcluster.mp h).1 (by omega)
      have hend : a + 2 ^ n ≤ 0x1000 := by
        have hlast := aligned_local hn halign hlocal (k := 2 ^ n - 1) (Nat.sub_lt (Nat.two_pow_pos n) Nat.one_pos)
        have hpos := Nat.two_pow_pos n
        omega
      obtain ⟨hin', hout⟩ := d.memByte_store_local e a (x.rg o.d).toNat hend
      simp only [hno, Bool.false_eq_true, if_false, word, ue, ce]
      refine ⟨_, _, _, ?_, hin', fun b _ => hout b, fun w => mem_filter_ne _ _ w, ue_after_store _ _ _⟩
      rw [← d.memWrite_local e a _ hn ((isLocal_iff a).mpr hlocal)]
      exact hgives
    · have hyes : cluster = true := hin.resolve_left hlocal
      obtain ⟨hin', hout⟩ := d.memByte_store_cluster e a (x.rg o.d).toNat (n := n) (hcluster.mp hyes).1
      simp only [hyes, if_true, word, ue, ce]
      refine ⟨_, _, _, ?_, hin', fun b hb => hout b (hb.imp_right And.left), fun w => mem_filter_ne _ _ w, ue_after_store _ _ _⟩
      rw [← d.memWrite_cluster e a _ hn (fun h => hlocal ((isLocal_iff a).mp h))]
      exact hgives

end Sys2Proof.Machine
end

section
/-! SUPPORT and proof of O15. What ends a dispatch (R36, R40), and overruns of the budget. -/

namespace Sys2Proof.Machine

/-! ## The end of a dispatch -/

theorem Dev.engs_of_still {d d' : Dev} (h : d.still = d'.still) : d.engs = d'.engs := by
  change d.still.engs = d'.still.engs
  rw [h]

theorem Dev.eng_of_still {d d' : Dev} (h : d.still = d'.still) (e : Nat) : d.eng e = d'.eng e := by
  unfold Dev.eng
  rw [Dev.engs_of_still h]

/-- An engine that runs nothing. -/
def Engine.idle (x : Engine) : Engine := { x with run := none, qops := [], vputs := [] }

/-- R36: the end of a dispatch leaves its engine idle. -/
theorem Dev.eng_endTask (d : Dev) (e : Nat) : (d.endTask e).eng e = (d.eng e).idle := by
  have hput : ∀ (c : Prop) [Decidable c] (v n : Nat),
      ((if c then d.put F.ENG_TASK_STAT.MAXUSED v n else d).setEng e (d.eng e).idle).eng e = (d.eng e).idle := by
    intro c _ v n
    exact Dev.eng_setEng_self ..
  unfold Dev.endTask
  extract_lets x t used d1 d2 y d3
  have hd2 : d2.eng e = (d.eng e).idle := hput _ _ _
  split
  · have hd3 : d3.eng e = d2.eng e := rfl
    split
    · rw [hd3, hd2]
    · rw [Dev.eng_of_still (d3.makeReady_still t) e, hd3, hd2]
  · exact hd2

/-! ## Overruns -/

/-- R36, R56: an instruction of more cycles than the budget has left does nothing but the overrun. -/
theorem gives_overrun {c : Instr} {s : State} {e cost : Nat} {body : Dev → Dev}
    (hexec : exec c s = .next { s with dev := s.dev.quiet.issue e cost body }) (hrun : s.dev.running e = true)
    (hleft : (s.dev.eng e).start + s.dev.quiet.get F.ENG_TASK_BUDGET.BUDGET (s.dev.runTask e) - (s.dev.eng e).cyc ≤ cost) :
    Gives c s (({ s.dev.quiet with cycle := (s.dev.eng e).cyc } : Dev).overrun e) := by
  unfold Gives
  rw [hexec, Dev.issue_overrun s.dev.quiet _ _ _ hrun (Nat.sub_le_iff_le_add'.mp hleft)]
  rfl

/-- As `gives_overrun`, for an arithmetic instruction. -/
theorem gives_overrun_of_alu {c : Instr} {s : State} {e cost pc : Nat} {ok : Bool} {o : EOp} {r : Engine → Res}
    (hexec : exec c s = s.run fun d => d.alu e cost ok o pc r) (hrun : s.dev.running e = true)
    (hleft : (s.dev.eng e).start + s.dev.quiet.get F.ENG_TASK_BUDGET.BUDGET (s.dev.runTask e) - (s.dev.eng e).cyc ≤ cost) :
    Gives c s (({ s.dev.quiet with cycle := (s.dev.eng e).cyc } : Dev).overrun e) :=
  gives_overrun hexec hrun hleft

theorem exec_of_if_pos {c : Instr} {s : State} {p : Prop} [Decidable p] {a b : Dev}
    (h : exec c s = .next { s with dev := if p then a else b }) (hp : p) : exec c s = .next { s with dev := a } := by
  rwa [if_pos hp] at h

theorem exec_of_if_neg {c : Instr} {s : State} {p : Prop} [Decidable p] {a b : Dev}
    (h : exec c s = .next { s with dev := if p then a else b }) (hp : ¬p) : exec c s = .next { s with dev := b } := by
  rwa [if_neg hp] at h

theorem le_foldl_max {α : Type} (f : α → Nat) (l : List α) (n : Nat) : n ≤ l.foldl (fun c v => max c (f v)) n := by
  induction l generalizing n with
  | nil => exact Nat.le_refl n
  | cons v r ih => exact (Nat.le_max_left _ _).trans (ih _)

/-- R76: a fence does not end before the cycle at which it began. -/
theorem Engine.cyc_le_fenceEnd (x : Engine) : x.cyc ≤ x.fenceEnd :=
  ((Nat.le_max_left _ _).trans (le_foldl_max _ _ _)).trans (Nat.le_add_right _ _)

/-- R36, R76: a fence that cannot end in the budget does nothing but the overrun. -/
theorem gives_overrun_of_fence {c : Instr} {s : State} {e slack left : Nat} {after : Dev → Dev}
    (hexec : exec c s = .next { s with dev := s.dev.quiet.fenceThen e slack after }) (hrun : s.dev.running e = true)
    (hleft : (s.dev.eng e).start + s.dev.quiet.get F.ENG_TASK_BUDGET.BUDGET (s.dev.runTask e) - (s.dev.eng e).cyc ≤ left)
    (hslack : left + slack ≤ 1) :
    Gives c s (({ s.dev.quiet with cycle := (s.dev.eng e).cyc } : Dev).overrun e) := by
  have hend := Engine.cyc_le_fenceEnd { s.dev.eng e with cyc := (s.dev.eng e).cyc + 1 }
  have hover : ¬ Engine.fenceEnd { s.dev.eng e with cyc := (s.dev.eng e).cyc + 1 } <
      (s.dev.eng e).start + s.dev.quiet.get F.ENG_TASK_BUDGET.BUDGET (s.dev.runTask e) + slack := by
    have hend' : (s.dev.eng e).cyc + 1 ≤ Engine.fenceEnd { s.dev.eng e with cyc := (s.dev.eng e).cyc + 1 } := hend
    omega
  have hfence : s.dev.quiet.fenceThen e slack after = ({ s.dev.quiet with cycle := (s.dev.eng e).cyc } : Dev).overrun e :=
    (if_pos hrun).trans (if_neg hover)
  unfold Gives
  rw [hexec, hfence]

/-- R55: as `gives_overrun`, for an access to the Vat or a queue, which takes at least one cycle. -/
theorem gives_overrun_of_vatIssue {c : Instr} {s : State} {e bound : Nat} {body : Dev → Dev}
    (hexec : exec c s = .next { s with dev := s.dev.quiet.vatIssue e bound body }) (hrun : s.dev.running e = true)
    (hleft : (s.dev.eng e).start + s.dev.quiet.get F.ENG_TASK_BUDGET.BUDGET (s.dev.runTask e) - (s.dev.eng e).cyc ≤ 1) :
    Gives c s (({ s.dev.quiet.freeNext with cycle := (s.dev.eng e).cyc } : Dev).overrun e) := by
  have hrunning : s.dev.quiet.running e = true := hrun
  have hlatency := hleft.trans (Dev.latency_pos s.dev.quiet bound)
  unfold Gives
  rw [hexec, Dev.vatIssue, if_pos hrunning, Dev.issue_overrun s.dev.quiet.freeNext _ _ _ hrun (Nat.sub_le_iff_le_add'.mp hlatency)]
  rfl

/-- Settles O15: the first part is the end of a dispatch; then each instruction is issued with its cost. -/
theorem budgetOverruns : Obligations.BudgetOverruns := by
  refine ⟨fun e s hrun => ?ends, fun e imm o s hrun => ?each⟩
  case ends =>
    intro d t x fin d1 d2
    have hidle : d2.eng e = _ := Dev.eng_endTask _ _
    refine ⟨?_, ?_, ?_, ?_⟩
    · rw [Dev.running, hidle]; rfl
    · rw [hidle]; rfl
    · rw [hidle]; rfl
    · exact congrArg (fun d : Dev => Host.Outcome.next { s with dev := d }) (if_pos hrun)
  case each =>
    intro d x left after a taken ends
    have issued {c : Instr} {cost : Nat} {body : Dev → Dev}
        (hexec : exec c s = .next { s with dev := s.dev.quiet.issue e cost body }) (hleft : left ≤ cost) : Gives c s after :=
      gives_overrun hexec hrun hleft
    have issuedAlu {c : Instr} {cost pc : Nat} {ok : Bool} {r : Engine → Res}
        (hexec : exec c s = s.run fun d => d.alu e cost ok o pc r) (hleft : left ≤ cost) : Gives c s after :=
      gives_overrun_of_alu hexec hrun hleft
    have fenced {c : Instr} {slack n : Nat} {f : Dev → Dev}
        (hexec : exec c s = .next { s with dev := s.dev.quiet.fenceThen e slack f }) (hslack : n + slack ≤ 1) (hleft : left ≤ n) :
        Gives c s after := gives_overrun_of_fence hexec hrun hleft hslack
    refine ⟨?one, ?yieldHalt, ?yieldHaltZero, ?wait, ?four, ?tlook, ?tstep, ?ioLd, ?two, ?bz, ?bnz, ?bp, ?ld, ?st, ?vput, ?vat⟩
    case one =>
      intro hleft c hc
      simp only [List.mem_cons, List.not_mem_nil, or_false] at hc
      rcases hc with rfl | rfl | rfl | rfl | rfl | rfl | rfl | rfl | rfl | rfl | rfl | rfl | rfl | rfl | rfl | rfl | rfl | rfl | rfl
      case inr.inr.inr.inr.inr.inr.inr.inr.inr.inr.inr.inr.inr.inr.inr.inr.inr.inr =>
        by_cases ho : o = ⟨0, 0, 0, 0⟩
        · exact fenced (exec_of_if_pos rfl ho) (by decide) hleft
        · exact issued (exec_of_if_neg rfl ho) hleft
      iterate 10 exact issuedAlu rfl hleft
      all_goals exact issued rfl hleft
    case yieldHalt =>
      intro ho hleft c hc
      simp only [List.mem_cons, List.not_mem_nil, or_false] at hc
      rcases hc with rfl | rfl <;> exact issued (exec_of_if_neg rfl ho) hleft
    case yieldHaltZero =>
      intro hleft c hc
      have hleft' : left ≤ 1 := hleft.trans (Nat.zero_le 1)
      simp only [List.mem_cons, List.not_mem_nil, or_false] at hc
      by_cases ho : o = ⟨0, 0, 0, 0⟩
      · rcases hc with rfl | rfl <;> exact fenced (exec_of_if_pos rfl ho) (by decide) hleft
      · rcases hc with rfl | rfl <;> exact issued (exec_of_if_neg rfl ho) hleft'
    case wait =>
      intro hleft c hc
      obtain rfl := List.mem_singleton.mp hc
      exact issued rfl hleft
    case four =>
      intro hleft c hc
      simp only [List.mem_cons, List.not_mem_nil, or_false] at hc
      rcases hc with rfl | rfl | rfl <;> exact issued rfl hleft
    case tlook =>
      intro hleft c hc
      obtain rfl := List.mem_singleton.mp hc
      by_cases hb : (o.b != 0) = true
      · exact issued (exec_of_if_pos rfl hb) hleft
      · exact issued (exec_of_if_neg rfl hb) hleft
    case tstep =>
      intro hleft c hc
      obtain rfl := List.mem_singleton.mp hc
      exact issued rfl hleft
    case ioLd =>
      intro hleft c hc
      obtain rfl := List.mem_singleton.mp hc
      exact issued rfl hleft
    case two =>
      intro hleft c hc
      simp only [List.mem_cons, List.not_mem_nil, or_false] at hc
      rcases hc with rfl | rfl | rfl | rfl | rfl | rfl | rfl | rfl | rfl <;> exact issued rfl hleft
    case bz =>
      intro hleft c hc
      obtain rfl := List.mem_singleton.mp hc
      exact issued rfl hleft
    case bnz =>
      intro hleft c hc
      obtain rfl := List.mem_singleton.mp hc
      have htaken : (x.rg o.a != 0) = decide (x.rg o.a ≠ 0) := by
        rw [Bool.eq_iff_iff, bne_iff_ne, decide_eq_true_iff]
      exact issued rfl (hleft.trans_eq (congrArg taken htaken.symm))
    case bp =>
      intro i neg hd hleft c hc
      obtain rfl := List.mem_singleton.mp hc
      obtain ⟨hi, hneg⟩ : o.d.val % 4 = i.val ∧ bit o.d.val 2 = neg := by
        obtain ⟨hmod, hbit, -⟩ := bp_fields hd
        refine ⟨by omega, hbit ▸ ?_⟩
        unfold bit
        congr 1
        omega
      exact issued rfl (hleft.trans_eq (congrArg taken (bp_taken hi hneg).symm))
    case ld =>
      intro hleft c hc
      obtain rfl := List.mem_singleton.mp hc
      simp only [← isCmem_iff] at hleft
      exact issued rfl hleft
    case st =>
      intro hleft c hc
      obtain rfl := List.mem_singleton.mp hc
      simp only [← isCmem_iff] at hleft
      exact issued rfl hleft
    case vput =>
      intro hleft c hc
      obtain rfl := List.mem_singleton.mp hc
      exact issued rfl hleft
    case vat =>
      intro hleft c hc
      simp only [List.mem_cons, List.not_mem_nil, or_false] at hc
      rcases hc with rfl | rfl | rfl | rfl <;> exact gives_overrun_of_vatIssue rfl hrun hleft

end Sys2Proof.Machine
end

section
/-! SUPPORT and proof of O16. Every way in which an instruction ends its dispatch with a fault source (R50, R52, R54, R57). -/

namespace Sys2Proof.Machine

/-! ## A field that is not as the form asks -/

section
variable {c : Instr} {e cost source : Nat}

/-- R54: an instruction whose body ends the dispatch. -/
theorem ends_of_issue {body : Dev → Dev} (hexec : ∀ s, exec c s = .next { s with dev := s.dev.quiet.issue e cost body })
    (hbody : ∀ d, body d = d.endedBy e source) : Ends c e cost source := by
  intro s hfits
  change Gives c s ((s.dev.quiet.spend e cost).endedBy e source)
  rw [← hbody]
  exact gives_of_issue (hexec s) hfits

/-- R50: a check of the fields that fails. -/
theorem ends_of_if_pos {p : Prop} [Decidable p] {f : Dev → Dev}
    (hexec : ∀ s, exec c s = .next { s with dev := s.dev.quiet.issue e cost fun d => if p then d.engIllegal e else f d }) (h : p) :
    Ends c e cost 33 :=
  ends_of_issue hexec fun _ => if_pos h

theorem ends_of_if_neg {p : Prop} [Decidable p] {f : Dev → Dev}
    (hexec : ∀ s, exec c s = .next { s with dev := s.dev.quiet.issue e cost fun d => if p then f d else d.engIllegal e }) (h : ¬p) :
    Ends c e cost 33 :=
  ends_of_issue hexec fun _ => if_neg h

/-- R57: as `ends_of_alu`, for a result that is read from more than the engine. -/
theorem ends_of_alu' {ok : Bool} {o : EOp} {r : Dev → Res} (hexec : ∀ s, exec c s = s.run fun d => d.alu' e cost ok o r)
    (hok : ok = false) : Ends c e cost 33 :=
  ends_of_if_neg (f := fun d => d.engDo e fun x => x.write o.d o.b.val (r d)) hexec (Bool.eq_false_iff.mp hok)

end

/-- R50: the fields of an instruction without a result field for it. -/
theorem not_zero_illegal {e : Eng} {o : EOp} (ho : o ≠ ⟨0, 0, 0, 0⟩) :
    Ends (.nop e ⟨0, o⟩) e 1 33 ∧ Ends (.clracc e o) e 1 33 ∧ Ends (.fence e o) e 1 33 ∧ Ends (.yield e o) e 1 33 ∧
    Ends (.halt e o) e 1 33 ∧ Ends (.ret e o) e 2 33 :=
  ⟨ends_of_if_neg (fun _ => rfl) fun h => ho h.2, ends_of_if_neg (fun _ => rfl) ho,
    ends_of_issue (fun _ => exec_of_if_neg rfl ho) fun _ => rfl, ends_of_issue (fun _ => exec_of_if_neg rfl ho) fun _ => rfl,
    ends_of_issue (fun _ => exec_of_if_neg rfl ho) fun _ => rfl, ends_of_if_pos (fun _ => rfl) (bne_iff_ne.mpr ho)⟩

section
variable {e : Eng} {imm : Bool} {o : EOp}

/-- R52: a shift whose immediate names more than 6 bits. -/
theorem shift_fields_false (h : aluOk imm o = false ∨ imm = true ∧ 64 ≤ o.lo.toNat) :
    (aluOk imm o && (!imm || decide (immN o < 64))) = false := by
  rcases h with hok | ⟨himm, hn⟩
  · rw [hok, Bool.false_and]
  · simp [himm, immN, Nat.not_lt.mpr hn]

theorem ends_shifts (h : aluOk imm o = false ∨ imm = true ∧ 64 ≤ o.lo.toNat) :
    Ends (.shl e imm o) e 1 33 ∧ Ends (.shr e imm o) e 1 33 ∧ Ends (.sar e imm o) e 1 33 :=
  ⟨ends_of_alu (fun _ => rfl) (shift_fields_false h), ends_of_alu (fun _ => rfl) (shift_fields_false h),
    ends_of_alu (fun _ => rfl) (shift_fields_false h)⟩

theorem ends_mac (h : aluOk imm o = false ∨ o.d ≠ 0) : Ends (.mac e imm o) e 4 33 ∧ Ends (.macs e imm o) e 4 33 := by
  have hfields : ¬(aluOk imm o && o.d == 0) = true := by simpa [or_iff_not_imp_left] using h
  exact ⟨ends_of_if_neg (fun _ => rfl) hfields, ends_of_if_neg (fun _ => rfl) hfields⟩

theorem ends_sdiff (h : func o % 512 ≠ 0 ∨ pcOk (pcR o) = false) : Ends (.sdiff e o) e 1 33 ∧ Ends (.mul e o) e 4 33 := by
  have hfields : (func o % 512 == 0 && pcOk (pcR o)) = false := by simpa [or_iff_not_imp_left] using h
  exact ⟨ends_of_alu (fun _ => rfl) hfields, ends_of_alu (fun _ => rfl) hfields⟩

theorem ends_sat (h : pcOk o.b.val = false ∨ o.lo.toNat % 128 < 2 ∨ 64 < o.lo.toNat % 128 ∨ 256 ≤ o.lo.toNat) :
    Ends (.sat e o) e 1 33 := by
  have hfields : (pcOk o.b.val && 2 ≤ immN o % 128 && immN o % 128 ≤ 64 && immN o < 256) = false := by
    unfold immN
    grind
  exact ends_of_alu (fun _ => rfl) hfields

theorem ends_ldh (h : o.a ≠ 0 ∨ 4 < o.b.val ∨ (o.b.val = 4 ∧ 256 ≤ o.lo.toNat)) : Ends (.ldh e o) e 1 33 := by
  have hfields : (o.a == 0 && (decide (o.b.val < 4) || (o.b.val == 4 && decide (immN o < 256)))) = false := by
    rcases h with h | h | ⟨h, hn⟩
    · simp [h]
    · simp [Nat.not_lt.mpr h.le, h.ne']
    · simp [h, immN, Nat.not_lt.mpr hn]
  exact ends_of_alu (fun _ => rfl) hfields

theorem ends_getacc (h : pcOk o.b.val = false ∨ o.a ≠ 0 ∨ 128 ≤ o.lo.toNat) : Ends (.getacc e o) e 1 33 := by
  have hfields : (pcOk o.b.val && o.a == 0 && immN o < 128) = false := by
    unfold immN
    grind
  exact ends_of_alu (fun _ => rfl) hfields

theorem ends_tlook (h : o.b ≠ 0 ∨ pcOk (pcR o) = false) : Ends (.tlook e o) e 12 33 := by
  by_cases hb : (o.b != 0) = true
  · exact ends_of_issue (fun _ => exec_of_if_pos rfl hb) fun _ => rfl
  · have hpc : ¬pcOk (pcR o) = true := Bool.eq_false_iff.mp (h.resolve_left fun h' => hb (bne_iff_ne.mpr h'))
    intro s hfits
    have hissue := gives_of_issue (exec_of_if_neg (c := .tlook e o) rfl hb) hfits
    exact gives_of_if_pos hissue (by simpa using hpc)

theorem ends_arm (h : o.d ≠ 0 ∨ pcOk o.b.val = false ∨ bits o.lo.toNat 12 8 ≠ 0 ∨ bits o.lo.toNat 3 2 ≠ 0) :
    Ends (.arm e o) e 2 33 ∧ Ends (.disarm e o) e 2 33 := by
  have hfields : (o.d != 0 || !pcOk o.b.val || bits (immN o) 12 8 != 0 || bits (immN o) 3 2 != 0) = true := by
    simpa [immN, or_assoc] using h
  exact ⟨ends_of_if_pos (fun _ => rfl) hfields, ends_of_if_pos (fun _ => rfl) hfields⟩

theorem ends_evtest (h : o.a ≠ 0 ∨ pcOk o.b.val = false ∨ 16 ≤ o.lo.toNat) : Ends (.evtest e o) e 2 33 := by
  have hfields : (o.a == 0 && pcOk o.b.val && immN o < 16) = false := by
    unfold immN
    grind
  exact ends_of_alu' (fun _ => rfl) hfields

theorem ends_evclear (h : o.d ≠ 0 ∨ o.a ≠ 0 ∨ pcOk o.b.val = false ∨ 512 ≤ o.lo.toNat) : Ends (.evclear e o) e 2 33 := by
  have hfields : (o.d != 0 || o.a != 0 || !pcOk o.b.val || immN o ≥ 512) = true := by simpa [immN, or_assoc] using h
  exact ends_of_if_pos (fun _ => rfl) hfields

theorem ends_signal (h : o.d ≠ 0 ∨ o.b ≠ 0 ∨ 16 ≤ o.lo.toNat) : Ends (.signal e o) e 1 33 := by
  have hfields : (o.d != 0 || o.b != 0 || immN o ≥ 16) = true := by simpa [immN, or_assoc] using h
  exact ends_of_if_pos (fun _ => rfl) hfields

theorem ends_fault (h : o.d ≠ 0 ∨ o.a ≠ 0 ∨ o.b ≠ 0 ∨ 256 ≤ o.lo.toNat) : Ends (.fault e o) e 2 33 := by
  have hfields : (o.d != 0 || o.a != 0 || o.b != 0 || immN o ≥ 256) = true := by simpa [immN, or_assoc] using h
  exact ends_of_if_pos (fun _ => rfl) hfields

theorem ends_now (h : o.a ≠ 0 ∨ o.b ≠ 0 ∨ 6 < o.lo.toNat) : Ends (.now e o) e 1 33 := by
  by_cases hfields : (o.a != 0 || o.b != 0) = true
  · exact ends_of_if_pos (fun _ => rfl) hfields
  · obtain ⟨ha, hb⟩ : o.a = 0 ∧ o.b = 0 := by simpa using hfields
    obtain ⟨-, -, hselector, -⟩ := timeAndTimerInstructionResults.1 e o default
    exact hselector ((h.resolve_left (not_not_intro ha)).resolve_left (not_not_intro hb))

end

/-! ## Addresses, tables and the return stack -/

/-- What the engine held when an instruction was issued it holds after the instruction's cycles, but for its cycle, vputs that were
done and queue operations. -/
theorem Dev.engFields_spend (d : Dev) (e cost : Nat) :
    ((d.spend e cost).eng e).pc = (d.eng e).pc ∧ ((d.spend e cost).eng e).stack = (d.eng e).stack := by
  have h := d.eng_spend e cost
  have hpc := congrArg Engine.pc h
  have hstack := congrArg Engine.stack h
  exact ⟨hpc, hstack⟩

/-- R52, R79: a branch whose offset leads out of the store has no target. -/
theorem Engine.target_eq_none {x : Engine} {o : EOp} (h : ∀ t : Nat, t < 16384 → (x.pc : Int) + o.lo.toInt ≠ t) :
    x.target o = none := by
  refine if_neg fun hin => h ((x.pc : Int) + o.lo.toInt).toNat ?_ ?_
  · omega
  · rw [Int.toNat_of_nonneg hin.1]

/-- R79: a branch with a wrong field or without a target. -/
theorem gives_branch_illegal {c : Instr} {s : State} {e cost : Nat} {ok taken push : Bool} {o : EOp}
    (hexec : exec c s = .next { s with dev := s.dev.quiet.branch e ok o taken push }) (hcost : cost = if taken then 2 else 1)
    (hfits : s.dev.quiet.fits e cost)
    (hbad : ok = false ∨ o.b ≠ 0 ∨ ∀ t : Nat, t < 16384 → ((s.dev.eng e).pc : Int) + o.lo.toInt ≠ t) :
    Gives c s ((s.dev.quiet.spend e cost).endedBy e 33) := by
  have hgives := gives_of_issue_of_eq hexec hcost.symm hfits
  have hpc := (s.dev.quiet.engFields_spend e cost).1
  cases htarget : ((s.dev.quiet.spend e cost).eng e).target o with
  | none =>
    simp only [htarget] at hgives
    exact hgives
  | some t =>
    have hfields : (!ok || o.b != 0) = true := by
      rcases hbad with hok | hb | hnone
      · simp [hok]
      · simp [hb]
      · rw [Engine.target_eq_none (by rw [hpc]; exact hnone)] at htarget
        exact nomatch htarget
    simp only [htarget] at hgives
    exact gives_of_if_pos hgives hfields

/-- R79: a call on a full stack. -/
theorem gives_call_stack {s : State} {e : Eng} {o : EOp} (hd : o.d = 0) (ha : o.a = 0) (hb : o.b = 0)
    (hfits : s.dev.quiet.fits e 2) (htarget : ∃ t : Nat, t < 16384 ∧ ((s.dev.eng e).pc : Int) + o.lo.toInt = t)
    (hfull : 8 ≤ (s.dev.eng e).stack.length) : Gives (.call e o) s ((s.dev.quiet.spend e 2).endedBy e 36) := by
  obtain ⟨hpc, hstack⟩ := s.dev.quiet.engFields_spend e 2
  obtain ⟨t, ht, hgoes⟩ := htarget
  have hsome : ((s.dev.quiet.spend e 2).eng e).target o = some t := Engine.target_eq_some ht (by rw [hpc]; exact hgoes)
  have hfull' : 8 ≤ ((s.dev.quiet.spend e 2).eng e).stack.length := by rw [hstack]; exact hfull
  have hgives := gives_of_issue (c := .call e o) (cost := 2) rfl hfits
  simpa [hsome, hd, ha, hb, hfull', Dev.engFault_eq_endedBy] using hgives

/-- R79: ret without a return address. -/
theorem gives_ret_stack {s : State} {e : Eng} (hfits : s.dev.quiet.fits e 2) (hempty : (s.dev.eng e).stack = []) :
    Gives (.ret e ⟨0, 0, 0, 0⟩) s ((s.dev.quiet.spend e 2).endedBy e 36) := by
  have hstack : ((s.dev.quiet.spend e 2).eng e).stack = [] := (s.dev.quiet.engFields_spend e 2).2.trans hempty
  have hgives := gives_of_issue (c := .ret e ⟨0, 0, 0, 0⟩) rfl hfits
  simpa [hstack, Dev.engFault_eq_endedBy] using hgives

/-- R72: a table that is missing or of another kind. -/
theorem gives_tableOp_fault {c : Instr} {s : State} {e cost kind : Nat} {o : EOp} {f : List Byte → Engine → Res}
    (hexec : exec c s = .next { s with dev := s.dev.quiet.tableOp e cost kind o f }) (hpc : pcOk (pcR o) = true)
    (hkind : (Tbl.find? (s.dev.clus (e / 32)).live (func o)).map tableKind ≠ some kind) (hfits : s.dev.quiet.fits e cost) :
    Gives c s ((s.dev.quiet.spend e cost).endedBy e 37) := by
  have hissue := gives_of_issue hexec hfits
  have hgives := gives_of_if_neg hissue (not_bnot_of_true hpc)
  have hlive : Tbl.find? ((s.dev.quiet.spend e cost).clus (e / 32)).live (func o) = Tbl.find? (s.dev.clus (e / 32)).live (func o) := by
    rw [Dev.clus_spend]; rfl
  rw [hlive] at hgives
  cases ht : Tbl.find? (s.dev.clus (e / 32)).live (func o) with
  | none =>
    simp only [ht] at hgives
    exact hgives
  | some t =>
    have hother : tableKind t ≠ kind := fun h => hkind (by rw [ht, Option.map_some, h])
    simp only [ht, if_neg hother] at hgives
    exact hgives

/-! ## The Vat and queues -/

theorem bnot_of_not {b : Bool} (h : ¬b = true) : (!b) = true := by simp [h]

theorem not_vatOk {a w : Nat} (h : a % w ≠ 0 ∨ 2 ^ 26 < a + w) : (!vatOk a w) = true := by
  unfold vatOk
  grind

/-- R54: an access of bounded cycles whose body ends the dispatch. -/
theorem endsWithin_of_vatIssue {c : Instr} {s : State} {e bound : Nat} {body after : Dev → Dev} (hbound : 0 < bound)
    (hexec : exec c s = .next { s with dev := s.dev.quiet.vatIssue e bound body }) (hbody : ∀ d, body d = after d) :
    EndsWithin c s e bound after := by
  refine ⟨_, Dev.latency_pos s.dev.quiet bound, Dev.latency_le _ hbound, fun hfits => ?_⟩
  rw [← hbody]
  exact gives_of_vatIssue hexec hfits

/-- With no vput outstanding, an instruction's cycles leave the Vat as it was. -/
theorem Dev.vat_spend (d : Dev) (e cost : Nat) (h : (d.eng e).vputs = []) : (d.spend e cost).vat = d.vat ∧ (d.spend e cost).regs = d.regs := by
  simp [Dev.spend, Dev.vputRetire, h]

theorem Dev.qdesc_congr {d d' : Dev} (hvat : d.vat = d'.vat) (hregs : d.regs = d'.regs) (q : Nat) : d.qdesc q = d'.qdesc q := by
  have htable : d.qaddr q = d'.qaddr q := by
    unfold Dev.qaddr Dev.qtable
    rw [Dev.get_congr d d' hregs]
  unfold Dev.qdesc Dev.vbytes
  rw [htable, hvat]

section
variable {c : Instr} {s : State} {e : Nat} {o : EOp} {push : Bool}
  (hexec : exec c s = .next { s with dev := s.dev.quiet.queueOp e o push })
include hexec

theorem endsWithin_queueOp_illegal (hpc : pcOk o.b.val = false) :
    EndsWithin c s e (latQ (s.dev.runClass e)) fun d => d.endedBy e 33 :=
  endsWithin_of_vatIssue (latQ_pos _) hexec fun _ => if_pos (by rw [hpc]; rfl)

theorem endsWithin_queueOp_address (hpc : pcOk o.b.val = true) (hq : 4096 ≤ effAddr (s.dev.eng e) o) :
    EndsWithin c s e (latQ (s.dev.runClass e)) fun d => d.endedBy e 34 :=
  endsWithin_of_vatIssue (latQ_pos _) hexec fun _ => (if_neg (not_bnot_of_true hpc)).trans (if_pos hq)

/-- R66: another party's queue. -/
theorem endsWithin_queueOp_party (hpc : pcOk o.b.val = true) (hq : effAddr (s.dev.eng e) o < 4096) (hvputs : (s.dev.eng e).vputs = [])
    (hparty : let y := s.dev.qdesc (effAddr (s.dev.eng e) o); (if push then y.prod else y.cons) ≠ e) :
    EndsWithin c s e (latQ (s.dev.runClass e)) fun d => d.endedBy e 38 := by
  refine ⟨_, Dev.latency_pos s.dev.quiet _, Dev.latency_le _ (latQ_pos _), fun hfits => ?_⟩
  have hissue := gives_of_vatIssue hexec hfits
  have hillegal := gives_of_if_neg hissue (not_bnot_of_true hpc)
  have haddress := gives_of_if_neg hillegal (Nat.not_le.mpr hq)
  obtain ⟨hvat, hregs⟩ := s.dev.quiet.freeNext.vat_spend e (s.dev.quiet.latency (latQ (s.dev.runClass e))) hvputs
  have hdesc : (s.dev.quiet.freeNext.spend e (s.dev.quiet.latency (latQ (s.dev.runClass e)))).qdesc (effAddr (s.dev.eng e) o) =
      s.dev.qdesc (effAddr (s.dev.eng e) o) := Dev.qdesc_congr hvat hregs _
  have hother : (let y := (s.dev.quiet.freeNext.spend e (s.dev.quiet.latency (latQ (s.dev.runClass e)))).qdesc (effAddr (s.dev.eng e) o)
      if push then y.prod else y.cons) ≠ e := by rw [hdesc]; exact hparty
  exact gives_of_if_pos haddress (bne_iff_ne.mpr hother)

end

/-! ## The instructions of the arithmetic group -/

theorem ends_aluOk_false {e : Eng} {imm : Bool} {o : EOp} (hok : aluOk imm o = false) :
    ∀ c ∈ ([.add e imm o, .sub e imm o, .and e imm o, .or e imm o, .xor e imm o, .shl e imm o, .shr e imm o, .sar e imm o,
      .min e imm o, .max e imm o] : List Instr), Ends c e 1 33 := by
  obtain ⟨hshl, hshr, hsar⟩ := ends_shifts (e := e) (Or.inl hok)
  have hadd : Ends (.add e imm o) e 1 33 := ends_of_alu (fun _ => rfl) hok
  have hsub : Ends (.sub e imm o) e 1 33 := ends_of_alu (fun _ => rfl) hok
  have hand : Ends (.and e imm o) e 1 33 := ends_of_alu (fun _ => rfl) hok
  have hor : Ends (.or e imm o) e 1 33 := ends_of_alu (fun _ => rfl) hok
  have hxor : Ends (.xor e imm o) e 1 33 := ends_of_alu (fun _ => rfl) hok
  have hmin : Ends (.min e imm o) e 1 33 := ends_of_alu (fun _ => rfl) hok
  have hmax : Ends (.max e imm o) e 1 33 := ends_of_alu (fun _ => rfl) hok
  simp only [List.forall_mem_cons]
  exact ⟨hadd, hsub, hand, hor, hxor, hshl, hshr, hsar, hmin, hmax, fun _ h => nomatch h⟩

theorem ends_tstep {e : Eng} {o : EOp} (hpc : pcOk (pcR o) = false) : Ends (.tstep e o) e 6 33 := by
  intro s hfits
  have hissue := gives_of_issue (c := .tstep e o) rfl hfits
  exact gives_of_if_pos hissue (by rw [hpc]; rfl)

theorem ends_ioLd {e : Eng} {o : EOp} (hpc : pcOk o.b.val = false) : Ends (.ioLd e o) e 24 33 := by
  intro s hfits
  have hissue := gives_of_issue (c := .ioLd e o) rfl hfits
  exact gives_of_if_pos hissue (by rw [hpc]; rfl)

/-! ## Loads, stores and registers -/

section
variable {e : Eng} {o : EOp} {s : State}

theorem gives_ld_illegal {cost : Nat} (hcost : (if isCmem (effAddr (s.dev.eng e) o) then 10 else 2) = cost) (hb : 8 ≤ o.b.val)
    (hfits : s.dev.quiet.fits e cost) : Gives (.ld e o) s ((s.dev.quiet.spend e cost).endedBy e 33) := by
  have hissue := gives_of_issue_of_eq (c := .ld e o) rfl hcost hfits
  exact gives_of_if_pos hissue hb

theorem gives_ld_address {cost : Nat} (hcost : (if isCmem (effAddr (s.dev.eng e) o) then 10 else 2) = cost) (hb : o.b.val < 8)
    (hout : ¬memOk (effAddr (s.dev.eng e) o) (2 ^ (o.b.val % 4)) = true) (hfits : s.dev.quiet.fits e cost) :
    Gives (.ld e o) s ((s.dev.quiet.spend e cost).endedBy e 34) := by
  have hissue := gives_of_issue_of_eq (c := .ld e o) rfl hcost hfits
  have hillegal := gives_of_if_neg hissue (Nat.not_le.mpr hb)
  exact gives_of_if_pos hillegal (bnot_of_not hout)

/-- R63: ld of a word that is poisoned or uncorrectable. -/
theorem gives_ld_poison {cost : Nat} (hcost : (if isCmem (effAddr (s.dev.eng e) o) then 10 else 2) = cost) (hb : o.b.val < 8)
    (hin : memOk (effAddr (s.dev.eng e) o) (2 ^ (o.b.val % 4)) = true) (hfits : s.dev.quiet.fits e cost)
    (hbad : ((s.dev.quiet.spend e cost).memRead e (effAddr (s.dev.eng e) o) (2 ^ (o.b.val % 4))).2 = true) :
    let d := s.dev.quiet.spend e cost
    Gives (.ld e o) s ((d.fault 41 0 (d.engDetail e)).endedBy e 35) := by
  have hissue := gives_of_issue_of_eq (c := .ld e o) rfl hcost hfits
  have hillegal := gives_of_if_neg hissue (Nat.not_le.mpr hb)
  have haddress := gives_of_if_neg hillegal (not_bnot_of_true hin)
  exact gives_of_if_pos haddress hbad

theorem gives_st_illegal {cost : Nat} (hcost : (if isCmem (effAddr (s.dev.eng e) o) then 8 else 1) = cost) (hb : 4 ≤ o.b.val)
    (hfits : s.dev.quiet.fits e cost) : Gives (.st e o) s ((s.dev.quiet.spend e cost).endedBy e 33) := by
  have hissue := gives_of_issue_of_eq (c := .st e o) rfl hcost hfits
  exact gives_of_if_pos hissue hb

theorem gives_st_address {cost : Nat} (hcost : (if isCmem (effAddr (s.dev.eng e) o) then 8 else 1) = cost) (hb : o.b.val < 4)
    (hout : ¬memOk (effAddr (s.dev.eng e) o) (2 ^ (o.b.val % 4)) = true) (hfits : s.dev.quiet.fits e cost) :
    Gives (.st e o) s ((s.dev.quiet.spend e cost).endedBy e 34) := by
  have hissue := gives_of_issue_of_eq (c := .st e o) rfl hcost hfits
  have hillegal := gives_of_if_neg hissue (Nat.not_le.mpr hb)
  exact gives_of_if_pos hillegal (bnot_of_not hout)

theorem gives_io_address (hpc : pcOk o.b.val = true) (halign : effAddr (s.dev.eng e) o % 4 ≠ 0) :
    (s.dev.quiet.fits e 24 → Gives (.ioLd e o) s ((s.dev.quiet.spend e 24).endedBy e 34)) ∧
    (s.dev.quiet.fits e 2 → Gives (.ioSt e o) s ((s.dev.quiet.spend e 2).endedBy e 34)) := by
  refine ⟨fun hfits => ?_, fun hfits => ?_⟩
  · have hissue := gives_of_issue (c := .ioLd e o) rfl hfits
    have hillegal := gives_of_if_neg hissue (not_bnot_of_true hpc)
    exact gives_of_if_pos hillegal halign
  · have hissue := gives_of_issue (c := .ioSt e o) rfl hfits
    have hillegal := gives_of_if_neg hissue (not_bnot_of_true hpc)
    exact gives_of_if_pos hillegal halign

theorem gives_ioSt_illegal (hpc : pcOk o.b.val = false) (hfits : s.dev.quiet.fits e 2) :
    Gives (.ioSt e o) s ((s.dev.quiet.spend e 2).endedBy e 33) := by
  have hissue := gives_of_issue (c := .ioSt e o) rfl hfits
  exact gives_of_if_pos hissue (by rw [hpc]; rfl)

/-! ## Vat accesses -/

theorem endsWithin_vget_illegal (hb : o.b ≠ 0) : EndsWithin (.vget e o) s e (latV (s.dev.runClass e)) fun d => d.endedBy e 33 :=
  endsWithin_of_vatIssue (latV_pos _) rfl fun _ => if_pos (bne_iff_ne.mpr hb)

theorem endsWithin_vpeek_illegal (hpc : pcOk o.b.val = false) :
    EndsWithin (.vpeek e o) s e (latV (s.dev.runClass e)) fun d => d.endedBy e 33 :=
  endsWithin_of_vatIssue (latV_pos _) rfl fun _ => if_pos (by rw [hpc]; rfl)

section
variable (hout : effAddr (s.dev.eng e) o % 8 ≠ 0 ∨ 2 ^ 26 < effAddr (s.dev.eng e) o + 8)
include hout

theorem endsWithin_vget_address (hb : o.b = 0) : EndsWithin (.vget e o) s e (latV (s.dev.runClass e)) fun d => d.endedBy e 34 := by
  have hfield : ¬(o.b != 0) = true := by simp [hb]
  exact endsWithin_of_vatIssue (latV_pos _) rfl fun _ => (if_neg hfield).trans (if_pos (not_vatOk hout))

theorem endsWithin_vpeek_address (hpc : pcOk o.b.val = true) :
    EndsWithin (.vpeek e o) s e (latV (s.dev.runClass e)) fun d => d.endedBy e 34 :=
  endsWithin_of_vatIssue (latV_pos _) rfl fun _ => (if_neg (not_bnot_of_true hpc)).trans (if_pos (not_vatOk hout))

end

theorem gives_vput_illegal (hb : 4 ≤ o.b.val) (hfits : s.dev.quiet.fits e (1 + (s.dev.eng e).vputWait)) :
    Gives (.vput e o) s ((s.dev.quiet.spend e (1 + (s.dev.eng e).vputWait)).endedBy e 33) := by
  have hissue := gives_of_issue (c := .vput e o) rfl hfits
  exact gives_of_if_pos hissue hb

theorem gives_vput_address (hb : o.b.val < 4)
    (hout : effAddr (s.dev.eng e) o % 2 ^ o.b.val ≠ 0 ∨ 2 ^ 26 < effAddr (s.dev.eng e) o + 2 ^ o.b.val)
    (hfits : s.dev.quiet.fits e (1 + (s.dev.eng e).vputWait)) :
    Gives (.vput e o) s ((s.dev.quiet.spend e (1 + (s.dev.eng e).vputWait)).endedBy e 34) := by
  have hissue := gives_of_issue (c := .vput e o) rfl hfits
  have hillegal := gives_of_if_neg hissue (Nat.not_le.mpr hb)
  rw [← Nat.mod_eq_of_lt hb] at hout
  exact gives_of_if_pos hillegal (not_vatOk hout)

/-- R65: vget of a word that is poisoned or uncorrectable, which no outstanding vput replaces. -/
theorem gives_vget_poison (halign : effAddr (s.dev.eng e) o % 8 = 0) (hend : effAddr (s.dev.eng e) o + 8 ≤ 2 ^ 26) (hb : o.b = 0)
    (hfits : s.dev.quiet.freeNext.fits e (s.dev.quiet.latency (latV (s.dev.runClass e))))
    (hcovers : (((s.dev.quiet.freeNext.spend e (s.dev.quiet.latency (latV (s.dev.runClass e)))).ctxShow
      (effAddr (s.dev.eng e) o) 8).eng e).covers (effAddr (s.dev.eng e) o) = false)
    (hbad : ((s.dev.quiet.freeNext.spend e (s.dev.quiet.latency (latV (s.dev.runClass e)))).ctxShow
      (effAddr (s.dev.eng e) o) 8).vbad (effAddr (s.dev.eng e) o) 8 = true) :
    Gives (.vget e o) s
      ((((s.dev.quiet.freeNext.spend e (s.dev.quiet.latency (latV (s.dev.runClass e)))).ctxShow
        (effAddr (s.dev.eng e) o) 8).vatTouch (effAddr (s.dev.eng e) o) 8 0).endedBy e 35) := by
  have hok : vatOk (effAddr (s.dev.eng e) o) 8 = true := by
    simp only [vatOk, halign, beq_self_eq_true, Bool.true_and, decide_eq_true_eq]
    exact hend
  have hfield : ¬(o.b != 0) = true := by simp [hb]
  have hissue := gives_of_vatIssue (c := .vget e o) rfl hfits
  have hillegal := gives_of_if_neg hissue hfield
  have haddress := gives_of_if_neg hillegal (not_bnot_of_true hok)
  have hread : ∀ d : Dev, (d.ctxShow (effAddr (s.dev.eng e) o) 8 |>.eng e).covers (effAddr (s.dev.eng e) o) = false →
      d.engVat e (effAddr (s.dev.eng e) o) = ((d.ctxShow (effAddr (s.dev.eng e) o) 8).vatTouch (effAddr (s.dev.eng e) o) 8 0,
        ((d.ctxShow (effAddr (s.dev.eng e) o) 8).eng e).overlay (effAddr (s.dev.eng e) o)
          ((d.ctxShow (effAddr (s.dev.eng e) o) 8).vraw (effAddr (s.dev.eng e) o) 8),
        (d.ctxShow (effAddr (s.dev.eng e) o) 8).vbad (effAddr (s.dev.eng e) o) 8) := fun d hd => if_neg (Bool.eq_false_iff.mp hd)
  have hvat := hread _ hcovers
  rw [hbad] at hvat
  change Gives (.vget e o) s (match (s.dev.quiet.freeNext.spend e (s.dev.quiet.latency (latV (s.dev.runClass e)))).engVat e
    (effAddr (s.dev.eng e) o) with
    | (d, v, bad) => if bad then d.engFault e 35 else d.engDo e fun x => x.setRg o.d (BitVec.ofNat 64 v)) at haddress
  rw [hvat] at haddress
  exact haddress

end

/-! ## Branches -/

section
variable {e : Eng} {o : EOp} {s : State}

/-- A branch on the predicate that its field names. -/
theorem exec_bp {i : Fin 4} {neg : Bool} (hd : o.d.val % 8 = i.val + if neg then 4 else 0) :
    exec (.bp e o) s = .next { s with dev := s.dev.quiet.branch e (o.a == 0 && o.d.val < 8) o ((s.dev.eng e).p[i] != neg) } := by
  obtain ⟨hmod, hbit, -⟩ := bp_fields hd
  have hi : o.d.val % 4 = i.val := by omega
  have hneg : bit o.d.val 2 = neg := by
    rw [← hbit]
    unfold bit
    congr 1
    omega
  rw [← bp_taken hi hneg]
  rfl

theorem gives_bp_illegal {i : Fin 4} {neg : Bool} (hd : o.d.val % 8 = i.val + if neg then 4 else 0)
    (hbad : decide (o.a ≠ 0 ∨ 8 ≤ o.d.val) = true ∨ o.b ≠ 0 ∨ ∀ t : Nat, t < 16384 → ((s.dev.eng e).pc : Int) + o.lo.toInt ≠ t)
    (hfits : s.dev.quiet.fits e (if (s.dev.eng e).p[i] = neg then 1 else 2)) :
    Gives (.bp e o) s ((s.dev.quiet.spend e (if (s.dev.eng e).p[i] = neg then 1 else 2)).endedBy e 33) := by
  refine gives_branch_illegal (exec_bp hd) ?_ hfits (hbad.imp_left fun h => ?_)
  · by_cases hp : (s.dev.eng e).p[i] = neg <;> simp [hp]
  · rcases of_decide_eq_true h with ha | hd8
    · simp [ha]
    · simp [Nat.not_lt.mpr hd8]

theorem gives_b_illegal (hbad : decide (o.d ≠ 0 ∨ o.a ≠ 0) = true ∨ o.b ≠ 0 ∨
      ∀ t : Nat, t < 16384 → ((s.dev.eng e).pc : Int) + o.lo.toInt ≠ t) (hfits : s.dev.quiet.fits e 2) :
    Gives (.b e o) s ((s.dev.quiet.spend e 2).endedBy e 33) ∧ Gives (.call e o) s ((s.dev.quiet.spend e 2).endedBy e 33) := by
  have hbad' : (o.d == 0 && o.a == 0) = false ∨ o.b ≠ 0 ∨ ∀ t : Nat, t < 16384 → ((s.dev.eng e).pc : Int) + o.lo.toInt ≠ t := by
    refine hbad.imp_left fun h => ?_
    rcases of_decide_eq_true h with hd | ha
    · simp [hd]
    · simp [ha]
  exact ⟨gives_branch_illegal (c := .b e o) (taken := true) rfl rfl hfits hbad',
    gives_branch_illegal (c := .call e o) (taken := true) rfl rfl hfits hbad'⟩

theorem gives_bz_illegal (hbad : decide (o.d ≠ 0) = true ∨ o.b ≠ 0 ∨
      ∀ t : Nat, t < 16384 → ((s.dev.eng e).pc : Int) + o.lo.toInt ≠ t) :
    (s.dev.quiet.fits e (if (s.dev.eng e).rg o.a = 0 then 2 else 1) →
      Gives (.bz e o) s ((s.dev.quiet.spend e (if (s.dev.eng e).rg o.a = 0 then 2 else 1)).endedBy e 33)) ∧
    (s.dev.quiet.fits e (if (s.dev.eng e).rg o.a = 0 then 1 else 2) →
      Gives (.bnz e o) s ((s.dev.quiet.spend e (if (s.dev.eng e).rg o.a = 0 then 1 else 2)).endedBy e 33)) := by
  have hbad' : (o.d == 0) = false ∨ o.b ≠ 0 ∨ ∀ t : Nat, t < 16384 → ((s.dev.eng e).pc : Int) + o.lo.toInt ≠ t :=
    hbad.imp_left fun h => beq_eq_false_iff_ne.mpr (of_decide_eq_true h)
  have hz : (if (s.dev.eng e).rg o.a = 0 then 2 else 1) = if ((s.dev.eng e).rg o.a == 0) = true then 2 else 1 := by simp
  have hnz : (if (s.dev.eng e).rg o.a = 0 then 1 else 2) = if ((s.dev.eng e).rg o.a != 0) = true then 2 else 1 := by
    by_cases h : (s.dev.eng e).rg o.a = 0 <;> simp [h]
  exact ⟨fun hfits => gives_branch_illegal (c := .bz e o) (taken := (s.dev.eng e).rg o.a == 0) rfl hz hfits hbad',
    fun hfits => gives_branch_illegal (c := .bnz e o) (taken := (s.dev.eng e).rg o.a != 0) rfl hnz hfits hbad'⟩

theorem gives_wait_illegal (h : o.d ≠ 0 ∨ o.a ≠ 0 ∨ o.b ≠ 0 ∨ 1250 ≤ o.lo.toNat)
    (hfits : s.dev.quiet.fits e (if o.lo.toNat < 1250 then max 1 (o.lo.toNat - (s.dev.eng e).cyc) else 1)) :
    Gives (.wait e o) s
      ((s.dev.quiet.spend e (if o.lo.toNat < 1250 then max 1 (o.lo.toNat - (s.dev.eng e).cyc) else 1)).endedBy e 33) := by
  have hissue := gives_of_issue (c := .wait e o) rfl hfits
  have hfields : (o.d != 0 || o.a != 0 || o.b != 0 || immN o ≥ 1250) = true := by simpa [immN, or_assoc] using h
  exact gives_of_if_pos hissue hfields

end

/-- Settles O16: by the instruction and by what is wrong with it. -/
theorem engineFaultsEndTheDispatch : Obligations.EngineFaultsEndTheDispatch := by
  refine ⟨fun e imm o => ?fields, fun e o s => ?state⟩
  case fields =>
    intro n w ends zero
    refine ⟨ends_aluOk_false, fun himm hn => ?shifts, fun h => ?mac, fun h => ends_sdiff h, fun h => ends_sat h, fun h => ends_ldh h,
      fun h => ends_getacc h, fun ho => ?zero, fun h => ends_tlook h, ends_tstep, fun h => ends_now h, fun h => ?arm,
      fun h => ends_evtest h, fun h => ends_evclear h, fun h => ends_signal h, fun h => ends_fault h, ends_ioLd⟩
    case shifts =>
      obtain ⟨hshl, hshr, hsar⟩ := ends_shifts (e := e) (Or.inr ⟨himm, hn⟩)
      simp only [ends, List.forall_mem_cons]
      exact ⟨hshl, hshr, hsar, fun _ h => nomatch h⟩
    case mac =>
      obtain ⟨hmac, hmacs⟩ := ends_mac (e := e) h
      simp only [ends, List.forall_mem_cons]
      exact ⟨hmac, hmacs, fun _ h => nomatch h⟩
    case zero =>
      obtain ⟨hnop, hclracc, hfence, hyield, hhalt, hret⟩ := not_zero_illegal (e := e) ho
      simp only [ends, List.forall_mem_cons]
      exact ⟨⟨hnop, hclracc, hfence, hyield, hhalt, fun _ h => nomatch h⟩, hret⟩
    case arm =>
      obtain ⟨harm, hdisarm⟩ := ends_arm (e := e) h
      simp only [ends, List.forall_mem_cons]
      exact ⟨harm, hdisarm, fun _ h => nomatch h⟩
  case state =>
    intro x0 a n cmem inside V Q ends goes stuck ldCost stCost
    have hcmem : isCmem a = cmem := isCmem_eq a
    have hld : (if isCmem a then 10 else 2) = ldCost := by rw [hcmem]
    have hst : (if isCmem a then 8 else 1) = stCost := by rw [hcmem]
    have hinside (w : Nat) : memOk a w = true ↔ inside w := by
      rw [memOk_iff]
      simp [inside, cmem]
    refine ⟨gives_ld_illegal hld, fun hb hout => gives_ld_address hld hb fun h => hout ((hinside _).mp h), gives_st_illegal hst,
      fun hb hout => gives_st_address hst hb fun h => hout ((hinside _).mp ?width),
      fun hb hin hfits => gives_ld_poison hld hb ((hinside _).mpr hin) hfits, endsWithin_vget_illegal,
      fun hpc => ⟨endsWithin_vpeek_illegal hpc, endsWithin_queueOp_illegal (push := false) rfl hpc,
        endsWithin_queueOp_illegal (push := true) rfl hpc⟩,
      fun hout => ⟨endsWithin_vget_address hout, endsWithin_vpeek_address hout⟩, gives_vput_illegal, gives_vput_address,
      fun halign hend hb => ⟨_, Dev.latency_pos s.dev.quiet V, Dev.latency_le _ (latV_pos _),
        fun hfits hcovers hbad => gives_vget_poison halign hend hb hfits hcovers hbad⟩,
      fun hpc => ?queue, fun hpc halign => gives_io_address hpc halign, gives_ioSt_illegal, fun hpc => ?tables, gives_wait_illegal,
      fun hbad hfits => (gives_b_illegal hbad hfits).1, fun hbad hfits => (gives_b_illegal hbad hfits).2,
      fun hbad => (gives_bz_illegal hbad).1, fun hbad => (gives_bz_illegal hbad).2, fun i neg hd => gives_bp_illegal hd,
      fun hd ha hb l hl htarget hstack hfits => gives_call_stack hd ha hb hfits htarget (hstack ▸ hl), ?ret⟩
    case width =>
      rwa [Nat.mod_eq_of_lt hb] at h
    case queue =>
      exact ⟨fun hq => ⟨endsWithin_queueOp_address (push := false) rfl hpc hq, endsWithin_queueOp_address (push := true) rfl hpc hq⟩,
        fun hq hvputs => ⟨fun hne => endsWithin_queueOp_party (push := false) rfl hpc hq hvputs hne,
          fun hne => endsWithin_queueOp_party (push := true) rfl hpc hq hvputs hne⟩⟩
    case tables =>
      exact ⟨fun hb hkind hfits => gives_tableOp_fault (exec_of_if_neg (c := .tlook e o) rfl (by simp [hb])) hpc hkind hfits,
        fun hkind hfits => gives_tableOp_fault (c := .tstep e o) rfl hpc hkind hfits⟩
    case ret =>
      rintro rfl hempty hfits
      exact gives_ret_stack hfits hempty

end Sys2Proof.Machine
end

section
/-! SUPPORT and proof of O14. Tasks as they stand (R35), the order in which they are taken, and the start of a dispatch (R30, R43, R44). -/

namespace Sys2Proof.Machine

/-! ## Registers of different groups -/

/-- Copies of different registers lie at different places. -/
theorem Reg.key_ne {q r : Reg} (hq : q.kind ≠ .plain) (hr : r.kind ≠ .plain) (hbase : q.base % copyStride ≠ r.base % copyStride)
    (m n : Nat) : q.key m ≠ r.key n := by
  have hkey {x : Reg} (hx : x.kind ≠ .plain) (k : Nat) : x.key k % copyStride = x.base % copyStride := by
    unfold Reg.key
    cases hkind : x.kind with
    | plain => exact absurd hkind hx
    | path => exact Nat.add_mul_mod_self_left ..
    | sel k => exact Nat.add_mul_mod_self_left ..
  intro h
  exact hbase (by rw [← hkey hq m, ← hkey hr n, h])

/-- R35: ENG_TASK_STAT written, ENG_TASK_CFG reads as before. -/
theorem Dev.get_cfg_put_stat (d : Dev) (f g : Fld) (v m n : Nat) (hf : f.reg = R.ENG_TASK_STAT) (hg : g.reg = R.ENG_TASK_CFG) :
    (d.put f v n).get g m = d.get g m :=
  Dev.get_put_ne _ _ _ _ _ _ (by rw [hf, hg]; exact Reg.key_ne (by decide) (by decide) (by decide) m n)

/-! ## Tasks as they stand -/

/-- R35: a task with nothing due by now stands as its entry does. -/
theorem Task.asOf_of_later {x : Task} {now : Nat} (h : ∀ a, x.due = some a → now < a) (cls : Nat) : x.asOf cls now = x := by
  unfold Task.asOf
  cases hdue : x.due with
  | none => rfl
  | some a => exact if_pos (h a hdue)

theorem Task.lt_of_due_asOf {x : Task} {cls now a : Nat} (h : (x.asOf cls now).due = some a) : now < a := by
  cases hdue : x.due with
  | none => simp [Task.asOf, hdue] at h
  | some b =>
    simp only [Task.asOf, hdue] at h
    split at h
    · next hlt =>
      rw [hdue] at h
      exact Option.some.inj h ▸ hlt
    · split at h <;> exact nomatch h

/-- A task as it stands has nothing due by now. -/
theorem Dev.lt_of_task_due {d : Dev} {t a : Nat} (h : (d.task t).due = some a) : d.absCycle < a := Task.lt_of_due_asOf h

/-- A task written, with what is due as it stands. -/
theorem Dev.task_setTask_of_due {d : Dev} {t : Nat} {x : Task} (h : x.due = (d.task t).due) : (d.setTask t x).task t = x := by
  rw [Dev.task_setTask_self]
  exact Task.asOf_of_later (fun a ha => Dev.lt_of_task_due (h ▸ ha)) _

/-- A task is read from its entry, its declared class and the present cycle. -/
theorem Dev.task_congr {d d' : Dev} {t : Nat} (htask : Tbl.getD d'.tasks t Task.reset = Tbl.getD d.tasks t Task.reset)
    (hcls : d'.get F.ENG_TASK_CFG.CLASS t = d.get F.ENG_TASK_CFG.CLASS t) (hcycle : d'.absCycle = d.absCycle) :
    d'.task t = d.task t := by
  unfold Dev.task
  rw [htask, hcls, hcycle]

/-! ## Promotions -/

@[simp] theorem Dev.promote_still (d : Dev) (t now : Nat) : (d.promote t now).still = d.still := by
  simp [Dev.promote]

@[simp] theorem Dev.promoteAll_still (d : Dev) (e now : Nat) : (d.promoteAll e now).still = d.still := by
  simp [Dev.promoteAll]

theorem Dev.cycle_of_still {d d' : Dev} (h : d.still = d'.still) : d.cycle = d'.cycle := by
  change d.still.cycle = d'.still.cycle
  rw [h]

/-! ## The order of tasks (R43) -/

theorem Dev.not_before_of_before {d : Dev} {t u : Nat} (h : d.before t u = true) : d.before u t = false := by
  rw [Bool.eq_false_iff]
  intro h'
  simp only [Dev.before, Bool.or_eq_true, Bool.and_eq_true, decide_eq_true_eq, beq_iff_eq] at h h'
  omega

/-- What the search for the next task keeps at one task. -/
def Dev.better (d : Dev) (best : Option Nat) (t : Nat) : Option Nat :=
  if d.candidate t then
    match best with
    | none => some t
    | some u => if d.before t u then some t else best
  else best

section
variable {d : Dev} {t : Nat} (hcand : d.candidate t = true) (l : List Nat)
  (hfirst : ∀ u ∈ l, u ≠ t → d.candidate u = true → d.before t u = true)
include hcand hfirst

omit hcand in
/-- The first of the candidates, once taken, stays the best. -/
theorem Dev.foldl_better_first : l.foldl d.better (some t) = some t := by
  induction l with
  | nil => rfl
  | cons u r ih =>
    have hstay : d.better (some t) u = some t := by
      unfold Dev.better
      split
      · next hu =>
        by_cases hut : u = t
        · simp [hut]
        · simp [Dev.not_before_of_before (hfirst u List.mem_cons_self hut hu)]
      · rfl
    rw [List.foldl_cons, hstay]
    exact ih fun v hv => hfirst v (List.mem_cons_of_mem u hv)

/-- The search finds the first of the candidates, if it is among the tasks searched. -/
theorem Dev.foldl_better_mem (ht : t ∈ l) (best : Option Nat) (hbest : ∀ u, best = some u → u = t ∨ d.before t u = true) :
    l.foldl d.better best = some t := by
  induction l generalizing best with
  | nil => exact nomatch ht
  | cons u r ih =>
    have hrest (v : Nat) (hv : v ∈ r) := hfirst v (List.mem_cons_of_mem u hv)
    rw [List.foldl_cons]
    by_cases hut : u = t
    · subst hut
      have htaken : d.better best u = some u := by
        unfold Dev.better
        rw [if_pos hcand]
        cases hb : best with
        | none => rfl
        | some v =>
          rcases hbest v hb with rfl | hbefore
          · simp
          · exact if_pos hbefore
      rw [htaken]
      exact Dev.foldl_better_first r hrest
    · refine ih hrest ((List.mem_cons.mp ht).resolve_left (Ne.symm hut)) _ fun v hv => ?_
      unfold Dev.better at hv
      split at hv
      · next hu =>
        cases hb : best with
        | none =>
          rw [hb] at hv
          exact Or.inr (Option.some.inj hv ▸ hfirst u List.mem_cons_self hut hu)
        | some w =>
          rw [hb] at hv
          simp only at hv
          split at hv
          · exact Or.inr (Option.some.inj hv ▸ hfirst u List.mem_cons_self hut hu)
          · exact hbest v (hb ▸ hv)
      · exact hbest v hv

end

/-- R43: the dispatcher takes the candidate that comes before every other one. -/
theorem Dev.nextTask_eq {d : Dev} {e : Nat} {slot : Fin 16} (hcand : d.candidate (16 * e + slot) = true)
    (hfirst : ∀ u : Fin 16, u ≠ slot → d.candidate (16 * e + u) = true → d.before (16 * e + slot) (16 * e + u) = true) :
    d.nextTask e = some (16 * e + slot) := by
  refine Dev.foldl_better_mem hcand _ (fun u hu hne hc => ?_) ?_ none (fun u h => nomatch h)
  · obtain ⟨k, hk, rfl⟩ := List.mem_map.mp hu
    have hk16 : k < 16 := List.mem_range.mp hk
    exact hfirst ⟨k, hk16⟩ (fun h => hne (by rw [← h])) hc
  · exact List.mem_map.mpr ⟨slot, List.mem_range.mpr slot.isLt, rfl⟩

/-! ## The start of a dispatch -/

theorem Dev.dispatchFrom_of_fits {d : Dev} {e t : Nat} (n : Nat) (hnext : d.nextTask e = some t)
    (hroom : d.cycle + d.get F.ENG_TASK_BUDGET.BUDGET t ≤ 1250) : Dev.dispatchFrom (n + 1) d e = d.startTask e t := by
  simp only [Dev.dispatchFrom, hnext]
  exact if_pos hroom

theorem Dev.dispatch_of_idle {d : Dev} {e c : Nat} (hc : 50 ≤ c) (hidle : d.running e = false) (hon : d.clusterOn (e / 32) = true)
    (hdispatch : d.dispatchOn = true) :
    d.dispatch e c =
      Dev.dispatchFrom 16 (({ d with cycle := c } : Dev).promoteAll e ({ d with cycle := c } : Dev).absCycle) e := by
  have hready : 50 ≤ c ∧ !d.running e ∧ d.clusterOn (e / 32) ∧ d.dispatchOn := ⟨hc, by simp [hidle], hon, hdispatch⟩
  exact if_pos hready

/-- R43, R44: an idle engine of a powered cluster starts its next task, if that fits in the tick. -/
theorem gives_dispatch {s : State} {e : Eng} {c : Cycle} {t : Nat}
    (hc : 50 ≤ c.val) (hidle : s.dev.running e = false) (hon : s.dev.clusterOn (e / 32) = true) (hdispatch : s.dev.dispatchOn = true)
    (hnext : (({ s.dev.quiet with cycle := c.val } : Dev).promoteAll e (s.dev.tick * 1250 + c)).nextTask e = some t)
    (hroom : c.val + (({ s.dev.quiet with cycle := c.val } : Dev).promoteAll e (s.dev.tick * 1250 + c)).get
      F.ENG_TASK_BUDGET.BUDGET t ≤ 1250) :
    Gives (.taskDispatch e c) s ((({ s.dev.quiet with cycle := c.val } : Dev).promoteAll e (s.dev.tick * 1250 + c)).startTask e t) := by
  have hcycle : (({ s.dev.quiet with cycle := c.val } : Dev).promoteAll e (s.dev.tick * 1250 + c)).cycle = c.val :=
    Dev.cycle_of_still (Dev.promoteAll_still _ _ _)
  have hdisp : s.dev.quiet.dispatch e c = _ := Dev.dispatch_of_idle hc hidle hon hdispatch
  have hnow : ({ s.dev.quiet with cycle := c.val } : Dev).absCycle = s.dev.tick * 1250 + c := rfl
  have hgives : Gives (.taskDispatch e c) s (s.dev.quiet.dispatch e c) := rfl
  have hfits : (({ s.dev.quiet with cycle := c.val } : Dev).promoteAll e (s.dev.tick * 1250 + c)).cycle +
      (({ s.dev.quiet with cycle := c.val } : Dev).promoteAll e (s.dev.tick * 1250 + c)).get F.ENG_TASK_BUDGET.BUDGET t ≤ 1250 := by
    rw [hcycle]
    exact hroom
  rwa [hdisp, hnow, Dev.dispatchFrom_of_fits 15 hnext hfits] at hgives

section
variable (d : Dev) (e t : Nat)

/-- R40: the input's count is taken. -/
def Dev.inputTaken : Dev :=
  let i := 16 * e + d.get F.ENG_TASK_CFG.TRIGGER t
  if d.get F.ENG_TASK_CFG.TRIGGER t < 16 then d.setTin i { d.tin i with count := 0, ovf := false } else d

/-- R40: the task as its dispatch starts. -/
def Dev.taskStarted : Task :=
  { d.task t with
    ready := false, promoted := false, eff := d.get F.ENG_TASK_CFG.CLASS t,
    disp := d.dispatches t + 1, dispTick := d.tick, again := false, cancelled := false }

/-- The device as the engine starts: the input's count is taken, and the task is no longer ready. -/
def Dev.taskTaken : Dev :=
  (((d.inputTaken e t).setTask t (d.taskStarted t)).putB F.ENG_TASK_STAT.LATE (decide ((d.task t).since / 1250 < d.tick)) t).putB
    F.ENG_TASK_STAT.PROMOTED (d.task t).promoted t

theorem Dev.inputTaken_cases (p : Dev → Prop) (htaken : ∀ i x, p (d.setTin i x)) (hnone : p d) : p (d.inputTaken e t) := by
  unfold Dev.inputTaken
  split
  · exact htaken _ _
  · exact hnone

theorem Dev.startTask_eq : d.startTask e t = (d.taskTaken e t).setEng e { d.eng e with
    g := Vector.replicate 16 0, acc := 0, p := Vector.replicate 4 false
    ts := (if d.get F.ENG_TASK_CFG.TRIGGER t < 16 then (d.tin (16 * e + d.get F.ENG_TASK_CFG.TRIGGER t)).count +
        d.get F.ENG_TASK_CFG.TRIGGER t * 2 ^ 8 + b2n (d.tin (16 * e + d.get F.ENG_TASK_CFG.TRIGGER t)).ovf * 2 ^ 12 else 0) +
      b2n (decide ((d.task t).since / 1250 < d.tick)) * 2 ^ 13 + b2n (d.task t).promoted * 2 ^ 14 + t % 16 * 2 ^ 15
    pc := d.get F.ENG_TASK_CFG.ENTRY t, stack := [], run := some (t % 16), start := d.cycle, cyc := d.cycle + 2, vputs := [], qops := []
    ioDone := 0 } := by
  have hentry : (d.taskTaken e t).get F.ENG_TASK_CFG.ENTRY t = d.get F.ENG_TASK_CFG.ENTRY t := by
    unfold Dev.taskTaken Dev.putB
    rw [Dev.get_cfg_put_stat _ _ _ _ _ _ rfl rfl, Dev.get_cfg_put_stat _ _ _ _ _ _ rfl rfl]
    exact Dev.inputTaken_cases d e t (fun d' => (d'.setTask t (d.taskStarted t)).get F.ENG_TASK_CFG.ENTRY t = _) (fun _ _ => rfl) rfl
  rw [← hentry]
  unfold Dev.startTask Dev.taskTaken Dev.inputTaken
  by_cases htrig : d.get F.ENG_TASK_CFG.TRIGGER t < 16
  · simp only [htrig, if_true]
    rfl
  · simp only [htrig, if_false]
    rfl

/-- R30, R40: tasks after the start: the task started has begun one more dispatch, the others stand as they did. -/
theorem Dev.task_taskTaken (u : Nat) : (d.taskTaken e t).task u = if u = t then d.taskStarted t else d.task u := by
  have hin (v : Nat) : (d.inputTaken e t).task v = d.task v :=
    Dev.inputTaken_cases d e t (fun d' => d'.task v = d.task v) (fun _ _ => rfl) rfl
  have hstat : (d.taskTaken e t).task u = ((d.inputTaken e t).setTask t (d.taskStarted t)).task u := by
    refine Dev.task_congr rfl ?_ rfl
    unfold Dev.taskTaken Dev.putB
    rw [Dev.get_cfg_put_stat _ _ _ _ _ _ rfl rfl, Dev.get_cfg_put_stat _ _ _ _ _ _ rfl rfl]
  rw [hstat]
  split
  · next h =>
    subst h
    exact Dev.task_setTask_of_due (by rw [hin]; rfl)
  · next h => rw [Dev.task_setTask_ne _ _ _ _ h, hin]

/-- R40: the input whose count is taken. -/
theorem Dev.tin_taskTaken (htrig : d.get F.ENG_TASK_CFG.TRIGGER t < 16) :
    (d.taskTaken e t).tin (16 * e + d.get F.ENG_TASK_CFG.TRIGGER t) =
      { d.tin (16 * e + d.get F.ENG_TASK_CFG.TRIGGER t) with count := 0, ovf := false } := by
  change (d.inputTaken e t).tin _ = _
  rw [Dev.inputTaken, if_pos htrig, Dev.tin_setTin_self]

theorem Dev.engs_taskTaken : (d.taskTaken e t).engs = d.engs :=
  Dev.inputTaken_cases d e t (fun d' => d'.engs = d.engs) (fun _ _ => rfl) rfl

theorem Dev.vat_taskTaken : (d.taskTaken e t).vat = d.vat :=
  Dev.inputTaken_cases d e t (fun d' => d'.vat = d.vat) (fun _ _ => rfl) rfl

theorem Dev.tick_taskTaken : (d.taskTaken e t).tick = d.tick :=
  Dev.inputTaken_cases d e t (fun d' => d'.tick = d.tick) (fun _ _ => rfl) rfl

end

theorem Dev.dispatches_of_task {d : Dev} {t : Nat} {x : Task} (htask : d.task t = x) (htick : x.dispTick = d.tick) :
    d.dispatches t = x.disp := by
  unfold Dev.dispatches
  rw [htask]
  exact if_pos htick

theorem Dev.dispatches_setEng (d : Dev) (e t : Nat) (x : Engine) : (d.setEng e x).dispatches t = d.dispatches t := rfl

/-- Settles O14: the dispatcher takes the first candidate, and its dispatch starts. -/
theorem dispatchTakesTheFirstReadyTask : Obligations.DispatchTakesTheFirstReadyTask := by
  intro e c s slot d t hc hidle hon hdispatch hcand hfirst hroom
  have hnext : d.nextTask e = some t := Dev.nextTask_eq hcand hfirst
  have hgives : Gives (.taskDispatch e c) s (d.startTask e t) := gives_dispatch hc hidle hon hdispatch hnext hroom
  have hcycle : d.cycle = c.val := Dev.cycle_of_still (Dev.promoteAll_still _ _ _)
  clear_value d
  rw [Dev.startTask_eq] at hgives
  refine ⟨_, hgives, ?_⟩
  intro x trig i ready
  have hx : x = _ := Dev.eng_setEng_self _ _ _
  have hslot : t % 16 = slot.val := by
    have hlt := slot.isLt
    omega
  have htask : (d.taskTaken e t).task t = d.taskStarted t := by rw [Dev.task_taskTaken, if_pos rfl]
  have hdisp : (d.taskTaken e t).dispatches t = d.dispatches t + 1 :=
    Dev.dispatches_of_task htask (Dev.tick_taskTaken d e t).symm
  refine ⟨fun r => ?rg, ?acc, fun p => ?pred, ?pc, ?stack, ?run, ?start, ?lmem, ?timers, ?ts, ?ready, ?disp, fun htrig => ?input,
    fun u hu => ?others, fun g hg => ?engs, ?vat⟩
  case vat => rw [Dev.setEng_vat, Dev.vat_taskTaken]
  case disp =>
    rw [Dev.dispatches_setEng, hdisp]
  case rg =>
    rw [hx]
    unfold Engine.rg
    split
    · rfl
    · exact Vector.getElem_replicate _
  case pred =>
    rw [hx]
    exact Vector.getElem_replicate _
  case ts => rw [hx, hslot]
  case run => rw [hx, hslot]
  case start =>
    rw [hx]
    exact hcycle
  case ready => exact congrArg Task.ready htask
  case input =>
    have htin := Dev.tin_taskTaken d e t htrig
    exact ⟨congrArg TaskIn.count htin, congrArg TaskIn.ovf htin, (congrArg TaskIn.fifo htin :)⟩
  case others => exact (Dev.task_taskTaken d e t u).trans (if_neg hu)
  case engs =>
    rw [Dev.eng_setEng_ne _ _ _ _ hg]
    unfold Dev.eng
    rw [Dev.engs_taskTaken]
  all_goals rw [hx]

end Sys2Proof.Machine
end

section
/-! SUPPORT and proof of O17. Task events (R38, R39, R41), promotions (R45), cancels and tick timers (R75). -/

namespace Sys2Proof.Machine

/-! ## Entries of an input's FIFO -/

/-- R39: where an entry goes: behind those of its source or a lower one, before the next one of a higher. -/
theorem entryInsert_split (entry : DWord) (old : List DWord) : ∃ l r, old = l ++ r ∧ entryInsert entry old = l ++ entry :: r ∧
    (∀ v ∈ r.head?, entry.toNat % 4096 < v.toNat % 4096) ∧ ∀ v ∈ l, v.toNat % 4096 ≤ entry.toNat % 4096 := by
  induction old with
  | nil => exact ⟨[], [], by simp [entryInsert]⟩
  | cons v rest ih =>
    by_cases hlt : entry.toNat % 4096 < v.toNat % 4096
    · exact ⟨[], v :: rest, by simp [entryInsert, hlt]⟩
    · obtain ⟨l, r, hrest, hins, hnext, hlow⟩ := ih
      refine ⟨v :: l, r, by simp [hrest], by simp [entryInsert, hlt, hins], hnext, fun u hu => ?_⟩
      rcases List.mem_cons.mp hu with rfl | hmem
      · exact Nat.not_lt.mp hlt
      · exact hlow u hmem

theorem entryInsert_length (entry : DWord) (old : List DWord) : (entryInsert entry old).length = old.length + 1 := by
  obtain ⟨l, r, rfl, hins, -, -⟩ := entryInsert_split entry old
  simp [hins]
  omega

/-- R38: a FIFO entry's low twelve bits are the event's source. -/
theorem Dev.fifoEntry_source (d : Dev) (source : BitVec 12) : (d.fifoEntry source.toNat).toNat % 4096 = source.toNat := by
  have hlt := source.isLt
  simp only [Dev.fifoEntry, BitVec.toNat_ofNat]
  omega

theorem Dev.fifoEntry_eq (d : Dev) (source : BitVec 12) :
    d.fifoEntry source.toNat = BitVec.ofNat 64 (source.toNat + d.tick % 2 ^ 16 * 2 ^ 16 + d.s32 * 2 ^ 32) := by
  unfold Dev.fifoEntry
  rw [Nat.mod_eq_of_lt source.isLt]

section
variable {x : TaskIn} {entry : DWord} {now : Nat}

/-- R38: an event of a later cycle is stored last while there is room. -/
theorem TaskIn.fifo_push_of_room (hlast : x.last ≠ now) (hroom : x.fifo.length < 16) : (x.push entry now).fifo = x.fifo ++ [entry] := by
  simp only [TaskIn.push, if_neg hlast, Nat.sub_zero, List.take_length, List.drop_length, entryInsert]
  exact List.take_of_length_le (by simp; omega)

/-- R38: an event of a later cycle that finds no room is not stored; OVF says so. -/
theorem TaskIn.push_of_full (hlast : x.last ≠ now) (hfull : x.fifo.length = 16) :
    (x.push entry now).fifo = x.fifo ∧ (x.push entry now).ovf = true := by
  simp only [TaskIn.push, if_neg hlast, Nat.sub_zero, List.take_length, List.drop_length, entryInsert]
  exact ⟨List.take_left' hfull, by simp [hfull]⟩

/-- R39: an event of the last one's cycle is stored among those of the cycle, in ascending source number. -/
theorem TaskIn.fifo_push_of_same (hlast : x.last = now) (hroom : x.fifo.length < 16) :
    ∃ l r, x.fifo = l ++ r ∧ r.length ≤ x.same ∧ (x.push entry now).fifo = l ++ entry :: r ∧
      (∀ v ∈ r.head?, entry.toNat % 4096 < v.toNat % 4096) ∧
      ∀ v ∈ l.drop (x.fifo.length - x.same), v.toNat % 4096 ≤ entry.toNat % 4096 := by
  have hkept : x.fifo.length - min x.same x.fifo.length = x.fifo.length - x.same := by omega
  obtain ⟨l, r, hsplit, hins, hnext, hlow⟩ := entryInsert_split entry (x.fifo.drop (x.fifo.length - x.same))
  have hlen := congrArg List.length hsplit
  simp only [List.length_drop, List.length_append] at hlen
  refine ⟨x.fifo.take (x.fifo.length - x.same) ++ l, r, ?_, by omega, ?_, hnext, fun v hv => hlow v ?_⟩
  · rw [List.append_assoc, ← hsplit, List.take_append_drop]
  · simp only [TaskIn.push, if_pos hlast, hkept, hins]
    rw [List.take_of_length_le, List.append_assoc]
    simp
    omega
  · rwa [List.drop_left' (by simp)] at hv

end

/-! ## Tasks made ready -/

section
variable (d : Dev) (t : Nat)

/-- R40, R43: an event changes at most its task's entry. -/
theorem Dev.makeReady_cases (p : Dev → Prop) (hset : ∀ x, p (d.setTask t x)) (hnone : p d) : p (d.makeReady t) := by
  unfold Dev.makeReady
  dsimp only
  split
  · exact hset _
  · split
    · exact hnone
    · exact hset _

theorem Dev.regs_makeReady : (d.makeReady t).regs = d.regs := Dev.makeReady_cases d t (fun d' => d'.regs = d.regs) (fun _ => rfl) rfl

theorem Dev.engs_makeReady : (d.makeReady t).engs = d.engs := Dev.makeReady_cases d t (fun d' => d'.engs = d.engs) (fun _ => rfl) rfl

theorem Dev.tins_makeReady : (d.makeReady t).tins = d.tins := Dev.makeReady_cases d t (fun d' => d'.tins = d.tins) (fun _ => rfl) rfl

theorem Dev.task_makeReady_ne {u : Nat} (h : u ≠ t) : (d.makeReady t).task u = d.task u :=
  Dev.makeReady_cases d t (fun d' => d'.task u = d.task u) (fun x => Dev.task_setTask_ne d t u x h) rfl

/-- R40: a task that does not run is ready after its event. -/
theorem Dev.ready_makeReady (hrun : (d.eng (t / 16)).run ≠ some (t % 16)) : ((d.makeReady t).task t).ready = true := by
  unfold Dev.makeReady
  simp only [if_neg hrun]
  split
  · assumption
  · have hdue (x : Task) (h : x.due = (d.task t).due) (hready : x.ready = true) : ((d.setTask t x).task t).ready = true := by
      rwa [Dev.task_setTask_of_due h]
    exact hdue _ rfl rfl

end

section
variable (ts : List Nat) (d : Dev)

theorem Dev.regs_foldl_makeReady : (ts.foldl Dev.makeReady d).regs = d.regs :=
  List.foldlRecOn ts Dev.makeReady (motive := fun d' => d'.regs = d.regs) rfl fun d' h t _ => (Dev.regs_makeReady d' t).trans h

theorem Dev.engs_foldl_makeReady : (ts.foldl Dev.makeReady d).engs = d.engs :=
  List.foldlRecOn ts Dev.makeReady (motive := fun d' => d'.engs = d.engs) rfl fun d' h t _ => (Dev.engs_makeReady d' t).trans h

theorem Dev.tins_foldl_makeReady : (ts.foldl Dev.makeReady d).tins = d.tins :=
  List.foldlRecOn ts Dev.makeReady (motive := fun d' => d'.tins = d.tins) rfl fun d' h t _ => (Dev.tins_makeReady d' t).trans h

end

/-- R40: of the tasks of an event every one that does not run is ready after it. -/
theorem Dev.ready_foldl_makeReady {ts : List Nat} {u : Nat} (d : Dev) (hmem : u ∈ ts ∨ (d.task u).ready = true)
    (hrun : (d.eng (u / 16)).run ≠ some (u % 16)) : ((ts.foldl Dev.makeReady d).task u).ready = true := by
  induction ts generalizing d with
  | nil => exact hmem.resolve_left List.not_mem_nil
  | cons t ts ih =>
    have heng : (d.makeReady t).eng (u / 16) = d.eng (u / 16) := by
      unfold Dev.eng
      rw [Dev.engs_makeReady]
    refine ih _ ?_ (heng ▸ hrun)
    by_cases hut : u = t
    · subst hut
      exact .inr (Dev.ready_makeReady d u hrun)
    · rw [Dev.task_makeReady_ne d t hut]
      exact hmem.imp_left fun h => (List.mem_cons.mp h).resolve_left hut

/-! ## Events of a task input -/

section
variable {d : Dev} {e i : Nat} (source : Nat)

/-- R38: an event that no task waits for is an orphan. -/
theorem Dev.taskEvent_of_orphan (h : d.clusterOn (e / 32) = false ∨ d.tasksOnInput e i = []) :
    d.taskEvent e i source = d.incWrap F.ENG_ORPHAN.COUNT :=
  if_pos (h.elim (fun hoff => by simp [hoff]) fun hnone => by simp [hnone])

section
variable (hon : d.clusterOn (e / 32) = true) (hbound : d.tasksOnInput e i ≠ [])
include hon hbound

/-- R41: an event of the cycle of a cancel of all its tasks is lost. -/
theorem Dev.taskEvent_of_cancelled (hcancel : ∀ u ∈ d.tasksOnInput e i, (d.task u).cancelAt = some d.absCycle) :
    d.taskEvent e i source = d := by
  have hlive : ((d.tasksOnInput e i).filter fun t => (d.task t).cancelAt != some d.absCycle) = [] :=
    List.filter_eq_nil_iff.mpr fun u hu => by simp [hcancel u hu]
  have hpos : 0 < (d.tasksOnInput e i).length := List.length_pos_iff.mpr hbound
  unfold Dev.taskEvent
  simp only [hlive]
  rw [if_neg (by simp [hon, hbound])]
  exact congrArg (List.foldl Dev.makeReady · []) (if_pos hpos)

/-- R38: an event of tasks none of which is cancelled in its cycle. -/
theorem Dev.taskEvent_of_live (hlive : ∀ u ∈ d.tasksOnInput e i, (d.task u).cancelAt ≠ some d.absCycle) :
    d.taskEvent e i source = (d.tasksOnInput e i).foldl Dev.makeReady
      (d.setTin (16 * e + i) ((d.tin (16 * e + i)).push (d.fifoEntry source) d.absCycle)) := by
  have hall : ((d.tasksOnInput e i).filter fun t => (d.task t).cancelAt != some d.absCycle) = d.tasksOnInput e i :=
    List.filter_eq_self.mpr fun u hu => by simpa using hlive u hu
  unfold Dev.taskEvent
  simp only [hall]
  rw [if_neg (by simp [hon, hbound])]
  exact congrArg (List.foldl Dev.makeReady · (d.tasksOnInput e i)) (if_neg (Nat.lt_irrefl _))

end

theorem Dev.tasksOnInput_slot {u : Nat} (h : u ∈ d.tasksOnInput e i) : u / 16 = e := by
  obtain ⟨s, hs, hu⟩ := List.mem_filterMap.mp h
  have hlt := List.mem_range.mp hs
  split at hu
  · cases hu
    omega
  · exact nomatch hu

end

theorem Dev.tin_foldl_makeReady_setTin (d : Dev) (ts : List Nat) (n : Nat) (x : TaskIn) :
    (ts.foldl Dev.makeReady (d.setTin n x)).tin n = x := by
  unfold Dev.tin
  rw [Dev.tins_foldl_makeReady]
  exact Dev.tin_setTin_self d n x

/-- R45: one promotion that is due. -/
theorem Dev.promote_of_due {d : Dev} {t now : Nat} (h : d.promoteDue t now = true) :
    d.promote t now = d.setTask t { d.task t with
      eff := (d.task t).eff - 1, promoted := true, aged := d.promoteAt t } := if_pos h

/-- R75: a timer whose deadline is the present tick. -/
theorem Dev.timerExpire_of_due {d : Dev} {e : Nat} {t : Fin 4} {dl : Nat} (h : (d.eng e).timers[t] = some dl) (hdue : dl = d.tick32) :
    d.timerExpire e t = (({ d with cycle := 0 } : Dev).setEng e { d.eng e with timers := (d.eng e).timers.set t none }).taskEvent e
      (d.eng e).timerIn[t] (0x400 + e) := by
  unfold Dev.timerExpire
  simp only [h]
  exact if_pos hdue

/-- Settles O17: promotions, events, cancels and timers, each by the equation of its own. -/
theorem taskEventsAndPromotion : Obligations.TaskEventsAndPromotion := by
  intro e slot i source p t c s n d dc now
  have hn : n / 16 = e.val ∧ n % 16 = slot.val := by
    have hlt := slot.isLt
    omega
  refine ⟨?promotion, ?cancelled, ?event, ?orphan, fun hreach => ?cancel, fun dl harmed hdue => ?timer⟩
  case promotion =>
    intro x at' hready heff hage
    have hdue : dc.promoteDue n dc.absCycle = true := by
      simp only [Dev.promoteDue, Bool.and_eq_true, Bool.or_eq_true, beq_iff_eq, decide_eq_true_eq]
      exact ⟨⟨hready, heff⟩, hage⟩
    have hgives : Gives (.taskPromotion e slot c) s (dc.promote n dc.absCycle) := rfl
    rwa [Dev.promote_of_due hdue] at hgives
  case cancelled =>
    intro hon hbound hcancel
    have hgives : Gives (.taskInputEvent e i source c) s (dc.taskEvent e i source.toNat) := rfl
    rwa [Dev.taskEvent_of_cancelled (d := dc) _ hon hbound hcancel] at hgives
  case orphan =>
    intro h
    have hgives : Gives (.taskInputEvent e i source c) s (dc.taskEvent e i source.toNat) := rfl
    rwa [Dev.taskEvent_of_orphan (d := dc) _ h] at hgives
  case event =>
    intro hon hbound hlive
    have hgives : Gives (.taskInputEvent e i source c) s (dc.taskEvent e i source.toNat) := rfl
    rw [Dev.taskEvent_of_live (d := dc) _ hon hbound hlive, Dev.fifoEntry_eq] at hgives
    refine ⟨_, hgives, ?_⟩
    intro x
    rw [Dev.tin_foldl_makeReady_setTin]
    refine ⟨rfl, ?_⟩
    intro entry
    have hsource : entry.toNat % 4096 = source.toNat := by
      have h := Dev.fifoEntry_source dc source
      rwa [Dev.fifoEntry_eq] at h
    refine ⟨TaskIn.fifo_push_of_room, TaskIn.push_of_full, fun hlast hroom => ?same, fun u hu hrun => ?ready, ?regs, ?engs⟩
    case same =>
      have hstored := TaskIn.fifo_push_of_same (entry := entry) hlast hroom
      rwa [hsource] at hstored
    case ready => exact Dev.ready_foldl_makeReady _ (.inl hu) (by rw [Dev.tasksOnInput_slot hu]; exact hrun)
    case regs => exact Dev.regs_foldl_makeReady _ _
    case engs => exact Dev.engs_foldl_makeReady _ _
  case cancel =>
    intro d1 k
    have hgives : Gives (.taskCancel p e ⟨slot, c⟩) s (dc.cancelTask n) :=
      State.runBy_ok s p _ (fun d => ({ d with cycle := c.val } : Dev).cancelTask n) hreach
    unfold Dev.cancelTask at hgives
    rw [hn.1, hn.2] at hgives
    exact hgives
  case timer =>
    have hgives : Gives (.tickTimerExpiry e t) s (d.timerExpire e t) := rfl
    rwa [Dev.timerExpire_of_due harmed hdue] at hgives

end Sys2Proof.Machine
end

section
/-! SUPPORT and proofs of O23 and O24. A VF's aperture (R344), and the grants of host queues (R91). -/

namespace Sys2Proof.Machine

/-! ## The aperture -/

section
variable {d : Dev} {f : Fin 32} (hvf : f ≠ 0) (hup : 5 ≤ d.get F.BOOT_STAT.STEP)
  (hreach : d.access (.pcie f) R.VAT_QHOST_CMD.off false = .ok)
include hvf hup hreach

/-- R344: an access that reaches a VF's aperture. -/
theorem Dev.apertureAccess_of_ok (x : Nat) (write : Option (List (Byte × Bool))) (len : Nat) (ep : Bool) :
    d.apertureAccess f x write len ep =
      (let n := match write with
        | some l => l.length
        | none => len
       if d.get F.HOST_VF_APT.SIZE f * 4096 < x + n then
         if write.isSome then if ep then d.fault 259 else d else d.emit (.unsupported (512 + f))
       else match write with
         | some l => d.windowWrite (d.get F.HOST_VF_APT.GRANULE f * 4096 + x) l ep
         | none => d.windowGive (.pcie f) (d.get F.HOST_VF_APT.GRANULE f * 4096 + x) n) := by
  have hnum : f.val ≠ 0 := fun h => hvf (Fin.ext h)
  have hpath : (⟨f.val % 32, by omega⟩ : Fin 32) = f := Fin.ext (Nat.mod_eq_of_lt f.isLt)
  unfold Dev.apertureAccess
  rw [if_neg (by omega)]
  simp only [hpath, hreach]
  rfl

end

/-- Settles O23: inside the aperture the window's own read and write, outside it nothing of the Vat. -/
theorem apertureAccess : Obligations.ApertureAccess := by
  intro f x data len ep c s hvf d a size hup hreach
  have hgives (write : Option (List (Byte × Bool))) :
      Gives (.vfApertureAccess f x write len ep c) s (d.apertureAccess f x.toNat write len.toNat ep) := rfl
  have hwrite := hgives (some data)
  have hread := hgives none
  rw [Dev.apertureAccess_of_ok hvf hup hreach] at hwrite hread
  refine ⟨fun hin => ?_, fun hout => ?_, fun hin => ?_, fun hout => ?_⟩
  · rwa [if_neg (Nat.not_lt.mpr hin)] at hwrite
  · rwa [if_pos hout] at hwrite
  · rwa [if_neg (Nat.not_lt.mpr hin)] at hread
  · rwa [if_pos hout] at hread

/-! ## Grants -/

/-- R88: the party of a host path. -/
theorem hostParty_eq (h : HostPath) :
    hostParty (512 + h.val) = some (if h.val < 32 then 0x2000 + h.val else if h.val = 32 then 0x2020 else 0x2021) := by
  have hlt := h.isLt
  unfold hostParty
  by_cases hpcie : h.val < 32
  · rw [if_pos (by omega), if_pos hpcie, Nat.add_sub_cancel_left]
  · rw [if_neg (by omega), if_neg hpcie]
    by_cases hspi : h.val = 32
    · rw [if_pos (by omega), if_pos hspi]
    · rw [if_neg (by omega), if_neg hspi, if_pos (by omega)]

section
variable {d : Dev} {h : HostPath} {q : Nat}

/-- R91: the queue's descriptor names the path. -/
theorem Dev.qhostOk_iff (push : Bool) (hon : d.qEnabled q = true) : d.qhostOk (512 + h.val) q push = true ↔
    (if push then (d.qdesc q).prod else (d.qdesc q).cons) =
      if h.val < 32 then 0x2000 + h.val else if h.val = 32 then 0x2020 else 0x2021 := by
  simp only [Dev.qhostOk, hostParty_eq, hon, Bool.and_true, beq_iff_eq, Option.some.injEq]
  exact eq_comm

theorem Dev.qhostOk_of_disabled (path : Nat) (push : Bool) (hoff : d.qEnabled q = false) : d.qhostOk path q push = false := by
  simp [Dev.qhostOk, hoff]

end

/-- R91: a commit of the path's grant on this queue. -/
theorem Dev.qhostCommit_of_grant {d : Dev} {path q : Nat} {g : Grant}
    (hok : ((d.qCheck q).qhostOk path q true || (d.qCheck q).qhostOk path q false) = true)
    (hg : Tbl.find? (d.qCheck q).grants path = some g) (hq : g.queue = q) :
    d.qhostCommit path q = if g.push then ((d.qCheck q).grantUndo path).qCommitPush q g.count
      else ((d.qCheck q).grantUndo path).qCommitPop q g.count := by
  subst hq
  have hcommit : (d.qCheck g.queue).grantCommit path = if g.push then ((d.qCheck g.queue).grantUndo path).qCommitPush g.queue g.count
      else ((d.qCheck g.queue).grantUndo path).qCommitPop g.queue g.count := by
    unfold Dev.grantCommit
    rw [hg]
  rw [← hcommit]
  unfold Dev.qhostCommit
  dsimp only
  rw [if_pos hok, hg]
  exact if_pos rfl

theorem Dev.grantExpire_of_due {d : Dev} {path : Nat} {g : Grant} (hg : Tbl.find? d.grants path = some g)
    (hage : g.since + 10000 ≤ d.tick) : d.grantExpire path = (d.grantUndo path).irqSet F.HOST_IRQ_CAUSE.QHOST := by
  unfold Dev.grantExpire
  rw [hg]
  exact if_pos hage

/-- R91: a command of a host queue that its path's write reaches, and whose COUNT is in range. -/
theorem gives_qhost {c : Instr} {s : State} {h : HostPath} {q n : Nat} {go : Dev → Dev}
    (hreach : s.reaches (hostPath h) R.VAT_QHOST_CMD.off) (hn : n ≠ 0)
    (hexec : exec c s = s.runBy (hostPath h) R.VAT_QHOST_CMD.off fun d => d.qhostGo h q n (go d)) : Gives c s (go s.dev.quiet) := by
  unfold Gives
  rw [hexec, State.runBy_ok _ _ _ _ hreach, Dev.qhostGo, if_neg hn]

/-- Settles O24: the descriptor names the path, or the command is refused; a grant is set, committed or undone as a whole. -/
theorem hostQueueGrants : Obligations.HostQueueGrants := by
  intro h q n s d c party x undo undone granted
  have hpop (hreach : s.reaches (hostPath h) R.VAT_QHOST_CMD.off) (hn : n.toNat ≠ 0) :
      Gives (.qhostPop h q n) s (s.dev.quiet.qhostPop c q n.toNat) := gives_qhost (go := fun d => d.qhostPop c q n.toNat) hreach hn rfl
  have hpush (hreach : s.reaches (hostPath h) R.VAT_QHOST_CMD.off) (hn : n.toNat ≠ 0) :
      Gives (.qhostPush h q n) s (s.dev.quiet.qhostPush c q n.toNat) := gives_qhost (go := fun d => d.qhostPush c q n.toNat) hreach hn rfl
  have hcommit (hreach : s.reaches (hostPath h) R.VAT_QHOST_CMD.off) :
      Gives (.qhostCommit h q) s (s.dev.quiet.qhostCommit c q) :=
    State.runBy_ok s _ _ (fun d => d.qhostCommit c q) hreach
  refine ⟨fun hreach hon hn => ⟨fun hcons => ?pop, fun hprod => ?push⟩, fun hreach hon hparty g hg hq => ?commit,
    fun hreach hoff hn => ⟨?popOff, ?pushOff, ?commitOff⟩, ?expiry⟩
  case pop =>
    have h := hpop hreach hn
    rwa [Dev.qhostPop, if_pos ((Dev.qhostOk_iff false hon).mpr hcons)] at h
  case push =>
    have h := hpush hreach hn
    rwa [Dev.qhostPush, if_pos ((Dev.qhostOk_iff true hon).mpr hprod)] at h
  case commit =>
    have hok : (d.qhostOk c q true || d.qhostOk c q false) = true := by
      rw [Bool.or_eq_true]
      exact hparty.symm.imp (Dev.qhostOk_iff true hon).mpr (Dev.qhostOk_iff false hon).mpr
    have h := hcommit hreach
    rwa [Dev.qhostCommit_of_grant hok hg hq] at h
  case popOff =>
    have h := hpop hreach hn
    rwa [Dev.qhostPop, if_neg (by rw [Dev.qhostOk_of_disabled _ _ hoff]; decide)] at h
  case pushOff =>
    have h := hpush hreach hn
    rwa [Dev.qhostPush, if_neg (by rw [Dev.qhostOk_of_disabled _ _ hoff]; decide)] at h
  case commitOff =>
    have h := hcommit hreach
    rwa [Dev.qhostCommit, if_neg (by rw [Dev.qhostOk_of_disabled _ _ hoff, Dev.qhostOk_of_disabled _ _ hoff]; decide)] at h
  case expiry =>
    intro d0 g hg hage
    have h : Gives (.qhostGrantExpiry h) s (d0.grantExpire c) := rfl
    rwa [Dev.grantExpire_of_due hg hage] at h

end Sys2Proof.Machine
end

section
/-! SUPPORT and proof of O25. One line of the scrubber (R101). -/

namespace Sys2Proof.Machine

/-- R101: the scrubber's line with the errors that have arisen in it, as the statement names them. -/
theorem mem_lineErrors (old new : List Nat) (line w : Nat) :
    w ∈ old ++ (new.map (· % 4 + 4 * line)).filter (fun w => !old.contains w) ↔ w ∈ old ∨ ∃ k ∈ new, w = k % 4 + 4 * line := by
  simp only [List.mem_append, List.mem_filter, List.mem_map, Bool.not_eq_true', List.contains_eq_mem, decide_eq_false_iff_not]
  grind

section
variable (d : Dev) (bank line : Nat) (collide : Bool)

/-- R101: a line that has been read: its correctable words are corrected, unless another write took the line. -/
def Dev.lineCorrected : Dev :=
  if collide then d else { d with vat := { d.vat with ce := d.vat.ce.filter fun w => w / 4 != line } }

theorem Dev.mem_ce_lineCorrected (w : Nat) :
    w ∈ (d.lineCorrected line collide).vat.ce ↔ w ∈ d.vat.ce ∧ (collide = true ∨ w / 4 ≠ line) := by
  cases collide
  · simp [Dev.lineCorrected]
  · simp [Dev.lineCorrected]

/-- R101: the bank goes on to its next line, and a pass over all banks counts. -/
def Dev.lineDone (d : Dev) (bank next : Nat) : Dev :=
  let d := { d with vat := { d.vat with scrub := Tbl.set d.vat.scrub bank next } }
  if decide (next < 16) && (List.range 16).all fun b => decide (Tbl.getD d.vat.scrub b b < 16) then d.incWrap F.VAT_SCRUB_PASS.PASSES else d

/-- R101: after a line nothing but the bank's next line and the count of passes is new. -/
theorem Dev.lineDone_cases (p : Dev → Prop) (next : Nat)
    (hset : ∀ regs, p { d with vat := { d.vat with scrub := Tbl.set d.vat.scrub bank next }, regs := regs }) :
    p (d.lineDone bank next) := by
  unfold Dev.lineDone
  dsimp only
  split
  · exact hset _
  · exact hset d.regs

/-- R101: with the scrubber on, a line is read, corrected, and done. -/
theorem Dev.scrubLine_of_on (ce ue : List Nat) (hon : d.flag F.VAT_SCRUB.ENABLE = true) :
    d.scrubLine bank ce ue collide =
      (let line := Tbl.getD d.vat.scrub bank bank
       let add := fun (l : List Nat) (n : List Nat) => l ++ (n.map (· % 4 + 4 * line)).filter fun w => !l.contains w
       let t := ({ d with vat := { d.vat with ce := add d.vat.ce ce, ue := add d.vat.ue ue } } : Dev).vatTouch (32 * line) 32 2
       (t.lineCorrected line collide).lineDone bank ((line + 16) % 2097152)) := by
  unfold Dev.scrubLine
  rw [if_neg (by simp [hon])]
  rfl

end

/-- Settles O25: a line is read as any access reads it, with ORIGIN 2; then it is corrected, and the bank goes on. -/
theorem scrubLineResults : Obligations.ScrubLineResults := by
  intro bank ce ue collide s d line
  have hexec : exec (.scrubLine ⟨bank, collide⟩ ce ue) s =
      .next { s with dev := d.scrubLine bank (ce.map (·.val)) (ue.map (·.val)) collide } := rfl
  refine ⟨fun hoff => ?_, fun hon => ?_⟩
  · rw [hexec, Dev.scrubLine, if_pos (by simp [hoff])]
  · have herrors (old : List Nat) (new : List (Fin 4)) (w : Nat) :
        w ∈ old ++ ((new.map (·.val)).map (· % 4 + 4 * line)).filter (fun w => !old.contains w) ↔
          w ∈ old ∨ ∃ k ∈ new, w = k.val + 4 * line := by
      rw [mem_lineErrors]
      have hmod (k : Fin 4) : k.val % 4 = k.val := Nat.mod_eq_of_lt k.isLt
      simp [hmod]
    rw [hexec, Dev.scrubLine_of_on d bank collide _ _ hon]
    refine ⟨_, _, _, rfl, herrors d.vat.ce ce, herrors d.vat.ue ue, ?_⟩
    intro t
    have hdone (p : Dev → Prop) := Dev.lineDone_cases (t.lineCorrected line collide) bank p ((line + 16) % 2097152)
    have hcorrected (p : Dev → Prop) (hnone : p t)
        (hset : p { t with vat := { t.vat with ce := t.vat.ce.filter fun w => w / 4 != line } }) :
        p (t.lineCorrected line collide) := by
      unfold Dev.lineCorrected
      split
      · exact hnone
      · exact hset
    refine ⟨hdone (fun d' => d'.vat.mem = t.vat.mem) fun _ => hcorrected (fun d' => d'.vat.mem = t.vat.mem) rfl rfl,
      hdone (fun d' => d'.vat.ue = t.vat.ue) fun _ => hcorrected (fun d' => d'.vat.ue = t.vat.ue) rfl rfl,
      fun w => hdone (fun d' => w ∈ d'.vat.ce ↔ _) fun _ => Dev.mem_ce_lineCorrected t line collide w,
      hdone (fun d' => Tbl.getD d'.vat.scrub bank bank = _) fun _ => Tbl.getD_set_self _ _ _ _,
      hdone (fun d' => d'.engs = t.engs) fun _ => hcorrected (fun d' => d'.engs = t.engs) rfl rfl,
      hdone (fun d' => d'.flt = t.flt) fun _ => hcorrected (fun d' => d'.flt = t.flt) rfl rfl⟩

end Sys2Proof.Machine
end

section
/-! SUPPORT and proof of O26. The serial targets (R349-R352). -/

namespace Sys2Proof.Machine

/-- R349: groups go to rising addresses, as an indexed run of writes does. -/
theorem Dev.groupsWrite_eq (d : Dev) (p : Path) (a : Nat) (ws : List Word) (k : Nat) :
    d.groupsWrite p (a + 4 * k) ws = (ws.zipIdx k).foldl
      (fun (d : Dev) w => d.pathWrite p ((a + 4 * w.2) % 2 ^ 32) w.1.toNat true false) d := by
  induction ws generalizing d k with
  | nil => rfl
  | cons w ws ih => exact ih _ (k + 1)

/-- R351: the target's own address, as seven bits. -/
theorem Dev.i2cMine_iff (d : Dev) (a : BitVec 7) : d.i2cMine a.toNat = true ↔
    a = BitVec.ofNat 7 (0x4C + 2 * b2n (d.boot.pinSeen.getLsbD 6) + b2n (d.boot.pinSeen.getLsbD 7)) := by
  have hb (b : Bool) : b2n b ≤ 1 := by cases b <;> decide
  have h6 := hb (d.boot.pinSeen.getLsbD 6)
  have h7 := hb (d.boot.pinSeen.getLsbD 7)
  rw [← BitVec.toNat_inj, BitVec.toNat_ofNat, Nat.mod_eq_of_lt (by omega)]
  exact beq_iff_eq

theorem Dev.targetUp_iff (d : Dev) (p : Path) : d.targetUp p = true ↔ d.access p R.BOOT_STAT.off false ≠ .absent := bne_iff_ne

section
variable {d : Dev} (a n : Nat) (ws : List Word)

theorem Dev.spiWrite_of_up (part : Nat) (h : d.targetUp .spi = true) :
    d.spiWrite a ws part = if part = 0 then d.groupsWrite .spi a ws else (d.groupsWrite .spi a ws).pathError .spi 4 :=
  if_neg (by simp [h])

theorem Dev.i2cWrite_of_up (part : Nat) (h : d.targetUp .i2c = true) :
    d.i2cWrite 4 a ws part = if part = 0 then (d.groupsWrite .i2c a ws).setPtr (a + 4 * ws.length)
      else ((d.groupsWrite .i2c a ws).setPtr (a + 4 * ws.length)).pathError .i2c 4 := by
  unfold Dev.i2cWrite
  rw [if_neg (by simp [h]), if_neg (by decide)]

theorem Dev.i2cRead_of_up (h : d.targetUp .i2c = true) :
    d.i2cRead n = (d.wordsRead .i2c d.host.i2cPtr n).setPtr (d.host.i2cPtr + 4 * n) := if_neg (by simp [h])

/-- R351: a pointer of 1 to 3 bytes. -/
theorem Dev.i2cWrite_of_short (np part : Nat) (h : d.targetUp .i2c = true) (hpos : 0 < np) (hshort : np < 4) :
    d.i2cWrite np a ws part = d.pathError .i2c 4 := by
  unfold Dev.i2cWrite
  rw [if_neg (by simp [h]; omega), if_pos hshort]

end

/-- Settles O26: the targets answer, and each transaction is the run of accesses that the statement names. -/
theorem serialTargets : Obligations.SerialTargets := by
  intro a ws part n c s d mine size writes pointer
  have hwrites (p : Path) : d.groupsWrite p a.toNat ws = writes p := Dev.groupsWrite_eq d p a.toNat ws 0
  have hpart (x y : Dev) : (if part.val = 0 then x else y) = if part = 0 then x else y := if_congr Fin.val_eq_zero_iff rfl rfl
  refine ⟨fun hup => ?spi, fun hup => ?i2c, fun other np hother => ?other⟩
  case spi =>
    replace hup : d.targetUp .spi = true := (Dev.targetUp_iff d .spi).mpr hup
    refine ⟨?write, ?read, ?timeout⟩
    case write =>
      have hgives : Gives (.spiWrite a ws part c) s (d.spiWrite a.toNat ws part) := rfl
      rw [Dev.spiWrite_of_up _ _ _ hup, hwrites, hpart] at hgives
      exact hgives
    case read =>
      have hgives : Gives (.spiRead a n c) s (d.spiRead a.toNat n.toNat) := rfl
      rwa [Dev.spiRead, if_pos hup] at hgives
    case timeout =>
      have hgives : Gives .spiTimeout s s.dev.quiet.spiTimeout := rfl
      have hquiet : s.dev.quiet.targetUp .spi = true := hup
      rwa [Dev.spiTimeout, if_pos hquiet] at hgives
  case i2c =>
    replace hup : d.targetUp .i2c = true := (Dev.targetUp_iff d .i2c).mpr hup
    have hmine : s.dev.quiet.i2cMine mine.toNat = true := (Dev.i2cMine_iff _ _).mpr rfl
    have hwrite (np : Fin 5) : Gives (.i2cWrite ⟨mine, np⟩ a ws part c) s
        (if s.dev.quiet.i2cMine mine.toNat then d.i2cWrite np a.toNat ws part else s.dev.quiet) := rfl
    simp only [if_pos hmine] at hwrite
    refine ⟨?write, fun np hpos hshort => ?short, ?read, ?timeout⟩
    case write =>
      have hgives : Gives (.i2cWrite ⟨mine, 4⟩ a ws part c) s (d.i2cWrite 4 a.toNat ws part) := hwrite 4
      rw [Dev.i2cWrite_of_up _ _ _ hup, hwrites, hpart] at hgives
      exact hgives
    case short =>
      have hgives := hwrite np
      rwa [Dev.i2cWrite_of_short _ _ _ _ hup hpos hshort] at hgives
    case read =>
      have hgives : Gives (.i2cRead ⟨mine, n⟩ c) s
        (if s.dev.quiet.i2cMine mine.toNat then d.i2cRead n.toNat else s.dev.quiet) := rfl
      rwa [if_pos hmine, Dev.i2cRead_of_up _ hup] at hgives
    case timeout =>
      have hgives : Gives .i2cSclTimeout s s.dev.quiet.i2cTimeout := rfl
      have hquiet : s.dev.quiet.targetUp .i2c = true := hup
      rwa [Dev.i2cTimeout, if_pos hquiet] at hgives
  case other =>
    have hmine : ¬ s.dev.quiet.i2cMine other.toNat = true := fun h => hother ((Dev.i2cMine_iff _ _).mp h)
    have hwrite : Gives (.i2cWrite ⟨other, np⟩ a ws part c) s
        (if s.dev.quiet.i2cMine other.toNat then d.i2cWrite np a.toNat ws part else s.dev.quiet) := rfl
    have hread : Gives (.i2cRead ⟨other, n⟩ c) s
        (if s.dev.quiet.i2cMine other.toNat then d.i2cRead n.toNat else s.dev.quiet) := rfl
    rw [if_neg hmine] at hwrite hread
    exact ⟨hwrite, hread⟩

end Sys2Proof.Machine
end

section
/-! SUPPORT and proof of O27. PCIe resets, link events and time-outs (R328, R334, R340, R348). -/

namespace Sys2Proof.Machine

/-- R357: the link trains on the lanes that no loop-back holds. -/
theorem Dev.pcieUp_of_room {d : Dev} {width speed : Nat} (hmay : d.mayTrain = true)
    (hroom : 2 ^ width + ((List.range 4).filter fun l => (d.loopDepth 4 l).isSome).length ≤ 4) :
    d.pcieUp width speed =
      (let e := ((d.put F.HOST_PCIE_STAT.L0 1).put F.HOST_PCIE_STAT.WIDTH (2 ^ width)).put F.HOST_PCIE_STAT.SPEED (speed + 1)
       ({ e with host := { e.host with trained := true } } : Dev).levelOff 258) :=
  if_pos (by rw [List.countP_eq_length_filter]; simp [hmay, hroom])

/-- R348: an FLR of a virtual function. -/
theorem Dev.flr_of_vf {d : Dev} {f : Nat} (hf : f ≠ 0) :
    d.flr f = (let e := (d.ringsOff fun g => g == f).grantUndo (512 + f)
      { e with host := { e.host with
        d3 := e.host.d3.filter (· != f), msix := e.host.msix.filter fun c => !msixOf f c.1,
        msixOn := e.host.msixOn.filter (· != f), msixMask := e.host.msixMask.filter (· != f) } }) := if_neg hf

theorem mem_append_new (l : List Nat) (f g : Nat) : g ∈ (if l.contains f then l else l ++ [f]) ↔ g = f ∨ g ∈ l := by
  by_cases h : f ∈ l
  · simp only [List.contains_eq_mem, h, decide_true, if_true]
    grind
  · simp [h, or_comm]

/-- R349: the status of a read that timed out. -/
theorem pathStatus_timeout (p : Path) : pathStatus p 1 = if p = .spi then 0xE1 else 1 := by
  cases p <;> rfl

/-- R26: a register access of a host path that times out. -/
theorem Dev.hostTimeout_of_host {d : Dev} {p : Path} (write : Bool) (hhost : p.isHost = true) :
    d.hostTimeout p write = if write then d.accessTimeout p
      else (d.accessTimeout p).emit (.readData p.code [0xFFFFFFFF] (if p = .spi then 0xE1 else 1)) := by
  unfold Dev.hostTimeout
  rw [if_neg (by simp [hhost]), pathStatus_timeout]

/-- Settles O27: each event of the endpoint is the function that R334 and R348 give it. -/
theorem pcieEvents : Obligations.PcieEvents := by
  intro f width speed c s d dc off level
  refine ⟨?perst, ?release, fun hmay hroom => ?up, fun htrained => ?loss, ?pf, fun hf => ?vf, ?d3, fun p write hhost => ?timeout⟩
  case perst => exact (rfl : Gives (.perst c) s (dc.pinSee 1 false).perst)
  case release => exact (rfl : Gives .perstRelease s (d.pinSee 1 true).perstRelease)
  case up =>
    have hgives : Gives (.pcieLinkUp width speed) s (d.pcieUp width speed) := rfl
    rwa [Dev.pcieUp_of_room hmay hroom] at hgives
  case loss =>
    have hgives : Gives .pcieLinkLoss s d.pcieLoss := rfl
    rwa [Dev.pcieLoss, if_pos htrained] at hgives
  case pf => exact (rfl : Gives (.flr 0 c) s dc.hostReset)
  case vf =>
    have hgives : Gives (.flr f c) s (dc.flr f) := rfl
    rwa [Dev.flr_of_vf fun h => hf (Fin.ext h)] at hgives
  case d3 =>
    refine ⟨dc.d3hot f, rfl, ?_⟩
    intro e
    exact ⟨(mem_append_new e.host.d3 f f).mpr (.inl rfl), mem_append_new e.host.d3 f, rfl⟩
  case timeout =>
    have hgives : Gives (.hostAccessTimeout p write) s (d.hostTimeout p write) := rfl
    rwa [Dev.hostTimeout_of_host write hhost] at hgives

end Sys2Proof.Machine
end

section
/-! Refutation of O33. R150, R278: a follower's TLOOP shows the lead's reference. Its LOOP_STATE.INUSE mirrors the lead, and does not
fall with the follower's own samples and selections, which it does not use. -/

namespace Sys2Proof.Machine

/-- A follower whose TLOOP shows the lead's reference in use, and which never had a sample or a selection of its own. -/
def followerInUse : State :=
  ⟨(Dev.reset.put F.KL_GROUP_STAT.ROLE 2).put F.LOOP_STATE.INUSE 1 32, []⟩

/-- LOOP_STATE.INUSE of TLOOP in the state that a command answers. -/
def StepOut.tloopInUse : StepOut → Nat
  | .next s => s.dev.get F.LOOP_STATE.INUSE 32
  | _ => 0

/-- The reference stays in use. -/
theorem followerInUse_gapExpiry : StepOut.tloopInUse (exec (.referenceGapExpiry 32) followerInUse) = 1 := by decide +kernel

/-- Refutes O33: with `followerInUse` a gap's expiry leaves TLOOP's INUSE set. -/
theorem not_loopTimersAndGates : ¬ Obligations.LoopTimersAndGates := by
  intro h
  obtain ⟨-, hgap, -⟩ := h 32 followerInUse 0 0
  have hnone : (followerInUse.dev.quiet.loop (32 : Fin 33)).lastSample = none ∧
      (followerInUse.dev.quiet.loop (32 : Fin 33)).selTick = none := by decide +kernel
  obtain ⟨hsample, hselection⟩ := hnone
  have hgives := hgap (fun t ht => nomatch hsample.symm.trans ht) (fun t ht => nomatch hselection.symm.trans ht)
  have hstays : StepOut.tloopInUse _ = 1 := hgives ▸ followerInUse_gapExpiry
  have hfalls : (followerInUse.dev.quiet.put F.LOOP_STATE.INUSE 0 (32 : Fin 33)).get F.LOOP_STATE.INUSE 32 = 0 :=
    Dev.get_put_self _ _ _ _ (by decide) (by decide)
  exact absurd (hstays.symm.trans hfalls) (by decide)

end Sys2Proof.Machine
end

section
/-! SUPPORT and proof of O34. History records (R156), stored where no word of the Vat has an error. -/

namespace Sys2Proof.Machine

/-! ## Numbers as bytes -/

/-- R4: a number read from its bytes. -/
theorem ofLe_leBytes (n v : Nat) : ofLe (leBytes n v) = v % 256 ^ n := by
  induction n generalizing v with
  | zero => simp [leBytes, ofLe, Nat.mod_one]
  | succ n ih =>
    have hsplit : v % 256 ^ (n + 1) = v % 256 + 256 * (v / 256 % 256 ^ n) := by rw [Nat.pow_succ', Nat.mod_mul]
    rw [leBytes, ofLe, ih, BitVec.toNat_ofNat, hsplit]

/-- Bytes read back where they were written. -/
theorem Memory.readN_writeN_prefix (x : Byte) (m : Memory) (a : Nat) (l r : List Byte) :
    (m.writeN x a (l ++ r)).readN x a l.length = l := by
  refine List.ext_getElem (by simp [Memory.readN]) fun i hi hlt => ?_
  simp only [Memory.readN, List.getElem_map, List.getElem_range]
  rw [Memory.read_writeN_in _ _ _ _ _ (by rw [List.length_append]; omega), List.getElem_append_left]

/-- A number is read from its bytes alone. -/
theorem Memory.readLe_congr {x : Byte} {m m' : Memory} {a n : Nat} (h : ∀ i, i < n → m'.read x (a + i) = m.read x (a + i)) :
    m'.readLe x a n = m.readLe x a n := by
  unfold Memory.readLe Memory.readN
  exact congrArg ofLe (List.map_congr_left fun i hi => h i (List.mem_range.mp hi))

/-! ## Loops and the Vat -/

@[simp] theorem Dev.loop_setLoop_self (d : Dev) (n : Nat) (x : Loop) : (d.setLoop n x).loop n = x := Tbl.getD_set_self ..

theorem Dev.loop_setLoop_ne (d : Dev) (n : Nat) (x : Loop) {m : Nat} (h : m ≠ n) : (d.setLoop n x).loop m = d.loop m :=
  Tbl.getD_set_ne _ _ _ _ _ h

/-- With no word in error none is taken out. -/
theorem Vat.filter_errors_of_sound {v : Vat} (hce : v.ce = []) (hue : v.ue = []) (p : Nat → Bool) :
    { v with ce := v.ce.filter p, ue := v.ue.filter p } = v := by
  cases v
  simp only at hce hue
  subst hce hue
  rfl

/-- R98: a write of words without error. -/
theorem Dev.eccWrite_of_sound {d : Dev} (hce : d.vat.ce = []) (hue : d.vat.ue = []) (a n w : Nat) : d.eccWrite a n w = d := by
  unfold Dev.eccWrite
  rw [Vat.filter_errors_of_sound hce hue, hce, hue]
  split <;> rfl

/-- R98: with no word in error a store changes the bytes alone. -/
theorem Dev.vatStore_of_sound {d : Dev} (hce : d.vat.ce = []) (hue : d.vat.ue = []) (a : Nat) (l : List Byte) :
    d.vatStore a l = { d with vat := { d.vat with mem := Memory.writeN 0 d.vat.mem a l } } := by
  unfold Dev.vatStore
  exact List.foldl_fixed' (fun w => Dev.eccWrite_of_sound (by exact hce) (by exact hue) a l.length w) _

/-! ## Records of the completed second -/

/-- R156: the place of a loop's record of second q. -/
def Dev.histPlace (d : Dev) (l q : Nat) : Nat := d.get F.VAT_POOL_CFG.BASE 6 * 4096 + (l * 7200 + q % 7200) * 16

theorem histRecord_length (q : Nat) (h : HistAcc) : (histRecord q h).length = 16 := by simp [histRecord]

/-- R156: the records of different loops lie apart. -/
theorem Dev.histPlace_apart (d : Dev) {l m : Nat} (hne : l ≠ m) (q r : Nat) :
    d.histPlace l q + 16 ≤ d.histPlace m r ∨ d.histPlace m r + 16 ≤ d.histPlace l q := by
  unfold Dev.histPlace
  rcases Nat.lt_or_gt_of_ne hne with h | h <;> omega

/-- R156: a record's first word is the second. -/
theorem histRecord_second (x : Byte) (m : Memory) (a q : Nat) (h : HistAcc) :
    (m.writeN x a (histRecord q h)).readLe x a 4 = q % 2 ^ 32 := by
  have hbytes : (m.writeN x a (histRecord q h)).readN x a 4 = leBytes 4 (q % 2 ^ 32) := by
    have hprefix := Memory.readN_writeN_prefix x m a (leBytes 4 (q % 2 ^ 32)) ((histRecord q h).drop 4)
    rwa [leBytes_length, show leBytes 4 (q % 2 ^ 32) ++ (histRecord q h).drop 4 = histRecord q h from rfl] at hprefix
  rw [Memory.readLe, hbytes, ofLe_leBytes]
  omega

/-- The device `d'` after the records of loops 0 to k - 1 from `d` on, in a Vat with no word in error. -/
structure HistWritten (d d' : Dev) (k : Nat) : Prop where
  ce : d'.vat.ce = []
  ue : d'.vat.ue = []
  regs : d'.regs = d.regs
  engs : d'.engs = d.engs
  later : ∀ l, k ≤ l → d'.loop l = d.loop l
  written : ∀ l q h, l < k → (d.loop l).histPrev = some (q, h) →
    (d'.loop l).histPrev = none ∧ d'.vraw (d.histPlace l q) 4 = q % 2 ^ 32
  other : ∀ a, (∀ l q h, l < k → (d.loop l).histPrev = some (q, h) → a < d.histPlace l q ∨ d.histPlace l q + 16 ≤ a) →
    Memory.read 0 d'.vat.mem a = Memory.read 0 d.vat.mem a

theorem Dev.histWrite_of_none {d : Dev} {l : Nat} (h : (d.loop l).histPrev = none) : d.histWrite l = d := by
  unfold Dev.histWrite
  dsimp only
  rw [h]

theorem Dev.histWrite_of_some {d : Dev} {l q : Nat} {h : HistAcc} (hprev : (d.loop l).histPrev = some (q, h)) :
    d.histWrite l = (d.setLoop l { d.loop l with histPrev := none }).vatStore (d.histPlace l q) (histRecord q h) := by
  unfold Dev.histWrite
  dsimp only
  rw [hprev]
  rfl

/-- One more loop's record. -/
theorem HistWritten.succ {d d' : Dev} {k : Nat} (h : HistWritten d d' k) : HistWritten d (d'.histWrite k) (k + 1) := by
  obtain ⟨hce, hue, hregs, hengs, hlater, hwritten, hother⟩ := h
  have hk := hlater k (Nat.le_refl k)
  cases hprev : (d.loop k).histPrev with
  | none =>
    rw [Dev.histWrite_of_none (hk ▸ hprev)]
    have hlt {l q : Nat} {g : HistAcc} (hl : l < k + 1) (hsome : (d.loop l).histPrev = some (q, g)) : l < k :=
      Nat.lt_of_le_of_ne (Nat.le_of_lt_succ hl) fun heq => nomatch (heq ▸ hprev).symm.trans hsome
    exact ⟨hce, hue, hregs, hengs, fun l hl => hlater l (by omega), fun l q g hl hsome => hwritten l q g (hlt hl hsome) hsome,
      fun a ha => hother a fun l q g hl => ha l q g (by omega)⟩
  | some r =>
    obtain ⟨q, g⟩ := r
    have hplace (l q : Nat) : d'.histPlace l q = d.histPlace l q := by
      unfold Dev.histPlace Dev.get Dev.rd
      rw [hregs]
    rw [Dev.histWrite_of_some (hk ▸ hprev), Dev.vatStore_of_sound (d := d'.setLoop k _) hce hue, hplace]
    have hout (a : Nat) (ha : a < d.histPlace k q ∨ d.histPlace k q + 16 ≤ a) :
        (d'.vat.mem.writeN 0 (d.histPlace k q) (histRecord q g)).read 0 a = d'.vat.mem.read 0 a :=
      Memory.read_writeN_out _ _ _ _ _ (by rwa [histRecord_length])
    refine ⟨hce, hue, hregs, hengs, fun l hl => ?_, fun l q' g' hl hsome => ?_, fun a ha => ?_⟩
    · exact (Dev.loop_setLoop_ne d' k _ (by omega)).trans (hlater l (by omega))
    · by_cases hlk : l = k
      · subst hlk
        obtain ⟨rfl, rfl⟩ := Prod.mk.inj (Option.some.inj (hprev.symm.trans hsome))
        exact ⟨congrArg Loop.histPrev (Dev.loop_setLoop_self d' l _), histRecord_second 0 _ _ _ _⟩
      · obtain ⟨hnone, hraw⟩ := hwritten l q' g' (by omega) hsome
        refine ⟨(congrArg Loop.histPrev (Dev.loop_setLoop_ne d' k _ hlk)).trans hnone, ?_⟩
        rw [← hraw]
        exact Memory.readLe_congr fun i hi => hout _ (by have := d.histPlace_apart hlk q' q; omega)
    · exact (hout a (ha k q g (by omega) hprev)).trans (hother a fun l q g hl => ha l q g (by omega))

theorem HistWritten.range (d : Dev) (hce : d.vat.ce = []) (hue : d.vat.ue = []) (k : Nat) :
    HistWritten d ((List.range k).foldl (fun d l => d.histWrite l) d) k := by
  induction k with
  | zero => exact ⟨hce, hue, rfl, rfl, fun _ _ => rfl, fun l q h hl => absurd hl (Nat.not_lt_zero l), fun _ _ => rfl⟩
  | succ k ih =>
    rw [List.range_succ, List.foldl_append]
    exact ih.succ

/-- Settles O34: the command is the run of all loops' records, and the invariant `HistWritten` says what they leave. -/
theorem historyRecordsAreWritten : Obligations.HistoryRecordsAreWritten := by
  intro s d place one
  have hgives : Gives .historyRecordWrite s d.historyWrite := rfl
  refine ⟨?_, fun hce hue => ⟨_, hgives, ?_⟩⟩
  · have hone : (fun (d : Dev) (l : Nat) => d.histWrite l) = one := rfl
    rwa [Dev.historyWrite, hone] at hgives
  · have h : HistWritten d d.historyWrite 33 := HistWritten.range d hce hue 33
    exact ⟨h.written, h.other, h.regs, h.engs⟩

end Sys2Proof.Machine
end

section
/-! SUPPORT and proof of O35. Commands and ends of hops (R167-R171). -/

namespace Sys2Proof.Machine

/-- What a command answers, in another form. -/
theorem Gives.of_eq {c : Instr} {s : State} {d d' : Dev} (h : Gives c s d) (heq : d = d') : Gives c s d' := heq ▸ h

/-- A command that changes the device by a function of it. -/
theorem Gives.of_run {c : Instr} {s : State} {d' : Dev} (f : Dev → Dev) (hexec : exec c s = s.run f) (heq : f s.dev.quiet = d') :
    Gives c s d' := heq ▸ hexec

section
variable {d : Dev} {n : Nat} (core : Bool) (band vt : Nat)

/-- R170: a hop is due once its length has passed. -/
theorem Dev.hopDue_iff : d.hopDue n = true ↔
    (d.get F.SYN_STAT.SEARCH n = 1 ∧ (d.syn n).hopFrom + 8 ≤ d.tick) ∨
    (d.get F.SYN_STAT.SEARCH n = 2 ∧ (d.syn n).hopFrom + 200 ≤ d.tick) := by
  simp only [Dev.hopDue, Dev.inHop, Dev.hopLen, Bool.and_eq_true]
  split <;> grind

/-- R167: a hop from the band memory declares lock. -/
theorem Dev.hopLock_of_hit (locked : Bool) (hsearch : d.get F.SYN_STAT.SEARCH n = 1) (hdue : (d.syn n).hopFrom + 8 ≤ d.tick) :
    d.hopLock n locked core band vt =
      (d.bmStore n (d.get F.SYN_STAT.ENTRY n) ((d.bmBytes n (d.get F.SYN_STAT.ENTRY n)).take 12 ++ leBytes 4 d.useSecond)).hopEnd
        n 3 true := by
  unfold Dev.hopLock
  rw [if_neg (by simp [Dev.hopDue_iff.mpr (.inl ⟨hsearch, hdue⟩)]), if_pos hsearch]

section
variable (hsearch : d.get F.SYN_STAT.SEARCH n = 2) (hdue : (d.syn n).hopFrom + 200 ≤ d.tick)
include hsearch hdue

/-- R169: a search ends with its result. -/
theorem Dev.hopLock_of_found : d.hopLock n true core band vt =
    (((d.put F.SYN_STAT.CORE (b2n (d.hopCore n core)) n).put F.SYN_STAT.BAND band n).bmResult n (d.hopCore n core) band vt).hopEnd
      n 3 true := by
  unfold Dev.hopLock
  rw [if_neg (by simp [Dev.hopDue_iff.mpr (.inr ⟨hsearch, hdue⟩)]), if_neg (by omega), if_pos rfl]

/-- R169: a search fails. -/
theorem Dev.hopLock_of_failed : d.hopLock n false core band vt = (d.hopEnd n 5 false).levelOn 131 n := by
  unfold Dev.hopLock
  rw [if_neg (by simp [Dev.hopDue_iff.mpr (.inr ⟨hsearch, hdue⟩)]), if_neg (by omega), if_neg (by decide)]

end

/-- R170: before its time a hop goes on. -/
theorem Dev.hopLock_of_early (locked : Bool)
    (h : (d.get F.SYN_STAT.SEARCH n ≠ 1 ∧ d.get F.SYN_STAT.SEARCH n ≠ 2) ∨ d.tick < (d.syn n).hopFrom + 8) :
    d.hopLock n locked core band vt = d := by
  refine if_pos ?_
  rw [Bool.not_eq_true', Bool.eq_false_iff, Ne, Dev.hopDue_iff]
  omega

end

/-- Settles O35: the commands leave their mark, and a hop's end is one of its three forms. -/
theorem hopCommandsAndLock : Obligations.HopCommandsAndLock := by
  intro p n locked core band vt s d x search ends
  have hgives (locked : Bool) : Gives (.hopLock n locked core band vt) s (d.hopLock n locked core band vt.toNat) := rfl
  refine ⟨fun hreach => ⟨?search, ?abort⟩, fun hsearch hdue => ?hit, fun hsearch hdue => ⟨?found, ?failed⟩, fun hearly => ?early⟩
  case search => exact State.runBy_ok s p _ (fun d => d.synSearch n) hreach
  case abort => exact State.runBy_ok s p _ (fun d => d.synAbort n) hreach
  case hit => exact (hgives locked).of_eq (Dev.hopLock_of_hit core band vt.toNat locked hsearch hdue)
  case found => exact (hgives true).of_eq (Dev.hopLock_of_found core band vt.toNat hsearch hdue)
  case failed => exact (hgives false).of_eq (Dev.hopLock_of_failed core band vt.toNat hsearch hdue)
  case early => exact (hgives locked).of_eq (Dev.hopLock_of_early core band vt.toNat locked hearly)

end Sys2Proof.Machine
end

section
/-! SUPPORT and proof of O36. What an output takes over at its low phase (R174-R176, R179), and its gate (R177, R184, R335). -/

namespace Sys2Proof.Machine

/-! ## Gates -/

section
variable {d : Dev} {k : Nat}

theorem Dev.gateOpen_of_want (hwant : d.gateWant k = true) (hshut : d.flag F.OUT_STAT.OPEN k = false) :
    d.gateOpen k = (d.put F.OUT_STAT.OPEN 1 k).driveNow k := if_pos (by simp [hwant, hshut])

theorem Dev.gateClose_of_unwanted (hwant : d.gateWant k = false) (hopen : d.flag F.OUT_STAT.OPEN k = true) :
    d.gateClose k = (d.put F.OUT_STAT.OPEN 0 k).driveNow k := if_pos (by simp [hwant, hopen])

theorem Dev.dividerChange_of_new (h : (d.outc k).d2 ≠ d.outD2 k) :
    d.dividerChange k = (d.setOutc k { d.outc k with d2 := d.outD2 k }).dphVoid k := if_pos (by simp [h])

/-- R174: a divider whose synthesizer stays takes nothing. -/
theorem Dev.srcTake_eq : d.srcTake k =
    if (d.outc k).src = d.srcWant k then d else (d.setOutc k { d.outc k with src := d.srcWant k }).dphVoid k := by
  unfold Dev.srcTake
  by_cases h : (d.outc k).src = d.srcWant k
  · rw [if_pos h, if_neg (by simp [h])]
  · rw [if_neg h, if_pos (by simp [h])]

theorem Dev.sourceSwitch_of_new (h : (d.outc k).src ≠ d.srcWant k ∨ (d.outc k).xo ≠ d.xoWant k) :
    d.sourceSwitch k = (let e := (d.srcTake k).xoTake k
      (e.putB F.OUT_STAT.OPEN (e.gateWant k) k).driveNow k) := if_pos (by simpa using h)

theorem Dev.bankMismatch_of_differed {b : Nat} (h : 8 ≤ Tbl.getD d.bankBad b 0) :
    d.bankMismatch b = (d.put F.OB_STAT.MISMATCH 1 b).levelOn 133 b := if_pos h

/-! ## Delays -/

theorem Dev.delayChange_of_none (h : (d.outc k).slipTo = none) :
    d.delayChange k = d.setOutc k { d.outc k with fine := d.fineReg k, coarse := d.get F.OUT_COARSE.COARSE k } := by
  unfold Dev.delayChange
  rw [h]

/-- R181: a slip's COARSE is taken; a new window measures. -/
def Dev.slipTaken (d : Dev) (k c : Nat) : Dev :=
  let d := d.put F.OUT_COARSE.COARSE c k
  let d := d.setOutc k { d.outc k with slipTo := none }
  if d.dphState k = dphSlip then (d.dphWindow k).dphSet k dphMeasure else d

theorem Dev.delayChange_of_some {c : Nat} (h : (d.outc k).slipTo = some c) :
    d.delayChange k = (let e := d.slipTaken k c
      e.setOutc k { e.outc k with fine := e.fineReg k, coarse := e.get F.OUT_COARSE.COARSE k }) := by
  unfold Dev.delayChange
  rw [h]
  rfl

@[simp] theorem Dev.outc_setOutc_self (d : Dev) (n : Nat) (x : OutCh) : (d.setOutc n x).outc n = x := Tbl.getD_set_self ..

/-- Registers of two groups of 64 bytes' stride at different places below it. -/
theorem Reg.key_ne_of_plain {q r : Reg} (hq : q.kind = .plain) (hr : r.kind = .plain) (hstride : q.stride = r.stride)
    (hbase : q.base ≠ r.base) (n : Nat) : q.key n ≠ r.key n := by
  unfold Reg.key
  rw [hq, hr, hstride]
  exact fun h => hbase (Nat.add_right_cancel h)

/-- R181: the procedure goes on to measure. -/
theorem Dev.outcs_dphSet_measure (d : Dev) (k : Nat) : (d.dphSet k dphMeasure).outcs = d.outcs := rfl

theorem Dev.outc_dphSet_measure (d : Dev) (k n : Nat) : (d.dphSet k dphMeasure).outc n = d.outc n := by
  unfold Dev.outc
  rw [Dev.outcs_dphSet_measure]

theorem Dev.slipTo_slipTaken (d : Dev) (k c : Nat) : ((d.slipTaken k c).outc k).slipTo = none := by
  unfold Dev.slipTaken
  dsimp only
  split
  · rw [Dev.outc_dphSet_measure, Dev.dphWindow, Dev.outc_setOutc_self, Dev.outc_setOutc_self]
  · rw [Dev.outc_setOutc_self]

/-- R181: what a slip leaves in the registers of an output. -/
theorem Dev.get_slipTaken (d : Dev) (f : Fld) (k c : Nat) (hstate : f.reg.key k ≠ F.OUT_DPH_STAT.STATE.reg.key k) :
    (d.slipTaken k c).get f k = (d.put F.OUT_COARSE.COARSE c k).get f k := by
  unfold Dev.slipTaken
  dsimp only
  split
  · exact Dev.get_put_ne (((d.put F.OUT_COARSE.COARSE c k).setOutc k _).dphWindow k) F.OUT_DPH_STAT.STATE f dphMeasure k k hstate
  · rfl

end

/-! ## What a gate should be -/

/-- R177, R184, R335: what a gate should be, by cases. -/
theorem Dev.gateWant_eq (d : Dev) (k : Nat) : d.gateWant k =
    ((!d.boot.outsHeld && d.get F.OUT_CFG.FORMAT k != 0 && if d.flag F.OUT_STAT.SAFE k then (d.outc k).safeRun else d.outRun k) &&
      if d.xoWant k then (d.outc k).xo
      else if d.flag F.OUT_STAT.SAFE k && d.get F.OUT_STAT.SSTATE k == 0 then false
      else !(d.outc k).xo && d.flag F.SYN_STAT.LOCK (d.outc k).src &&
        !(d.flag F.OUT_DPH_CFG.ENABLE k && d.flag F.OUT_DPH_CFG.HOLD_START k && !(d.outc k).aligned)) := by
  have hnot (a b c r : Bool) : (if (a || b || !c) = true then false else r) = ((!a && !b && c) && r) := by
    cases a <;> cases b <;> cases c <;> rfl
  exact hnot ..

/-- Settles O36: each low-phase command is the change it names, and a gate's wish is one conjunction. -/
theorem outputLowPhaseResults : Obligations.OutputLowPhaseResults := by
  refine ⟨fun k b s => ?commands, fun k d => ?gates⟩
  case commands =>
    intro d x
    refine ⟨fun hwant hshut => ?gateOpen, fun hwant hopen => ?gateClose, fun hnew => ?divider, fun hnew => ?source, fun hnone => ?delay,
      fun c hsome => ?slip, fun hbad => ?bank⟩
    case gateOpen => exact Gives.of_run (·.gateOpen k) rfl (Dev.gateOpen_of_want hwant hshut)
    case gateClose => exact Gives.of_run (·.gateClose k) rfl (Dev.gateClose_of_unwanted hwant hopen)
    case divider => exact Gives.of_run (·.dividerChange k) rfl (Dev.dividerChange_of_new hnew)
    case source =>
      have h : Gives (.outputSourceSwitch k) s _ := Gives.of_run (·.sourceSwitch k) rfl (Dev.sourceSwitch_of_new hnew)
      rw [Dev.srcTake_eq] at h
      exact h
    case delay => exact Gives.of_run (·.delayChange k) rfl (Dev.delayChange_of_none hnone)
    case slip =>
      refine ⟨_, Gives.of_run (·.delayChange k) rfl (Dev.delayChange_of_some hsome), ?_⟩
      have hcoarse : (d.slipTaken k c).get F.OUT_COARSE.COARSE k = c % 2 ^ F.OUT_COARSE.COARSE.width :=
        (Dev.get_slipTaken d F.OUT_COARSE.COARSE k c (Reg.key_ne_of_plain (q := R.OUT_COARSE) (r := R.OUT_DPH_STAT) rfl rfl rfl (by decide) k)).trans
          (Dev.get_put_self _ _ _ _ (by decide) (by decide))
      have hfine : (d.slipTaken k c).get F.OUT_FINE.FINE k = d.get F.OUT_FINE.FINE k :=
        (Dev.get_slipTaken d F.OUT_FINE.FINE k c (Reg.key_ne_of_plain (q := R.OUT_FINE) (r := R.OUT_DPH_STAT) rfl rfl rfl (by decide) k)).trans
          (Dev.get_put_ne _ _ _ _ _ _ (Reg.key_ne_of_plain (q := R.OUT_FINE) (r := R.OUT_COARSE) rfl rfl rfl (by decide) k))
      refine ⟨?_, hcoarse, ?_, ?_⟩
      · rw [Dev.outc_setOutc_self]
        exact Dev.slipTo_slipTaken d k c
      · rw [Dev.outc_setOutc_self]
        exact hcoarse
      · rw [Dev.outc_setOutc_self]
        exact congrArg (toSigned F.OUT_FINE.FINE.width) hfine
    case bank => exact Gives.of_run (·.bankMismatch b) rfl (Dev.bankMismatch_of_differed hbad)
  case gates =>
    intro run
    have hrun : d.outRun k = run := rfl
    rw [Dev.gateWant_eq, hrun, Dev.xoWant]
    refine ⟨?_, ?_, ?_, ?_, ?_, ?_, ?_⟩
    · intro h
      simp [h]
    · intro h
      simp [h]
    · intro hsafe hstate
      simp [hsafe, hstate]
    · intro hsafe hrun
      simp [hsafe, hrun]
    · intro hsafe hlock
      simp [hsafe, hlock]
    · intro hheld hformat hsafe hstate hsafeRun
      simp [hheld, hformat, hsafe, hstate, hsafeRun]
    · intro hheld hformat hsafe hrun hxo hlock hdph
      simp [hheld, hformat, hsafe, hrun, hxo, hlock, hdph]

end Sys2Proof.Machine
end

section
/-! SUPPORT and proof of O37. The end of a measuring window and one trim step of deterministic phase (R181, R182). -/

namespace Sys2Proof.Machine

/-- A signed number in twelve bits is read back. -/
theorem toSigned_ofSigned {w : Nat} {x : Int} (hw : 0 < w) (hlo : -(2 ^ (w - 1) : Nat) ≤ x) (hhi : x < (2 ^ (w - 1) : Nat)) :
    toSigned w (ofSigned w x % 2 ^ w) = x := by
  obtain ⟨n, rfl⟩ : ∃ n, w = n + 1 := ⟨w - 1, by omega⟩
  have hpow : (2 ^ (n + 1) : Nat) = 2 * 2 ^ n := Nat.pow_succ'
  have hmod : BitVec.ofNat (n + 1) (ofSigned (n + 1) x % 2 ^ (n + 1)) = BitVec.ofNat (n + 1) (ofSigned (n + 1) x) :=
    BitVec.eq_of_toNat_eq (by simp)
  rw [Nat.add_sub_cancel] at hlo hhi
  rw [toSigned_eq_toInt, hmod, ofNat_ofSigned, BitVec.toInt_ofInt]
  exact Int.bmod_eq_of_le (by omega) (by omega)

section
variable {d : Dev} {k : Nat}

/-- R181: the end of a window while the procedure measures. -/
theorem Dev.dphMeasureEnd_of_measure (hstate : d.get F.OUT_DPH_STAT.STATE k = 2) (hpairs : 0 < (d.outc k).pairs)
    (hfull : d.get F.OUT_DPH_CFG.AVG k ≤ (d.outc k).pairs) :
    d.dphMeasureEnd k =
      (let m := d.put F.OUT_DPH_STAT.RESID (ofSigned 16 (satSigned 16 (d.dphHalfPs k))) k
       if m.dphFar k then
         if m.flag F.OUT_STAT.OPEN k && !m.flag F.OUT_DPH_CFG.SLIP_RUN k then m.dphSet k 6
         else (m.setOutc k { m.outc k with slipTo := some (m.dphSlipTo k) }).dphSet k 3
       else if (d.outc k).trimmed && m.dphNear k then ((m.setOutc k { m.outc k with trimTo := none }).dphWindow k).dphSet k 5
       else (m.setOutc k { m.outc k with trimTo := some (m.gets F.OUT_FINE.FINE k - d.dphHalfPs k), trimTick := m.tick }).dphSet
         k 4) := by
  have hst : d.dphState k = 2 := hstate
  unfold Dev.dphMeasureEnd
  rw [if_pos ⟨.inl hst, hpairs, hfull⟩]
  dsimp only
  rw [if_neg (by rw [hst]; decide)]
  rfl

/-- R181: one step of a trim upward, short of its target. -/
def Dev.trimmedUp (d : Dev) (k : Nat) : Dev :=
  let e := d.put F.OUT_FINE.FINE (ofSigned 12 (d.fineReg k + 1)) k
  e.setOutc k { e.outc k with trimTick := e.tick }

theorem Dev.fine_trimmedUp (hlo : -512 ≤ d.fineReg k) (hhi : d.fineReg k < 511) : (d.trimmedUp k).fineReg k = d.fineReg k + 1 := by
  have hget : (d.trimmedUp k).get F.OUT_FINE.FINE k = ofSigned 12 (d.fineReg k + 1) % 2 ^ 12 :=
    Dev.get_put_self _ _ _ _ (by decide) (by decide)
  exact (congrArg (toSigned 12) hget).trans (toSigned_ofSigned (by decide) (by omega) (by omega))

theorem Dev.dphRecentre_of_near (h : (d.fineReg k).natAbs < 512) : d.dphRecentre k = d := if_pos h

theorem Dev.dphTrimStep_of_up {dest : Int} (hstate : d.get F.OUT_DPH_STAT.STATE k = 4) (hdest : (d.outc k).trimTo = some dest)
    (hup : d.fineReg k + 1 < dest) (hlo : -512 ≤ d.fineReg k) (hhi : d.fineReg k < 511) (hdue : d.trimDue k = true) :
    d.dphTrimStep k = d.trimmedUp k := by
  have hst : d.dphState k = 4 := hstate
  have hfine := Dev.fine_trimmedUp hlo hhi
  unfold Dev.dphTrimStep
  dsimp only
  rw [hdest]
  dsimp only
  have hstep : (if d.fineReg k < dest then d.fineReg k + 1 else d.fineReg k - 1) = d.fineReg k + 1 := if_pos (by omega)
  rw [if_neg (by rw [hst]; decide), if_neg (by omega), if_pos hdue, hstep, if_neg (by omega)]
  exact Dev.dphRecentre_of_near (d := d.trimmedUp k) (by omega)

end

/-- Settles O37: a window's end by distance and trim, and a trim's step. -/
theorem deterministicPhaseSteps : Obligations.DeterministicPhaseSteps := by
  intro k s dest d x e m c far
  refine ⟨fun hstate hpairs hfull => ?window, ?trim⟩
  case window =>
    have h : Gives c s _ := Gives.of_run (·.dphMeasureEnd k) rfl (Dev.dphMeasureEnd_of_measure hstate hpairs hfull)
    refine ⟨fun hfar hopen hrun => h.of_eq ?_, fun hfar hshut => h.of_eq ?_, fun hfar htrimmed hnear => h.of_eq ?_,
      fun hfar htrimmed => h.of_eq ?_⟩
    · exact (if_pos hfar).trans (if_pos (by rw [hopen, hrun]; rfl))
    · exact (if_pos hfar).trans (if_neg (by rw [hshut, Bool.false_and]; exact Bool.false_ne_true))
    · exact (if_neg (ne_true_of_eq_false hfar)).trans (if_pos (by rw [htrimmed, hnear]; rfl))
    · exact (if_neg (ne_true_of_eq_false hfar)).trans (if_neg (by rw [htrimmed, Bool.false_and]; exact Bool.false_ne_true))
  case trim =>
    intro fine wait hstate hdest hup hlo hhi hdue
    have hdue : d.trimDue k = true := decide_eq_true hdue
    refine ⟨d.trimmedUp k, Gives.of_run (·.dphTrimStep k) rfl (Dev.dphTrimStep_of_up hstate hdest hup hlo hhi hdue),
      Dev.fine_trimmedUp hlo hhi, ?_, ?_, ?_⟩
    · exact congrArg OutCh.trimTick (Dev.outc_setOutc_self _ _ _)
    · exact (congrArg OutCh.trimTo (Dev.outc_setOutc_self _ _ _)).trans hdest
    · exact (Dev.get_put_ne d F.OUT_FINE.FINE F.OUT_DPH_STAT.STATE _ _ _
        (Reg.key_ne_of_plain (q := R.OUT_DPH_STAT) (r := R.OUT_FINE) rfl rfl rfl (by decide) k)).trans hstate

end Sys2Proof.Machine
end

section
/-! SUPPORT and proof of O38. Commands and dwells of the Slalom generators (R187-R190). -/

namespace Sys2Proof.Machine

/-- A path's command that its write reaches. -/
theorem Gives.of_reach {c : Instr} {s : State} {p : Path} {off : Nat} {d' : Dev} (f : Dev → Dev) (hexec : exec c s = s.runBy p off f)
    (hreach : s.reaches p off) (heq : f s.dev.quiet = d') : Gives c s d' :=
  hexec.trans ((State.runBy_ok s p off f hreach).trans (congrArg (fun d => Host.Outcome.next { s with dev := d }) heq))

@[simp] theorem Dev.slal_setSlal_self (d : Dev) (n : Nat) (x : Slal) : (d.setSlal n x).slal n = x := Tbl.getD_set_self ..

section
variable {d : Dev} {n : Nat} {t : List Byte}

theorem Dev.profileTable_of_profile {m : Nat} (htable : d.table m = some t) (hkind : tableKind t = 4) :
    d.profileTable m = some t := by
  unfold Dev.profileTable
  rw [htable]
  exact if_pos hkind

theorem Dev.slalStartCmd_of_profile (p : Path) (hfree : d.get F.LOOP_STATE.STATE n = 0)
    (hprofile : d.profileTable (d.getA F.SLAL_CFG.PROFILE n) = some t) :
    d.slalStartCmd p n = d.setSlal n { d.slal n with cmdStart := true } := by
  unfold Dev.slalStartCmd
  rw [hprofile]
  exact if_neg (by simp [hfree])

/-- R189: the segment after the present one, or the end. -/
theorem Dev.slalNext_of_profile (now : Nat) (hprofile : d.profile n = some t) :
    d.slalNext n now = (let e := d.setSlal n { d.slal n with dwell := none }
      if d.get F.SLAL_STAT.SEG n + 1 < leAt t 2 1 then e.put F.SLAL_STAT.SEG (d.get F.SLAL_STAT.SEG n + 1) n
      else ((e.put F.SLAL_STAT.RSTATE 2 n).put F.SLAL_STAT.OWNER 0 n).setSlal n
        { d.slal n with dwell := none, doneAt := some now }) := by
  unfold Dev.slalNext
  dsimp only
  rw [hprofile, Dev.slal_setSlal_self]

theorem Dev.dwellEnd_of_run {now dwell : Nat} (hrun : d.get F.SLAL_STAT.RSTATE n = 1) (hdwell : (d.slal n).dwell = some dwell)
    (hover : dwell ≤ now) : d.dwellEnd n now = d.slalNext n now := by
  unfold Dev.dwellEnd
  rw [hdwell]
  exact if_pos ⟨hrun, hover⟩

end

/-- Settles O38: the commands leave their mark, and a dwell's end is the next segment or the end of the profile. -/
theorem slalomCommands : Obligations.SlalomCommands := by
  intro p n s t dwell d x seg
  refine ⟨fun hreach => ⟨fun hfree htable hkind => ?start, ?abort, fun hrun => ?clear⟩, fun hrun hdwell hover htable hkind => ?dwell⟩
  case start =>
    exact Gives.of_reach (·.slalStartCmd p n) rfl hreach
      (Dev.slalStartCmd_of_profile p hfree (Dev.profileTable_of_profile htable hkind))
  case abort => exact Gives.of_reach (·.slalAbortCmd p n) rfl hreach rfl
  case clear => exact Gives.of_reach (·.slalClearCmd p n) rfl hreach (if_neg hrun)
  case dwell =>
    exact Gives.of_run (fun d => d.dwellEnd n (d.tick + 1)) rfl ((Dev.dwellEnd_of_run hrun hdwell hover).trans
      (Dev.slalNext_of_profile _ (Dev.profileTable_of_profile htable hkind)))

end Sys2Proof.Machine
end

section
/-! SUPPORT and proof of O30. Commands and time limits of measurement and statistics slots (R205-R213). -/

namespace Sys2Proof.Machine

section
variable {d : Dev} {k : Nat}

/-- R210: ABORT of a slot whose re-arm is pending. -/
theorem Dev.msAbortCmd_of_rearm
    (hidle : ¬ (d.get F.TDC_MS_STAT.STATE k = 1 ∨ d.get F.TDC_MS_STAT.STATE k = 2 ∨ d.get F.TDC_MS_STAT.STATE k = 3))
    (hrearm : (d.ms k).rearm = true) (hrepeat : d.flag F.TDC_MS_CFG.REPEAT k = true) (hdone : (d.ms k).doneAt ≠ some d.absCycle) :
    d.msAbortCmd k = (d.setMs k { d.ms k with rearm := false, cmdArm := false }).put F.TDC_MS_STAT.STATE 7 k := by
  refine (if_neg hidle).trans (Eq.trans (if_neg ?_) (if_pos ?_))
  · exact fun h => hdone h.1
  · exact (Bool.and_eq_true _ _).mpr ⟨hrearm, hrepeat⟩

/-- R206: a slot that waits past its limit. -/
theorem Dev.msTimeout_of_late {cyc : Nat}
    (hbusy : d.get F.TDC_MS_STAT.STATE k = 1 ∨ d.get F.TDC_MS_STAT.STATE k = 2 ∨ d.get F.TDC_MS_STAT.STATE k = 3)
    (hwaits : d.flag F.TDC_MS_CFG.MODE k = false ∨ (d.ms k).start = none) (hlate : d.msLimit k < d.ltEnd cyc) :
    d.msTimeout k cyc = (d.atCycle cyc).msEnd k 5 none := by
  have hstate : (d.msState k == 1 || d.msState k == 2 || d.msState k == 3) = true := by
    simpa [Dev.msState, or_assoc] using hbusy
  have hopen : (d.flag F.TDC_MS_CFG.MODE k && (d.ms k).start.isSome) = false := by
    rcases hwaits with h | h <;> simp [h]
  exact if_pos (by rw [hstate, hopen, decide_eq_true hlate]; rfl)

/-- R207: a slot in Deckle mode whose window has passed. -/
theorem Dev.deckleNostop_of_passed {cyc : Nat} {a : MsEdge} (hstate : d.get F.TDC_MS_STAT.STATE k = 1 ∨ d.get F.TDC_MS_STAT.STATE k = 3)
    (hmode : d.flag F.TDC_MS_CFG.MODE k = true) (hstart : (d.ms k).start = some a)
    (hpassed : a.adj + (d.get F.TDC_MS_WCLOSE.VALUE k + 50) * 2 ^ 32 < d.ltEnd cyc) :
    d.deckleNostop k cyc = (d.atCycle cyc).msEnd k 6 none := by
  have hst : (d.msState k == 1 || d.msState k == 3) = true := by simpa [Dev.msState] using hstate
  unfold Dev.deckleNostop
  dsimp only
  rw [hstart]
  exact if_pos (by rw [hst, hmode, decide_eq_true hpassed]; rfl)

end

/-- Settles O30: each command or limit is one branch of its function, and an end is `Dev.msEnd`. -/
theorem measurementAndStatisticsSlots : Obligations.MeasurementAndStatisticsSlots := by
  intro p k j c s d dc st x busy ends limit
  refine ⟨fun hreach hidle => ?arm, fun hreach hbusy => ?abort, fun hreach hidle hrearm hrepeat hdone => ?rearm,
    fun hbusy hwaits hlate => ?timeout, fun a hstate hmode hstart hpassed => ?nostop,
    fun hreach => ⟨fun hstop => ?stStart, fun hrun => ?stAbort⟩⟩
  case arm => exact Gives.of_reach (·.msArmCmd p k) rfl hreach (if_neg hidle)
  case abort => exact Gives.of_reach (fun d => (d.atCycle c).msAbortCmd k) rfl hreach (if_pos hbusy)
  case rearm =>
    exact Gives.of_reach (fun d => (d.atCycle c).msAbortCmd k) rfl hreach
      (Dev.msAbortCmd_of_rearm (d := dc) hidle hrearm hrepeat hdone)
  case timeout => exact Gives.of_run (·.msTimeout k c) rfl (Dev.msTimeout_of_late hbusy hwaits hlate)
  case nostop => exact Gives.of_run (·.deckleNostop k c) rfl (Dev.deckleNostop_of_passed hstate hmode hstart hpassed)
  case stStart => exact Gives.of_reach (·.stStartCmd p j) rfl hreach (if_neg hstop)
  case stAbort => exact Gives.of_reach (fun d => (d.atCycle c).stAbortCmd j) rfl hreach (if_pos hrun)

end Sys2Proof.Machine
end

section
/-! SUPPORT and proof of O31. The trace recorders (R215-R220). -/

namespace Sys2Proof.Machine

@[simp] theorem Dev.tr_setTr_self (d : Dev) (r : Nat) (x : TraceRec) : (d.setTr r x).tr r = x := Tbl.getD_set_self ..

theorem Dev.setTr_setTr (d : Dev) (r : Nat) (x y : TraceRec) : (d.setTr r x).setTr r y = d.setTr r y :=
  congrArg (fun t => { d with trs := t }) (Tbl.set_set d.trs r x y)

section
variable {d : Dev} {r : Nat}

/-- R217: a trigger finds a recorder in PRE. -/
theorem Dev.trTrigger_of_pre (src : Nat) (hpre : d.get F.TDC_TR_STAT.STATE r = 1) :
    d.trTrigger r src = (d.trPost r src d.tick32 d.s32 false, false) := by
  have hstate : d.trState r = 1 := hpre
  unfold Dev.trTrigger
  rw [hstate]
  rfl

theorem Dev.trTriggerCmd_of_pre (hpre : d.get F.TDC_TR_STAT.STATE r = 1) :
    d.trTriggerCmd r = d.trPost r 0xFFFF d.tick32 d.s32 false := by
  unfold Dev.trTriggerCmd
  rw [Dev.trTrigger_of_pre _ hpre]
  exact if_neg Bool.false_ne_true

/-- R220: ABORT in PRE. -/
theorem Dev.trAbortCmd_of_pre (hpre : d.get F.TDC_TR_STAT.STATE r = 1) : d.trAbortCmd r = d.trStop r := by
  have hstate : d.trState r = 1 := hpre
  unfold Dev.trAbortCmd
  dsimp only
  rw [hstate]
  rfl

/-- R219: the oldest record of the buffer reaches the ring. -/
theorem Dev.trWrite_of_cons {after : Bool} {b : List Byte} {rest : List (Bool × List Byte)} (hfifo : (d.tr r).fifo = (after, b) :: rest)
    (hring : 0 < d.get F.TDC_TR_PRE.COUNT r + d.get F.TDC_TR_POST.COUNT r) :
    d.trWrite r = (let x := d.tr r
      let e := d.vatStore (d.trBase r + 32 + 16 * (x.next % (d.get F.TDC_TR_PRE.COUNT r + d.get F.TDC_TR_POST.COUNT r))) b
      e.setTr r { x with
        fifo := rest, next := x.next + 1,
        pre := if after then x.pre else min (x.pre + 1) (e.get F.TDC_TR_PRE.COUNT r),
        post := if after then x.post + 1 else x.post }) := by
  have hmax : max 1 (d.trRing r) = d.get F.TDC_TR_PRE.COUNT r + d.get F.TDC_TR_POST.COUNT r := Nat.max_eq_right hring
  unfold Dev.trWrite
  dsimp only
  rw [hfifo, hmax]

section
variable {t : Nat} (hrearm : d.get F.TDC_TR_STAT.STATE r = 4) (hend : (d.tr r).rearmEnd = some t) (hdue : t ≤ d.tick + 1)
include hrearm hend hdue

/-- R218: the end of REARM. -/
theorem Dev.trRearmEnd_of_due : d.trRearmEnd r = (let e := d.setTr r { d.tr r with rearmEnd := none }
    if d.flag F.TDC_TR_CFG.AUTO r || (d.tr r).cmdArm then e.trStart r else e.put F.TDC_TR_STAT.STATE 3 r) := by
  unfold Dev.trRearmEnd
  dsimp only
  rw [hend]
  exact if_pos ⟨hrearm, hdue⟩

end

/-- R218: PRE begins anew, with no trigger queued. -/
theorem Dev.trStart_of_none (hqueue : (d.tr r).queue = none) :
    d.trStart r = (d.trPre r).setTr r { (d.trPre r).tr r with cmdArm := false } := by
  have hnone : (((d.trPre r).setTr r { (d.trPre r).tr r with cmdArm := false }).tr r).queue = none := by
    rw [Dev.tr_setTr_self, Dev.trPre, Dev.tr_setTr_self]
    exact hqueue
  unfold Dev.trStart
  dsimp only
  rw [hnone]

/-- R217: PRE begins with an empty ring. -/
theorem Dev.tr_trPre : (d.trPre r).tr r = { d.tr r with
    next := 0, pre := 0, post := 0, lost := 0, fifo := [], rearmEnd := none, queuedRun := false, trigAt := none, abortAt := none } :=
  Dev.tr_setTr_self _ _ _

end

/-- Settles O31: each command by its recorder's state. -/
theorem traceRecorders : Obligations.TraceRecorders := by
  intro p r src ix c s d dc st x post
  refine ⟨fun hreach hsize => ?arm, fun hpre => ⟨?command, fun htrig hindex => ?source⟩, fun hreach hpre => ?abort,
    fun after b rest hfifo hring => ?record, fun hpost hcount => ?done,
    fun t hrearm hend hdue => ⟨fun hauto harm => ?rearm, fun hauto hqueue => ?auto⟩⟩
  case arm => exact Gives.of_reach (·.trArmCmd p r) rfl hreach (if_neg hsize)
  case command => exact Gives.of_run (fun d => (d.atCycle c).trTriggerCmd r) rfl (Dev.trTriggerCmd_of_pre (d := dc) hpre)
  case source =>
    have hnames : (dc.get F.TDC_TR_CFG.TRIG r == src.val + 1 && dc.get F.TDC_TR_CFG.INDEX r == ix.val) = true := by
      rw [Bool.and_eq_true, beq_iff_eq, beq_iff_eq]
      exact ⟨htrig, hindex⟩
    have hgives : Gives (.traceTrigger r (some (src, ix)) c) s
        (if dc.get F.TDC_TR_CFG.TRIG r == src.val + 1 && dc.get F.TDC_TR_CFG.INDEX r == ix.val then
          if (dc.trTrigger r (src.val + 1 + 8 * ix.val)).2 then (dc.trTrigger r (src.val + 1 + 8 * ix.val)).1.trMissed [r]
          else (dc.trTrigger r (src.val + 1 + 8 * ix.val)).1 else dc) := rfl
    rw [if_pos hnames, Dev.trTrigger_of_pre (d := dc) _ hpre] at hgives
    exact hgives
  case abort =>
    intro e
    refine Gives.of_reach (fun d => (d.atCycle c).trAbortCmd r) rfl hreach ((Dev.trAbortCmd_of_pre (d := dc) hpre).trans ?_)
    rw [Dev.setTr_setTr, Dev.tr_setTr_self]
    rfl
  case record => exact Gives.of_run (·.trWrite r) rfl (Dev.trWrite_of_cons hfifo hring)
  case done => exact Gives.of_run (·.trDone r) rfl (if_pos ⟨hpost, hcount⟩)
  case rearm =>
    exact Gives.of_run (·.trRearmEnd r) rfl ((Dev.trRearmEnd_of_due hrearm hend hdue).trans (if_neg (by rw [hauto, harm]; decide)))
  case auto =>
    have hgives := Gives.of_run (c := .traceRearmEnd r) (·.trRearmEnd r) rfl
      ((Dev.trRearmEnd_of_due hrearm hend hdue).trans (if_pos (by rw [hauto]; rfl)))
    rw [Dev.trStart_of_none (by rw [Dev.tr_setTr_self]; exact hqueue)] at hgives
    refine ⟨_, hgives, ?_, ?_⟩
    · exact Dev.get_put_self _ _ _ _ (by decide) (by decide)
    · rw [Dev.tr_setTr_self, Dev.tr_trPre]
      exact ⟨rfl, rfl, rfl, rfl⟩

end Sys2Proof.Machine
end

section
/-! SUPPORT and proof of O32. Rewind commands, a replay that has caught up, and the end of a splice (R136-R141). -/

namespace Sys2Proof.Machine

section
variable {d : Dev} {l : Nat}

/-- R136: START while rewind is enabled and FROM lies in the past. -/
theorem Dev.rewindStartCmd_of_past (p : Path) (excl : Nat) (hloop : l < 32) (hon : d.flag F.SEL_RWD_CFG.ENABLE l = true)
    (haccepted : d.getS F.SEL_RWD_CFG.ENABLE l ≠ 0) (hpast : d.get64 F.SEL_RWD_FROM_LO.FROM F.SEL_RWD_FROM_HI.FROM l < d.tick) :
    d.rewindStartCmd p l excl = d.setSelx l { d.selx l with cmdStart := some excl } := by
  have hrwd : d.rwdOn l = true := (Bool.and_eq_true _ _).mpr ⟨decide_eq_true hloop, hon⟩
  refine if_neg fun h => ?_
  rcases h with h | h | h
  · rw [hrwd] at h
    exact absurd h (by decide)
  · exact haccepted h
  · exact absurd hpast (Nat.not_lt.mpr h)

/-- R139: the lane has delivered the previous tick's stamp tick. -/
theorem Dev.replayCaughtUp_of_caught (hreplay : d.get F.SEL_RWD_STAT.RSTATE l = 1) (hstart : (d.selx l).start ≤ d.tick)
    (hnext : d.tick ≤ (d.selx l).next) : d.replayCaughtUp l (d.tick + 1) = d.put F.SEL_RWD_STAT.RSTATE 2 l := by
  refine if_pos ?_
  simp only [Dev.replayCaught, Bool.and_eq_true, beq_iff_eq, decide_eq_true_eq]
  omega

/-- R140: the applied word equals the slot's word. -/
theorem Dev.spliceEnd_of_met (hcycle : d.cycle = 0) (hsplicing : (d.selx l).splicing = true) (hstate : d.get F.LOOP_STATE.STATE l = 5)
    (hgood : d.vbad (d.loopBlock l + 16) 8 = false)
    (hmet : satSigned 48 (toSigned 64 (d.vraw (d.loopBlock l + 16) 8)) = (d.loop l).applied) :
    d.spliceEnd l = (let x := d.selx l
      let done := ((d.put F.SEL_RWD_STAT.RSTATE 4 l).setSelx l { x with splicing := false, doneSeen := false }).put
        F.LOOP_STATE.STATE x.recLstate l
      let e := ((done.noteEntry l 5 x.recLstate none).enterLoop l 5 x.recLstate (d.loop l).applied).slalOwner l x.recLstate
      if x.recLstate = 5 then e else e.trHit 2 l) := by
  have hword : (d.slotWord l).map (satSigned 48) = some (d.loop l).applied := by
    simp [Dev.slotWord, hgood, hmet]
  exact if_pos ⟨hcycle, hsplicing, hstate, hword⟩

end

/-- Settles O32: each command or end is one branch of its function. -/
theorem rewindCommandsAndEnds : Obligations.RewindCommandsAndEnds := by
  intro p l excl s d x state
  refine ⟨fun hreach => ⟨fun hon haccepted hpast => ?start, ?abort, fun hreplayed => ?splice⟩, fun hreplay hstart hnext => ?caught,
    fun hcycle hsplicing hstate hgood hmet => ?met⟩
  case start =>
    exact Gives.of_reach (·.rewindStartCmd p l excl.toNat) rfl hreach
      (Dev.rewindStartCmd_of_past p excl.toNat l.isLt hon haccepted hpast)
  case abort => exact Gives.of_reach (·.rewindAbortCmd p l) rfl hreach rfl
  case splice => exact Gives.of_reach (·.rewindSpliceCmd p l) rfl hreach (if_pos hreplayed)
  case caught =>
    exact Gives.of_run (fun d => d.replayCaughtUp l (d.tick + 1)) rfl (Dev.replayCaughtUp_of_caught hreplay hstart hnext)
  case met => exact Gives.of_run (·.spliceEnd l) rfl (Dev.spliceEnd_of_met hcycle hsplicing hstate hgood hmet)

end Sys2Proof.Machine
end

section
/-! SUPPORT and proof of O40. Steps of LT, context commands, conversions, and leaps written (R223, R227-R231). -/

namespace Sys2Proof.Machine

/-! ## Pairs of registers -/

section
variable (d : Dev) {lo hi : Fld} (v n : Nat)

/-- The low half of a pair that was put. -/
theorem Dev.get_put64_lo (hne : lo.reg.key n ≠ hi.reg.key n) (hlo : lo.lo = 0) (htop : lo.hi = 31) :
    (d.put64 lo hi v n).get lo n = v % 2 ^ 32 := by
  have hwidth : lo.width = 32 := by rw [Fld.width, hlo, htop]
  rw [Dev.put64, Dev.get_put_ne _ _ _ _ _ _ hne, Dev.get_put_self _ _ _ _ (by omega) (by omega), hlo, htop, hwidth]
  exact Nat.mod_mod _ _

/-- The high half of a pair that was put. -/
theorem Dev.get_put64_hi (hlo : lo.width = 32) (hbot : hi.lo = 0) (htop : hi.hi = 31) :
    (d.put64 lo hi v n).get hi n = v / 2 ^ 32 % 2 ^ 32 := by
  rw [Dev.put64, Dev.get_put_self _ _ _ _ (by omega) (by omega), hbot, htop, hlo]

theorem Dev.get_put64_ne (f : Fld) (m : Nat) (hlo : f.reg.key m ≠ lo.reg.key n) (hhi : f.reg.key m ≠ hi.reg.key n) :
    (d.put64 lo hi v n).get f m = d.get f m := by
  rw [Dev.put64, Dev.get_put_ne _ _ _ _ _ _ hhi, Dev.get_put_ne _ _ _ _ _ _ hlo]

end

/-! ## Conversions -/

/-- R227: CTX_CONV_IN of a path as written. -/
def Dev.convIn (d : Dev) (path s : Nat) : Dev :=
  (d.put64 F.CTX_CONV_IN_NS_LO.VALUE F.CTX_CONV_IN_NS_HI.VALUE (s / 2 ^ 32) path).put F.CTX_CONV_IN_FRAC.VALUE (s % 2 ^ 32) path

theorem Dev.get_convIn (d : Dev) (path s : Nat) (f : Fld) (m : Nat) (hkind : f.reg.kind ≠ .plain)
    (hbase : ∀ r ∈ [R.CTX_CONV_IN_NS_LO, R.CTX_CONV_IN_NS_HI, R.CTX_CONV_IN_FRAC], f.reg.base % copyStride ≠ r.base % copyStride) :
    (d.convIn path s).get f m = d.get f m := by
  have hne (r : Reg) (hr : r ∈ [R.CTX_CONV_IN_NS_LO, R.CTX_CONV_IN_NS_HI, R.CTX_CONV_IN_FRAC]) (hplain : r.kind ≠ .plain) :
      f.reg.key m ≠ r.key path := Reg.key_ne hkind hplain (hbase r hr) m path
  rw [Dev.convIn, Dev.get_put_ne _ _ _ _ _ _ (hne R.CTX_CONV_IN_FRAC (by simp) (by decide)),
    Dev.get_put64_ne _ _ _ _ _ (hne R.CTX_CONV_IN_NS_LO (by simp) (by decide)) (hne R.CTX_CONV_IN_NS_HI (by simp) (by decide))]

/-- A context is read from its entry and its INC. -/
theorem Dev.ctx_congr {d d' : Dev} {n : Nat} (hctxs : d'.ctxs = d.ctxs)
    (hlo : d'.get F.CTX_INC_LO.VALUE n = d.get F.CTX_INC_LO.VALUE n) (hhi : d'.get F.CTX_INC_HI.VALUE n = d.get F.CTX_INC_HI.VALUE n) :
    d'.ctx n = d.ctx n := by
  unfold Dev.ctx Dev.ctxInc Dev.get64
  rw [hctxs, hlo, hhi]

/-- R227: what is converted does not depend on CTX_CONV_IN. -/
theorem Dev.ctxConvert_convIn (d : Dev) (path s n t : Nat) : (d.convIn path s).ctxConvert n t = d.ctxConvert n t := by
  have hctx : (d.convIn path s).ctx n = d.ctx n :=
    Dev.ctx_congr rfl (Dev.get_convIn d path s _ n (by decide) (by decide)) (Dev.get_convIn d path s _ n (by decide) (by decide))
  have hon : (d.convIn path s).ctxEnabled n = d.ctxEnabled n :=
    congrArg (· != 0) (Dev.get_convIn d path s F.CTX_STAT.ENABLE n (by decide) (by decide))
  unfold Dev.ctxConvert Dev.ctxAt
  rw [hctx, hon]
  rfl

theorem Dev.ctxConvert_of_present {d : Dev} {n t : Nat} (hfrom : d.time.lt ≤ t * 2 ^ 16) (hto : t * 2 ^ 16 < d.time.lt + d.time.dlt)
    (hon : d.flag F.CTX_STAT.ENABLE n = true) : d.ctxConvert n t =
      some (wrap96 ((d.ctx n).c + Int.fdiv ((d.ctx n).curInc * (((t * 2 ^ 16 : Nat) : Int) - d.time.lt)) (max 1 d.time.dlt))) :=
  (if_pos ⟨hfrom, hto⟩).trans (congrArg some (if_pos hon))

theorem Dev.ctxConvert_of_outside {d : Dev} {n t : Nat}
    (hout : t * 2 ^ 16 < d.time.prev ∨ d.time.lt + d.time.dlt ≤ t * 2 ^ 16) (hprev : d.time.prev ≤ d.time.lt) :
    d.ctxConvert n t = none :=
  (if_neg (by omega)).trans (if_neg (by omega))

/-- R227: what a conversion that answers `v` leaves in the registers. -/
theorem Dev.get_conversion (d : Dev) (path n t : Nat) (v : Option Nat) (hsel : d.get F.CTX_SEL.INDEX path = n)
    (hv : d.ctxConvert n t = v) : let d' := d.conversion path t
    d'.get F.CTX_STAT.CONV_RANGE n = b2n v.isNone ∧
    d'.get F.CTX_CONV_OUT_NS_LO.VALUE path = v.getD 0 / 2 ^ 32 % 2 ^ 32 ∧
    d'.get F.CTX_CONV_OUT_NS_HI.VALUE path = v.getD 0 / 2 ^ 64 % 2 ^ 32 ∧
    d'.get F.CTX_CONV_OUT_FRAC.VALUE path = v.getD 0 % 2 ^ 32 := by
  have hkey {q r : Reg} (hq : q.kind ≠ .plain) (hr : r.kind ≠ .plain) (hbase : q.base % copyStride ≠ r.base % copyStride) (m k : Nat) :
      q.key m ≠ r.key k := Reg.key_ne hq hr hbase m k
  subst hsel hv
  refine ⟨?range, ?lo, ?hi, ?frac⟩
  case range =>
    rw [Dev.conversion, Dev.get_put_ne _ _ _ _ _ _ (hkey (by decide) (by decide) (by decide) _ _),
      Dev.get_put64_ne _ _ _ _ _ (hkey (by decide) (by decide) (by decide) _ _) (hkey (by decide) (by decide) (by decide) _ _), Dev.putB,
      Dev.get_put_self _ _ _ _ (by decide) (by decide)]
    cases (d.ctxConvert (d.get F.CTX_SEL.INDEX path) t).isNone <;> rfl
  case lo =>
    rw [Dev.conversion, Dev.get_put_ne _ _ _ _ _ _ (hkey (by decide) (by decide) (by decide) _ _),
      Dev.get_put64_lo _ _ _ (hkey (by decide) (by decide) (by decide) _ _) rfl rfl]
  case hi =>
    rw [Dev.conversion, Dev.get_put_ne _ _ _ _ _ _ (hkey (by decide) (by decide) (by decide) _ _),
      Dev.get_put64_hi _ _ _ rfl rfl rfl, Nat.div_div_eq_div_mul, ← Nat.pow_add]
  case frac =>
    rw [Dev.conversion, Dev.get_put_self _ _ _ _ (by decide) (by decide)]
    exact Nat.mod_mod _ _

/-! ## Commands -/

@[simp] theorem Dev.ctx_setCtx_self (d : Dev) (n : Nat) (x : Ctx) : (d.setCtx n x).ctx n = x := Tbl.getD_set_self ..

/-- R231: CTX_LEAP as accepted. -/
theorem Dev.acc_leapWrite (d : Dev) (n sec : Nat) (del arm : Bool) :
    let acc := (d.leapWrite n (sec + b2n del * 2 ^ 48 + b2n arm * 2 ^ 63)).acc
    Tbl.find? acc (R.CTX_LEAP_LO.key n) = some (BitVec.ofNat 32 sec) ∧
    Tbl.find? acc (R.CTX_LEAP_HI.key n) =
      some (BitVec.ofNat 32 (sec / 2 ^ 32 + (if del then 2 ^ 16 else 0) + b2n arm * 2 ^ 31)) := by
  have hne : R.CTX_LEAP_LO.key n ≠ R.CTX_LEAP_HI.key n := Reg.key_ne (by decide) (by decide) (by decide) n n
  have hlo : BitVec.ofNat 32 (sec + b2n del * 2 ^ 48 + b2n arm * 2 ^ 63) = BitVec.ofNat 32 sec :=
    BitVec.eq_of_toNat_eq (by simp only [BitVec.toNat_ofNat]; omega)
  have hhi : (sec + b2n del * 2 ^ 48 + b2n arm * 2 ^ 63) / 2 ^ 32 = sec / 2 ^ 32 + (if del then 2 ^ 16 else 0) + b2n arm * 2 ^ 31 := by
    have hdel : b2n del * 2 ^ 48 = (if del then 2 ^ 16 else 0) * 2 ^ 32 := by cases del <;> rfl
    rw [hdel]
    omega
  refine ⟨?_, ?_⟩
  · exact (Tbl.find?_set_ne _ _ _ _ hne).trans ((Tbl.find?_set_self _ _ _).trans (congrArg some hlo))
  · exact (Tbl.find?_set_self _ _ _).trans (congrArg (fun v => some (BitVec.ofNat 32 v)) hhi)

/-- Settles O40: commands wait in the context's entry, and a conversion answers in the path's registers. -/
theorem contextCommands : Obligations.ContextCommands := by
  intro p step64 t sec del s d n x waits set by' lt answer
  refine ⟨fun hreach hnow haccepted hstaged => ?step, fun hreach => ⟨?set, ?cstep, ?slew, ?cancel, ?disable⟩, fun hreach => ?conv,
    fun hreach => ⟨fun hafter => ?arm, ?disarm⟩⟩
  case step => exact Gives.of_reach (·.ltStepCmd p step64.toInt) rfl hreach (if_neg (by rw [hnow, haccepted, hstaged]; decide))
  case set => exact Gives.of_reach (·.ctxSetCmd p) rfl hreach rfl
  case cstep => exact Gives.of_reach (·.ctxStepCmd p) rfl hreach rfl
  case slew => exact Gives.of_reach (·.ctxSlewCmd p) rfl hreach rfl
  case cancel => exact Gives.of_reach (·.ctxCancelCmd p) rfl hreach rfl
  case disable => exact Gives.of_reach (·.ctxDisableCmd p) rfl hreach rfl
  case conv =>
    refine ⟨(d.convIn p.code t.toNat).conversion p.code t.toNat, Gives.of_reach (·.convertCmd p t.toNat) rfl hreach rfl, rfl, ?_, ?_⟩
    · intro hfrom hto hon
      have hv := (Dev.ctxConvert_convIn d p.code t.toNat n t.toNat).trans (Dev.ctxConvert_of_present hfrom hto hon)
      have h := Dev.get_conversion _ p.code n t.toNat _ (Dev.get_convIn d p.code t.toNat _ _ (by decide) (by decide)) hv
      exact h
    · intro hout hprev
      have hv := (Dev.ctxConvert_convIn d p.code t.toNat n t.toNat).trans (Dev.ctxConvert_of_outside hout hprev)
      have h := Dev.get_conversion _ p.code n t.toNat _ (Dev.get_convIn d p.code t.toNat _ _ (by decide) (by decide)) hv
      exact h
  case arm =>
    refine ⟨_, Gives.of_reach (·.leapArmCmd p sec.toNat del) rfl hreach (if_neg (ne_true_of_eq_false hafter)), ?_, rfl, ?_⟩
    · exact congrArg Ctx.leapCmd (Dev.ctx_setCtx_self _ _ _)
    · exact Dev.acc_leapWrite d n sec.toNat del true
  case disarm =>
    exact ⟨_, Gives.of_reach (·.leapDisarmCmd p sec.toNat del) rfl hreach rfl, congrArg Ctx.leapCmd (Dev.ctx_setCtx_self _ _ _), rfl⟩

end Sys2Proof.Machine
end

section
/-! SUPPORT and proof of O41. The context stepper (R226, R228, R229), slews, leaps and performance intervals (R231, R232, R243). -/

namespace Sys2Proof.Machine

/-! ## A context's entry and its ENABLE -/

/-- The context has this entry, and CTX_STAT.ENABLE this value. -/
structure Dev.CtxIs (d : Dev) (n : Nat) (x : Ctx) (on : Bool) : Prop where
  entry : Tbl.find? d.ctxs n = some x
  enable : d.flag F.CTX_STAT.ENABLE n = on

section
variable {d : Dev} {n : Nat} {x : Ctx} {on : Bool}

theorem Dev.ctx_of_find (h : Tbl.find? d.ctxs n = some x) : d.ctx n = x := by
  simp [Dev.ctx, Tbl.getD, h]

/-- Another field of CTX_STAT put, ENABLE stays. -/
theorem Dev.enable_put_stat (f : Fld) (v : Nat) (hreg : f.reg = R.CTX_STAT) (hlo : f.lo ≤ f.hi + 1) (hhi : f.hi < 31) :
    (d.put f v n).flag F.CTX_STAT.ENABLE n = d.flag F.CTX_STAT.ENABLE n :=
  congrArg (· != 0) (Dev.get_put_other d f F.CTX_STAT.ENABLE v n hlo (by omega) hreg.symm (.inr hhi))

/-- Another register of a context put, ENABLE stays. -/
theorem Dev.enable_put_ne (f : Fld) (v m : Nat) (hkind : f.reg.kind ≠ .plain)
    (hbase : R.CTX_STAT.base % copyStride ≠ f.reg.base % copyStride) :
    (d.put f v m).flag F.CTX_STAT.ENABLE n = d.flag F.CTX_STAT.ENABLE n :=
  congrArg (· != 0) (Dev.get_put_ne d f F.CTX_STAT.ENABLE v m n (Reg.key_ne (by decide) hkind hbase n m))

theorem Dev.CtxIs.setCtx (h : d.flag F.CTX_STAT.ENABLE n = on) (x : Ctx) : (d.setCtx n x).CtxIs n x on :=
  ⟨Tbl.find?_set_self _ _ _, h⟩

section
variable (h : d.CtxIs n x on)
include h

theorem Dev.CtxIs.ctx : d.ctx n = x := Dev.ctx_of_find h.entry

theorem Dev.CtxIs.put_stat (f : Fld) (v : Nat) (hreg : f.reg = R.CTX_STAT) (hlo : f.lo ≤ f.hi + 1) (hhi : f.hi < 31) :
    (d.put f v n).CtxIs n x on := ⟨h.entry, (Dev.enable_put_stat f v hreg hlo hhi).trans h.enable⟩

theorem Dev.CtxIs.put_ne (f : Fld) (v m : Nat) (hkind : f.reg.kind ≠ .plain)
    (hbase : R.CTX_STAT.base % copyStride ≠ f.reg.base % copyStride) : (d.put f v m).CtxIs n x on :=
  ⟨h.entry, (Dev.enable_put_ne f v m hkind hbase).trans h.enable⟩

theorem Dev.CtxIs.put_enable (v : Bool) : (d.putB F.CTX_STAT.ENABLE v n).CtxIs n x v := by
  refine ⟨h.entry, ?_⟩
  have hget : (d.putB F.CTX_STAT.ENABLE v n).get F.CTX_STAT.ENABLE n = b2n v % 2 ^ 1 :=
    Dev.get_put_self _ _ _ _ (by decide) (by decide)
  unfold Dev.flag
  rw [hget]
  cases v <;> rfl

/-- R228: the end of a slew. -/
theorem Dev.CtxIs.slewEnd : (d.slewEnd n).CtxIs n x on :=
  (h.put_ne F.CTX_SLEW_LEFT.TICKS 0 n (by decide) (by decide)).put_stat F.CTX_STAT.SLEWING 0 rfl (by decide) (by decide)

/-- R231: a leap announced. -/
theorem Dev.CtxIs.leapAnnounce (c : Nat) : (d.leapAnnounce n c).CtxIs n x on := by
  unfold Dev.leapAnnounce
  dsimp only
  split
  · exact (h.put_stat F.CTX_STAT.LEAP59 _ rfl (by decide) (by decide)).put_stat F.CTX_STAT.LEAP61 _ rfl (by decide) (by decide)
  · exact h

end

end

/-! ## Stores of whole words -/

/-- R98: a store of whole words leaves everything but the Vat. -/
theorem Dev.eccWrite_of_whole (d : Dev) {a n w : Nat} (h : a ≤ 8 * w ∧ 8 * w + 8 ≤ a + n) :
    (d.eccWrite a n w).ctxs = d.ctxs ∧ (d.eccWrite a n w).regs = d.regs := by
  rw [Dev.eccWrite, if_pos h]
  exact ⟨rfl, rfl⟩

theorem wordsOf_whole {a n w : Nat} (ha : a % 8 = 0) (hn : n % 8 = 0) (hw : w ∈ wordsOf a n) : a ≤ 8 * w ∧ 8 * w + 8 ≤ a + n := by
  unfold wordsOf at hw
  split at hw
  · exact absurd hw List.not_mem_nil
  · obtain ⟨i, hi, rfl⟩ := List.mem_map.mp hw
    have hlt := List.mem_range.mp hi
    omega

theorem Dev.vatStore_of_whole (d : Dev) {a : Nat} {l : List Byte} (ha : a % 8 = 0) (hl : l.length % 8 = 0) :
    (d.vatStore a l).ctxs = d.ctxs ∧ (d.vatStore a l).regs = d.regs := by
  refine List.foldlRecOn (motive := fun (d' : Dev) => d'.ctxs = d.ctxs ∧ d'.regs = d.regs) _ _ ⟨rfl, rfl⟩ fun d' hd' w hw => ?_
  obtain ⟨hctxs, hregs⟩ := Dev.eccWrite_of_whole d' (wordsOf_whole ha hl hw)
  exact ⟨hctxs.trans hd'.1, hregs.trans hd'.2⟩

theorem Dev.ctxBytes_length (d : Dev) (n : Nat) : (d.ctxBytes n).length = 64 := by simp [Dev.ctxBytes]

/-- R225: the entry's bytes in the Vat follow; the context does not change. -/
theorem Dev.CtxIs.ctxMirror {d : Dev} {n : Nat} {x : Ctx} {on : Bool} (h : d.CtxIs n x on) : (d.ctxMirror n).CtxIs n x on := by
  have haddr : d.ctxAddr n % 8 = 0 := by
    unfold Dev.ctxAddr Dev.poolBase
    omega
  obtain ⟨hctxs, hregs⟩ := d.vatStore_of_whole (l := d.ctxBytes n) haddr (by rw [Dev.ctxBytes_length])
  exact ⟨(congrArg (Tbl.find? · n) hctxs).trans h.entry,
    (congrArg (· != 0) (Dev.get_congr _ _ hregs F.CTX_STAT.ENABLE n)).trans h.enable⟩

/-! ## Action 7 -/

section
variable (d : Dev) (n : Nat)

/-- R231: CTX_LEAP as accepted takes effect. -/
theorem Dev.leapTake_cases : (d.leapTake n = d ∧ (d.ctx n).leapCmd = none) ∨ ∃ on,
    d.leapTake n = (((d.setCtx n { d.ctx n with leapCmd := none }).put F.CTX_STAT.LEAP61 0 n).put F.CTX_STAT.LEAP59 0 n).putB
      F.CTX_STAT.LEAP on n := by
  unfold Dev.leapTake
  dsimp only
  cases (d.ctx n).leapCmd with
  | none => exact .inl ⟨rfl, rfl⟩
  | some on => exact .inr ⟨on, rfl⟩

/-- R231: nothing else of the context changes then. -/
theorem Dev.ctx_leapTake : (d.leapTake n).ctx n = { d.ctx n with leapCmd := none } := by
  obtain ⟨h, hnone⟩ | ⟨on, h⟩ := d.leapTake_cases n
  · rw [h, ← hnone]
  · rw [h]
    exact Dev.ctx_of_find (Tbl.find?_set_self _ _ _)

theorem Dev.enable_leapTake : (d.leapTake n).flag F.CTX_STAT.ENABLE n = d.flag F.CTX_STAT.ENABLE n := by
  obtain ⟨h, -⟩ | ⟨on, h⟩ := d.leapTake_cases n
  · rw [h]
  · rw [h, Dev.putB, Dev.enable_put_stat _ _ rfl (by decide) (by decide), Dev.enable_put_stat _ _ rfl (by decide) (by decide),
      Dev.enable_put_stat _ _ rfl (by decide) (by decide)]
    rfl

theorem Dev.vbad_leapTake : (d.leapTake n).vbad ((d.leapTake n).ctxAddr n) 64 = d.vbad (d.ctxAddr n) 64 := by
  have hne (f : Fld) (d : Dev) (v : Nat) (hreg : f.reg = R.CTX_STAT) : (d.put f v n).get F.VAT_POOL_CFG.BASE 5 = d.get F.VAT_POOL_CFG.BASE 5 :=
    Dev.get_put_ne _ _ _ _ _ _ (by rw [hreg]; exact Reg.key_ne (by decide) (by decide) (by decide) 5 n)
  obtain ⟨h, -⟩ | ⟨on, h⟩ := d.leapTake_cases n
  · rw [h]
  · rw [h]
    unfold Dev.vbad Dev.ctxAddr Dev.poolBase Dev.pool Dev.putB
    rw [hne _ _ _ rfl, hne _ _ _ rfl, hne _ _ _ rfl]
    rfl

theorem Dev.enable_setCtx (x : Ctx) (m : Nat) : (d.setCtx m x).flag F.CTX_STAT.ENABLE n = d.flag F.CTX_STAT.ENABLE n := rfl

/-- R228: one tick of a slew leaves ENABLE. -/
theorem Dev.enable_slewTick : (d.slewTick n).flag F.CTX_STAT.ENABLE n = d.flag F.CTX_STAT.ENABLE n := by
  unfold Dev.slewTick Dev.slewComplete
  dsimp only
  split
  · split
    · rw [Dev.enable_setCtx, Dev.slewEnd, Dev.enable_put_stat _ _ rfl (by decide) (by decide),
        Dev.enable_put_ne _ _ _ (by decide) (by decide)]
    · rfl
  · exact Dev.enable_put_ne F.CTX_SLEW_LEFT.TICKS _ _ (by decide) (by decide)

/-- R226: the context with its value at this boundary, before its command acts. -/
def Dev.ctxAdvanced : Dev :=
  let e := ((d.leapTake n).ctxPoison n).slewTick n
  e.setCtx n { e.ctx n with
    c := (d.leapTake n).ctxNext n, cPrev := ((d.leapTake n).ctx n).c, prevInc := ((d.leapTake n).ctx n).curInc
    prevOn := (d.leapTake n).ctxEnabled n, fresh := false, cmd := none, slewOver := false }

/-- R229: the context's command has acted. -/
def Dev.ctxActed : Dev :=
  match ((d.leapTake n).ctx n).cmd with
  | some k => (d.ctxAdvanced n).ctxAct n ((((d.leapTake n).ctxPoison n).slewTick n).ctx n).slewOver k
  | none => d.ctxAdvanced n

/-- R225, R226, R231: what a boundary does to a context after its command. -/
def Dev.ctxSettled (set : Bool) : Dev :=
  let d := d.setCtx n { d.ctx n with curInc := d.incNow n }
  let d := (d.put F.CTX_STAT.UTC_VALID (d.get F.CTX_UTC.VALID n) n).leapAnnounce n (d.ctx n).c
  if d.vbad (d.ctxAddr n) 64 && !set then d else d.ctxMirror n

theorem Dev.ctxBoundary_eq : ∃ set, d.ctxBoundary n = (d.ctxActed n).ctxSettled n set := ⟨_, rfl⟩

end

section
variable {d : Dev} {n : Nat}

/-- After the command nothing but the increment in force changes. -/
theorem Dev.CtxIs.ctxSettled {x : Ctx} {on : Bool} (h : d.CtxIs n x on) (set : Bool) :
    (d.ctxSettled n set).CtxIs n { x with curInc := d.incNow n } on := by
  have hinc : (d.setCtx n { d.ctx n with curInc := d.incNow n }).CtxIs n { x with curInc := d.incNow n } on :=
    h.ctx ▸ Dev.CtxIs.setCtx h.enable _
  have hannounced := (hinc.put_stat F.CTX_STAT.UTC_VALID
    ((d.setCtx n { d.ctx n with curInc := d.incNow n }).get F.CTX_UTC.VALID n) rfl (by decide) (by decide)).leapAnnounce
      ((d.setCtx n { d.ctx n with curInc := d.incNow n }).ctx n).c
  unfold Dev.ctxSettled
  dsimp only
  split
  · exact hannounced
  · exact hannounced.ctxMirror

/-- R226, R228: the entry before the command acts. -/
theorem Dev.CtxIs.ctxAdvanced (hgood : d.vbad (d.ctxAddr n) 64 = false) : ∃ y : Ctx,
    (d.ctxAdvanced n).CtxIs n y (d.flag F.CTX_STAT.ENABLE n) ∧
    y.c = (if d.flag F.CTX_STAT.ENABLE n then wrap96 ((d.ctx n).c + (d.ctx n).curInc) else (d.ctx n).c) ∧
    y.cPrev = (d.ctx n).c ∧ y.prevInc = (d.ctx n).curInc ∧ y.cmd = none ∧ y.slewOver = false ∧ y.fresh = false := by
  have hpoison : (d.leapTake n).ctxPoison n = d.leapTake n :=
    if_neg (by rw [Dev.vbad_leapTake, hgood, Bool.and_false]; exact Bool.false_ne_true)
  have henable : (((d.leapTake n).ctxPoison n).slewTick n).flag F.CTX_STAT.ENABLE n = d.flag F.CTX_STAT.ENABLE n := by
    rw [hpoison, Dev.enable_slewTick, Dev.enable_leapTake]
  have hctx := d.ctx_leapTake n
  refine ⟨_, Dev.CtxIs.setCtx henable _, ?_, ?_, ?_, rfl, rfl, rfl⟩
  · simp only [Dev.ctxNext, Dev.ctxEnabled, hctx, Dev.enable_leapTake]
  · rw [hctx]
  · rw [hctx]

section
variable {y : Ctx} {on : Bool} (h : d.CtxIs n y on)
include h

/-- R5: STEPPED set. -/
theorem Dev.CtxIs.stepped : (d.setW1c F.CTX_STAT.STEPPED n).CtxIs n y on :=
  have hset := h.put_stat F.CTX_STAT.STEPPED 1 rfl (by decide) (by decide)
  ⟨hset.entry, hset.enable⟩

/-- R228: SET. -/
theorem Dev.CtxIs.ctxAct_set (done : Bool) (v : Nat) :
    (d.ctxAct n done (.set v)).CtxIs n { y with c := v % 2 ^ 96, fresh := true } true := by
  have hset := (h.slewEnd.put_enable true).stepped
  have hact : d.ctxAct n done (.set v) = (let e := ((d.slewEnd n).putB F.CTX_STAT.ENABLE true n).setW1c F.CTX_STAT.STEPPED n
    e.setCtx n { e.ctx n with c := v % 2 ^ 96, fresh := true }) := rfl
  rw [hact]
  dsimp only
  rw [hset.ctx]
  exact Dev.CtxIs.setCtx hset.enable _

/-- R229: STEP of an enabled context. -/
theorem Dev.CtxIs.ctxAct_step (done : Bool) (e : Int) (hon : on = true) :
    (d.ctxAct n done (.step e)).CtxIs n { y with c := wrap96 (y.c + e), fresh := true } true := by
  subst hon
  have hact : d.ctxAct n done (.step e) =
      (d.setW1c F.CTX_STAT.STEPPED n).setCtx n { d.ctx n with c := wrap96 ((d.ctx n).c + e), fresh := true } := if_pos h.enable
  rw [hact, h.ctx]
  exact Dev.CtxIs.setCtx h.stepped.enable _

/-- R228, R229: every command leaves the previous value and increment. -/
theorem Dev.CtxIs.ctxAct (done : Bool) (k : CtxCmd) : ∃ c fresh on', (d.ctxAct n done k).CtxIs n { y with c := c, fresh := fresh } on' := by
  cases k with
  | set v => exact ⟨_, _, _, h.ctxAct_set done v⟩
  | step e =>
    by_cases hon : on = true
    · exact ⟨_, _, _, h.ctxAct_step done e hon⟩
    · have hoff : d.ctxAct n done (.step e) = d := if_neg (by rw [Dev.ctxEnabled, h.enable]; exact hon)
      exact ⟨y.c, y.fresh, on, hoff.symm ▸ h⟩
  | slew t =>
    exact ⟨y.c, y.fresh, on, (h.put_ne F.CTX_SLEW_LEFT.TICKS t n (by decide) (by decide)).put_stat F.CTX_STAT.SLEWING 1 rfl
      (by decide) (by decide)⟩
  | cancel =>
    have hact : d.ctxAct n done .cancel = if done then d.put F.CTX_STAT.ABORT_LATE 1 n
      else (if d.flag F.CTX_STAT.SLEWING n then d.slewEnd n else d).put F.CTX_STAT.ABORT_LATE 0 n := rfl
    refine ⟨y.c, y.fresh, on, ?_⟩
    rw [hact]
    split
    · exact h.put_stat F.CTX_STAT.ABORT_LATE 1 rfl (by decide) (by decide)
    · split
      · exact h.slewEnd.put_stat F.CTX_STAT.ABORT_LATE 0 rfl (by decide) (by decide)
      · exact h.put_stat F.CTX_STAT.ABORT_LATE 0 rfl (by decide) (by decide)
  | disable => exact ⟨y.c, y.fresh, false, h.put_enable false⟩

end

theorem Dev.ctxActed_of_none (h : (d.ctx n).cmd = none) : d.ctxActed n = d.ctxAdvanced n := by
  unfold Dev.ctxActed
  rw [Dev.ctx_leapTake, h]

theorem Dev.ctxActed_of_some {k : CtxCmd} (h : (d.ctx n).cmd = some k) : ∃ done, d.ctxActed n = (d.ctxAdvanced n).ctxAct n done k := by
  unfold Dev.ctxActed
  rw [Dev.ctx_leapTake, h]
  exact ⟨_, rfl⟩

/-- What the command made of the context is what the boundary leaves of it. -/
theorem Dev.CtxIs.ctxBoundary {y : Ctx} {on : Bool} (h : (d.ctxActed n).CtxIs n y on) :
    ∃ inc, (d.ctxBoundary n).CtxIs n { y with curInc := inc } on := by
  obtain ⟨set, hset⟩ := d.ctxBoundary_eq n
  exact ⟨_, hset ▸ h.ctxSettled set⟩

end

/-! ## Leaps -/

section
variable {d : Dev} {n : Nat}

theorem Dev.leapApply_of_other (h : d.get F.CTX_STAT.LEAP n ≠ 1) : d.leapApply n = d := by
  have hpending : d.leapPending n = false := beq_false_of_ne h
  exact if_pos (by simp [Dev.leapDueNow, hpending])

theorem Dev.leapApply_of_due (hpending : d.get F.CTX_STAT.LEAP n = 1)
    (hdue : atOrAfter (d.ctx n).c (wrap96 (secs (d.leapAt n))) = true) (hfresh : (d.ctx n).fresh = false) :
    d.leapApply n = if (d.leapDo n false).pi.isOpen ∧ (d.leapDo n false).pi.ctx = n then (d.leapDo n false).piFlag 1
      else d.leapDo n false := by
  have hnow : d.leapDueNow n = true := by simp [Dev.leapDueNow, Dev.leapPending, hpending, hdue, hfresh]
  exact if_neg (by simp [hnow])

/-- R232: the registers of an applied leap. -/
def Dev.leapPut (d : Dev) (n : Nat) : Dev :=
  (((d.put F.CTX_UTC.OFFSET (ofSigned 16 (d.gets F.CTX_UTC.OFFSET n + (if d.leapDel n then -1 else 1))) n).put
    F.CTX_STAT.LEAP61 0 n).put F.CTX_STAT.LEAP59 0 n).put F.CTX_STAT.LEAP 2 n

theorem Dev.leapDo_eq (d : Dev) (n : Nat) :
    d.leapDo n false = (d.leapPut n).setCtx n { (d.leapPut n).ctx n with leapNow := true } := by
  unfold Dev.leapDo
  exact if_neg Bool.false_ne_true

theorem Dev.get_setCtx (d : Dev) (n : Nat) (x : Ctx) (f : Fld) (m : Nat) : (d.setCtx n x).get f m = d.get f m := rfl

theorem Dev.get_leapPut (d : Dev) (n : Nat) : (d.leapPut n).get F.CTX_STAT.LEAP n = 2 ∧ (d.leapPut n).get F.CTX_STAT.LEAP61 n = 0 ∧
    (d.leapPut n).get F.CTX_STAT.LEAP59 n = 0 ∧
    (d.leapPut n).get F.CTX_UTC.OFFSET n = ofSigned 16 (d.gets F.CTX_UTC.OFFSET n + (if d.leapDel n then -1 else 1)) := by
  have hne (d : Dev) (f : Fld) (v : Nat) (hf : f.reg = R.CTX_STAT) : (d.put f v n).get F.CTX_UTC.OFFSET n = d.get F.CTX_UTC.OFFSET n :=
    Dev.get_put_ne _ _ _ _ _ _ (by rw [hf]; exact Reg.key_ne (by decide) (by decide) (by decide) n n)
  have hsmall (x : Int) : ofSigned 16 x < 2 ^ 16 := by
    unfold ofSigned
    omega
  unfold Dev.leapPut
  refine ⟨?_, ?_, ?_, ?_⟩
  · rw [Dev.get_put_self _ F.CTX_STAT.LEAP _ _ (by decide) (by decide)]
    rfl
  · rw [Dev.get_put_other _ F.CTX_STAT.LEAP F.CTX_STAT.LEAP61 _ _ (by decide) (by decide) rfl (by decide),
      Dev.get_put_other _ F.CTX_STAT.LEAP59 F.CTX_STAT.LEAP61 _ _ (by decide) (by decide) rfl (by decide),
      Dev.get_put_self _ F.CTX_STAT.LEAP61 _ _ (by decide) (by decide)]
    rfl
  · rw [Dev.get_put_other _ F.CTX_STAT.LEAP F.CTX_STAT.LEAP59 _ _ (by decide) (by decide) rfl (by decide),
      Dev.get_put_self _ F.CTX_STAT.LEAP59 _ _ (by decide) (by decide)]
    rfl
  · rw [hne _ _ _ rfl, hne _ _ _ rfl, hne _ _ _ rfl, Dev.get_put_self _ F.CTX_UTC.OFFSET _ _ (by decide) (by decide)]
    exact Nat.mod_eq_of_lt (hsmall _)

/-- A context's value is its entry's. -/
theorem Dev.c_ctx (d : Dev) (n : Nat) : (d.ctx n).c = (Tbl.getD d.ctxs n Ctx.reset).c := by
  have hvalue (o : Option Ctx) (x y : Nat) : (o.getD { Ctx.reset with curInc := x, prevInc := y }).c = (o.getD Ctx.reset).c := by
    cases o <;> rfl
  exact hvalue _ _ _

theorem Dev.c_congr {d d' : Dev} (h : d'.ctxs = d.ctxs) (n : Nat) : (d'.ctx n).c = (d.ctx n).c := by
  rw [Dev.c_ctx, Dev.c_ctx, h]

theorem Dev.setCtx_pi (d : Dev) (n : Nat) (x : Ctx) : (d.setCtx n x).pi = d.pi := rfl

theorem Dev.leapPut_kept (d : Dev) (n : Nat) : (d.leapPut n).ctxs = d.ctxs ∧ (d.leapPut n).pi = d.pi := by simp [Dev.leapPut]

theorem Dev.pi_leapDo (d : Dev) (n : Nat) : (d.leapDo n false).pi = d.pi := by
  rw [Dev.leapDo_eq, Dev.setCtx_pi]
  exact (d.leapPut_kept n).2

theorem Dev.piFlag_pi {d d' : Dev} (h : d'.pi = d.pi) (f : Nat) : (d'.piFlag f).pi = (d.piFlag f).pi := by
  unfold Dev.piFlag Dev.setPi
  rw [h]

/-- R243: a flag of the open bins changes nothing else. -/
theorem Dev.piFlag_ite (d : Dev) (c : Prop) [Decidable c] (f : Nat) :
    (∀ g m, (if c then d.piFlag f else d).get g m = d.get g m) ∧ ∀ m, (if c then d.piFlag f else d).ctx m = d.ctx m := by
  split
  · exact ⟨fun _ _ => rfl, fun _ => rfl⟩
  · exact ⟨fun _ _ => rfl, fun _ => rfl⟩

/-- R232, R243: what a leap that is due leaves. -/
theorem Dev.leapApply_spec {d : Dev} {n : Nat} (hpending : d.get F.CTX_STAT.LEAP n = 1)
    (hdue : atOrAfter (d.ctx n).c (wrap96 (secs (d.leapAt n))) = true) (hfresh : (d.ctx n).fresh = false) :
    let e := d.leapApply n
    e.get F.CTX_STAT.LEAP n = 2 ∧ e.get F.CTX_STAT.LEAP61 n = 0 ∧ e.get F.CTX_STAT.LEAP59 n = 0 ∧ (e.ctx n).c = (d.ctx n).c ∧
      (e.ctx n).leapNow = true ∧ e.pi = (if d.pi.isOpen = true ∧ d.pi.ctx = n then (d.piFlag 1).pi else d.pi) ∧
      e.get F.CTX_UTC.OFFSET n = ofSigned 16 (d.gets F.CTX_UTC.OFFSET n + (if d.leapDel n then -1 else 1)) := by
  obtain ⟨hleap, h61, h59, hoffset⟩ := d.get_leapPut n
  have hpi := d.pi_leapDo n
  have hc : ((d.leapPut n).ctx n).c = (d.ctx n).c := Dev.c_congr (d.leapPut_kept n).1 n
  have hentry (y : Ctx) : ({ y with leapNow := true } : Ctx).c = y.c ∧ ({ y with leapNow := true } : Ctx).leapNow = true :=
    ⟨rfl, rfl⟩
  rw [Dev.leapApply_of_due hpending hdue hfresh, hpi]
  dsimp only
  rw [apply_ite Dev.pi, Dev.piFlag_pi hpi, hpi, d.leapDo_eq n]
  obtain ⟨hget, hctx⟩ := Dev.piFlag_ite ((d.leapPut n).setCtx n { (d.leapPut n).ctx n with leapNow := true })
    (d.pi.isOpen = true ∧ d.pi.ctx = n) 1
  rw [hget, hget, hget, hget, hctx, Dev.ctx_setCtx_self, Dev.get_setCtx, Dev.get_setCtx, Dev.get_setCtx, Dev.get_setCtx]
  exact ⟨hleap, h61, h59, (hentry _).1.trans hc, (hentry _).2, rfl, hoffset⟩

end

/-- Settles O41: the entry before the command, what the command makes of it, and the equations of the other events. -/
theorem contextStepperAndEvents : Obligations.ContextStepperAndEvents := by
  refine ⟨fun d n => ?stepper, fun n s => ?events⟩
  case stepper =>
    intro x y next hn hgood
    obtain ⟨z, hz, hzc, hprev, hinc, hcmd, hover, hfresh⟩ := Dev.CtxIs.ctxAdvanced hgood
    have hkept : ∃ c fresh on, (d.ctxActed n).CtxIs n { z with c := c, fresh := fresh } on := by
      obtain hx | ⟨k, hx⟩ := Option.eq_none_or_eq_some x.cmd
      · exact ⟨z.c, z.fresh, _, Dev.ctxActed_of_none hx ▸ hz⟩
      · obtain ⟨done, hacted⟩ := Dev.ctxActed_of_some hx
        exact hacted ▸ hz.ctxAct done k
    obtain ⟨c, fresh, on, hacted⟩ := hkept
    obtain ⟨inc, hlast⟩ := hacted.ctxBoundary
    have hy : y = { z with c := c, fresh := fresh, curInc := inc } := hlast.ctx
    refine ⟨?_, ?_, ?_, ?_, fun hnone => ?none, fun v hset => ?set, fun by' hstep hon => ?step, fun hdisable => ?disable⟩
    · rw [hy]
      exact hprev
    · rw [hy]
      exact hinc
    · rw [hy]
      exact hcmd
    · rw [hy]
      exact hover
    case none =>
      obtain ⟨inc', h⟩ := (Dev.ctxActed_of_none hnone ▸ hz : (d.ctxActed n).CtxIs n z _).ctxBoundary
      have hy : y = { z with curInc := inc' } := h.ctx
      rw [hy]
      exact ⟨hzc, hfresh⟩
    case set =>
      obtain ⟨done, hact⟩ := Dev.ctxActed_of_some hset
      obtain ⟨inc', h⟩ := (hact ▸ hz.ctxAct_set done v : (d.ctxActed n).CtxIs n _ _).ctxBoundary
      have hy : y = { z with c := v % 2 ^ 96, fresh := true, curInc := inc' } := h.ctx
      rw [hy]
      exact ⟨rfl, rfl⟩
    case step =>
      obtain ⟨done, hact⟩ := Dev.ctxActed_of_some hstep
      obtain ⟨inc', h⟩ := (hact ▸ hz.ctxAct_step done by' hon : (d.ctxActed n).CtxIs n _ _).ctxBoundary
      have hy : y = { z with c := wrap96 (z.c + by'), fresh := true, curInc := inc' } := h.ctx
      rw [hy]
      exact ⟨congrArg (fun c : Nat => wrap96 (c + by')) hzc, rfl⟩
    case disable =>
      obtain ⟨done, hact⟩ := Dev.ctxActed_of_some hdisable
      obtain ⟨inc', h⟩ := (hact ▸ hz.put_enable false : (d.ctxActed n).CtxIs n z false).ctxBoundary
      have hy : y = { z with curInc := inc' } := h.ctx
      exact ⟨hy ▸ hzc, h.enable⟩
  case events =>
    intro d x announce
    refine ⟨fun hlast => ?slew, fun hpending => ?announce, fun hother => ⟨?noAnnounce, ?noApply⟩, fun hpending hdue hfresh => ?apply,
      fun hopen hcycle => ?close, fun hshut => ?noClose⟩
    case slew => exact Gives.of_run (·.slewComplete n) rfl (if_pos hlast)
    case announce =>
      exact Gives.of_run (fun d => d.leapAnnounce n (d.ctxNow n)) rfl (if_pos (beq_iff_eq.mpr hpending))
    case noAnnounce =>
      exact Gives.of_run (fun d => d.leapAnnounce n (d.ctxNow n)) rfl (if_neg (by simpa [Dev.leapPending] using hother))
    case noApply => exact Gives.of_run (·.leapApply n) rfl (Dev.leapApply_of_other hother)
    case apply =>
      have hgives : Gives (.leapApply n) s (d.leapApply n) := rfl
      exact ⟨_, hgives, Dev.leapApply_spec hpending hdue hfresh⟩
    case close => exact Gives.of_run (·.piClose) rfl (if_pos ⟨hopen, hcycle⟩)
    case noClose =>
      refine Gives.of_run (·.piClose) rfl (if_neg fun h => ?_)
      exact hshut.elim (fun hshut => Bool.false_ne_true (hshut.symm.trans h.1)) fun hcycle => hcycle h.2

end Sys2Proof.Machine
end

section
/-! SUPPORT and proof of O42. Event ports: commands, edges, the ends of a phase and of a park (R234-R237, R241, R366). -/

namespace Sys2Proof.Machine

section
variable (d : Dev) (p : Nat)

@[simp] theorem Dev.evt_setEvt_self (x : Evt) : (d.setEvt p x).evt p = x := Tbl.getD_set_self ..

theorem Dev.setEvt_setEvt (x y : Evt) : (d.setEvt p x).setEvt p y = d.setEvt p y :=
  congrArg (fun t => { d with evts := t }) (Tbl.set_set d.evts p x y)

theorem Dev.evt_put (f : Fld) (v n : Nat) : (d.put f v n).evt p = d.evt p := rfl

theorem Dev.evt_incWrap (f : Fld) (n : Nat) : (d.incWrap f n).evt p = d.evt p := rfl

theorem Dev.lt10ps_put (f : Fld) (v n : Nat) : (d.put f v n).lt10ps = d.lt10ps := rfl

theorem Dev.lt10ps_setEvt (x : Evt) : (d.setEvt p x).lt10ps = d.lt10ps := rfl

theorem Dev.flag_setEvt (x : Evt) (f : Fld) (n : Nat) : (d.setEvt p x).flag f n = d.flag f n := rfl

theorem Dev.flag_emit (o : Out) (f : Fld) (n : Nat) : (d.emit o).flag f n = d.flag f n := rfl

/-- Another register of an event port put, a flag stays. -/
theorem Dev.flag_put_ne {f g : Fld} (v n : Nat) (hf : f.reg.kind = .plain) (hg : g.reg.kind = .plain)
    (hstride : g.reg.stride = f.reg.stride) (hbase : g.reg.base ≠ f.reg.base) : (d.put f v n).flag g n = d.flag g n :=
  congrArg (· != 0) (Dev.get_put_ne _ _ _ _ _ _ (Reg.key_ne_of_plain hg hf hstride hbase n))

end

/-! ## Edges of a train -/

section
variable {d : Dev} {p : Nat}

/-- R236: a port that is neither a pulse output nor armed has no edge. -/
theorem Dev.trainEdge_of_idle (h : (d.evt p).func ≠ 1 ∨ (d.get F.EVT_STAT.STATE p ≠ 1 ∧ d.get F.EVT_STAT.STATE p ≠ 2)) :
    d.trainEdge p = d := by
  refine if_pos ?_
  simp only [Dev.evtState]
  grind

section
variable (hfunc : (d.evt p).func = 1) (hstate : d.get F.EVT_STAT.STATE p = 1 ∨ d.get F.EVT_STAT.STATE p = 2)
include hfunc hstate

/-- R236: the next edge of a port that is armed or runs. -/
theorem Dev.trainEdge_of_armed : d.trainEdge p =
    (let x := d.evt p
     let n := d.evtCtx p
     let t := d.edgeTime p x.k
     if d.edgeIn n t = .lt then d.edgeSkip p (if d.flag F.EVT_CFG.PERIODIC p then d.edgesPast p n t else 1)
     else if d.edgeIn n t = .gt then d
     else if d.edgeEarly p n t then d.edgeSkip p 1
     else
      let e := d.setEvt p { x with
        k := x.k + 1, active := some (wrap96 (t + d.get F.EVT_WIDTH.WIDTH p * 2 ^ 32)), rearmed := false }
      ((e.evtSet p 2).incWrap F.EVT_COUNT.COUNT p).evtDrive p (e.activeLevel p) (e.edgeAt n t)) := by
  refine if_neg ?_
  simp only [Dev.evtState]
  grind

end

theorem Dev.edgeAt_setEvt (d : Dev) (p n t : Nat) (x : Evt) : (d.setEvt p x).edgeAt n t = d.edgeAt n t := rfl

/-- R234: an edge that is emitted. -/
theorem Dev.evtDrive_emitted (d : Dev) (p : Nat) (y : Evt) (lvl : Bool) (at' : Int) :
    (((d.setEvt p y).evtSet p 2).incWrap F.EVT_COUNT.COUNT p).evtDrive p lvl at' =
      (let e := ((d.setEvt p y).put F.EVT_STAT.STATE 2 p).incWrap F.EVT_COUNT.COUNT p
       if y.level = lvl then e else (e.setEvt p { y with level := lvl }).emit (.edge p lvl at')) := by
  have hevt : (((d.setEvt p y).put F.EVT_STAT.STATE 2 p).incWrap F.EVT_COUNT.COUNT p).evt p = y := by
    rw [Dev.evt_incWrap, Dev.evt_put, Dev.evt_setEvt_self]
  unfold Dev.evtDrive Dev.evtSet
  rw [hevt]

/-- R236: there is at least one late edge. -/
theorem Dev.one_le_edgesPast (d : Dev) (p n t : Nat) : 1 ≤ d.edgesPast p n t := Nat.le_max_left _ _

/-- R236: a periodic train counts every late edge, a single pulse its one. -/
theorem Dev.edgeSkip_late {m k : Nat} {periodic : Bool} (h : d.flag F.EVT_CFG.PERIODIC p = periodic)
    (hk : (if periodic then m else 1) = k) :
    d.edgeSkip p (if d.flag F.EVT_CFG.PERIODIC p then m else 1) =
      (let e := (d.incSat F.EVT_STAT.SKIPPED p k).fault 164 p
       if e.flag F.EVT_CFG.PERIODIC p = true then e.setEvt p { e.evt p with k := (e.evt p).k + k } else e.put F.EVT_STAT.STATE 5 p) := by
  subst h hk
  rfl

/-- R236: a train whose next edge is late. -/
theorem Dev.trainEdge_late (hfunc : (d.evt p).func = 1) (hstate : d.get F.EVT_STAT.STATE p = 1 ∨ d.get F.EVT_STAT.STATE p = 2)
    (hlt : d.edgeIn (d.evtCtx p) (d.edgeTime p (d.evt p).k) = .lt) {periodic : Bool} (h : d.flag F.EVT_CFG.PERIODIC p = periodic)
    {k : Nat} (hk : (if periodic then d.edgesPast p (d.evtCtx p) (d.edgeTime p (d.evt p).k) else 1) = k) :
    d.trainEdge p =
      (let e := (d.incSat F.EVT_STAT.SKIPPED p k).fault 164 p
       if e.flag F.EVT_CFG.PERIODIC p = true then e.setEvt p { e.evt p with k := (e.evt p).k + k } else e.put F.EVT_STAT.STATE 5 p) :=
  (Dev.trainEdge_of_armed hfunc hstate).trans ((if_pos hlt).trans (Dev.edgeSkip_late h hk))

/-! ## The end of an active phase -/

/-- R237: the end of a phase drives the pad back. -/
theorem Dev.pulseEnd_of_first {at' : Int} (hfirst : (d.evt p).rearmed = false) : d.pulseEnd p at' =
    (let x := d.evt p
     let park := if x.func = 16 ∧ (x.want = 4 ∨ x.want = 5) then max x.parkEnd (d.tick + 3) else x.parkEnd
     let y := { x with active := none, stopping := false, rearmed := false, parkEnd := park, level := !x.level }
     let g := (d.setEvt p y).emit (.edge p (!x.level) at')
     if x.stopping = true then g.put F.EVT_STAT.STATE 4 p
     else if d.flag F.EVT_CFG.PERIODIC p = true then g else g.put F.EVT_STAT.STATE 3 p) := by
  have hdrive (y : Evt) (hlevel : y.level = (d.evt p).level) : (d.setEvt p y).evtDrive p (!(d.evt p).level) at' =
      (d.setEvt p { y with level := !(d.evt p).level }).emit (.edge p (!(d.evt p).level) at') := by
    unfold Dev.evtDrive
    rw [Dev.evt_setEvt_self, hlevel, if_neg (by simp), Dev.setEvt_setEvt]
  unfold Dev.pulseEnd
  dsimp only
  rw [hdrive, hfirst, Bool.or_false]
  · rfl
  · rfl

theorem Dev.pulseEdge_of_idle (h : (d.evt p).active = none) : d.pulseEdge p = d.trainEdge p := by
  unfold Dev.pulseEdge
  dsimp only
  rw [h]

theorem Dev.pulseEdge_of_active {e : Nat} (h : (d.evt p).active = some e) (hfirst : (d.evt p).rearmed = false) :
    d.pulseEdge p = if d.phaseIn p e = .gt then d else d.pulseEnd p (d.phaseAt p e) := by
  unfold Dev.pulseEdge
  dsimp only
  rw [h]
  dsimp only
  rw [hfirst]
  exact if_neg Bool.false_ne_true

/-! ## The end of a park -/

/-- R241: the new function is connected. -/
theorem Dev.evtParkEnd_of_ended (hlive : d.pinsLive = true) (hidle : (d.evt p).active = none) (hpark : d.flag F.EVT_STAT.PARK p = true)
    (hover : (d.evt p).parkEnd ≤ d.tick) (hclean : inputFunc (d.evt p).want = true → 0 < (d.evt p).clean) : d.evtParkEnd p =
    (let x := d.evt p
     let e := ((d.setEvt p { x with func := x.want, k := 0, stopping := false, cmdArm := false, cmdStop := false }).put
        F.EVT_STAT.PARK 0 p).put F.EVT_STAT.STATE 0 p
     (if x.want = 1 ∨ x.want = 3 ∨ x.want = 5 ∨ x.want = 6 then e.evtDrive p (e.idleLevel p x.want) e.lt10ps else e).evtFaults) :=
  if_pos ⟨hlive, hpark, hover, by rw [hidle]; rfl, hclean⟩

/-- R241: the idle level of the new function does not depend on the port's state. -/
theorem Dev.idleLevel_parked (d : Dev) (p f : Nat) (x : Evt) :
    (((d.setEvt p x).put F.EVT_STAT.PARK 0 p).put F.EVT_STAT.STATE 0 p).idleLevel p f =
      if f = 5 then d.flag F.EVT_AUX.GPIO_OUT p else d.flag F.EVT_CFG.POL p := by
  have hkept (g : Fld) (hg : g.reg.kind = .plain) (hstride : g.reg.stride = R.EVT_STAT.stride) (hbase : g.reg.base ≠ R.EVT_STAT.base) :
      (((d.setEvt p x).put F.EVT_STAT.PARK 0 p).put F.EVT_STAT.STATE 0 p).flag g p = d.flag g p := by
    rw [Dev.flag_put_ne _ _ _ rfl hg hstride hbase, Dev.flag_put_ne _ _ _ rfl hg hstride hbase, Dev.flag_setEvt]
  unfold Dev.idleLevel Dev.activeLevel
  rw [hkept F.EVT_AUX.GPIO_OUT rfl rfl (by decide), hkept F.EVT_CFG.POL rfl rfl (by decide), Bool.not_not]

end

/-- Settles O42: commands and edges by the port's state, and each end by its equation. -/
theorem eventPortCommands : Obligations.EventPortCommands := by
  intro path p s d x n t lvl
  have hedge : Gives (.pulseEdge p) s (d.pulseEdge p) := rfl
  refine ⟨fun hreach => ⟨fun hon hrate => ?arm, fun hoff => ?noContext, fun hon hrate => ?noRate, ?stop⟩,
    fun hidle => ⟨fun hnone => ?none, fun hfunc hstate => ?train⟩,
    fun e hactive hfirst => ⟨fun hlater => ?later, fun hends => ?phase⟩, ?park⟩
  case arm =>
    exact Gives.of_reach (·.evtArmCmd path p) rfl hreach
      ((if_neg (by rw [Dev.ctxEnabled, hon]; decide)).trans (if_neg (by rw [hrate]; decide)))
  case noContext => exact Gives.of_reach (·.evtArmCmd path p) rfl hreach (if_pos (by rw [Dev.ctxEnabled, hoff]; rfl))
  case noRate =>
    exact Gives.of_reach (·.evtArmCmd path p) rfl hreach
      ((if_neg (by rw [Dev.ctxEnabled, hon]; decide)).trans (if_pos (by rw [hrate]; rfl)))
  case stop => exact Gives.of_reach (·.evtStopCmd path p) rfl hreach rfl
  case none => exact hedge.of_eq ((Dev.pulseEdge_of_idle hidle).trans (Dev.trainEdge_of_idle hnone))
  case train =>
    have hidleEdge := hedge.of_eq (Dev.pulseEdge_of_idle hidle)
    have htrain := hidleEdge.of_eq (Dev.trainEdge_of_armed hfunc hstate)
    refine ⟨fun heq hearly => htrain.of_eq ?emit, fun heq hearly => htrain.of_eq ?early, fun hgt => htrain.of_eq ?gt,
      fun hlt hone => hidleEdge.of_eq ?one, fun hlt hperiodic => ⟨d.one_le_edgesPast p n t, hidleEdge.of_eq ?many⟩⟩
    case emit =>
      have hnlt : ¬ d.edgeIn n t = .lt := fun h => nomatch heq.symm.trans h
      have hngt : ¬ d.edgeIn n t = .gt := fun h => nomatch heq.symm.trans h
      exact (if_neg hnlt).trans ((if_neg hngt).trans ((if_neg (ne_true_of_eq_false hearly)).trans
        (Dev.evtDrive_emitted d p _ lvl _)))
    case early =>
      have hnlt : ¬ d.edgeIn n t = .lt := fun h => nomatch heq.symm.trans h
      have hngt : ¬ d.edgeIn n t = .gt := fun h => nomatch heq.symm.trans h
      exact (if_neg hnlt).trans ((if_neg hngt).trans (if_pos hearly))
    case gt =>
      have hnlt : ¬ d.edgeIn n t = .lt := fun h => nomatch hgt.symm.trans h
      exact (if_neg hnlt).trans (if_pos hgt)
    case one => exact Dev.trainEdge_late hfunc hstate hlt hone (if_neg Bool.false_ne_true)
    case many => exact Dev.trainEdge_late hfunc hstate hlt hperiodic (if_pos rfl)
  case later => exact hedge.of_eq ((Dev.pulseEdge_of_active hactive hfirst).trans (if_pos hlater))
  case phase =>
    exact hedge.of_eq ((Dev.pulseEdge_of_active hactive hfirst).trans ((if_neg hends).trans (Dev.pulseEnd_of_first hfirst)))
  case park =>
    intro ended
    refine ⟨fun hended => ?_, fun hended => ?_⟩
    · obtain ⟨hlive, hidle, hpark, hover, hclean⟩ := hended
      refine Gives.of_run (·.evtParkEnd p) rfl ((Dev.evtParkEnd_of_ended hlive hidle hpark hover hclean).trans ?_)
      dsimp only
      rw [Dev.idleLevel_parked, Dev.lt10ps_put, Dev.lt10ps_put, Dev.lt10ps_setEvt]
    · refine Gives.of_run (·.evtParkEnd p) rfl (if_neg fun h => hended ?_)
      obtain ⟨hlive, hpark, hover, hidle, hclean⟩ := h
      exact ⟨hlive, Option.isNone_iff_eq_none.mp hidle, hpark, hover, hclean⟩

end Sys2Proof.Machine
end

section
/-! SUPPORT and proof of O43. Reception of a frame (R246, R248, R250, R253, R257, R263, R357). -/

namespace Sys2Proof.Machine

section
variable {d : Dev} {p : Nat} {f : List Byte} {fcsOk before : Bool} {stamp from' : Nat}

/-! ## The port and the checks of the frame -/

theorem Dev.frameReceive_of_stopped (h : d.flag F.FLT_STATE.STOPPED = true) : d.frameReceive p f fcsOk before stamp from' = d := if_pos h

section
variable (hrun : d.flag F.FLT_STATE.STOPPED = false)
include hrun

/-- R250: a port that is not open drops the frame. -/
theorem Dev.frameReceive_of_closed
    (h : ¬ (d.get F.FRM_PORT_STAT.STATE p = 1 ∨ (d.get F.FRM_PORT_STAT.STATE p = 2 ∧ before = true))) :
    d.frameReceive p f fcsOk before stamp from' = d.frmCount p 14 := by
  refine (if_neg (ne_true_of_eq_false hrun)).trans (if_pos ?_)
  unfold Dev.portState
  grind

variable (hopen : d.get F.FRM_PORT_STAT.STATE p = 1 ∨ (d.get F.FRM_PORT_STAT.STATE p = 2 ∧ before = true))
include hopen

/-- R250: the frame is counted and its checks begin. -/
theorem Dev.frameReceive_of_open : d.frameReceive p f fcsOk before stamp from' =
    (let e := d.frmCount p 0
     if !fcsOk then e.frmCount p 4
     else if 10240 < f.length then e.frmCount p 5
     else if !formatOk f then e.frmCount p 4
     else e.frameParse p f stamp from') := by
  refine (if_neg (ne_true_of_eq_false hrun)).trans (if_neg ?_)
  unfold Dev.portState
  grind

end

/-! ## What the parser decides -/

/-- R253: no row, or one that drops the frame. -/
theorem Dev.frameParse_of_none (h : d.parseTouch.parse f = none) : d.frameParse p f stamp from' = d.parseTouch.frmCount p 8 := by
  unfold Dev.frameParse
  dsimp only
  rw [h]
  rfl

/-- R253-R257: a row that fires decides by its action and class. -/
theorem Dev.frameParse_of_some {x : Parsed} (h : d.parseTouch.parse f = some x) : d.frameParse p f stamp from' =
    (let g := d.parseTouch
     if x.action = 4 then g.frmCount p 8
     else if x.cls ≠ 0 then g.frameAdmit p f x stamp from'
     else if x.action ≠ 0 ∧ 2048 < f.length then g.frmCount p 5
     else if (g.police p f.length).2 then (g.police p f.length).1.frameAdmit p f x stamp from'
     else ((g.police p f.length).1.frmCount p 3).fault 194) := by
  unfold Dev.frameParse
  dsimp only
  rw [h]
  rfl

/-- The bucket of a port holds `left` from now on. -/
def Dev.bucket (d : Dev) (p left : Nat) : Dev :=
  { d with frm := { d.frm with tokens := Tbl.set d.frm.tokens p (left, d.absCycle) } }

/-- R257: the policer passes a frame and takes its cost. -/
theorem Dev.police_of_enough {len : Nat} (h : (len + 24) * 10000 ≤ d.tokens p) :
    d.police p len = (d.bucket p (d.tokens p - (len + 24) * 10000), true) := by
  unfold Dev.police
  dsimp only
  rw [decide_eq_true h]
  rfl

/-- R257: the policer holds a frame back and takes nothing. -/
theorem Dev.police_of_short {len : Nat} (h : d.tokens p < (len + 24) * 10000) : d.police p len = (d.bucket p (d.tokens p), false) := by
  unfold Dev.police
  dsimp only
  rw [decide_eq_false (Nat.not_le.mpr h)]
  rfl

/-! ## Admission -/

/-- R92: no cells. -/
theorem Dev.frameAdmit_of_full {x : Parsed} (h : d.cellsTake f.length (x.cls == 0) from' = none) :
    d.frameAdmit p f x stamp from' = (d.frmCount p 6).fault 195 := by
  unfold Dev.frameAdmit
  rw [h]
  rfl

/-- R92, R263: the frame lies in its cells. -/
theorem Dev.frameAdmit_of_cells {x : Parsed} {k : FrmCells} (h : d.cellsTake f.length (x.cls == 0) from' = some k) :
    d.frameAdmit p f x stamp from' =
      if x.cls = 0 ∧ x.action ≠ 0 then
        (d.cellsFill k f).txPut ⟨p, 0, cellAddr k.first, f.length, true, false, x.ptp, x.action, none, []⟩
      else (d.cellsFill k f).framePush x.queue (frameEntry (cellAddr k.first) f.length p x.cls stamp x.row x.ptp) := by
  unfold Dev.frameAdmit
  rw [h]

end

/-! ## The command -/

/-- R357: in loop-back nothing comes from the pins. -/
theorem Dev.receive_of_looped {p : Nat} {d e : Dev} (h : d.loopDepth 2 p ≠ none) :
    (if (d.loopDepth 2 p).isSome then d else e) = d := if_pos (Option.isSome_iff_ne_none.mpr h)

theorem Dev.receive_of_unlooped {p : Nat} {d e : Dev} (h : d.loopDepth 2 p = none) :
    (if (d.loopDepth 2 p).isSome then d else e) = e := if_neg (by rw [h]; decide)

/-- Settles O43: the checks of the port and the frame, then the parser's row, the policer and the cells. -/
theorem frameReception : Obligations.FrameReception := by
  intro p f fcs before back c at' s d stamp e g cmd ok open' kept
  have hcmd : Gives cmd s (if (d.loopDepth 2 p).isSome then d else d.frameReceive p f ok before stamp at'.toNat) := rfl
  clear_value d
  refine ⟨fun hlooped => hcmd.of_eq (Dev.receive_of_looped hlooped), fun hpins hstop => ?stopped, fun hpins hrun => ?_⟩
  case stopped => exact hcmd.of_eq ((Dev.receive_of_unlooped hpins).trans (Dev.frameReceive_of_stopped hstop))
  have hreceive := hcmd.of_eq (Dev.receive_of_unlooped hpins)
  refine ⟨fun hclosed => hreceive.of_eq (Dev.frameReceive_of_closed hrun hclosed), fun hopen hbad => ?fcs,
    fun hopen hok hlong => ?long, fun hopen hok hlen hform => ?form, fun hopen hok hlen hform => ?_⟩
  all_goals have hcounted := hreceive.of_eq (Dev.frameReceive_of_open hrun hopen)
  case fcs => exact hcounted.of_eq (if_pos (by rw [hbad]; rfl))
  all_goals replace hcounted := hcounted.of_eq (if_neg (by rw [hok]; decide))
  case long => exact hcounted.of_eq (if_pos hlong)
  all_goals replace hcounted := hcounted.of_eq (if_neg (Nat.not_lt.mpr hlen))
  case form => exact hcounted.of_eq (if_pos (by rw [hform]; rfl))
  have hparse := hcounted.of_eq (if_neg (by rw [hform]; decide))
  refine ⟨fun hnone => hparse.of_eq (Dev.frameParse_of_none hnone), fun x hx hdrop => ?drop,
    fun x hx hact hcls => ⟨fun k hk => ?cells, fun hfull => ?full⟩, fun x hx hact hframe hcls hlong => ?classALong,
    fun x hx hact hcls hshort => ?_⟩
  all_goals have hrow := hparse.of_eq (Dev.frameParse_of_some hx)
  case drop => exact hrow.of_eq (if_pos hdrop)
  all_goals replace hrow := hrow.of_eq (if_neg hact)
  case cells =>
    have hclass : (x.cls == 0) = false := beq_false_of_ne hcls
    refine hrow.of_eq ((if_pos hcls).trans ((Dev.frameAdmit_of_cells (k := k) (by rw [hclass]; exact hk)).trans ?_))
    exact if_neg fun h => hcls h.1
  case full =>
    have hclass : (x.cls == 0) = false := beq_false_of_ne hcls
    exact hrow.of_eq ((if_pos hcls).trans (Dev.frameAdmit_of_full (by rw [hclass]; exact hfull)))
  all_goals replace hrow := hrow.of_eq (if_neg (not_not_intro hcls))
  case classALong => exact hrow.of_eq (if_pos ⟨hframe, hlong⟩)
  replace hrow := hrow.of_eq (if_neg fun h => hshort.elim h.1 (Nat.not_le.mpr h.2))
  intro cost h
  refine ⟨fun hpoor => ?_, fun k hrich hframe hk => ?_⟩
  · rw [Dev.police_of_short hpoor] at hrow
    exact hrow
  · rw [Dev.police_of_enough hrich] at hrow
    have hclass : (x.cls == 0) = true := beq_iff_eq.mpr hcls
    refine hrow.of_eq ((Dev.frameAdmit_of_cells (k := k) (by rw [hclass]; exact hk)).trans ?_)
    exact if_pos ⟨hcls, hframe⟩

end Sys2Proof.Machine
end

section
/-! SUPPORT and proof of O44. Transmission of a frame, and what happens to a port (R246, R250, R256, R259-R261, R267, R357). -/

namespace Sys2Proof.Machine

section
variable {d : Dev} {p : Nat}

/-! ## What a counter of a port leaves -/

/-- A port's counters lie below the loop-back registers. -/
theorem frmCnt_key_ne {i : Nat} (hp : p < 8) (hi : i < 16) (m : Nat) :
    R.TST_LB_CFG.key m ≠ (F.FRM_CNT.COUNT.at i).reg.key p := by
  have hcfg : R.TST_LB_CFG.key m = 0x09200004 + copyStride * m := rfl
  have hcnt : (F.FRM_CNT.COUNT.at i).reg.key p = 0x08C00040 + 4 * i + 256 * p := rfl
  omega

/-- R357: what a port counts moves no loop-back. -/
theorem Dev.loopDepth_frmCount {i : Nat} (hp : p < 8) (hi : i < 16) (kind ix : Nat) :
    (d.frmCount p i).loopDepth kind ix = d.loopDepth kind ix := by
  have hget (f : Fld) (hf : f.reg = R.TST_LB_CFG) : (d.frmCount p i).get f (128 * kind + ix) = d.get f (128 * kind + ix) := by
    refine Dev.get_put_ne _ _ _ _ _ _ ?_
    rw [hf]
    exact frmCnt_key_ne hp hi _
  unfold Dev.loopDepth Dev.flag
  rw [hget F.TST_LB_CFG.ENABLE rfl, hget F.TST_LB_CFG.DEPTH rfl]

theorem Dev.loopDepth_emit (o : Out) (kind ix : Nat) : (d.emit o).loopDepth kind ix = d.loopDepth kind ix := rfl

/-- The loop-backs are registers: a frame that leaves its list moves none. -/
theorem Dev.loopDepth_txDrop (x : FrmTx) (kind ix : Nat) : (d.txDrop x).loopDepth kind ix = d.loopDepth kind ix := by
  have hregs : (d.txDrop x).regs = d.regs := by
    unfold Dev.txDrop
    dsimp only
    split <;> rfl
  unfold Dev.loopDepth Dev.flag Dev.get
  rw [Dev.rd_congr _ _ hregs, Dev.rd_congr _ _ hregs]

/-- R357: without a loop-back nothing comes back. -/
theorem Dev.frameLoop_of_unlooped {f : List Byte} {stamp : Nat} (h : d.loopDepth 2 p = none) : d.frameLoop p f stamp = d := by
  unfold Dev.frameLoop
  rw [h]

theorem Dev.pinsDriven_of_unlooped {kind ix : Nat} (h : d.loopDepth kind ix = none) : d.pinsDriven kind ix = true := by
  unfold Dev.pinsDriven
  rw [h]

theorem Dev.pinsDriven_of_looped {kind ix depth : Nat} (h : d.loopDepth kind ix = some depth) :
    d.pinsDriven kind ix = (depth == 0) := by
  unfold Dev.pinsDriven
  rw [h]

/-! ## A launch -/

/-- The frame leaves its port: pins, count, list, and a port in loop-back. -/
def Dev.frameOut (d : Dev) (x : FrmTx) (f : List Byte) (stamp : Nat) : Dev :=
  let o := d.egressHeader f stamp
  let leaves := if d.pinsDriven 2 x.port then d.emit (.frame x.port (o ++ leBytes 4 (crc32 o))) else d
  ((leaves.frmCount x.port 1).txDrop x).frameLoop x.port o stamp

/-- R256, R258: an untouched frame of the Classes B to D leaves as it lies. -/
theorem Dev.launch_of_plain {x : FrmTx} (hring : x.ring = none) (hcls : x.cls ≠ 0) (hinsert : x.insert = false) :
    d.launch x = d.frameOut x (d.vbytes x.addr x.len) d.t96 := by
  unfold Dev.launch
  dsimp only
  rw [if_neg hcls, hinsert, if_neg Bool.false_ne_true, hring]
  rfl

/-- R251: a Class A frame of action 1 leaves corrected. -/
theorem Dev.launch_of_correct {x : FrmTx} (hring : x.ring = none) (hcls : x.cls = 0) (haction : x.action = 1) :
    d.launch x = (let c := d.doCorrect x.port (d.vbytes x.addr x.len) x.ptp d.t96
      c.1.frameOut x c.2 d.t96) := by
  unfold Dev.launch
  dsimp only
  rw [if_pos hcls, hring]
  unfold Dev.transit
  rw [haction]
  rfl

/-- A port without a loop-back sends the frame and is done. -/
theorem Dev.frameOut_of_unlooped {x : FrmTx} {f : List Byte} {stamp : Nat} (hp : x.port < 8) (h : d.loopDepth 2 x.port = none) :
    d.frameOut x f stamp = (((d.emit (.frame x.port (d.egressHeader f stamp ++ leBytes 4 (crc32 (d.egressHeader f stamp))))).frmCount
      x.port 1).txDrop x) := by
  unfold Dev.frameOut
  dsimp only
  rw [Dev.pinsDriven_of_unlooped h, if_pos rfl]
  refine Dev.frameLoop_of_unlooped ?_
  rw [Dev.loopDepth_txDrop, Dev.loopDepth_frmCount hp (by decide), Dev.loopDepth_emit, h]

/-- R357: a port in loop-back sends to its pins at the pad only, and receives what it sends. -/
theorem Dev.frameOut_of_looped {x : FrmTx} {f : List Byte} {stamp depth : Nat} (h : d.loopDepth 2 x.port = some depth) :
    d.frameOut x f stamp =
      (let o := d.egressHeader f stamp
       let leaves := if depth = 0 then d.emit (.frame x.port (o ++ leBytes 4 (crc32 o))) else d
       ((leaves.frmCount x.port 1).txDrop x).frameLoop x.port o stamp) := by
  unfold Dev.frameOut
  dsimp only
  rw [Dev.pinsDriven_of_looped h]
  simp only [beq_iff_eq]

/-- R262: outside UDP the bytes of the PTP message are replaced alone. -/
theorem Dev.ptpReplace_of_l2 {f new : List Byte} {o i : Nat} (h4 : ptpAt f 1 ≠ some o) (h6 : ptpAt f 2 ≠ some o) :
    d.ptpReplace f o i new = (replaceAt f i new, false) := (if_neg h4).trans (if_neg h6)

/-- R259: a one-step event message with a sound residence gains it in its correctionField. -/
theorem Dev.doCorrect_of_oneStep {f : List Byte} {o s t : Nat} (hstamp : hdrStampValid f = true) (htime : d.frameTime f s = some t)
    (hlow : 0 ≤ d.residence f t) (hhigh : d.residence f t ≤ 1000000 * 2 ^ 32) (hone : ptpTwoStep f o = false)
    (h4 : ptpAt f 1 ≠ some o) (h6 : ptpAt f 2 ≠ some o) :
    d.doCorrect p f o s = (d.frmCount p 2,
      replaceAt f (o + 8) (beBytes 8 (corrSum (toSigned 64 (beAt f (o + 8) 8)) (roundDiv (d.residence f t) (2 ^ 16))))) := by
  unfold Dev.doCorrect
  rw [hstamp, if_pos rfl, htime]
  refine (if_neg (by omega)).trans ?_
  dsimp only
  rw [hone]
  refine (if_neg Bool.false_ne_true).trans ?_
  unfold Dev.correct
  rw [Dev.ptpReplace_of_l2 h4 h6]
  rfl

/-! ## FRAME_TRANSMIT -/

/-- A port's next frame is one of its own. -/
theorem Dev.port_of_nextFrame {x : FrmTx} (h : d.nextFrame p = some x) : x.port = p := by
  obtain ⟨c, -, hfind⟩ := List.exists_of_findSome?_eq_some h
  have := List.find?_some hfind
  exact beq_iff_eq.mp (Bool.and_eq_true_iff.mp this).1

theorem Dev.frameTransmit_of_still
    (h : d.get F.FRM_PORT_STAT.STATE p = 0 ∨ d.flag F.FLT_STATE.STOPPED = true ∨ d.boot.halted = true) : d.frameTransmit p = d :=
  if_pos h

/-- R256: what a running port takes. -/
theorem Dev.frameTransmit_of_running (hstate : d.get F.FRM_PORT_STAT.STATE p ≠ 0) (hstop : d.flag F.FLT_STATE.STOPPED = false)
    (hboot : d.boot.halted = false) : d.frameTransmit p =
      (match d.egressPull.nextFrame p with
      | none => d.egressPull
      | some x =>
        let r := d.egressPull.vatTouch x.addr x.len 4
        if !d.egressPull.vbad x.addr x.len then r.launch x
        else
          let r := ((r.txDrop x).cellsFree x.addr).frmCount p 4
          match x.ring with
          | some k => r.descDone k x.desc none none 0 6
          | none => r) :=
  if_neg fun h => h.elim hstate fun h => h.elim (ne_true_of_eq_false hstop) (ne_true_of_eq_false hboot)

/-! ## Events of a port -/

/-- R246: a port with PCS_LOCK, or one that is not UP, has no loss. -/
theorem Dev.pcsLoss_off (h : d.get F.FRM_PORT_STAT.STATE p ≠ 1 ∨ d.flag F.FRM_PORT_STAT.PCS_LOCK p = true) :
    d.pcsLoss p = d.levelOff 193 p := by
  refine if_neg ?_
  unfold Dev.portState
  grind

theorem Dev.pcsLoss_on (hstate : d.get F.FRM_PORT_STAT.STATE p = 1) (hlock : d.flag F.FRM_PORT_STAT.PCS_LOCK p = false) :
    d.pcsLoss p = d.levelOn 193 p := by
  refine if_pos ?_
  unfold Dev.portState
  rw [hstate, hlock]
  rfl

/-- Putting a lock leaves STATE. -/
theorem Dev.state_put_lock (f : Fld) (v : Nat) (hreg : f.reg = R.FRM_PORT_STAT) (hlo : f.lo ≤ f.hi + 1) (hhi : f.hi < 32)
    (hstate : F.FRM_PORT_STAT.STATE.hi < f.lo) :
    (d.put f v p).get F.FRM_PORT_STAT.STATE p = d.get F.FRM_PORT_STAT.STATE p :=
  Dev.get_put_other d f F.FRM_PORT_STAT.STATE v p hlo hhi hreg.symm (.inl hstate)

/-- R246: PCS_LOCK and FEC_LOCK put together. -/
def Dev.locksPut (d : Dev) (p pcs fec : Nat) : Dev := (d.put F.FRM_PORT_STAT.PCS_LOCK pcs p).put F.FRM_PORT_STAT.FEC_LOCK fec p

theorem Dev.pcsLock_locksPut (pcs fec : Nat) : (d.locksPut p pcs fec).get F.FRM_PORT_STAT.PCS_LOCK p = pcs % 2 ^ 1 := by
  unfold Dev.locksPut
  rw [Dev.get_put_other _ F.FRM_PORT_STAT.FEC_LOCK F.FRM_PORT_STAT.PCS_LOCK _ _ (by decide) (by decide) rfl (by decide),
    Dev.get_put_self _ F.FRM_PORT_STAT.PCS_LOCK _ _ (by decide) (by decide)]
  rfl

theorem Dev.state_locksPut (pcs fec : Nat) :
    (d.locksPut p pcs fec).get F.FRM_PORT_STAT.STATE p = d.get F.FRM_PORT_STAT.STATE p :=
  (Dev.state_put_lock _ _ rfl (by decide) (by decide) (by decide)).trans
    (Dev.state_put_lock _ _ rfl (by decide) (by decide) (by decide))

/-- R246: a port that gained its lock has no loss. -/
theorem Dev.pcsLoss_gained (fec : Nat) : (d.locksPut p 1 fec).pcsLoss p = (d.locksPut p 1 fec).levelOff 193 p :=
  Dev.pcsLoss_off (.inr (by rw [Dev.flag, Dev.pcsLock_locksPut]; rfl))

/-- R246: a port that lost its lock has a loss while it is UP. -/
theorem Dev.pcsLoss_lost : (d.locksPut p 0 0).pcsLoss p =
    if d.get F.FRM_PORT_STAT.STATE p = 1 then (d.locksPut p 0 0).levelOn 193 p else (d.locksPut p 0 0).levelOff 193 p := by
  split
  case isTrue h => exact Dev.pcsLoss_on (by rw [Dev.state_locksPut, h]) (by rw [Dev.flag, Dev.pcsLock_locksPut]; rfl)
  case isFalse h => exact Dev.pcsLoss_off (.inl (by rwa [Dev.state_locksPut]))

/-- R267: a drained port without a waiting frame is OFF. -/
theorem Dev.portOff_of_empty (h : ∀ x ∈ d.egressPull.frm.txs, x.port ≠ p) : d.portOff p =
    (let e := d.egressPull
     ((({ e with frm := { e.frm with two := e.frm.two.filter fun x => x.port != p } } : Dev).put
       F.FRM_PORT_STAT.STATE 0 p).put F.FRM_PORT_STAT.DRAIN_LEFT 0 p).levelOff 193 p) := by
  have hleft : d.egressPull.frm.txs.filter (fun x => x.port == p) = [] :=
    List.filter_eq_nil_iff.mpr fun x hx => by simp [h x hx]
  have hoff (e : Dev) : ((e.put F.FRM_PORT_STAT.STATE 0 p).put F.FRM_PORT_STAT.DRAIN_LEFT 0 p).pcsLoss p =
      ((e.put F.FRM_PORT_STAT.STATE 0 p).put F.FRM_PORT_STAT.DRAIN_LEFT 0 p).levelOff 193 p := by
    refine Dev.pcsLoss_off (.inl ?_)
    rw [Dev.state_put_lock _ _ rfl (by decide) (by decide) (by decide),
      Dev.get_put_self _ F.FRM_PORT_STAT.STATE _ _ (by decide) (by decide)]
    decide
  unfold Dev.portOff
  dsimp only
  rw [hleft, hoff]
  rfl

end

/-- R256: what FRAME_TRANSMIT gives. -/
theorem transmitGives (p : Fin 8) (c : Cycle) (s : State) :
    let d := s.dev.quiet.atCycle c.val
    let e := d.egressPull
    (d.get F.FRM_PORT_STAT.STATE p = 0 ∨ d.flag F.FLT_STATE.STOPPED = true ∨ d.boot.halted = true → Gives (.frameTransmit p c) s d) ∧
    (d.get F.FRM_PORT_STAT.STATE p ≠ 0 → d.flag F.FLT_STATE.STOPPED = false → d.boot.halted = false →
      (e.nextFrame p = none → Gives (.frameTransmit p c) s e) ∧
      (∀ x, e.nextFrame p = some x → x.ring = none →
        let r := e.vatTouch x.addr x.len 4
        (e.vbad x.addr x.len = true → Gives (.frameTransmit p c) s (((r.txDrop x).cellsFree x.addr).frmCount p 4)) ∧
        (e.vbad x.addr x.len = false → Gives (.frameTransmit p c) s (r.launch x)))) := by
  intro d e
  have hcmd : Gives (.frameTransmit p c) s (d.frameTransmit p) := rfl
  clear_value d
  refine ⟨fun hstill => hcmd.of_eq (Dev.frameTransmit_of_still hstill), fun hstate hstop hboot => ?_⟩
  have hrun := hcmd.of_eq (Dev.frameTransmit_of_running hstate hstop hboot)
  refine ⟨fun hnone => ?none, fun x hx hring => ⟨fun hbad => ?bad, fun hgood => ?good⟩⟩
  case none =>
    rw [hnone] at hrun
    exact hrun
  all_goals
    rw [hx] at hrun
    dsimp only at hrun
  case bad =>
    rw [hbad, hring] at hrun
    exact hrun
  case good =>
    rw [hgood] at hrun
    exact hrun

/-- Settles O44: the launch by the frame's class and the port's loop-back, and the events by their equations. -/
theorem frameTransmissionAndPortEvents : Obligations.FrameTransmissionAndPortEvents := by
  refine ⟨fun p c s => ?transmit, fun p s => ?events⟩
  case transmit =>
    intro d e
    obtain ⟨hstill, hrunning⟩ := transmitGives p c s
    refine ⟨hstill, fun hstate hstop hboot => ?_⟩
    obtain ⟨hnone, hframe⟩ := hrunning hstate hstop hboot
    refine ⟨hnone, fun x hx hring => ?_⟩
    obtain ⟨hbad, hgood⟩ := hframe x hx hring
    have hport : x.port < 8 := (Dev.port_of_nextFrame hx).symm ▸ p.isLt
    intro r sent
    refine ⟨hbad, fun depth hok hloop hcls hinsert => ?looped, fun hok hfree => ⟨fun hcls hinsert => ?plain, ?correct⟩⟩
    all_goals have hlaunch := hgood hok
    case looped =>
      exact (hlaunch.of_eq (Dev.launch_of_plain hring hcls hinsert)).of_eq (Dev.frameOut_of_looped hloop)
    case plain =>
      exact (hlaunch.of_eq (Dev.launch_of_plain hring hcls hinsert)).of_eq (Dev.frameOut_of_unlooped hport hfree)
    case correct =>
      intro t hcls haction hstamp htime res o g h hlow hhigh hone h4 h6
      have hcorrect := hlaunch.of_eq (Dev.launch_of_correct hring hcls haction)
      rw [Dev.doCorrect_of_oneStep hstamp htime hlow hhigh hone h4 h6] at hcorrect
      exact hcorrect.of_eq (Dev.frameOut_of_unlooped hport ((Dev.loopDepth_frmCount hport (by decide) _ _).trans hfree))
  case events =>
    intro d lost e
    refine ⟨?gained, ?lost, fun hstate => ?piece, ?age, fun hstate hleft hempty => ?drained⟩
    case gained => exact Gives.of_run (fun d => (d.locksPut p 1 (d.get F.FRM_PORT_CFG.FEC p)).pcsLoss p) rfl (Dev.pcsLoss_gained _)
    case lost => exact Gives.of_run (fun d => (d.locksPut p 0 0).pcsLoss p) rfl Dev.pcsLoss_lost
    case piece => exact Gives.of_run (fun d => if d.portState p = 0 then d else (d.frmCount p 7).waitTimeout 6) rfl (if_neg hstate)
    case age =>
      refine Gives.of_run (·.twoStepAge) rfl ?_
      have hkeep (x : TwoStep) : (!decide (x.since + d.get F.FRM_CFG.FU_AGE * 1000 < d.tick)) =
          decide (d.tick ≤ x.since + d.get F.FRM_CFG.FU_AGE * 1000) := by
        rw [← decide_not]
        exact decide_eq_decide.mpr Nat.not_lt
      exact congrArg (fun keep => ({ d with frm := { d.frm with two := d.frm.two.filter keep } } : Dev)) (funext hkeep)
    case drained =>
      exact Gives.of_run (·.portDrainEnd p) rfl ((if_pos ⟨hstate, hleft⟩).trans (Dev.portOff_of_empty hempty))

end Sys2Proof.Machine
end

section
/-! SUPPORT and proof of O45. Descriptors of the DMA rings (R20, R264-R266). -/

namespace Sys2Proof.Machine

section
variable {d : Dev} {r : Nat}

/-! ## What a ring is doing -/

/-- The host has given descriptors to a ring of direction `rx`, outside LEAN. -/
def Dev.ringGiven (d : Dev) (r rx : Nat) : Prop :=
  d.get F.SYS_PROFILE.ACTIVE ≠ 3 ∧ d.flag F.FRM_RING_CFG.ENABLE r = true ∧ d.get F.FRM_RING_CFG.DIR r = rx ∧
    d.get F.FRM_RING_HEAD.INDEX r ≠ d.get F.FRM_RING_TAIL.INDEX r

theorem Dev.ringReady_of_given {rx : Nat} (h : d.ringGiven r rx) : d.ringReady r (rx != 0) = true := by
  obtain ⟨hprofile, henable, hdir, hindex⟩ := h
  unfold Dev.ringReady
  rw [henable, Dev.flag, hdir, bne_iff_ne.mpr hprofile, bne_iff_ne.mpr hindex, beq_self_eq_true]
  rfl

theorem Dev.ringReady_dir {rx : Nat} (h : d.ringGiven r rx) : d.ringReady r (d.flag F.FRM_RING_CFG.DIR r) = true := by
  have hdir : d.flag F.FRM_RING_CFG.DIR r = (rx != 0) := congrArg (· != 0) h.2.2.1
  rw [hdir, Dev.ringReady_of_given h]

theorem Dev.ringBusy_of_free (h : ∀ x ∈ d.frm.txs, x.ring ≠ some r) : d.ringBusy r = false := by
  unfold Dev.ringBusy
  rw [List.any_eq_false]
  exact fun x hx => by simp [h x hx]

theorem Dev.find_of_free (h : ∀ x ∈ d.frm.txs, x.ring ≠ some r) : d.frm.txs.find? (fun x => x.ring == some r) = none :=
  List.find?_eq_none.mpr fun x hx => by simp [h x hx]

/-! ## Transmit descriptors -/

/-- The descriptor that a transmit ring works on. -/
def Dev.ringDesc (d : Dev) (r : Nat) (desc : List Byte) : List Byte := (d.ringRead r).getD (sliceB desc 0 32)

/-- R264, R265: a transmit descriptor is judged by its length and its port. -/
theorem Dev.dmaFetch_of_ready {desc f : List Byte} {got poison : Bool} {from' : Nat} (hready : d.ringGiven r 0)
    (hfree : ∀ x ∈ d.frm.txs, x.ring ≠ some r) (hown : bit (leAt (d.ringDesc r desc) 11 1) 0 = true) :
    d.dmaFetch r desc f got poison from' =
      (let used := d.ringDesc r desc
       if leAt used 8 2 < 76 ∨ 2048 < leAt used 8 2 then (d.setRead r none).descDone r used none none 0 5
       else if 8 ≤ leAt used 10 1 ∨ d.portState (leAt used 10 1) ≠ 1 then (d.setRead r none).descDone r used none none 0 1
       else if got then d.dmaFrame r used f poison from'
       else d.setRead r (some used)) := by
  refine if_neg ?_
  have hown' : bit (leAt ((d.ringRead r).getD (sliceB desc 0 32)) 11 1) 0 = true := hown
  have hready' : d.ringReady r false = true := Dev.ringReady_of_given hready
  rw [hready', Dev.ringBusy_of_free hfree, hown']
  decide

/-- Log entry 51: without room in the FRAME pool the read stays outstanding. -/
theorem Dev.dmaFrame_of_full {desc f : List Byte} {poison : Bool} {from' : Nat}
    (h : d.cellsTake (leAt desc 8 2) false from' = none) : d.dmaFrame r desc f poison from' = d.setRead r (some desc) := by
  unfold Dev.dmaFrame
  dsimp only
  rw [h]

/-- R265: the frame lies in its cells and waits. -/
theorem Dev.dmaFrame_of_cells {desc f : List Byte} {poison : Bool} {from' : Nat} {k : FrmCells}
    (h : d.cellsTake (leAt desc 8 2) false from' = some k) : d.dmaFrame r desc f poison from' =
      (let e := (d.setRead r none).cellsFill k (sliceB f 0 (leAt desc 8 2))
       let e := if poison then { e with vat := { e.vat with ue := e.vat.ue ++ [256 * k.first / 8] } } else e
       e.txPut ⟨leAt desc 10 1, 1, 256 * k.first, leAt desc 8 2, true, bit (leAt desc 11 1) 2, 0, 0, some r, desc⟩) := by
  unfold Dev.dmaFrame
  dsimp only
  rw [h]
  rfl

/-! ## Receive descriptors -/

/-- R264, R265: what a receive ring does with what its queue gave: the entry `e`, its frame `f` and stamp. -/
def Dev.received (d : Dev) (r : Nat) (rx : List Byte) (e f : List Byte) (stamp : Nat) : Dev × Option (List Byte) → Dev
  | (g, none) => g
  | (g, some _) =>
    let n := min (leAt rx 8 2) f.length
    if d.vbad (leAt e 0 4) (leAt e 4 2) then g.descDone r rx (some (leAt e 6 1)) (some stamp) 0 6
    else (g.emit (.hostWrite (g.get F.FRM_RING_CFG.FUNC r) (leAt rx 0 8) (f.take n))).descDone r rx
      (some (leAt e 6 1)) (some stamp) n (if leAt rx 8 2 < f.length then 3 else 0)

/-- R264, R265: a receive ring pops its queue into the buffer. -/
theorem Dev.dmaReceive_of_ready {desc : List Byte} (hready : d.ringGiven r 1) (hown : bit (leAt (sliceB desc 0 32) 11 1) 0 = true)
    (hcons : (d.qdesc (d.get F.FRM_RING_CFG.QUEUE r)).cons = 0x1100 + r) : d.dmaReceive r desc =
      (let q := d.get F.FRM_RING_CFG.QUEUE r
       let x := d.qdesc q
       let e := d.vbytes (x.entryAddr x.head) 32
       d.received r (sliceB desc 0 32) e (d.vbytes (leAt e 0 4) (leAt e 4 2)) (leAt e 8 4 + leAt e 12 8 * 2 ^ 32)
         ((if d.qEnabled q && decide (0 < x.fill) then d.vatTouch (leAt e 0 4) (leAt e 4 2) 4 else d).qPop q)) := by
  unfold Dev.dmaReceive Dev.received
  dsimp only
  refine if_neg ?_
  have hready' : d.ringReady r true = true := Dev.ringReady_of_given hready
  rw [hready', hown, hcons, bne_self_eq_false]
  decide

/-! ## The end of a descriptor -/

/-- R26, R265: the read that is missing. -/
theorem Dev.dmaTimeout_of_ready {desc : List Byte} {rx : Nat} (hready : d.ringGiven r rx) (hfree : ∀ x ∈ d.frm.txs, x.ring ≠ some r) :
    d.dmaTimeout r desc = (((d.setRead r none).descDone r (d.ringDesc r desc) none none 0 2).fault 8 0 7) := by
  refine if_pos ?_
  rw [Dev.ringReady_dir hready, Dev.ringBusy_of_free hfree]
  rfl

/-- R266: a waiting frame is aborted. -/
theorem Dev.ringDisable_of_frame {x : FrmTx} (h : d.frm.txs.find? (fun x => x.ring == some r) = some x) :
    d.ringDisable r = ((d.txDrop x).descDone r x.desc none none 0 4).put F.FRM_RING_CFG.ENABLE 0 r := by
  unfold Dev.ringDisable
  dsimp only
  rw [h]

section
variable (hfree : ∀ x ∈ d.frm.txs, x.ring ≠ some r)
include hfree

/-- R266: a frame that is being read is aborted. -/
theorem Dev.ringDisable_of_read {b : List Byte} (h : Tbl.find? d.frm.reads r = some b) :
    d.ringDisable r = ((d.setRead r none).descDone r b none none 0 4).put F.FRM_RING_CFG.ENABLE 0 r := by
  have hread : d.ringRead r = some b := h
  unfold Dev.ringDisable
  dsimp only
  rw [Dev.find_of_free hfree, hread]

/-- R266: nothing is in progress, and nothing has completed. -/
theorem Dev.ringDisable_of_idle (h : Tbl.find? d.frm.reads r = none) (hdone : Tbl.find? d.frm.lastDone r = none) :
    d.ringDisable r = d.put F.FRM_RING_CFG.ENABLE 0 r := by
  have hread : d.ringRead r = none := h
  unfold Dev.ringDisable
  dsimp only
  rw [Dev.find_of_free hfree, hread, hdone]

/-- R266: the descriptor completed in this cycle. -/
theorem Dev.ringDisable_of_late {a : Nat} {b : List Byte} (h : Tbl.find? d.frm.reads r = none)
    (hdone : Tbl.find? d.frm.lastDone r = some (d.absCycle, a, b)) : d.ringDisable r =
      (d.emit (.hostWrite (d.get F.FRM_RING_CFG.FUNC r) a (replaceAt b 30 [0x80]))).put F.FRM_RING_CFG.ENABLE 0 r := by
  have hread : d.ringRead r = none := h
  unfold Dev.ringDisable
  dsimp only
  rw [Dev.find_of_free hfree, hread, hdone]
  dsimp only
  rw [if_pos rfl]
  rfl

end

end

/-- Settles O45: each end of a descriptor by its equation. -/
theorem dmaRings : Obligations.DmaRings := by
  intro path r desc f got poison c at' s d e read used ready free own len port fetch noRead
  have hfetch : Gives fetch s (e.dmaFetch r desc f got poison at'.toNat) := rfl
  have hreceive : Gives (.dmaReceive r desc c) s (e.dmaReceive r desc) := rfl
  have htimeout : Gives (.dmaReadTimeout r desc) s (d.dmaTimeout r desc) := rfl
  have hdisable {d' : Dev} (hreach : s.reaches path (R.FRM_RING_CFG.off r)) (h : e.ringDisable r = d') :
      Gives (.ringDisable path r c) s d' :=
    Gives.of_reach (fun d => (d.atCycle c.val).ringDisable r) rfl hreach h
  clear_value d
  refine ⟨fun hready hfree hown => ?transmit, ?receive, fun hready hfree => ?timeout, fun hreach =>
    ⟨fun x hx => hdisable hreach (Dev.ringDisable_of_frame (d := e) hx),
     fun b hfree hread => hdisable hreach (Dev.ringDisable_of_read (d := e) hfree hread),
     fun hfree hread hdone => hdisable hreach (Dev.ringDisable_of_idle (d := e) hfree hread hdone),
     fun a b hfree hread hdone => hdisable hreach (Dev.ringDisable_of_late (d := e) hfree hread hdone)⟩⟩
  case transmit =>
    have hjudged := hfetch.of_eq (Dev.dmaFetch_of_ready (d := e) hready hfree hown)
    refine ⟨fun hbad => hjudged.of_eq (if_pos hbad), fun hmin hmax => ?_⟩
    have hlen : ¬ (len < 76 ∨ 2048 < len) := by omega
    replace hjudged := hjudged.of_eq (if_neg hlen)
    refine ⟨fun hoff => hjudged.of_eq (if_pos hoff), fun hport hup => ?_⟩
    have hopen : ¬ (8 ≤ port ∨ e.portState port ≠ 1) := fun h => h.elim (by omega) (fun h => h hup)
    replace hjudged := hjudged.of_eq (if_neg hopen)
    refine ⟨fun hwait => ?wait, fun k hgot hk => ?cells⟩
    case cells => exact hjudged.of_eq ((if_pos hgot).trans (Dev.dmaFrame_of_cells hk))
    case wait =>
      cases hgot : got with
      | false => exact hjudged.of_eq (if_neg (ne_true_of_eq_false hgot))
      | true => exact hjudged.of_eq ((if_pos hgot).trans (Dev.dmaFrame_of_full (hwait.resolve_left (by rw [hgot]; decide))))
  case receive =>
    intro rx len q y entry data stamp n t hready hown hcons hgood
    have htake : Gives (.dmaReceive r desc c) s (e.received r rx entry data stamp (t.qPop q)) :=
      hreceive.of_eq (Dev.dmaReceive_of_ready (d := e) hready hown hcons)
    refine ⟨fun g l hpop => ?some, fun g hpop => ?none⟩
    case some =>
      rw [hpop] at htake
      exact htake.of_eq (if_neg (ne_true_of_eq_false hgood))
    case none =>
      rw [hpop] at htake
      exact htake
  case timeout =>
    exact htimeout.of_eq (hready.elim (fun h => Dev.dmaTimeout_of_ready h hfree) fun h => Dev.dmaTimeout_of_ready h hfree)

end Sys2Proof.Machine
end

section
/-! SUPPORT and proof of O53. Transfers, resets and recoveries of the XI2C controllers (R26, R354, R355). -/

namespace Sys2Proof.Machine

@[simp] theorem Dev.xi2c_setXi2c_self (d : Dev) (n : Nat) (x : Xi2c) : (d.setXi2c n x).xi2c n = x := Tbl.getD_set_self ..

theorem Dev.xi2c_put (d : Dev) (f : Fld) (v m n : Nat) : (d.put f v m).xi2c n = d.xi2c n := rfl

section
variable {d : Dev} {n : Nat}

/-! ## A controller that is busy -/

/-- R354: BUSY, RECOVERING, STUCK or GIVEN_UP. -/
def Dev.xiBusy (d : Dev) (n : Nat) : Prop :=
  d.get F.XI2C_STAT.STATE n = 1 ∨ d.get F.XI2C_STAT.STATE n = 5 ∨ d.get F.XI2C_STAT.STATE n = 6 ∨ d.get F.XI2C_STAT.STATE n = 7

theorem Dev.xiBusy_iff : [1, 5, 6, 7].contains (d.xiState n) = true ↔ d.xiBusy n := by
  unfold Dev.xiBusy Dev.xiState
  simp

/-- R354, R355: what a busy controller, or one that is off, may not do. -/
theorem Dev.xiBlocked_iff : ([1, 5, 6, 7].contains (d.xiState n) || !d.flag F.XI2C_CFG.ENABLE n) = true ↔
    d.xiBusy n ∨ d.flag F.XI2C_CFG.ENABLE n = false := by
  rw [Bool.or_eq_true, Dev.xiBusy_iff, Bool.not_eq_true']

theorem Dev.not_xiBlocked (hbusy : ¬ d.xiBusy n) (hon : d.flag F.XI2C_CFG.ENABLE n = true) :
    ¬ ([1, 5, 6, 7].contains (d.xiState n) || !d.flag F.XI2C_CFG.ENABLE n) = true := by
  rw [Dev.xiBlocked_iff, hon]
  exact fun h => h.elim hbusy (fun h => nomatch h)

/-! ## Transfers -/

/-- R354: XI2C_DATA is not XI2C_STAT. -/
theorem Dev.xiBytes_put_stat (f : Fld) (v : Nat) (hf : f.reg = R.XI2C_STAT) : (d.put f v n).xiBytes n = d.xiBytes n := by
  have hrd (r : Reg) (hr : r.key n ≠ R.XI2C_STAT.key n) : (d.put f v n).rd r n = d.rd r n :=
    Dev.rd_wr_ne _ f.reg r _ n n (by rwa [hf])
  unfold Dev.xiBytes
  rw [hrd R.XI2C_DATA0 (Reg.key_ne_of_plain (q := R.XI2C_DATA0) (r := R.XI2C_STAT) rfl rfl rfl (by decide) n),
    hrd R.XI2C_DATA1 (Reg.key_ne_of_plain (q := R.XI2C_DATA1) (r := R.XI2C_STAT) rfl rfl rfl (by decide) n)]

theorem Dev.xiBytes_setXi2c (x : Xi2c) : (d.setXi2c n x).xiBytes n = d.xiBytes n := rfl

/-- R354: what a transfer sends before its STOP. -/
def xiSent (addr : Nat) (data : List Byte) (wlen rlen : Nat) : List I2cPart :=
  let write := .start :: .byte (BitVec.ofNat 8 (2 * addr)) :: (data.take wlen).map I2cPart.byte
  if rlen = 0 then write else write ++ [.start, .byte (BitVec.ofNat 8 (2 * addr + 1)), .read rlen]

/-- R354: a transfer that starts. -/
theorem Dev.xiXfer_of_idle {p : Path} {addr wlen rlen : Nat} (hw : wlen ≤ 8) (hr : rlen ≤ 8) (hsome : wlen + rlen ≠ 0)
    (hbusy : ¬ d.xiBusy n) (hon : d.flag F.XI2C_CFG.ENABLE n = true) : d.xiXfer p n addr wlen rlen =
      ((((d.put F.XI2C_STAT.STATE 1 n).put F.XI2C_STAT.ABORT_LATE 0 n).setXi2c n
        { d.xi2c n with addr := addr, wlen := wlen, rlen := rlen }).emit (.i2c n (xiSent addr (d.xiBytes n) wlen rlen))) := by
  refine (if_neg (by omega)).trans ((if_neg hsome).trans ((if_neg (Dev.not_xiBlocked hbusy hon)).trans ?_))
  dsimp only
  rw [Dev.xiBytes_setXi2c, Dev.xiBytes_put_stat F.XI2C_STAT.ABORT_LATE 0 rfl, Dev.xiBytes_put_stat F.XI2C_STAT.STATE 1 rfl,
    Dev.xi2c_put, Dev.xi2c_put]
  rfl

/-- R354: the STOP of a transfer, noted with its cycle. -/
def Dev.xiStop (d : Dev) (n : Nat) : Dev := (d.setXi2c n { d.xi2c n with doneAt := some d.absCycle }).emit (.i2c n [.stop])

theorem Dev.xiEnd_of_running {nack : Bool} {data : Nat} (h : d.get F.XI2C_STAT.STATE n = 1) : d.xiEnd n nack data =
    (let l := leBytes (d.xi2c n).rlen data ++ (d.xiBytes n).drop (d.xi2c n).rlen
     let e := if nack || (d.xi2c n).rlen == 0 then d.xiStop n
       else ((d.xiStop n).wr R.XI2C_DATA0 (leAt l 0 4) n).wr R.XI2C_DATA1 (leAt l 4 4) n
     (e.put F.XI2C_STAT.STATE (if nack then 3 else 2) n).irqSet F.HOST_IRQ_CAUSE.XI2C) :=
  if_neg (not_not_intro h)

theorem Dev.xiEnd_of_other {nack : Bool} {data : Nat} (h : d.get F.XI2C_STAT.STATE n ≠ 1) : d.xiEnd n nack data = d := if_pos h

/-! ## Recoveries -/

/-- R355: a recovery begins, its attempts counted. -/
theorem Dev.xiRecover_put (tries : Nat) (sda : SdaForm) (retry : Bool) :
    (d.put F.XI2C_STAT.RETRIES tries n).xiRecover n sda retry =
      (((d.put F.XI2C_STAT.RETRIES tries n).put F.XI2C_STAT.STATE 5 n).setXi2c n { d.xi2c n with
        recover := some ⟨d.tick + 10 * (sda.pulses + 2), sda.high, retry⟩ }).emit
        (.i2c n (List.replicate (sda.pulses + 1) .pulse)) := rfl

/-- R354, R355: a RESET that no completion of its cycle outruns. -/
theorem Dev.xiReset_of_later {sda : SdaForm} (h : (d.xi2c n).doneAt ≠ some d.absCycle) : d.xiReset n sda =
    ((((d.put F.XI2C_STAT.ABORT_LATE 0 n).put F.XI2C_STAT.RETRIES 0 n).put F.XI2C_STAT.STATE 5 n).setXi2c n { d.xi2c n with
      recover := some ⟨d.tick + 10 * (sda.pulses + 2), sda.high, false⟩ }).emit
      (.i2c n (List.replicate (sda.pulses + 1) .pulse)) := if_neg h

section
variable {r : Recovery} (hrun : (d.xi2c n).recover = some r)
include hrun

theorem Dev.xiBoundary_of_early (h : d.tick < r.done) : d.xiBoundary n = d := by
  unfold Dev.xiBoundary
  rw [hrun]
  exact if_pos h

/-- R355: a recovery that is over. -/
theorem Dev.xiBoundary_of_over (h : r.done ≤ d.tick) : d.xiBoundary n =
    (let w := (d.setXi2c n { d.xi2c n with recover := none }).emit (.i2c n [.stop])
     if r.high then (w.put F.XI2C_STAT.STATE 0 n).incSat F.XI2C_STAT.RECOVERIES n else w.xiStillLow n r.retry) := by
  unfold Dev.xiBoundary
  rw [hrun]
  exact if_neg (Nat.not_lt.mpr h)

end

/-- R355: SDA is still low. -/
theorem Dev.xiStillLow_eq (retry : Bool) : d.xiStillLow n retry =
    (let stuck := (d.put F.XI2C_STAT.STATE 6 n).setXi2c n { d.xi2c n with since := d.tick }
     if d.get F.XI2C_STAT.RETRIES n = 8 then ((stuck.put F.XI2C_STAT.STATE 7 n).fault 261).irqSet F.HOST_IRQ_CAUSE.XI2C
     else if retry then stuck else (stuck.fault 260 n).irqSet F.HOST_IRQ_CAUSE.XI2C) := by
  have hget (x : Xi2c) : ((d.put F.XI2C_STAT.STATE 6 n).setXi2c n x).get F.XI2C_STAT.RETRIES n = d.get F.XI2C_STAT.RETRIES n :=
    Dev.get_put_other d F.XI2C_STAT.STATE F.XI2C_STAT.RETRIES 6 n (by decide) (by decide) rfl (by decide)
  unfold Dev.xiStillLow
  dsimp only
  rw [hget]

end

/-- Settles O53: the commands by the controller's state, and the end of a recovery by SDA and its attempts. -/
theorem xI2cCommands : Obligations.XI2cCommands := by
  intro p n addr wlen rlen data sda c s d e x state busy recovering
  have hend (nack : Bool) : Gives (.xi2cTransferEnd n nack data c) s (e.xiEnd n nack data.toNat) := rfl
  have hstretch : Gives (.xi2cStretchTimeout n sda) s (d.xiStretch n sda) := rfl
  have hstuck : Gives (.xi2cSdaStuck n sda) s (d.xiStuck n sda) := rfl
  have hretry : Gives (.xi2cRecoveryRetry n sda) s (d.xiRetry n sda) := rfl
  have hxfer {d' : Dev} (hreach : s.reaches p (R.XI2C_CMD.off n)) (h : d.xiXfer p n addr.toNat wlen.toNat rlen.toNat = d') :
      Gives (.xi2cXfer p n addr wlen rlen) s d' := Gives.of_reach (·.xiXfer p n addr.toNat wlen.toNat rlen.toNat) rfl hreach h
  have hreset {d' : Dev} (hreach : s.reaches p (R.XI2C_CMD.off n)) (h : e.xiReset n sda = d') :
      Gives (.xi2cReset p n sda c) s d' := Gives.of_reach (fun d => (d.atCycle c.val).xiReset n sda) rfl hreach h
  clear_value d
  refine ⟨fun hreach hw hr hsome hidle hon => ?xfer, fun hrun => ?running, fun hother => ?other,
    fun hreach => ⟨fun hlate => ?late, fun hsoon => ?reset⟩, fun hidle hon => ?stuck, fun hblocked => ?blocked,
    fun hsix hsince => ?retry, fun hnot => ?noRetry, fun z r hrec => ?boundary⟩
  case xfer => exact hxfer hreach (Dev.xiXfer_of_idle hw hr hsome hidle hon)
  case running =>
    intro y
    refine ⟨(hend true).of_eq (Dev.xiEnd_of_running hrun), fun hnone => ?written, fun hmin hmax => ?read,
      hstretch.of_eq (if_neg (not_not_intro hrun))⟩
    all_goals have hdone := (hend false).of_eq (Dev.xiEnd_of_running hrun)
    case written =>
      have hlen : (e.xi2c n).rlen = 0 := hnone
      rw [hlen] at hdone
      exact hdone
    case read =>
      have hlen : ((e.xi2c n).rlen == 0) = false := beq_false_of_ne (Nat.pos_iff_ne_zero.mp hmin)
      rw [hlen] at hdone
      exact hdone
  case other =>
    exact ⟨(hend true).of_eq (Dev.xiEnd_of_other hother), (hend false).of_eq (Dev.xiEnd_of_other hother),
      hstretch.of_eq (if_pos hother)⟩
  case late => exact hreset hreach (if_pos hlate)
  case reset => exact hreset hreach (Dev.xiReset_of_later (d := e) hsoon)
  case stuck => exact hstuck.of_eq (if_neg (Dev.not_xiBlocked hidle hon))
  case blocked => exact hstuck.of_eq (if_pos (Dev.xiBlocked_iff.mpr hblocked))
  case retry => exact hretry.of_eq ((if_pos ⟨hsix, hsince⟩).trans (Dev.xiRecover_put _ sda true))
  case noRetry => exact hretry.of_eq (if_neg fun h => hnot.elim (fun hne => hne h.1) (Nat.not_lt.mpr h.2))
  case boundary =>
    intro w stuck
    refine ⟨Dev.xiBoundary_of_early hrec, fun hover hhigh => (Dev.xiBoundary_of_over hrec hover).trans (if_pos hhigh),
      fun hover hlow => ?_⟩
    refine (Dev.xiBoundary_of_over hrec hover).trans ((if_neg (ne_true_of_eq_false hlow)).trans ((Dev.xiStillLow_eq _).trans ?_))
    have hx : w.xi2c n = { z.xi2c n with recover := none } := Dev.xi2c_setXi2c_self ..
    dsimp only
    rw [hx]
    rfl

end Sys2Proof.Machine
end

section
/-! SUPPORT. The registers that detections, triggers and task events reach; no other register changes with them (R38, R215, R308-R320),
nor with a store in the Vat, which counts its errors there (R97-R99). -/

namespace Sys2Proof.Machine

/-- A place in the register file that the fault block, the error records of the Vat, triggers and task events write. -/
inductive FaultReach : Nat → Prop
  | status (g : Nat) (h : g < 9) : FaultReach (R.FLT_STATUS.key g)
  | info (s : Nat) : FaultReach (R.FLT_SRC_INFO.key s)
  | detail (s : Nat) : FaultReach (R.FLT_SRC_DETAIL.key s)
  | state : FaultReach (R.FLT_STATE.key 0)
  | logStat : FaultReach (R.FLT_LOG_STAT.key 0)
  | pin : FaultReach (R.FLT_PIN.key 0)
  | port (p : Nat) (h : p < 8) : FaultReach (R.FRM_PORT_STAT.key p)
  | out (k : Nat) (h : k < 72) : FaultReach (R.OUT_STAT.key k)
  | syn (n : Nat) : FaultReach (R.SYN_STAT.key n)
  | orphan : FaultReach (R.ENG_ORPHAN.key 0)
  | irq : FaultReach (R.HOST_IRQ_CAUSE.key 0)
  | trace (r : Nat) (h : r < 4) : FaultReach (R.TDC_TR_STAT.key r)
  | eccUe : FaultReach (R.VAT_ECC_UE.key 0)
  | eccAddr : FaultReach (R.VAT_ECC_ADDR.key 0)
  | eccCe : FaultReach (R.VAT_ECC_CE.key 0)
  | poisonWr : FaultReach (R.VAT_POISON_WR.key 0)

open Classical in
/-- A place beyond the reach of detections. -/
noncomputable def calmAt (k : Nat) : Bool := decide (¬ FaultReach k)

theorem calmAt_of_not {k : Nat} (h : ¬ FaultReach k) : calmAt k = true := by
  simpa [calmAt] using h

theorem not_calmAt {k : Nat} (h : FaultReach k) : calmAt k = false := by
  simpa [calmAt] using h

/-- The register file beyond the reach of detections. -/
noncomputable def Dev.calm (d : Dev) : Tbl Word := d.regs.filter fun e => calmAt e.1

/-! ## What the calm part of a register file says -/

/-- A table's entry under a key that a filter keeps. -/
theorem Tbl.find?_filter_keep {α : Type} (keep : Nat → Bool) (t : Tbl α) (k : Nat) (h : keep k = true) :
    Tbl.find? (t.filter fun e => keep e.1) k = Tbl.find? t k := by
  induction t with
  | nil => rfl
  | cons e r ih =>
    obtain ⟨a, v⟩ := e
    by_cases hkeep : keep a = true
    · rw [List.filter_cons_of_pos (by simpa using hkeep), Tbl.find?, Tbl.find?, ih]
    · have hne : a ≠ k := fun heq => hkeep (heq ▸ h)
      rw [List.filter_cons_of_neg (by simpa using hkeep), ih, Tbl.find?, if_neg hne]

/-- An entry set under a key that a filter drops. -/
theorem Tbl.filter_set_drop {α : Type} (keep : Nat → Bool) (t : Tbl α) (k : Nat) (v : α) (h : keep k = false) :
    (Tbl.set t k v).filter (fun e => keep e.1) = t.filter fun e => keep e.1 := by
  induction t with
  | nil => simp [Tbl.set, h]
  | cons e r ih =>
    obtain ⟨a, w⟩ := e
    unfold Tbl.set
    split
    · simp [h]
    · split
      · next heq => simp [heq, h]
      · simp only [List.filter_cons, ih]

/-- A register beyond the reach of detections reads as the calm part says. -/
theorem Dev.rd_of_calm {d e : Dev} (h : d.calm = e.calm) {r : Reg} {n : Nat} (hr : ¬ FaultReach (r.key n)) : d.rd r n = e.rd r n := by
  have hfind (x : Dev) : Tbl.find? x.calm (r.key n) = Tbl.find? x.regs (r.key n) :=
    Tbl.find?_filter_keep calmAt _ _ (calmAt_of_not hr)
  unfold Dev.rd Tbl.getD
  rw [← hfind d, ← hfind e, h]

theorem Dev.get_of_calm {d e : Dev} (h : d.calm = e.calm) {f : Fld} {n : Nat} (hr : ¬ FaultReach (f.reg.key n)) :
    d.get f n = e.get f n := by
  unfold Dev.get
  rw [Dev.rd_of_calm h hr]

/-! ## Registers within the reach -/

section
variable (d : Dev)

theorem Dev.calm_wr {r : Reg} {n : Nat} (h : FaultReach (r.key n)) (v : Nat) : (d.wr r v n).calm = d.calm :=
  Tbl.filter_set_drop calmAt _ _ _ (not_calmAt h)

theorem Dev.calm_put {f : Fld} {n : Nat} (h : FaultReach (f.reg.key n)) (v : Nat) : (d.put f v n).calm = d.calm := d.calm_wr h _

theorem Dev.calm_incSat {f : Fld} {n : Nat} (h : FaultReach (f.reg.key n)) (by' : Nat) : (d.incSat f n by').calm = d.calm := d.calm_wr h _

theorem Dev.calm_incWrap {f : Fld} {n : Nat} (h : FaultReach (f.reg.key n)) (by' : Nat) : (d.incWrap f n by').calm = d.calm :=
  d.calm_wr h _

theorem Dev.calm_setW1c {f : Fld} {n : Nat} (h : FaultReach (f.reg.key n)) : (d.setW1c f n).calm = d.calm := d.calm_wr h _

theorem Dev.calm_congr {d e : Dev} (h : d.regs = e.regs) : d.calm = e.calm := congrArg (List.filter _) h

theorem Dev.calm_ite {c : Prop} [Decidable c] {x y z : Dev} (hx : x.calm = z.calm) (hy : y.calm = z.calm) :
    (if c then x else y).calm = z.calm := by
  split
  · exact hx
  · exact hy

theorem Dev.calm_foldl {α : Type} (f : Dev → α → Dev) (l : List α) (hf : ∀ d, ∀ x ∈ l, (f d x).calm = d.calm) (d : Dev) :
    (l.foldl f d).calm = d.calm := by
  induction l generalizing d with
  | nil => rfl
  | cons x r ih =>
    exact (ih (fun d y hy => hf d y (List.mem_cons_of_mem x hy)) _).trans (hf d x List.mem_cons_self)

theorem Dev.calm_foldl_fst {α β : Type} (f : Dev × β → α → Dev × β) (l : List α) (hf : ∀ p, ∀ x ∈ l, (f p x).1.calm = p.1.calm)
    (p : Dev × β) : (l.foldl f p).1.calm = p.1.calm := by
  induction l generalizing p with
  | nil => rfl
  | cons x r ih =>
    exact (ih (fun p y hy => hf p y (List.mem_cons_of_mem x hy)) _).trans (hf p x List.mem_cons_self)

/-! ## Task events, safe states and triggers -/

theorem Dev.makeReady_regs (t : Nat) : (d.makeReady t).regs = d.regs := by
  unfold Dev.makeReady
  extract_lets x
  split
  · rfl
  · split <;> rfl

theorem Dev.calm_taskEvent (e i source : Nat) : (d.taskEvent e i source).calm = d.calm := by
  unfold Dev.taskEvent
  extract_lets ts live
  refine Dev.calm_ite (d.calm_incWrap .orphan 1) ?_
  refine (Dev.calm_foldl _ _ (fun d t _ => Dev.calm_congr (d.makeReady_regs t)) _).trans (Dev.calm_ite rfl rfl)

theorem Dev.calm_event (n : Nat) : (d.event n).calm = d.calm := Dev.calm_ite (d.calm_taskEvent _ _ _) rfl

theorem Dev.calm_safeEnter {k : Nat} (hk : k < 72) : (d.safeEnter k).calm = d.calm := by
  unfold Dev.safeEnter
  refine Dev.calm_ite rfl ?_
  extract_lets x st e
  have he : e.calm = d.calm := (Dev.calm_put _ (f := F.OUT_STAT.SSTATE) (.out k hk) _).trans
    (d.calm_put (f := F.OUT_STAT.SAFE) (.out k hk) _)
  exact Dev.calm_ite ((e.calm_put (f := F.SYN_STAT.HOLD) (.syn _) _).trans he) he

theorem Dev.calm_safeEnterFor (source : Nat) : (d.safeEnterFor source).calm = d.calm :=
  Dev.calm_foldl _ _ (fun d _ hk => Dev.calm_ite (d.calm_safeEnter (List.mem_range.mp hk)) rfl) d

theorem Dev.calm_trMiss {r : Nat} (hr : r < 4) (src : Nat) : (d.trMiss r src).1.calm = d.calm := by
  unfold Dev.trMiss
  extract_lets x
  split
  · exact d.calm_put (f := F.TDC_TR_STAT.QUEUED) (.trace r hr) 1
  · exact d.calm_incSat (f := F.TDC_TR_STAT.MISSED) (.trace r hr) 1

theorem Dev.calm_trTrigger {r : Nat} (hr : r < 4) (src : Nat) : (d.trTrigger r src).1.calm = d.calm := by
  unfold Dev.trTrigger
  split
  · split
    · exact d.calm_incSat (f := F.TDC_TR_STAT.MISSED) (.trace r hr) 1
    · rfl
  · exact d.calm_put (f := F.TDC_TR_STAT.STATE) (.trace r hr) 2
  · split
    · exact d.calm_trMiss hr src
    · rfl
  · exact d.calm_trMiss hr src

theorem Dev.calm_trSource (trig ix : Nat) : (d.trSource trig ix).1.calm = d.calm := by
  refine Dev.calm_foldl_fst _ _ (fun p r hr => ?_) _
  split
  · exact p.1.calm_trTrigger (List.mem_range.mp hr) _
  · rfl

/-! ## Interrupts and the fault block -/

theorem Dev.msixSend_regs (f v : Nat) : (d.msixSend f v).regs = d.regs := by
  unfold Dev.msixSend
  split
  · rfl
  · split <;> rfl

theorem Dev.calm_irqRefresh : d.irqRefresh.calm = d.calm := by
  unfold Dev.irqRefresh
  extract_lets e on x
  have he : e.calm = d.calm := d.calm_put (f := F.HOST_IRQ_CAUSE.FAULT) .irq _
  exact (Dev.calm_ite (Dev.calm_congr (e.msixSend_regs 0 0)) rfl).trans he

theorem Dev.calm_irqSet {f : Fld} (hf : f.reg = R.HOST_IRQ_CAUSE) : (d.irqSet f).calm = d.calm :=
  (Dev.calm_irqRefresh _).trans (d.calm_setW1c (hf ▸ .irq))

theorem Dev.calm_logQueue (e : LogEntry) : (d.logQueue e).calm = d.calm := by
  unfold Dev.logQueue
  refine Dev.calm_ite rfl (Dev.calm_ite ?_ (Dev.calm_ite ?_ ?_))
  · exact (Dev.calm_put _ (f := F.FLT_LOG_STAT.LEVEL) .logStat _)
  · exact (Dev.calm_incSat _ (f := F.FLT_LOG_STAT.DROPPED) .logStat 1).trans (Dev.calm_put _ (f := F.FLT_LOG_STAT.LEVEL) .logStat _)
  · exact (Dev.calm_incSat _ (f := F.FLT_LOG_STAT.DROPPED) .logStat 1)

theorem Dev.calm_faultPulse : d.faultPulse.calm = d.calm := by
  unfold Dev.faultPulse
  extract_lets e
  have he : e.calm = d.calm := Dev.calm_ite (d.calm_put (f := F.FLT_PIN.LOW) .pin 1) rfl
  exact (Dev.calm_congr rfl).trans he

theorem Dev.calm_framesStop : d.framesStop.calm = d.calm := by
  unfold Dev.framesStop
  extract_lets e
  have he : e.calm = d.calm :=
    Dev.calm_foldl _ _ (fun d p hp => d.calm_put (f := F.FRM_PORT_STAT.STATE) (.port p (List.mem_range.mp hp)) 0) d
  exact (Dev.calm_congr rfl).trans he

theorem Dev.calm_enterStopped : d.enterStopped.calm = d.calm := by
  unfold Dev.enterStopped
  extract_lets e x
  have he : e.calm = d.calm := (Dev.calm_framesStop _).trans ((Dev.calm_put _ (f := F.FLT_PIN.LOW) .pin 1).trans
    (d.calm_put (f := F.FLT_STATE.STOPPED) .state 1))
  clear_value e
  rw [← he]
  exact (Dev.calm_foldl _ _ (fun d k hk => d.calm_safeEnter (List.mem_range.mp hk)) _).trans (Dev.calm_congr rfl)

theorem Dev.evtFaults_regs : d.evtFaults.regs = d.regs := by
  have hdrive (d : Dev) (p : Nat) (lvl : Bool) (at' : Int) : (d.evtDrive p lvl at').regs = d.regs := by
    unfold Dev.evtDrive
    split <;> rfl
  unfold Dev.evtFaults
  generalize List.range 16 = l
  induction l generalizing d with
  | nil => rfl
  | cons p r ih =>
    refine (ih _).trans ?_
    dsimp only
    split
    · exact hdrive ..
    · rfl

theorem Dev.calm_firstNote (s : Nat) : (d.firstNote s).calm = d.calm := by
  unfold Dev.firstNote
  refine Dev.calm_ite ?_ (Dev.calm_ite (d.calm_put (f := F.FLT_STATE.FIRST) .state s) rfl)
  exact (Dev.calm_put _ (f := F.FLT_STATE.FIRST) .state s).trans (d.calm_setW1c (f := F.FLT_STATE.FIRST_VALID) .state)

theorem Dev.calm_detectOne {s : Nat} (hs : s < 288) (inst detail : Nat) (forced wasActive : Bool) :
    (d.detectOne s inst detail forced wasActive).calm = d.calm := by
  unfold Dev.detectOne
  extract_lets g had cls d1 d2 d3 d4 stopping flags d5 d6 d7 d8
  have h1 : d1.calm = d.calm := d.calm_wr (r := R.FLT_STATUS) (.status g (by omega)) _
  have h2 : d2.calm = d.calm := ((Dev.calm_put _ (f := F.FLT_SRC_INFO.INSTANCE) (.info s) _).trans
    (d1.calm_incSat (f := F.FLT_SRC_INFO.COUNT) (.info s) 1)).trans h1
  have h4 : d4.calm = d.calm := ((d3.calm_firstNote s).trans (d2.calm_wr (r := R.FLT_SRC_DETAIL) (.detail s) _)).trans h2
  have h5 : d5.calm = d.calm := (Dev.calm_ite rfl (d4.calm_logQueue _)).trans h4
  have h6 : d6.calm = d.calm := (Dev.calm_ite d5.calm_faultPulse rfl).trans h5
  have h7 : d7.calm = d.calm := (Dev.calm_ite d6.calm_enterStopped (Dev.calm_ite (d6.calm_safeEnterFor s) rfl)).trans h6
  have h8 : d8.calm = d.calm := (Dev.calm_ite rfl (d7.calm_event _)).trans h7
  exact (Dev.calm_congr (Dev.evtFaults_regs _)).trans (d8.calm_irqRefresh.trans h8)

theorem Dev.calm_trMissed (rs : List Nat) : (d.trMissed rs).calm = d.calm := by
  refine Dev.calm_foldl _ _ (fun d r _ => ?_) d
  have hone : (d.detectOne 165 r 0 false (d.faultActive 165)).calm = d.calm := d.calm_detectOne (by decide) ..
  exact (Dev.calm_ite rfl (Dev.calm_trSource _ 3 165)).trans hone

theorem Dev.calm_trHit (trig ix : Nat) : (d.trHit trig ix).calm = d.calm :=
  (Dev.calm_trMissed _ _).trans (d.calm_trSource trig ix)

theorem Dev.calm_ueNote (w origin : Nat) : (d.ueNote w origin).calm = d.calm :=
  (Dev.calm_put _ (f := F.VAT_ECC_ADDR.WORD) .eccAddr _).trans ((Dev.calm_put _ (f := F.VAT_ECC_ADDR.ORIGIN) .eccAddr _).trans
    ((Dev.calm_setW1c _ (f := F.VAT_ECC_ADDR.VALID) .eccAddr).trans (d.calm_incSat (f := F.VAT_ECC_UE.COUNT) .eccUe 1)))

theorem Dev.calm_detectHit {s : Nat} (hs : s < 288) (inst detail : Nat) (forced wasActive : Bool) :
    (d.detectHit s inst detail forced wasActive).calm = d.calm :=
  (Dev.calm_ite rfl (Dev.calm_trHit _ 3 s)).trans (d.calm_detectOne hs inst detail forced wasActive)

theorem Dev.calm_mapTouch : d.mapTouch.calm = d.calm := by
  unfold Dev.mapTouch
  extract_lets n
  split
  · rfl
  · extract_lets o met
    refine (Dev.calm_foldl _ _ (fun d _ _ => ?_) _).trans (Dev.calm_foldl _ _ (fun d w _ => ?_) d)
    · exact (Dev.calm_detectHit (s := 66) _ (by decide) ..).trans (d.calm_incSat (f := F.VAT_ECC_CE.COUNT) .eccCe 1)
    · exact (Dev.calm_detectHit (s := 64) _ (by decide) ..).trans (d.calm_ueNote w 4)

/-- R308: a detection of a source changes the registers within its reach alone. -/
theorem Dev.calm_detect {s : Nat} (hs : s < 288) (inst detail : Nat) (forced wasActive : Bool) :
    (d.detect s inst detail forced wasActive).calm = d.calm :=
  (Dev.calm_detectHit _ hs inst detail forced wasActive).trans (Dev.calm_ite d.calm_mapTouch rfl)

theorem Dev.calm_fault {s : Nat} (hs : s < 288) (inst detail : Nat) : (d.fault s inst detail).calm = d.calm := d.calm_detect hs ..

theorem Dev.calm_levelOn {s : Nat} (hs : s < 288) (inst detail : Nat) : (d.levelOn s inst detail).calm = d.calm :=
  Dev.calm_ite rfl (Dev.calm_ite rfl (Dev.calm_detect _ hs ..))

/-! ## Errors and stores of the Vat -/

theorem Dev.calm_ueRecord (w origin : Nat) : (d.ueRecord w origin).calm = d.calm :=
  (Dev.calm_fault _ (by decide) 0 0).trans (d.calm_ueNote w origin)

theorem Dev.calm_ceCount : d.ceCount.calm = d.calm :=
  (Dev.calm_fault _ (by decide) 0 0).trans (d.calm_incSat (f := F.VAT_ECC_CE.COUNT) .eccCe 1)

theorem Dev.calm_poisonKept : d.poisonKept.calm = d.calm :=
  (Dev.calm_fault _ (by decide) 0 0).trans (d.calm_incSat (f := F.VAT_POISON_WR.COUNT) .poisonWr 1)

theorem Dev.calm_vatTouch (a n origin : Nat) : (d.vatTouch a n origin).calm = d.calm :=
  Dev.calm_foldl _ _ (fun d w _ => Dev.calm_ite (d.calm_ueRecord w origin) (Dev.calm_ite d.calm_ceCount rfl)) d

theorem Dev.calm_eccWrite (a n w : Nat) : (d.eccWrite a n w).calm = d.calm :=
  Dev.calm_ite rfl (Dev.calm_ite ((Dev.calm_poisonKept _).trans (d.calm_ueRecord w 1)) (Dev.calm_ite (Dev.calm_ceCount _) rfl))

theorem Dev.calm_vatStore (a : Nat) (l : List Byte) : (d.vatStore a l).calm = d.calm :=
  Dev.calm_foldl _ _ (fun d w _ => d.calm_eccWrite a l.length w) _

theorem Dev.calm_ctxShow (a n : Nat) : (d.ctxShow a n).calm = d.calm := by
  unfold Dev.ctxShow
  extract_lets b i j
  exact Dev.calm_ite rfl (Dev.calm_foldl _ _ (fun d m _ => Dev.calm_ite rfl (d.calm_vatStore _ _)) d)

end

end Sys2Proof.Machine
end

section
/-! SUPPORT and proof of O54. Commands of the FSPI controller (R332, R356, R366). -/

namespace Sys2Proof.Machine

/-- No detection writes BOOT_STAT: the places within reach lie elsewhere in their 256 bytes, but for FLT_STATE. -/
theorem bootStat_calm : ¬ FaultReach (R.BOOT_STAT.key 0) := by
  generalize hk : R.BOOT_STAT.key 0 = k
  have hboot : k = 0x09000000 := hk.symm
  intro h
  cases h with
  | status g hg =>
    have hplace : 0x08F00040 + 4 * g = 0x09000000 := hboot
    omega
  | info s =>
    have hplace : 0x08F00204 + 2 ^ 28 * s = 0x09000000 := hboot
    omega
  | detail s =>
    have hplace : 0x08F00208 + 2 ^ 28 * s = 0x09000000 := hboot
    omega
  | port p hp =>
    have hplace : 0x08C00004 + 256 * p = 0x09000000 := hboot
    omega
  | out k hk =>
    have hplace : 0x0870402C + 64 * k = 0x09000000 := hboot
    omega
  | syn n =>
    have hplace : 0x08700014 + 256 * n = 0x09000000 := hboot
    omega
  | trace r hr =>
    have hplace : 0x08904014 + 64 * r = 0x09000000 := hboot
    omega
  | state | logStat | pin | orphan | irq | eccUe | eccAddr | eccCe | poisonWr => exact absurd hboot (by decide)

section
variable {d : Dev}

/-! ## The start of a command -/

/-- The FSPI controller busy with a command. -/
def Dev.fspiBegun (d : Dev) (op mode n : Nat) : Dev :=
  { (d.put F.FSPI_STAT.STATE 1).put F.FSPI_STAT.ABORT_LATE 0 with
    host := { d.host with fspi := ⟨op, mode, d.get F.FSPI_ADDR.VALUE, d.get F.FSPI_VAT.VALUE, n, false, none⟩ } }

theorem Dev.step_fspiBegun (op mode n : Nat) : (d.fspiBegun op mode n).get F.BOOT_STAT.STEP = d.get F.BOOT_STAT.STEP := by
  have hregs : (d.fspiBegun op mode n).regs = ((d.put F.FSPI_STAT.STATE 1).put F.FSPI_STAT.ABORT_LATE 0).regs := rfl
  rw [Dev.get_congr _ _ hregs, Dev.get_put_ne _ F.FSPI_STAT.ABORT_LATE F.BOOT_STAT.STEP 0 0 0 (by decide),
    Dev.get_put_ne _ F.FSPI_STAT.STATE F.BOOT_STAT.STEP 1 0 0 (by decide)]

/-- What the command reads of the Vat before it goes out: a PROGRAM its data, with the context entries as they stand (R225). -/
def Dev.fspiRead (d : Dev) (op v n : Nat) : Dev := if op = 2 then (d.ctxShow v n).vatTouch v n 4 else d

theorem Dev.step_fspiRead (op v n : Nat) : (d.fspiRead op v n).get F.BOOT_STAT.STEP = d.get F.BOOT_STAT.STEP :=
  Dev.get_of_calm (Dev.calm_ite ((Dev.calm_vatTouch _ v n 4).trans (d.calm_ctxShow v n)) rfl) bootStat_calm

/-- R356, R366: an accepted command starts; before boot step 7 nothing goes out. -/
theorem Dev.fspiStart_eq (op mode n : Nat) : d.fspiStart op mode n =
    (let a := d.get F.FSPI_ADDR.VALUE
     let v := d.get F.FSPI_VAT.VALUE
     let e := (d.fspiBegun op mode n).fspiRead op v n
     if d.get F.BOOT_STAT.STEP < 7 then e
     else (flashSent op mode a (if op = 2 then e.vbytes v n else [])).foldl (fun y o => y.emit o) e) := by
  have hstep : ((d.fspiBegun op mode n).fspiRead op (d.get F.FSPI_VAT.VALUE) n).get F.BOOT_STAT.STEP = d.get F.BOOT_STAT.STEP :=
    (Dev.step_fspiRead ..).trans (Dev.step_fspiBegun ..)
  dsimp only
  rw [← hstep]
  rfl

/-! ## The conditions of a command -/

theorem Dev.fspiTaken_false (h : ¬ (d.get F.BOOT_STAT.STEP = 7 ∨ d.get F.BOOT_STAT.RESTART = 1)) : d.fspiTaken = false := by
  unfold Dev.fspiTaken
  simpa using h

section
variable {p : Path} {len : Nat} (hidle : d.get F.FSPI_STAT.STATE ≠ 1)
  (hfree : ¬ (d.get F.BOOT_STAT.STEP = 7 ∨ d.get F.BOOT_STAT.RESTART = 1))
include hidle hfree

/-- R356: nothing holds the flash. -/
theorem Dev.fspi_unheld : ¬ ((decide (d.get F.FSPI_STAT.STATE = 1) || d.fspiTaken) = true) := by
  rw [Dev.fspiTaken_false hfree, decide_eq_false hidle]
  decide

/-- R356: a READ inside the Vat, in a mode that exists; LEN 0 stands for 2^24. -/
theorem Dev.fspiCmd_read {mode n : Nat} (hn : (if len = 0 then 2 ^ 24 else len) = n) (hmode : mode ≠ 3)
    (hfits : d.get F.FSPI_VAT.VALUE + n ≤ 2 ^ 26) : d.fspiCmd p 1 mode len = d.fspiStart 1 mode n := by
  have hlen : (if 1 = 1 ∧ len = 0 then 2 ^ 24 else len) = n := by simpa using hn
  unfold Dev.fspiCmd
  dsimp only
  rw [hlen, if_neg (by omega), if_neg (by omega), if_neg (Dev.fspi_unheld hidle hfree)]

/-- R356: a PROGRAM inside one page of the flash and the Vat. -/
theorem Dev.fspiCmd_program (hmin : 1 ≤ len) (hmax : len ≤ 256) (hpage : d.get F.FSPI_ADDR.VALUE % 256 + len ≤ 256)
    (hfits : d.get F.FSPI_VAT.VALUE + len ≤ 2 ^ 26) : d.fspiCmd p 2 0 len = d.fspiStart 2 0 len := by
  unfold Dev.fspiCmd
  dsimp only
  rw [if_neg (by omega : ¬ (2 = 1 ∧ len = 0)), if_neg (by omega), if_neg (by omega), if_neg (Dev.fspi_unheld hidle hfree)]

theorem Dev.fspiCmd_erase : d.fspiCmd p 3 0 0 = d.fspiStart 3 0 0 := by
  unfold Dev.fspiCmd
  dsimp only
  rw [if_neg (by omega : ¬ (3 = 1 ∧ 0 = 0)), if_neg (by omega), if_neg (by omega), if_neg (Dev.fspi_unheld hidle hfree)]

end

/-- R332: the flash's opcode for a READ of each mode. -/
theorem flashSent_read {mode : Nat} (hmode : mode < 4) (hreal : mode ≠ 3) (a : Nat) (l : List Byte) :
    flashSent 1 mode a l = [.flash (if mode = 0 then 0x03 else if mode = 1 then 0xEB else 0xED) a []] := by
  interval_cases mode
  · rfl
  · rfl
  · rfl
  · exact absurd rfl hreal

/-! ## ABORT and the end -/

theorem Dev.fspiAbort_of_running {p : Path} (hrun : d.get F.FSPI_STAT.STATE = 1)
    (hfree : ¬ (d.get F.BOOT_STAT.STEP = 7 ∨ d.get F.BOOT_STAT.RESTART = 1)) :
    d.fspiAbort p = { d with host := { d.host with fspi := { d.host.fspi with abort := true } } } :=
  if_pos ⟨hrun, by rw [Dev.fspiTaken_false hfree]; rfl⟩

theorem Dev.fspiAbort_of_late {p : Path} (hidle : d.get F.FSPI_STAT.STATE ≠ 1) (hdone : d.host.fspi.doneAt = some d.absCycle) :
    d.fspiAbort p = d.put F.FSPI_STAT.ABORT_LATE 1 := (if_neg fun h => hidle h.1).trans (if_pos hdone)

/-- R356: the code of an end, as conditions. -/
theorem fspiCode_eq (abort late : Bool) (op : Nat) : (if abort then 3 else if op ≠ 1 && late then 4 else 2) =
    if abort = true then 3 else if op ≠ 1 ∧ late = true then 4 else 2 := by
  simp only [ne_eq, Bool.and_eq_true, decide_eq_true_eq]

/-- R356: the end of a command that runs. -/
theorem Dev.fspiEnd_of_running {data : List Byte} {late : Bool} (hrun : d.get F.FSPI_STAT.STATE = 1) : d.fspiEnd data late =
    (let f := d.host.fspi
     let x := if f.op = 1 then d.vatUser f.vat (if f.abort then data.take f.len else sliceB data 0 f.len) else d
     let y : Dev := { x with host := { x.host with fspi := { f with doneAt := some x.absCycle } } }
     (y.put F.FSPI_STAT.STATE (if f.abort = true then 3 else if f.op ≠ 1 ∧ late = true then 4 else 2)).irqSet F.HOST_IRQ_CAUSE.FSPI) := by
  refine (if_neg (not_not_intro hrun)).trans ?_
  dsimp only
  rw [fspiCode_eq]

end

/-- Settles O54: every command by its conditions and its start, ABORT and the end by the controller's state. -/
theorem fspiCommands : Obligations.FspiCommands := by
  intro p mode len data late c s d e f a v state taken start sent
  have hend : Gives (.fspiCommandEnd data late c) s (e.fspiEnd data late) := rfl
  have hread {d' : Dev} (hreach : s.reaches p R.FSPI_CMD.off) (h : d.fspiCmd p 1 mode.toNat len.toNat = d') :
      Gives (.fspiRead p mode len) s d' := Gives.of_reach (·.fspiCmd p 1 mode.toNat len.toNat) rfl hreach h
  have hprogram {d' : Dev} (hreach : s.reaches p R.FSPI_CMD.off) (h : d.fspiCmd p 2 0 len.toNat = d') :
      Gives (.fspiProgram p len) s d' := Gives.of_reach (·.fspiCmd p 2 0 len.toNat) rfl hreach h
  have herase {d' : Dev} (hreach : s.reaches p R.FSPI_CMD.off) (h : d.fspiCmd p 3 0 0 = d') :
      Gives (.fspiErase p) s d' := Gives.of_reach (·.fspiCmd p 3 0 0) rfl hreach h
  have habort {d' : Dev} (hreach : s.reaches p R.FSPI_CMD.off) (h : e.fspiAbort p = d') :
      Gives (.fspiAbort p c) s d' := Gives.of_reach (fun d => (d.atCycle c.val).fspiAbort p) rfl hreach h
  clear_value d
  refine ⟨fun hreach hidle hfree => ⟨?read, fun hmin hmax hpage hfits => ?program, ?erase⟩,
    fun hreach => ⟨fun hrun hfree => ?abort, fun hidle hdone => ?late⟩,
    fun hrun => hend.of_eq (Dev.fspiEnd_of_running (d := e) hrun)⟩
  case read =>
    intro n hmode hfits
    refine hread hreach ((Dev.fspiCmd_read hidle hfree rfl hmode hfits).trans ((Dev.fspiStart_eq 1 mode.toNat n).trans ?_))
    dsimp only
    rw [flashSent_read mode.isLt hmode]
    rfl
  case program =>
    exact hprogram hreach ((Dev.fspiCmd_program hidle hfree hmin hmax hpage hfits).trans (Dev.fspiStart_eq 2 0 len.toNat))
  case erase => exact herase hreach ((Dev.fspiCmd_erase hidle hfree).trans (Dev.fspiStart_eq 3 0 0))
  case abort => exact habort hreach (Dev.fspiAbort_of_running (d := e) hrun hfree)
  case late => exact habort hreach (Dev.fspiAbort_of_late (d := e) hidle hdone)

end Sys2Proof.Machine
end

section
/-! SUPPORT and proof of O55. Self-tests, self-stamping and the TAP (R359-R363, R386). -/

namespace Sys2Proof.Machine

/-! ## What a stamp that reaches the measurement slots leaves -/

/-- The TDC channels, the time of the command and the tests: what no measurement or statistics slot changes. -/
def Dev.tdcView (d : Dev) : Tbl TdcCh × Nat × Nat × Test := (d.tdcs, d.tick, d.cycle, d.test)

section
variable (d : Dev)

theorem Dev.tdcView_of_still {d e : Dev} (h : d.still = e.still) : d.tdcView = e.tdcView := by
  have hview : d.still.tdcView = e.still.tdcView := congrArg Dev.tdcView h
  exact hview

theorem Dev.tdcView_setTdc {d e : Dev} (h : d.tdcView = e.tdcView) (c : Nat) (x : TdcCh) :
    (d.setTdc c x).tdcView = (e.setTdc c x).tdcView :=
  congrArg (fun v : Tbl TdcCh × Nat × Nat × Test => (Tbl.set v.1 c x, v.2)) h

theorem Dev.tdcView_ite {c : Prop} [Decidable c] {x y z : Dev} (hx : x.tdcView = z.tdcView) (hy : y.tdcView = z.tdcView) :
    (if c then x else y).tdcView = z.tdcView := by
  split
  · exact hx
  · exact hy

theorem Dev.tdcView_foldl {α : Type} (f : Dev → α → Dev) (hf : ∀ d x, (f d x).tdcView = d.tdcView) (l : List α) (d : Dev) :
    (l.foldl f d).tdcView = d.tdcView := by
  induction l generalizing d with
  | nil => rfl
  | cons x r ih => exact (ih _).trans (hf d x)

@[simp] theorem Dev.tdcView_put (f : Fld) (v n : Nat) : (d.put f v n).tdcView = d.tdcView := rfl
@[simp] theorem Dev.tdcView_putB (f : Fld) (v : Bool) (n : Nat) : (d.putB f v n).tdcView = d.tdcView := rfl
@[simp] theorem Dev.tdcView_incWrap (f : Fld) (n by' : Nat) : (d.incWrap f n by').tdcView = d.tdcView := rfl
@[simp] theorem Dev.tdcView_put64 (lo hi : Fld) (v n : Nat) : (d.put64 lo hi v n).tdcView = d.tdcView := rfl
@[simp] theorem Dev.tdcView_setMs (s : Nat) (x : MsSlot) : (d.setMs s x).tdcView = d.tdcView := rfl
@[simp] theorem Dev.tdcView_setSt (s : Nat) (x : StSlot) : (d.setSt s x).tdcView = d.tdcView := rfl
@[simp] theorem Dev.tdcView_event (n : Nat) : (d.event n).tdcView = d.tdcView := Dev.tdcView_of_still (d.event_still n)
@[simp] theorem Dev.tdcView_trHit (trig ix : Nat) : (d.trHit trig ix).tdcView = d.tdcView :=
  Dev.tdcView_of_still (d.trHit_still trig ix)

theorem Dev.tdcView_stSample (s : Nat) (v : Int) : (d.stSample s v).tdcView = d.tdcView := by
  unfold Dev.stSample
  exact Dev.tdcView_ite (by simp) (by simp)

theorem Dev.tdcView_stFeed (slot : Nat) (result : Option Int) : (d.stFeed slot result).tdcView = d.tdcView := by
  refine Dev.tdcView_foldl _ (fun d s => ?_) _ d
  refine Dev.tdcView_ite ?_ rfl
  cases result with
  | some v => exact d.tdcView_stSample s v
  | none => rfl

theorem Dev.tdcView_msEnd (s st : Nat) (result : Option Int) : (d.msEnd s st result).tdcView = d.tdcView := by
  unfold Dev.msEnd
  dsimp only
  rw [Dev.tdcView_trHit, Dev.tdcView_stFeed]
  exact Dev.tdcView_ite (by simp) (by simp)

theorem Dev.tdcView_msDone (s : Nat) (a b : MsEdge) : (d.msDone s a b).tdcView = d.tdcView :=
  (Dev.tdcView_msEnd _ s 4 _).trans (by simp)

theorem Dev.tdcView_msSettle (s : Nat) : (d.msSettle s).tdcView = d.tdcView := by
  unfold Dev.msSettle
  extract_lets x
  split
  · exact d.tdcView_msDone s _ _
  · rfl
  · exact Dev.tdcView_ite rfl rfl

theorem Dev.tdcView_msNative (s c : Nat) (e : MsEdge) : (d.msNative s c e).tdcView = d.tdcView := by
  unfold Dev.msNative
  extract_lets x sc pc n taken
  exact Dev.tdcView_ite (d.tdcView_msEnd s 5 none) (Dev.tdcView_ite (Dev.tdcView_msSettle _ s)
    (Dev.tdcView_ite (Dev.tdcView_msSettle _ s) rfl))

theorem Dev.tdcView_msWindow (s : Nat) (a e : MsEdge) : (d.msWindow s a e).tdcView = d.tdcView := by
  unfold Dev.msWindow
  extract_lets x n taken
  exact Dev.tdcView_ite rfl (Dev.tdcView_ite rfl (Dev.tdcView_ite (Dev.tdcView_msSettle _ s) rfl))

theorem Dev.tdcView_msDeckle (s c : Nat) (e : MsEdge) : (d.msDeckle s c e).tdcView = d.tdcView := by
  unfold Dev.msDeckle
  dsimp only
  split
  · exact Dev.tdcView_ite (d.tdcView_msWindow s _ e) rfl
  · refine Dev.tdcView_ite (Dev.tdcView_ite (d.tdcView_msEnd s 5 none) ?_) (Dev.tdcView_ite rfl rfl)
    exact (Dev.tdcView_foldl _ (fun d f => Dev.tdcView_ite rfl (d.tdcView_msWindow s e f)) _ _).trans (Dev.tdcView_msSettle _ s)

/-- R205-R207: a stamp changes no channel. -/
theorem Dev.tdcView_msStamp (c : Nat) (e : MsEdge) (s : Nat) : (d.msStamp c e s).tdcView = d.tdcView :=
  Dev.tdcView_ite rfl (Dev.tdcView_ite (d.tdcView_msDeckle s c e) (d.tdcView_msNative s c e))

/-! ## Self-stamping -/

/-- R362: what self-stamping leaves of the view: the channel's next record carries LOST. -/
theorem Dev.tdcView_selfStamp (c : Nat) (dev : Int) :
    (d.selfStamp c dev).tdcView = (d.setTdc c { d.tdc c with lost := true }).tdcView := by
  unfold Dev.selfStamp
  dsimp only
  refine (Dev.tdcView_foldl _ (fun d s => d.tdcView_msStamp c _ s) _ _).trans (Dev.tdcView_setTdc ?_ c _)
  exact Dev.tdcView_ite rfl rfl

theorem Dev.time_setTdc (c : Nat) (x : TdcCh) : (d.setTdc c x).time = d.time := rfl

theorem Dev.absCycle_setTdc (c : Nat) (x : TdcCh) : (d.setTdc c x).absCycle = d.absCycle := rfl

theorem Dev.tdc_of_view {d e : Dev} (h : d.tdcView = e.tdcView) (j : Nat) : d.tdc j = e.tdc j :=
  congrArg (fun v : Tbl TdcCh × Nat × Nat × Test => Tbl.getD v.1 j TdcCh.reset) h

theorem Dev.tdc_setTdc (c j : Nat) (x : TdcCh) : (d.setTdc c x).tdc j = if c = j then x else d.tdc j := by
  unfold Dev.tdc
  split
  · next heq => exact heq ▸ Tbl.getD_set_self ..
  · next hne => exact Tbl.getD_set_ne _ _ _ _ _ (Ne.symm hne)

/-- R362: self-stamping of several channels: time and tests stay, and each channel's next record carries LOST. -/
theorem Dev.selfStamp_foldl (dev : Dev → Nat → Int) (l : List Nat) (d : Dev) :
    let x := l.foldl (fun d c => d.freeNext.selfStamp c (dev d c)) d
    x.tick = d.tick ∧ x.cycle = d.cycle ∧ x.test = d.test ∧
      ∀ j, x.tdc j = if j ∈ l then { d.tdc j with lost := true } else d.tdc j := by
  induction l generalizing d with
  | nil => exact ⟨rfl, rfl, rfl, fun j => rfl⟩
  | cons c r ih =>
    have hview : (d.freeNext.selfStamp c (dev d c)).tdcView = (d.setTdc c { d.tdc c with lost := true }).tdcView :=
      d.freeNext.tdcView_selfStamp c (dev d c)
    obtain ⟨htick, hcycle, htest, htdc⟩ := ih (d.freeNext.selfStamp c (dev d c))
    refine ⟨htick.trans (congrArg (fun v => v.2.1) hview), hcycle.trans (congrArg (fun v => v.2.2.1) hview),
      htest.trans (congrArg (fun v => v.2.2.2) hview), fun j => ?_⟩
    rw [List.foldl_cons, htdc j, Dev.tdc_of_view hview j, Dev.tdc_setTdc]
    by_cases hj : c = j
    · subst hj
      simp
    · simp [hj, Ne.symm hj]

/-- R362: the channels that stamp the pulse. -/
theorem Dev.mem_selfStamping (hon : d.flag F.TST_SELF_CFG.ENABLE = true) (j : Nat) :
    j ∈ (List.range 136).filter d.selfStamping ↔ j < 136 ∧ d.get F.TST_SELF_CFG.FIRST ≤ j ∧ j ≤ d.get F.TST_SELF_CFG.LAST := by
  unfold Dev.selfStamping
  simp [hon]

/-- A range of one channel. -/
theorem Dev.selfStamping_one (hon : d.flag F.TST_SELF_CFG.ENABLE = true) {c : Nat} (hc : c < 136)
    (hfirst : d.get F.TST_SELF_CFG.FIRST = c) (hlast : d.get F.TST_SELF_CFG.LAST = c) :
    (List.range 136).filter d.selfStamping = [c] := by
  have hpred : d.selfStamping = fun j => j == c := by
    funext j
    unfold Dev.selfStamping
    rw [hon, hfirst, hlast, Bool.true_and, Bool.eq_iff_iff, decide_eq_true_iff, beq_iff_eq]
    omega
  rw [hpred, List.filter_beq, List.count_eq_one_of_mem List.nodup_range (List.mem_range.mpr hc)]
  rfl

/-- The device at the pulse of the present tick. -/
def Dev.atPulse : Dev := { d with cycle := 600, test := { d.test with lastTick := some d.tick } }

theorem Dev.selfPulse_of_due {reads : List SelfRead} (hon : d.flag F.TST_SELF_CFG.ENABLE = true)
    (hlast : d.test.lastTick ≠ some d.tick) : d.selfPulse reads =
      ((List.range 136).filter d.atPulse.selfStamping).foldl (fun d c => d.freeNext.selfStamp c (d.selfDev reads c)) d.atPulse := by
  refine if_neg ?_
  rw [hon, beq_false_of_ne hlast]
  decide

theorem Dev.selfDev_one (c : Fin 136) (dev : BitVec 8) : d.selfDev [⟨c, dev⟩] c = dev.toInt := by
  unfold Dev.selfDev
  simp

/-- R203: whether a channel's interpolator is stale in the present tick. -/
theorem Dev.interval_stale (c code : Nat) :
    (d.interval c code).2.2 = if d.tick % 2 = 0 then (d.tdc c).staleB else (d.tdc c).staleA := by
  unfold Dev.interval
  dsimp only
  rw [apply_ite Prod.fst, apply_ite Prod.snd]
  split <;> rfl

/-- R362: a channel that does not calibrate stamps the pulse. -/
theorem Dev.selfStamp_of_calibrated {c : Nat} {dev : Int}
    (hcal : (if d.tick % 2 = 0 then (d.tdc c).calB else (d.tdc c).calA).isSome = true) : d.selfStamp c dev =
      (let exact := d.exactCode c (d.pulseAt c)
       let code := (exact.2 + dev).toNat
       let t := (d.edgeLt (d.edgeXo c exact.1 code) c).toNat
       (List.range 64).foldl (fun z j => z.msStamp c ⟨t, (t : Int) - d.time.stepSum, (d.interval c code).2.2, d.absCycle⟩ j)
         (d.setTdc c { d.tdc c with lost := true })) := by
  have hopen : (if d.tick % 2 = 0 then (d.tdc c).calB.isNone else (d.tdc c).calA.isNone) = false := by
    rw [← Option.not_isSome, ← Option.not_isSome, ← apply_ite (fun o => !Option.isSome o), hcal]
    rfl
  unfold Dev.selfStamp
  dsimp only
  rw [hopen, if_neg Bool.false_ne_true, Dev.time_setTdc, Dev.absCycle_setTdc]

end

/-! ## Self-tests -/

/-- A key that a filter drops. -/
theorem Tbl.find?_filter_drop {α : Type} (keep : Nat → Bool) (t : Tbl α) (k : Nat) (h : keep k = false) :
    Tbl.find? (t.filter fun e => keep e.1) k = none := by
  induction t with
  | nil => rfl
  | cons e r ih =>
    obtain ⟨a, v⟩ := e
    by_cases hkeep : keep a = true
    · have hne : a ≠ k := fun heq => Bool.false_ne_true (h.symm.trans (heq ▸ hkeep))
      rw [List.filter_cons_of_pos (by simpa using hkeep), Tbl.find?, if_neg hne, ih]
    · rw [List.filter_cons_of_neg (by simpa using hkeep), ih]

section
variable {d : Dev}

/-- R360: what a self-test command waits for. -/
theorem Dev.bistFree_iff : (d.bistBusy || d.test.cmd.isSome) = false ↔ d.get F.TST_BIST_STAT.STATE ≠ 1 ∧ d.test.cmd = none := by
  unfold Dev.bistBusy
  simp

theorem Dev.bistCmd_unset {p : Path} (h : d.get F.TST_BIST_RANGE.COUNT = 0) :
    d.bistCmd p 1 0 = d.refuse p.code R.TST_BIST_CMD.off .combination := if_pos ⟨rfl, h⟩

section
variable {p : Path} (hfree : d.get F.TST_BIST_STAT.STATE ≠ 1 ∧ d.test.cmd = none)
include hfree

theorem Dev.bistCmd_vat {ok : Bool} (hset : 0 < d.get F.TST_BIST_RANGE.COUNT)
    (hok : d.view.bistRangeOk (d.get F.TST_BIST_RANGE.GRANULE) (d.get F.TST_BIST_RANGE.COUNT) = ok) :
    d.bistCmd p 1 0 = if ok then { d with test := { d.test with
      cmd := some (1, d.get F.TST_BIST_RANGE.GRANULE, d.get F.TST_BIST_RANGE.COUNT) } }
      else d.refuse p.code R.TST_BIST_CMD.off .state := by
  refine (if_neg fun h => Nat.pos_iff_ne_zero.mp hset h.2).trans ?_
  rw [Dev.bistFree_iff.mpr hfree, if_pos rfl, hok]
  cases ok <;> rfl

theorem Dev.bistCmd_engine {k : Nat} (hon : d.clusterOn k = true) (hunbound : d.clusterBound k = false) :
    d.bistCmd p 2 k = { d with test := { d.test with cmd := some (2, k, 0) } } := by
  unfold Dev.bistCmd
  dsimp only
  rw [Dev.bistFree_iff.mpr hfree, hon, hunbound]
  rfl

end

theorem Dev.bistAbortCmd_of_busy {p : Path} (h : d.get F.TST_BIST_STAT.STATE = 1) :
    d.bistAbortCmd p = { d with test := { d.test with cmd := some (3, 0, 0) } } := if_pos (beq_iff_eq.mpr h)

theorem Dev.bistAbortCmd_of_late {p : Path} (h : d.get F.TST_BIST_STAT.STATE ≠ 1) (hdone : d.test.doneAt = some d.absCycle) :
    d.bistAbortCmd p = d.put F.TST_BIST_STAT.ABORT_LATE 1 :=
  (if_neg (by unfold Dev.bistBusy; simpa using h)).trans (if_pos hdone)

theorem Dev.bistDone_of_none {fail : Option Nat} (h : d.test.run = none) : d.bistDone fail = d := by
  unfold Dev.bistDone
  rw [h]

/-- R360: the end of a self-test. -/
theorem Dev.bistDone_of_run {fail : Option Nat} {op a l : Nat} (h : d.test.run = some (op, a, l)) : d.bistDone fail =
    (let x := if op = 1 then d.vatZero a l else d.clusterZero a
     let y : Dev := { x with test := { x.test with run := none, doneAt := some x.absCycle } }
     (match fail with
      | none => y.put F.TST_BIST_STAT.STATE 2
      | some w =>
        let z := (y.put F.TST_BIST_STAT.STATE 3).put F.TST_BIST_STAT.WHERE w
        if op = 1 then z.fault 67 else z.fault 40 0 (a * 2 ^ 8)).testShow) := by
  unfold Dev.bistDone
  rw [h] <;> rfl

theorem Dev.bistDue_of_run {op a l : Nat} (h : d.test.run = some (op, a, l)) :
    d.bistDue = if d.test.start + (if op = 1 then l + 2 else 2000) ≤ d.tick then d.bistDone none else d := by
  unfold Dev.bistDue
  rw [h]
  rfl

/-- R360: what a tested range reads. -/
theorem Dev.read_vatZero (a l i : Nat) : Memory.read 0 (d.vatZero a l).vat.mem i =
    if a * 4096 ≤ i ∧ i < (a + l) * 4096 then 0 else Memory.read 0 d.vat.mem i := by
  have hmem : (d.vatZero a l).vat.mem = d.vat.mem.filter fun c => !decide (a * 4096 ≤ c.1 ∧ c.1 < (a + l) * 4096) := rfl
  unfold Memory.read Tbl.getD
  rw [hmem]
  split
  case isTrue h =>
    rw [Tbl.find?_filter_drop (fun k => !decide (a * 4096 ≤ k ∧ k < (a + l) * 4096)) _ _ (by rw [decide_eq_true h]; rfl)]
    rfl
  case isFalse h =>
    rw [Tbl.find?_filter_keep (fun k => !decide (a * 4096 ≤ k ∧ k < (a + l) * 4096)) _ _ (by rw [decide_eq_false h]; rfl)]

end

/-! ## The TAP -/

section
variable {d : Dev} {x : TapScan}

theorem Dev.tapLoad_of_reset (h : x.trst = false) : d.tapLoad x = { d with test := { d.test with ir := 1, held := true } } :=
  if_pos (by rw [h]; rfl)

/-- R363: the scan with an instruction in force. -/
def Dev.tapScanned (d : Dev) (x : TapScan) (ir : Nat) : Dev :=
  let y : Dev := { d with test := { d.test with ir := ir, held := false } }
  let e := if 3 ≤ ir then y.cellsDrive else y
  let e := e.emit (.tap (tapCapture ir x.pins))
  let e : Dev := if 2 ≤ ir then { e with test := { e.test with cells := x.shift } } else e
  if 3 ≤ ir then e.cellsDrive else e

/-- R363: the instruction that is loaded: one that drives pins with RESET_N low only. -/
theorem Dev.tapLoad_of_scan (h : x.trst = true) :
    d.tapLoad x = d.tapScanned x (if 3 ≤ x.ir.val ∧ d.boot.low = false then 0 else x.ir.val) := by
  have hir : (if (decide (3 ≤ x.ir.val) && !d.boot.low) = true then 0 else x.ir.val) =
      if 3 ≤ x.ir.val ∧ d.boot.low = false then 0 else x.ir.val := by
    simp only [Bool.and_eq_true, decide_eq_true_eq, Bool.not_eq_true']
  rw [← hir]
  exact if_neg (by rw [h]; decide)

/-- R363: an instruction that drives the pins does so before and after its scan. -/
theorem Dev.tapScanned_drives {ir : Nat} (h : 3 ≤ ir) : d.tapScanned x ir =
    (let y : Dev := { d with test := { d.test with ir := ir, held := false } }
     (({ (y.emit (.cells (d.test.cells.drop 1))).emit (.tap x.pins) with test := { y.test with cells := x.shift } } : Dev).emit
       (.cells (x.shift.drop 1)))) := by
  have hpins : tapCapture ir x.pins = x.pins := (if_neg (by omega)).trans (if_neg (by omega))
  unfold Dev.tapScanned
  dsimp only
  rw [if_pos h, if_pos h, if_pos (by omega), hpins]
  rfl

end

/-- Settles O55: the commands and ends of a self-test, the pulse channel by channel, and the TAP by its instruction. -/
theorem testCommands : Obligations.TestCommands := by
  intro p k fail ch dev reads scan c s d e free g n
  have hvat {d' : Dev} (hreach : s.reaches p R.TST_BIST_CMD.off) (h : d.bistCmd p 1 0 = d') : Gives (.bistVat p) s d' :=
    Gives.of_reach (·.bistCmd p 1 0) rfl hreach h
  have hengine {d' : Dev} (hreach : s.reaches p R.TST_BIST_CMD.off) (h : d.bistCmd p 2 k = d') : Gives (.bistEngine p k) s d' :=
    Gives.of_reach (·.bistCmd p 2 k) rfl hreach h
  have habort {d' : Dev} (hreach : s.reaches p R.TST_BIST_CMD.off) (h : e.bistAbortCmd p = d') : Gives (.bistAbort p c) s d' :=
    Gives.of_reach (fun d => (d.atCycle c.val).bistAbortCmd p) rfl hreach h
  have hpass : Gives (.bistDone none c) s (e.bistDone none) := rfl
  have hfail : Gives (.bistDone (some fail) c) s (e.bistDone (some fail.toNat)) := rfl
  have hpulse (reads : List SelfRead) : Gives (.selfStampPulse reads) s (d.selfPulse reads) := rfl
  have htap : Gives (.tapInstruction scan) s (d.tapLoad scan) := rfl
  clear_value d
  refine ⟨fun hreach hfree => ⟨fun hzero => hvat hreach (Dev.bistCmd_unset hzero), fun hset hok => ?vat, fun hset hbad => ?vatBad,
      fun hon hunbound => hengine hreach (Dev.bistCmd_engine hfree hon hunbound)⟩,
    fun hreach => ⟨fun hbusy => habort hreach (Dev.bistAbortCmd_of_busy (d := e) hbusy),
      fun hidle hdone => habort hreach (Dev.bistAbortCmd_of_late (d := e) hidle hdone)⟩,
    fun hnone => ⟨hpass.of_eq (Dev.bistDone_of_none (d := e) hnone), hfail.of_eq (Dev.bistDone_of_none (d := e) hnone)⟩,
    fun op a l hrun => ⟨hpass.of_eq (Dev.bistDone_of_run (d := e) hrun), hfail.of_eq (Dev.bistDone_of_run (d := e) hrun)⟩,
    fun x op a l hrun => ⟨fun hdue => (Dev.bistDue_of_run hrun).trans (if_pos hdue),
      fun hearly => (Dev.bistDue_of_run hrun).trans (if_neg (Nat.not_le.mpr hearly))⟩,
    fun x a l i => Dev.read_vatZero a l i, fun hoff => ?off, fun hon hlast => ?pulse,
    fun hreset => htap.of_eq (Dev.tapLoad_of_reset hreset), fun hscan => ?scan⟩
  case vat => exact hvat hreach ((Dev.bistCmd_vat hfree hset hok).trans (if_pos rfl))
  case vatBad => exact hvat hreach ((Dev.bistCmd_vat hfree hset hbad).trans (if_neg Bool.false_ne_true))
  case off =>
    refine (hpulse reads).of_eq (if_pos ?_)
    rw [Bool.or_eq_true, Bool.not_eq_true', beq_iff_eq]
    exact hoff
  case pulse =>
    intro first last
    have hdue (reads : List SelfRead) := (hpulse reads).of_eq (d.selfPulse_of_due hon hlast)
    refine ⟨⟨_, hdue reads, ?_⟩, fun hfirst hend hcal => ?_⟩
    · obtain ⟨htick, hcycle, htest, htdc⟩ := Dev.selfStamp_foldl (fun d c => d.selfDev reads c)
        ((List.range 136).filter d.atPulse.selfStamping) d.atPulse
      refine ⟨congrArg Test.lastTick htest, htick, hcycle, fun j => (htdc j).trans ?_⟩
      rw [if_congr ((d.atPulse.mem_selfStamping hon j).trans (and_iff_right j.isLt)) rfl rfl]
      rfl
    · intro y exact code t
      have hone := hdue [⟨ch, dev⟩]
      rw [d.atPulse.selfStamping_one hon ch.isLt hfirst hend, List.foldl_cons, List.foldl_nil, Dev.selfDev_one] at hone
      refine hone.of_eq ((d.atPulse.freeNext.selfStamp_of_calibrated hcal).trans ?_)
      dsimp only
      rw [Dev.interval_stale, Dev.interval_stale]
      rfl
  case scan =>
    intro ir y shifted
    have hload : Gives (.tapInstruction scan) s (d.tapScanned scan ir) := htap.of_eq (Dev.tapLoad_of_scan hscan)
    clear_value ir
    refine ⟨fun hir => ?bypass, fun hir => ?idcode, fun hir => ?sample, fun hir => hload.of_eq (Dev.tapScanned_drives hir)⟩
    all_goals
      subst hir
      exact hload

end Sys2Proof.Machine
end

section
/-! SUPPORT of O46. What the links send in a tick: each link that is not in loop-back sends what its own state and the device give (R269-R271,
R282). -/

namespace Sys2Proof.Machine

/-! ## A device whose links have sent -/

/-- The device with other links and outputs, all else as it was. -/
def Dev.linksSent (e : Dev) (l : Tbl KlLink) (o : List Out) : Dev := { e with kl := { e.kl with links := l }, outs := o }

/-- What a link has heard: what sending does not change. -/
def KlLink.heard (x : KlLink) : KlLink :=
  { x with txScr := 0, count := 0, txs := [], serve := none, again := [], resent := none }

section
variable (e : Dev) (l : Tbl KlLink) (o : List Out)

theorem Dev.linksSent_self : e.linksSent e.kl.links e.outs = e := rfl

theorem Dev.klink_linksSent (k : Nat) : (e.linksSent l o).klink k = Tbl.getD l k KlLink.reset := rfl

theorem Dev.setKlink_linksSent (k : Nat) (x : KlLink) : (e.linksSent l o).setKlink k x = e.linksSent (Tbl.set l k x) o := rfl

theorem Dev.emit_linksSent (x : Out) : (e.linksSent l o).emit x = e.linksSent l (o ++ [x]) := rfl

theorem Dev.loopDepth_linksSent (kind ix : Nat) : (e.linksSent l o).loopDepth kind ix = e.loopDepth kind ix := rfl

theorem Dev.get_linksSent (f : Fld) (n : Nat) : (e.linksSent l o).get f n = e.get f n := rfl

theorem Dev.linkFill_linksSent (burst : Option Nat) (n : Nat) : (e.linksSent l o).linkFill burst n = e.linkFill burst n := rfl

/-- R269: blocks leave. -/
theorem Dev.linkEmit_linksSent (k : Nat) (b : List LinkBlock) : (e.linksSent l o).linkEmit k b =
    (let x := Tbl.getD l k KlLink.reset
     e.linksSent (Tbl.set l k { x with txScr := (sendBlocks x.txScr b).2 }) (o ++ [.blocks k (sendBlocks x.txScr b).1])) := rfl

/-- R282: which burst a link sends is its own matter. -/
theorem Dev.burstNext_linksSent {k : Nat} (h : Tbl.getD l k KlLink.reset = e.klink k) :
    (e.linksSent l o).burstNext k = e.burstNext k := by
  have hlink : (e.linksSent l o).klink k = e.klink k := h
  unfold Dev.burstNext
  rw [hlink]
  rfl

/-- R274: the stamps of a channel do not lie in the links. -/
theorem Dev.stampScan_linksSent (c lo hi n i : Nat) : (e.linksSent l o).stampScan c lo hi n i = e.stampScan c lo hi n i := by
  induction n generalizing i with
  | zero => rfl
  | succ n ih =>
    unfold Dev.stampScan
    rw [ih]
    rfl

theorem Dev.stampIn_linksSent (c lo hi : Nat) : (e.linksSent l o).stampIn c lo hi = e.stampIn c lo hi := by
  unfold Dev.stampIn
  rw [Dev.stampScan_linksSent]
  rfl

theorem Dev.exportRecord_linksSent (tx : Nat) : (e.linksSent l o).exportRecord tx = e.exportRecord tx := by
  funext j
  unfold Dev.exportRecord
  dsimp only
  rw [Dev.stampIn_linksSent]
  rfl

theorem Dev.watermark_linksSent : (e.linksSent l o).watermark = e.watermark := rfl

section
variable {l : Tbl KlLink} (hheard : ∀ i, (Tbl.getD l i KlLink.reset).heard = (e.klink i).heard)
include hheard

/-- R280: LEAD_DIRECT is what the links have heard. -/
theorem Dev.leadDirect_linksSent : (e.linksSent l o).leadDirect = e.leadDirect := by
  have hpart {α : Type} (part : KlLink → α) (i : Nat) : part ((e.linksSent l o).klink i).heard = part (e.klink i).heard :=
    congrArg part (hheard i)
  have hsync (i : Nat) : ((e.linksSent l o).klink i).sync = (e.klink i).sync := hpart KlLink.sync i
  have hrx (i : Nat) : ((e.linksSent l o).klink i).rxTick = (e.klink i).rxTick := hpart KlLink.rxTick i
  have hframes (t : Nat) : (e.linksSent l o).framesOf t = e.framesOf t := by
    unfold Dev.framesOf
    simp only [hrx]
    rfl
  unfold Dev.leadDirect klLead klDev
  rw [hframes]
  simp only [hsync]
  rfl

/-- R270: a link's frame does not depend on what the others have sent. -/
theorem Dev.klFrame_linksSent {k : Nat} (h : Tbl.getD l k KlLink.reset = e.klink k) (tx : Nat) :
    (e.linksSent l o).klFrame k tx = e.klFrame k tx := by
  have hlink : (e.linksSent l o).klink k = e.klink k := h
  have hbody : (e.linksSent l o).klBody k tx = e.klBody k tx := by
    unfold Dev.klBody
    rw [Dev.leadDirect_linksSent e o hheard, hlink, Dev.exportRecord_linksSent, Dev.watermark_linksSent]
    rfl
  unfold Dev.klFrame
  rw [hbody, hlink]
  rfl

end

/-- A frame is 57 blocks long: SYNC, 55 data blocks and END (R270). -/
theorem frameBlocks_length (f : List Byte) : (frameBlocks f).length = 57 := by
  unfold frameBlocks dataBlocks
  simp

/-- R282: a burst that is sent changes what the link still serves. -/
theorem Dev.burstNext_link (k : Nat) : (e.burstNext k).2.heard = (e.klink k).heard ∧ (e.burstNext k).2.count = (e.klink k).count ∧
    (e.burstNext k).2.txs = (e.klink k).txs ∧ (e.burstNext k).2.txScr = (e.klink k).txScr := by
  unfold Dev.burstNext
  dsimp only
  split
  · split
    · exact ⟨rfl, rfl, rfl, rfl⟩
    · split <;> exact ⟨rfl, rfl, rfl, rfl⟩
  · exact ⟨rfl, rfl, rfl, rfl⟩

theorem Dev.linkPlan_none (k : Nat) :
    e.linkPlan k none = (List.replicate (156 + b2n (e.tick % 4 == 0)) ⟨true, leBytes 8 0x1E⟩, e.klink k) := by
  have hidle : controlBlock blockIdle [] = ⟨true, leBytes 8 0x1E⟩ := by decide
  unfold Dev.linkPlan Dev.linkFill
  rw [hidle]
  simp

theorem Dev.linkPlan_some (k : Nat) (f : List Byte) :
    e.linkPlan k (some f) = (e.linkFill (e.burstNext k).1 57 ++ frameBlocks f, (e.burstNext k).2) := by
  unfold Dev.linkPlan
  simp [frameBlocks_length]

/-- R269: outside a loop-back a link's blocks leave. -/
theorem Dev.linkSend_of_unlooped {k : Nat} {f : Option (List Byte)} (h : e.loopDepth 3 k = none) :
    e.linkSend k f = (e.setKlink k (e.linkPlan k f).2).linkEmit k (e.linkPlan k f).1 := by
  have hloop : (e.setKlink k (e.linkPlan k f).2).loopDepth 3 k = none := h
  unfold Dev.linkSend
  dsimp only
  rw [hloop]

/-! ## The sending of one link -/

/-- What link j has sent: the link after it, and what left the device. -/
def Dev.LinkSent (j : Nat) (y : KlLink) : Prop :=
  (e.flag F.KL_LINK_CFG.ENABLE j = false → y = e.klink j) ∧
  (e.flag F.KL_LINK_CFG.ENABLE j = true → e.get F.KL_LINK_STAT.STATE j = 0 →
    let out := sendBlocks (e.klink j).txScr (List.replicate (156 + b2n (e.tick % 4 == 0)) ⟨true, leBytes 8 0x1E⟩)
    .blocks j out.1 ∈ o ∧ y = { e.klink j with txScr := out.2 }) ∧
  (e.flag F.KL_LINK_CFG.ENABLE j = true → e.get F.KL_LINK_STAT.STATE j ≠ 0 →
    y.count = ((e.klink j).count + 1) % 2 ^ 16 ∧ y.txs = ((e.tick32, e.t96) :: (e.klink j).txs).take 64 ∧
    .blocks j (sendBlocks (e.klink j).txScr (e.linkFill (e.burstNext j).1 57 ++ frameBlocks (e.klFrame j e.t96))).1 ∈ o)

theorem Dev.LinkSent.mono {e : Dev} {o q : List Out} {j : Nat} {y : KlLink} (h : e.LinkSent o j y) (hsub : o ⊆ q) : e.LinkSent q j y := by
  obtain ⟨hoff, hdown, hup⟩ := h
  exact ⟨hoff, fun hon hstate => ⟨hsub (hdown hon hstate).1, (hdown hon hstate).2⟩,
    fun hon hstate => ⟨(hup hon hstate).1, (hup hon hstate).2.1, hsub (hup hon hstate).2.2⟩⟩

/-- R270: link k sends, its stamp `tx`. -/
def Dev.sendLink (tx : Nat) (d : Dev) (k : Nat) : Dev :=
  if d.flag F.KL_LINK_CFG.ENABLE k = false then d
  else if d.get F.KL_LINK_STAT.STATE k = 0 then d.linkSend k none
  else
    let d := d.linkSend k (some (d.klFrame k tx))
    d.setKlink k { d.klink k with
      count := ((d.klink k).count + 1) % 2 ^ 16, txs := ((d.tick32, tx) :: (d.klink k).txs).take 64 }

/-- R270: one link sends after others have. -/
theorem Dev.sendLink_linksSent {l : Tbl KlLink} {k : Nat} (hloop : e.loopDepth 3 k = none)
    (hheard : ∀ i, (Tbl.getD l i KlLink.reset).heard = (e.klink i).heard) (hk : Tbl.getD l k KlLink.reset = e.klink k) :
    ∃ l' o', (e.linksSent l o).sendLink e.t96 k = e.linksSent l' o' ∧
      (∀ i, i ≠ k → Tbl.getD l' i KlLink.reset = Tbl.getD l i KlLink.reset) ∧
      (Tbl.getD l' k KlLink.reset).heard = (e.klink k).heard ∧ o ⊆ o' ∧ e.LinkSent o' k (Tbl.getD l' k KlLink.reset) := by
  have hlink : (e.linksSent l o).klink k = e.klink k := hk
  have hsub (w : List Block) : o ⊆ o ++ [.blocks k w] := List.subset_append_left ..
  unfold Dev.sendLink
  split
  case isTrue hoff =>
    have hoff' : e.flag F.KL_LINK_CFG.ENABLE k = false := hoff
    refine ⟨l, o, rfl, fun i _ => rfl, hheard k, List.Subset.refl o, fun _ => hk, fun hon => ?_, fun hon => ?_⟩
    all_goals exact absurd (hoff'.symm.trans hon) Bool.false_ne_true
  case isFalse hon =>
    have hon' : e.flag F.KL_LINK_CFG.ENABLE k ≠ false := hon
    split
    case isTrue hdown =>
      have hdown' : e.get F.KL_LINK_STAT.STATE k = 0 := hdown
      rw [Dev.linkSend_of_unlooped (e.linksSent l o) hloop, Dev.linkPlan_none, hlink, Dev.setKlink_linksSent, Dev.linkEmit_linksSent,
        Tbl.getD_set_self]
      refine ⟨_, _, rfl, fun i hi => ?_, ?_, hsub _, fun hoff => absurd hoff hon', fun _ _ => ⟨?_, ?_⟩, fun _ hup => absurd hdown' hup⟩
      · rw [Tbl.getD_set_ne _ _ _ _ _ hi, Tbl.getD_set_ne _ _ _ _ _ hi]
      · rw [Tbl.getD_set_self]
        rfl
      · exact List.mem_append_right _ (List.mem_singleton_self _)
      · rw [Tbl.getD_set_self]
        rfl
    case isFalse hup =>
      have hup' : e.get F.KL_LINK_STAT.STATE k ≠ 0 := hup
      obtain ⟨hb, hcount, htxs, hscr⟩ := e.burstNext_link k
      rw [Dev.linkSend_of_unlooped (e.linksSent l o) hloop, Dev.linkPlan_some, Dev.klFrame_linksSent e o hheard hk, Dev.burstNext_linksSent e l o hk,
        Dev.linkFill_linksSent, Dev.setKlink_linksSent, Dev.linkEmit_linksSent, Tbl.getD_set_self]
      dsimp only
      rw [Dev.klink_linksSent, Tbl.getD_set_self, Dev.setKlink_linksSent]
      refine ⟨_, _, rfl, fun i hi => ?_, ?_, hsub _, fun hoff => absurd hoff hon', fun _ hdown => absurd hdown hup',
        fun _ _ => ⟨?_, ?_, ?_⟩⟩
      · rw [Tbl.getD_set_ne _ _ _ _ _ hi, Tbl.getD_set_ne _ _ _ _ _ hi, Tbl.getD_set_ne _ _ _ _ _ hi]
      · rw [Tbl.getD_set_self]
        exact hb
      · rw [Tbl.getD_set_self]
        exact congrArg (fun n => (n + 1) % 2 ^ 16) hcount
      · rw [Tbl.getD_set_self]
        exact congrArg (fun t => ((e.tick32, e.t96) :: t).take 64) htxs
      · rw [hscr]
        exact List.mem_append_right _ (List.mem_singleton_self _)

/-- R270: the links of a list send one after the other. -/
theorem Dev.sendLinks_linksSent (hloop : ∀ j, e.loopDepth 3 j = none) (js : List Nat) (hnodup : js.Nodup) (l : Tbl KlLink)
    (hheard : ∀ i, (Tbl.getD l i KlLink.reset).heard = (e.klink i).heard)
    (hfresh : ∀ j ∈ js, Tbl.getD l j KlLink.reset = e.klink j) :
    ∃ l' o', js.foldl (Dev.sendLink e.t96) (e.linksSent l o) = e.linksSent l' o' ∧ o ⊆ o' ∧
      (∀ i, i ∉ js → Tbl.getD l' i KlLink.reset = Tbl.getD l i KlLink.reset) ∧
      ∀ j ∈ js, e.LinkSent o' j (Tbl.getD l' j KlLink.reset) := by
  induction js generalizing l o with
  | nil => exact ⟨l, o, rfl, List.Subset.refl o, fun i _ => rfl, fun j hj => nomatch hj⟩
  | cons k r ih =>
    obtain ⟨hk, hr⟩ := List.nodup_cons.mp hnodup
    obtain ⟨l1, o1, hstep, hsame, hkept, hsub, hsent⟩ :=
      e.sendLink_linksSent o (hloop k) hheard (hfresh k List.mem_cons_self)
    have hheard1 (i : Nat) : (Tbl.getD l1 i KlLink.reset).heard = (e.klink i).heard := by
      by_cases hi : i = k
      · exact hi ▸ hkept
      · rw [hsame i hi, hheard i]
    have hfresh1 (j : Nat) (hj : j ∈ r) : Tbl.getD l1 j KlLink.reset = e.klink j :=
      (hsame j fun h => hk (h ▸ hj)).trans (hfresh j (List.mem_cons_of_mem k hj))
    obtain ⟨l2, o2, hrest, hsub2, hsame2, hsent2⟩ := ih o1 hr l1 hheard1 hfresh1
    refine ⟨l2, o2, ?_, List.Subset.trans hsub hsub2, fun i hi => ?_, fun j hj => ?_⟩
    · rw [List.foldl_cons, hstep, hrest]
    · exact (hsame2 i fun h => hi (List.mem_cons_of_mem k h)).trans (hsame i fun h => hi (h ▸ List.mem_cons_self))
    · cases List.mem_cons.mp hj with
      | inl heq => exact heq ▸ (hsame2 k hk) ▸ (hsent.mono hsub2)
      | inr hr => exact hsent2 j hr

end

end Sys2Proof.Machine
end

section
/-! SUPPORT and proof of O46. What the links receive: blocks, frames and bulk bursts (R269-R271, R282, R285). -/

namespace Sys2Proof.Machine

/-! ## Stores in the Vat -/

/-- R98: the error state of a word is kept apart from its bytes. -/
theorem Dev.mem_eccWrite (d : Dev) (a n w : Nat) : (d.eccWrite a n w).vat.mem = d.vat.mem := by
  have hstill {x y : Dev} (h : x.still = y.still) : x.vat.mem = y.vat.mem := by
    have hvat : x.still.vat.mem = y.still.vat.mem := congrArg (fun z : Dev => z.vat.mem) h
    exact hvat
  unfold Dev.eccWrite
  split
  · rfl
  · split
    · exact hstill ((Dev.poisonKept_still _).trans (Dev.ueRecord_still _ w 1))
    · split
      · exact (hstill (Dev.ceCount_still _)).trans rfl
      · rfl

/-- R84: the bytes after a store. -/
theorem Dev.mem_vatStore (d : Dev) (a : Nat) (l : List Byte) : (d.vatStore a l).vat.mem = Memory.writeN 0 d.vat.mem a l := by
  unfold Dev.vatStore
  generalize wordsOf a l.length = ws
  have hfold (e : Dev) : (ws.foldl (fun d w => d.eccWrite a l.length w) e).vat.mem = e.vat.mem := by
    induction ws generalizing e with
    | nil => rfl
    | cons w r ih => exact (ih _).trans (e.mem_eccWrite a l.length w)
  exact hfold _

theorem Dev.kl_vatStore (d : Dev) (a : Nat) (l : List Byte) : (d.vatStore a l).kl = d.kl := by
  have hkl : (d.vatStore a l).outsideVat.kl = d.outsideVat.kl := congrArg (fun z : Dev => z.kl) (d.vatStore_outsideVat a l)
  exact hkl

/-- No detection writes the state of a link. -/
theorem linkStat_calm (k : Nat) (hk : k < 8) : ¬ FaultReach (R.KL_LINK_STAT.key k) := by
  generalize hkey : R.KL_LINK_STAT.key k = a
  have hplace : 0x08D01008 + 64 * k = a := hkey
  intro h
  cases h with
  | status g hg =>
    have : 0x08D01008 + 64 * k = 0x08F00040 + 4 * g := hplace
    omega
  | info s =>
    have : 0x08D01008 + 64 * k = 0x08F00204 + 2 ^ 28 * s := hplace
    omega
  | detail s =>
    have : 0x08D01008 + 64 * k = 0x08F00208 + 2 ^ 28 * s := hplace
    omega
  | port p hp =>
    have : 0x08D01008 + 64 * k = 0x08C00004 + 256 * p := hplace
    omega
  | out j hj =>
    have : 0x08D01008 + 64 * k = 0x0870402C + 64 * j := hplace
    omega
  | syn n =>
    have : 0x08D01008 + 64 * k = 0x08700014 + 256 * n := hplace
    omega
  | trace r hr =>
    have : 0x08D01008 + 64 * k = 0x08904014 + 64 * r := hplace
    omega
  | state =>
    have : 0x08D01008 + 64 * k = 0x08F00000 := hplace
    omega
  | logStat =>
    have : 0x08D01008 + 64 * k = 0x08F00220 := hplace
    omega
  | pin =>
    have : 0x08D01008 + 64 * k = 0x08F00210 := hplace
    omega
  | orphan =>
    have : 0x08D01008 + 64 * k = 0x08200010 := hplace
    omega
  | irq =>
    have : 0x08D01008 + 64 * k = 0x09100010 := hplace
    omega
  | eccUe =>
    have : 0x08D01008 + 64 * k = 0x08300024 := hplace
    omega
  | eccAddr =>
    have : 0x08D01008 + 64 * k = 0x0830002C := hplace
    omega
  | eccCe =>
    have : 0x08D01008 + 64 * k = 0x08300020 := hplace
    omega
  | poisonWr =>
    have : 0x08D01008 + 64 * k = 0x08300028 := hplace
    omega

/-! ## What a good frame leaves behind -/

/-- What a link keeps of its last good frame. -/
def KlLink.frame (x : KlLink) : List Byte × List Byte × Option Nat × Nat × Option Nat × Nat × Nat :=
  (x.body, x.sync, x.rxTick, x.rxStamp, x.rxCount, x.good, x.missed)

/-- A link's last good frame, its peer and state, and the bytes of the Vat. -/
def Dev.frameView (d : Dev) (k : Nat) :
    (List Byte × List Byte × Option Nat × Nat × Option Nat × Nat × Nat) × Nat × Nat × Memory :=
  ((d.klink k).frame, d.get F.KL_LINK_STAT.PEER k, d.get F.KL_LINK_STAT.STATE k, d.vat.mem)

@[simp] theorem Dev.klink_setKlink_self (d : Dev) (k : Nat) (x : KlLink) : (d.setKlink k x).klink k = x := Tbl.getD_set_self ..

theorem Dev.klink_put (d : Dev) (f : Fld) (v m k : Nat) : (d.put f v m).klink k = d.klink k := rfl

section
variable (d : Dev) {k : Nat}

theorem Dev.frameView_setKlink {x : KlLink} (h : x.frame = (d.klink k).frame) : (d.setKlink k x).frameView k = d.frameView k := by
  unfold Dev.frameView
  rw [Dev.klink_setKlink_self, h]
  rfl

theorem Dev.frameView_put {f : Fld} {n : Nat} (hkey : R.KL_LINK_STAT.key k ≠ f.reg.key n) (v : Nat) :
    (d.put f v n).frameView k = d.frameView k := by
  unfold Dev.frameView
  rw [Dev.klink_put, Dev.get_put_ne _ f F.KL_LINK_STAT.PEER _ _ _ hkey, Dev.get_put_ne _ f F.KL_LINK_STAT.STATE _ _ _ hkey]
  rfl

theorem Dev.frameView_foldl (f : Dev → Nat → Dev) (hf : ∀ d i, (f d i).frameView k = d.frameView k) (l : List Nat) (d : Dev) :
    (l.foldl f d).frameView k = d.frameView k := by
  induction l generalizing d with
  | nil => rfl
  | cons x r ih => exact (ih _).trans (hf d x)

/-- R272: the means of a link are in other registers. -/
theorem Dev.frameView_klMeasure : (d.klMeasure k).frameView k = d.frameView k := by
  unfold Dev.klMeasure
  split
  · rfl
  · dsimp only
    rw [Dev.frameView_put _ (f := F.KL_LINK_OFFSET.VALUE)
        (Reg.key_ne_of_plain (q := R.KL_LINK_STAT) (r := R.KL_LINK_OFFSET) rfl rfl rfl (by decide) k),
      Dev.frameView_put _ (f := F.KL_LINK_DELAY.VALUE)
        (Reg.key_ne_of_plain (q := R.KL_LINK_STAT) (r := R.KL_LINK_DELAY) rfl rfl rfl (by decide) k)]
    exact d.frameView_setKlink rfl

theorem Dev.frameView_rrefReceive (i : Nat) : (d.rrefReceive k i).frameView k = d.frameView k := by
  unfold Dev.rrefReceive
  split <;> rfl

theorem Dev.frameView_rloopReceive (m : Nat) : (d.rloopReceive k m).frameView k = d.frameView k := by
  unfold Dev.rloopReceive
  dsimp only
  split <;> rfl

/-- The registers of the group lie below those of the links. -/
theorem linkStat_key_ne (k : Nat) {r : Reg} {n : Nat} (h : r.key n < 0x08D01008) : R.KL_LINK_STAT.key k ≠ r.key n := by
  have hplace : R.KL_LINK_STAT.key k = 0x08D01008 + 64 * k := rfl
  omega

theorem Dev.frameView_epochReceive : (d.epochReceive k).frameView k = d.frameView k := by
  have hput (e : Dev) (f : Fld) (hf : f.reg = R.KL_GROUP_STAT) (v : Nat) : (e.put f v).frameView k = e.frameView k :=
    e.frameView_put (linkStat_key_ne k (by rw [hf]; decide)) v
  unfold Dev.epochReceive
  dsimp only
  split
  · rfl
  · have hepoch : (if later 8 (leAt (d.klink k).body 22 1) (d.get F.KL_GROUP_STAT.LEPOCH) = true then
        (d.put F.KL_GROUP_STAT.LEPOCH (leAt (d.klink k).body 22 1)).put F.KL_GROUP_STAT.LEAD (leAt (d.klink k).body 21 1 % 8)
        else d).frameView k = d.frameView k := by
      split
      · rw [hput _ F.KL_GROUP_STAT.LEAD rfl, hput _ F.KL_GROUP_STAT.LEPOCH rfl]
      · rfl
    generalize (if later 8 (leAt (d.klink k).body 22 1) (d.get F.KL_GROUP_STAT.LEPOCH) = true then
        (d.put F.KL_GROUP_STAT.LEPOCH (leAt (d.klink k).body 22 1)).put F.KL_GROUP_STAT.LEAD (leAt (d.klink k).body 21 1 % 8)
        else d) = e at hepoch ⊢
    split
    · exact hepoch
    · have hnext := (hput (e.put F.KL_GROUP_STAT.NEXT (leAt (d.klink k).body 21 1 / 8 % 8)) F.KL_GROUP_STAT.NEXT_VALID rfl
        (leAt (d.klink k).body 21 1 / 64 % 2)).trans (hput e F.KL_GROUP_STAT.NEXT rfl (leAt (d.klink k).body 21 1 / 8 % 8))
      exact hnext.trans hepoch

theorem Dev.frameView_wmAgree (j : Nat) : (d.wmAgree j).frameView k = d.frameView k :=
  d.frameView_put (f := F.KL_GEN.MISMATCH) (n := 0) (linkStat_key_ne k (by decide)) _

theorem Dev.frameView_wmReceive : (d.wmReceive k).frameView k = d.frameView k := by
  unfold Dev.wmReceive
  dsimp only
  split
  · exact (Dev.frameView_wmAgree _ k).trans (d.frameView_setKlink rfl)
  · exact d.frameView_setKlink rfl

theorem KlLink.frame_askAgain (x : KlLink) (i : Nat) : (x.askAgain i).frame = x.frame := by
  unfold KlLink.askAgain
  extract_lets answered
  split <;> rfl

theorem Dev.frameView_mboxReceive : (d.mboxReceive k).frameView k = d.frameView k := by
  unfold Dev.mboxReceive
  refine d.frameView_setKlink ?_
  dsimp only
  split
  · rfl
  · split
    · split <;> rfl
    · split
      · rfl
      · split
        · exact KlLink.frame_askAgain _ _
        · rfl

/-- R271: what a link's references and bindings, and the group, take from a frame. -/
def Dev.frameTaken (d : Dev) (k : Nat) : Dev :=
  let d := (List.range 8).foldl (fun d m => d.rloopReceive k m) ((List.range 16).foldl (fun d i => d.rrefReceive k i) (d.klMeasure k))
  if d.klLooped k then d else ((d.epochReceive k).wmReceive k).mboxReceive k

theorem Dev.frameView_frameTaken : (d.frameTaken k).frameView k = d.frameView k := by
  have hbound : ((List.range 8).foldl (fun d m => d.rloopReceive k m)
      ((List.range 16).foldl (fun d i => d.rrefReceive k i) (d.klMeasure k))).frameView k = d.frameView k :=
    (Dev.frameView_foldl (k := k) _ (fun d m => d.frameView_rloopReceive m) _ _).trans
      ((Dev.frameView_foldl (k := k) _ (fun d i => d.frameView_rrefReceive i) _ _).trans d.frameView_klMeasure)
  unfold Dev.frameTaken
  dsimp only
  split
  · exact hbound
  · exact (Dev.frameView_mboxReceive _).trans ((Dev.frameView_wmReceive _).trans ((Dev.frameView_epochReceive _).trans hbound))

/-- R270, R271: the link after a good frame. -/
def Dev.linkGood (d : Dev) (k : Nat) (sync body : List Byte) : KlLink :=
  KlLink.counted { d.klink k with
    sync := sync, body := body, rxTick := some d.tick
    rxStamp := if d.klLooped k then d.t96 else (d.tdc (128 + k)).stamp, good := (d.klink k).good + 1, missed := 0
    seen := true } (leAt sync 6 2)

/-- R271: STATE and PEER after a good frame. -/
def Dev.peerKnown (d : Dev) (k : Nat) (x : KlLink) : Dev :=
  let d := if d.linkState k = 1 then d.put F.KL_LINK_STAT.STATE 2 k else d
  (d.put F.KL_LINK_STAT.PEER (klDev x) k).put F.KL_LINK_STAT.PEER_HOPS (klHops x) k

/-- R279: a device that waits to join has heard another. -/
def Dev.deviceHeard (d : Dev) (k : Nat) (h : Nat × Nat) (x : KlLink) : Dev :=
  if d.klLooped k then d else { d with kl := { d.kl with
    heard := if d.kl.heard.contains h then d.kl.heard else d.kl.heard ++ [h]
    wait := if klHops x < 15 then 0 else d.kl.wait } }

theorem Dev.frameGood_eq (sync body : List Byte) : d.frameGood k sync body =
    (let x := d.linkGood k sync body
     let e := (d.setKlink k x).peerKnown k x
     ((e.vatStore (e.get F.KL_RX_BASE.BASE * 512 + 512 * k) body).deviceHeard k (leAt body 23 1 % 16, klDev x) x).frameTaken k) := by
  have hset (x y : KlLink) : (d.setKlink k x).setKlink k y = d.setKlink k y :=
    congrArg (fun t => ({ d with kl := { d.kl with links := t } } : Dev)) (Tbl.set_set ..)
  unfold Dev.frameGood
  dsimp only
  rw [Dev.klink_setKlink_self, hset, Dev.klink_setKlink_self]
  rfl

theorem Dev.frameView_deviceHeard (h : Nat × Nat) (x : KlLink) : (d.deviceHeard k h x).frameView k = d.frameView k := by
  unfold Dev.deviceHeard
  split <;> rfl

/-- R271: STATE and PEER as a frame leaves them, and the place of the frame. -/
theorem Dev.get_peerKnown (x : KlLink) :
    (d.peerKnown k x).get F.KL_LINK_STAT.PEER k = klDev x ∧
    (d.peerKnown k x).get F.KL_LINK_STAT.STATE k = (if d.get F.KL_LINK_STAT.STATE k = 1 then 2 else d.get F.KL_LINK_STAT.STATE k) ∧
    (d.peerKnown k x).get F.KL_RX_BASE.BASE = d.get F.KL_RX_BASE.BASE := by
  have hbase : R.KL_RX_BASE.key 0 ≠ R.KL_LINK_STAT.key k := (linkStat_key_ne k (by decide)).symm
  unfold Dev.peerKnown
  refine ⟨?_, ?_, ?_⟩
  · rw [Dev.get_put_other _ F.KL_LINK_STAT.PEER_HOPS F.KL_LINK_STAT.PEER _ _ (by decide) (by decide) rfl (by decide),
      Dev.get_put_self _ F.KL_LINK_STAT.PEER _ _ (by decide) (by decide)]
    exact Nat.mod_eq_of_lt (Nat.mod_lt _ (by decide))
  · rw [Dev.get_put_other _ F.KL_LINK_STAT.PEER_HOPS F.KL_LINK_STAT.STATE _ _ (by decide) (by decide) rfl (by decide),
      Dev.get_put_other _ F.KL_LINK_STAT.PEER F.KL_LINK_STAT.STATE _ _ (by decide) (by decide) rfl (by decide)]
    unfold Dev.linkState
    split
    · rw [Dev.get_put_self _ F.KL_LINK_STAT.STATE _ _ (by decide) (by decide)]
      rfl
    · rfl
  · rw [Dev.get_put_ne _ F.KL_LINK_STAT.PEER_HOPS F.KL_RX_BASE.BASE _ _ _ hbase,
      Dev.get_put_ne _ F.KL_LINK_STAT.PEER F.KL_RX_BASE.BASE _ _ _ hbase]
    split
    · exact Dev.get_put_ne _ F.KL_LINK_STAT.STATE F.KL_RX_BASE.BASE _ _ _ hbase
    · rfl

theorem Dev.kl_peerKnown (x : KlLink) : (d.peerKnown k x).kl = d.kl := by
  unfold Dev.peerKnown
  dsimp only
  split <;> rfl

theorem Dev.vat_peerKnown (x : KlLink) : (d.peerKnown k x).vat = d.vat := by
  unfold Dev.peerKnown
  dsimp only
  split <;> rfl

/-- R97: a store leaves what a link has received. -/
theorem Dev.frameView_vatStore (hk : k < 8) (a : Nat) (l : List Byte) : (d.vatStore a l).frameView k =
    ((d.klink k).frame, d.get F.KL_LINK_STAT.PEER k, d.get F.KL_LINK_STAT.STATE k, Memory.writeN 0 d.vat.mem a l) := by
  have hlink : (d.vatStore a l).klink k = d.klink k := congrArg (fun x : Kl => Tbl.getD x.links k KlLink.reset) (d.kl_vatStore a l)
  unfold Dev.frameView
  rw [hlink, d.mem_vatStore a l, Dev.get_of_calm (d.calm_vatStore a l) (f := F.KL_LINK_STAT.PEER) (linkStat_calm k hk),
    Dev.get_of_calm (d.calm_vatStore a l) (f := F.KL_LINK_STAT.STATE) (linkStat_calm k hk)]

/-- R270, R271: what a good frame leaves on its link and in the Vat. -/
theorem Dev.frameView_frameGood (hk : k < 8) (sync body : List Byte) : (d.frameGood k sync body).frameView k =
    ((d.linkGood k sync body).frame, leAt sync 1 1 % 8,
      if d.get F.KL_LINK_STAT.STATE k = 1 then 2 else d.get F.KL_LINK_STAT.STATE k,
      Memory.writeN 0 d.vat.mem (d.get F.KL_RX_BASE.BASE * 512 + 512 * k) body) := by
  obtain ⟨hpeer, hstate, hbase⟩ := (d.setKlink k (d.linkGood k sync body)).get_peerKnown (k := k) (d.linkGood k sync body)
  have hlink : ((d.setKlink k (d.linkGood k sync body)).peerKnown k (d.linkGood k sync body)).klink k = d.linkGood k sync body :=
    (congrArg (fun x : Kl => Tbl.getD x.links k KlLink.reset) (Dev.kl_peerKnown _ _)).trans (Dev.klink_setKlink_self ..)
  have hmem : ((d.setKlink k (d.linkGood k sync body)).peerKnown k (d.linkGood k sync body)).vat = d.vat := Dev.vat_peerKnown _ _
  rw [Dev.frameGood_eq]
  dsimp only
  rw [Dev.frameView_frameTaken, Dev.frameView_deviceHeard, Dev.frameView_vatStore _ hk, hlink, hpeer, hstate, hbase, hmem]
  rfl

end

/-! ## Blocks -/

/-- Devices that differ, beside a link, in the state of link k alone. -/
structure Dev.BlockSame (k : Nat) (d e : Dev) : Prop where
  view : e.tdcView = d.tdcView
  vat : e.vat = d.vat
  rd : ∀ (r : Reg) (n : Nat), r.key n ≠ R.KL_LINK_STAT.key k → e.rd r n = d.rd r n

theorem Dev.BlockSame.refl (k : Nat) (d : Dev) : Dev.BlockSame k d d := ⟨rfl, rfl, fun _ _ _ => rfl⟩

theorem Dev.BlockSame.trans {k : Nat} {d e f : Dev} (h : Dev.BlockSame k d e) (h' : Dev.BlockSame k e f) : Dev.BlockSame k d f :=
  ⟨h'.view.trans h.view, h'.vat.trans h.vat, fun r n hr => (h'.rd r n hr).trans (h.rd r n hr)⟩

theorem Dev.BlockSame.setKlink (k : Nat) (d : Dev) (x : KlLink) : Dev.BlockSame k d (d.setKlink k x) := ⟨rfl, rfl, fun _ _ _ => rfl⟩

theorem Dev.BlockSame.putState (k : Nat) (d : Dev) (v : Nat) : Dev.BlockSame k d (d.put F.KL_LINK_STAT.STATE v k) :=
  ⟨rfl, rfl, fun _ _ hr => Dev.rd_wr_ne _ _ _ _ _ _ hr⟩

theorem Dev.BlockSame.get {k : Nat} {d e : Dev} (h : Dev.BlockSame k d e) (f : Fld) (n : Nat) (hf : f.reg.key n ≠ R.KL_LINK_STAT.key k) :
    e.get f n = d.get f n := by
  unfold Dev.get
  rw [h.rd _ _ hf]

theorem Dev.BlockSame.lockGained (k : Nat) (d : Dev) : Dev.BlockSame k d (d.lockGained k) := by
  unfold Dev.lockGained
  dsimp only
  split
  · exact (Dev.BlockSame.setKlink k d _).trans (Dev.BlockSame.putState k _ 1)
  · exact Dev.BlockSame.setKlink k d _

theorem Dev.BlockSame.lockLost (k : Nat) (d : Dev) : Dev.BlockSame k d (d.lockLost k) := by
  unfold Dev.lockLost
  dsimp only
  split
  · exact (Dev.BlockSame.setKlink k d _).trans (Dev.BlockSame.putState k _ 0)
  · exact Dev.BlockSame.setKlink k d _

theorem Dev.BlockSame.blockTake (k : Nat) (d : Dev) (b : Block) : Dev.BlockSame k d (d.blockTake k b).1 := by
  unfold Dev.blockTake
  dsimp only
  have hset := Dev.BlockSame.setKlink k d ((d.klink k).take b).1
  split
  · exact hset.trans (Dev.BlockSame.lockGained k _)
  · split
    · exact hset.trans (Dev.BlockSame.lockLost k _)
    · exact hset

/-- R269: received blocks change their link and its state alone. -/
theorem Dev.BlockSame.blocksTake (k : Nat) (d : Dev) (l : List Block) : Dev.BlockSame k d (Dev.blocksTake k d l).1 := by
  induction l generalizing d with
  | nil => exact Dev.BlockSame.refl k d
  | cons b r ih => exact (Dev.BlockSame.blockTake k d b).trans (ih _)

/-- R357: received blocks move no loop-back. -/
theorem Dev.BlockSame.loopDepth {k : Nat} {d e : Dev} (h : Dev.BlockSame k d e) (hk : k < 8) (kind ix : Nat) :
    e.loopDepth kind ix = d.loopDepth kind ix := by
  have hkey (n : Nat) : R.TST_LB_CFG.key n ≠ R.KL_LINK_STAT.key k := by
    have hcfg : R.TST_LB_CFG.key n = 0x09200004 + copyStride * n := rfl
    have hstat : R.KL_LINK_STAT.key k = 0x08D01008 + 64 * k := rfl
    omega
  unfold Dev.loopDepth Dev.flag
  rw [h.get F.TST_LB_CFG.ENABLE _ (hkey _), h.get F.TST_LB_CFG.DEPTH _ (hkey _)]

/-! ## Frames and bursts -/

section
variable {d : Dev} {k : Nat}

/-- R357: a link that is on and in no loop-back receives from its pins. -/
theorem Dev.linkHears_iff : d.linkHears k = true ↔ d.flag F.KL_LINK_CFG.ENABLE k = true ∧ d.loopDepth 3 k = none := by
  unfold Dev.linkHears
  simp

theorem Dev.klLooped_of_unlooped (h : d.loopDepth 3 k = none) : d.klLooped k = false := by
  unfold Dev.klLooped
  rw [h]

theorem Dev.frameBlocksTake_none {l : List Block} (h : frameOf (Dev.blocksTake k d l).2 = none) :
    d.frameBlocksTake k l = (Dev.blocksTake k d l).1 := by
  unfold Dev.frameBlocksTake
  dsimp only
  rw [h]

/-- R271: a frame is judged at its END. -/
theorem Dev.frameBlocksTake_some {l : List Block} {sync body : List Byte} {whole : Bool}
    (h : frameOf (Dev.blocksTake k d l).2 = some (sync, body, whole)) : d.frameBlocksTake k l =
      (let n := frameEnd (Dev.blocksTake k d l).2
       (Dev.blocksTake k ((Dev.blocksTake k d (l.take n)).1.frameJudge k sync body whole) (l.drop n)).1) := by
  unfold Dev.frameBlocksTake
  dsimp only
  rw [h]

theorem Dev.frameJudge_down {sync body : List Byte} {whole : Bool} (h : d.get F.KL_LINK_STAT.STATE k = 0) :
    d.frameJudge k sync body whole = d := if_pos h

theorem Dev.frameJudge_part {sync body : List Byte} (h : d.get F.KL_LINK_STAT.STATE k ≠ 0) :
    d.frameJudge k sync body false = d.frameMissed k := (if_neg h).trans (if_pos rfl)

theorem Dev.frameJudge_bad {sync body : List Byte} (h : d.get F.KL_LINK_STAT.STATE k ≠ 0) (hcrc : leAt body 436 4 ≠ crc32 (body.take 436)) :
    d.frameJudge k sync body true = (d.frameMissed k).fault 230 := (if_neg h).trans ((if_neg (by decide)).trans (if_pos hcrc))

theorem Dev.frameJudge_good {sync body : List Byte} (h : d.get F.KL_LINK_STAT.STATE k ≠ 0) (hcrc : leAt body 436 4 = crc32 (body.take 436)) :
    d.frameJudge k sync body true = d.frameGood k sync body :=
  (if_neg h).trans ((if_neg (by decide)).trans (if_neg (not_not_intro hcrc)))

/-- The length of a list filled with zeros. -/
theorem sliceB_length (l : List Byte) (i n : Nat) : (sliceB l i n).length = n := by
  unfold sliceB
  simp

/-- R270: a frame's body has 440 bytes. -/
theorem frameOf_body_length {l : List (LinkBlock × Bool)} {sync body : List Byte} {whole : Bool}
    (h : frameOf l = some (sync, body, whole)) : body.length = 440 := by
  unfold frameOf at h
  split at h
  · cases h
  · cases h
    exact sliceB_length ..

theorem Dev.bulkBurstReceive_of_burst {l : List Block} {i : Nat} {data : List Byte} {good : Bool} (hears : d.linkHears k = true)
    (h : burstOf (Dev.blocksTake k d l).2 = some (i, data, good)) :
    d.bulkBurstReceive k l = (Dev.blocksTake k d l).1.bulkReceive i data good := by
  refine (if_neg (by rw [hears]; decide)).trans ?_
  dsimp only
  rw [h]

/-- R282: a good burst is kept; one that was named bad leaves the mailbox. -/
theorem Dev.bulkReceive_good (i : Nat) (data : List Byte) : d.bulkReceive i data true =
    (let kept : Dev := { d with kl := { d.kl with
      bulk := Tbl.set d.kl.bulk i data, badBursts := d.kl.badBursts.filter (· != i) } }
     if d.kl.badBursts.contains i then kept.badName else kept) := rfl

/-- R282: the first burst that is bad, after another one has come bad. -/
theorem badName_first (l : List Nat) (i : Nat) :
    (match if l.contains i then l else l ++ [i] with
      | [] => 0
      | j :: _ => Config.badBurst (BitVec.ofNat 24 j)) = Config.badBurst (BitVec.ofNat 24 (l.headD i)) := by
  have hfirst : (if l.contains i then l else l ++ [i]) = l.headD i :: (if l.contains i then l else l ++ [i]).tail := by
    cases l with
    | nil => rfl
    | cons a r => split <;> rfl
  rw [hfirst]

theorem Dev.bulkReceive_bad (i : Nat) (data : List Byte) : d.bulkReceive i data false =
    ({ d with kl := { d.kl with badBursts := if d.kl.badBursts.contains i then d.kl.badBursts else d.kl.badBursts ++ [i] } } : Dev).mailbox
      (Config.badBurst (BitVec.ofNat 24 (d.kl.badBursts.headD i))) := by
  unfold Dev.bulkReceive Dev.badName
  dsimp only
  rw [if_neg Bool.false_ne_true]
  exact congrArg _ (badName_first d.kl.badBursts i)

/-- R285: an UP link that has differed for 3 ticks. -/
theorem Dev.wmMismatch_of_due (hstate : d.get F.KL_LINK_STAT.STATE k = 3) (hloop : d.klLooped k = false) (hmism : 3 ≤ (d.klink k).mism) :
    d.wmMismatch k = (d.put F.KL_GEN.MISMATCH (d.get F.KL_GEN.MISMATCH ||| 2 ^ k)).levelOn 227 k := by
  refine if_pos ?_
  unfold Dev.linkUp Dev.linkState
  rw [hstate, hloop, decide_eq_true hmism]
  rfl

end

/-- R271: what a good frame leaves, as the link, its registers and its place in the Vat show it. -/
theorem Dev.frameGood_shows {d : Dev} {k : Nat} (hk : k < 8) (hloop : d.klLooped k = false) {sync body : List Byte}
    (hlen : body.length = 440) :
    let e := d.frameGood k sync body
    let y := e.klink k
    y.body = body ∧ y.sync = sync ∧ y.rxTick = some d.tick ∧ y.rxStamp = (d.tdc (128 + k)).stamp ∧
      y.rxCount = some (leAt sync 6 2) ∧ y.good = (d.klink k).good + 1 ∧ y.missed = 0 ∧
      e.get F.KL_LINK_STAT.PEER k = leAt sync 1 1 % 8 ∧
      e.get F.KL_LINK_STAT.STATE k = (if d.get F.KL_LINK_STAT.STATE k = 1 then 2 else d.get F.KL_LINK_STAT.STATE k) ∧
      ∀ i, i < 440 → Memory.read 0 e.vat.mem (d.get F.KL_RX_BASE.BASE * 512 + 512 * k + i) = body.getD i 0 := by
  have hview := d.frameView_frameGood hk sync body
  obtain ⟨hframe, hrest⟩ := Prod.mk.inj hview
  obtain ⟨hpeer, hrest⟩ := Prod.mk.inj hrest
  obtain ⟨hstate, hmem⟩ := Prod.mk.inj hrest
  have hstamp : (d.linkGood k sync body).rxStamp = (d.tdc (128 + k)).stamp := if_neg (by rw [hloop]; decide)
  refine ⟨congrArg (·.1) hframe, congrArg (·.2.1) hframe, congrArg (·.2.2.1) hframe,
    (congrArg (·.2.2.2.1) hframe).trans hstamp, congrArg (·.2.2.2.2.1) hframe, congrArg (·.2.2.2.2.2.1) hframe,
    congrArg (·.2.2.2.2.2.2) hframe, hpeer, hstate, fun i hi => ?_⟩
  have hin : i < body.length := hlen ▸ hi
  rw [hmem, Memory.read_writeN_in 0 body _ _ i hin, List.getD_eq_getElem _ _ hin]

/-- R269-R271: the frames of a tick leave without a loop-back. -/
theorem Dev.tickFrames_shown {e : Dev} (hloop : ∀ j, e.loopDepth 3 j = none) :
    ∃ d', (List.range 8).foldl (Dev.sendLink e.t96) e = d' ∧ d'.regs = e.regs ∧
      ∀ j : Fin 8, e.LinkSent d'.outs j (d'.klink j) := by
  obtain ⟨l, o, hrun, -, -, hsent⟩ := e.sendLinks_linksSent e.outs hloop (List.range 8) List.nodup_range e.kl.links
    (fun _ => rfl) (fun _ _ => rfl)
  exact ⟨e.linksSent l o, hrun, rfl, fun j => hsent j (List.mem_range.mpr j.isLt)⟩

/-- R270: what TICK_FRAME_SEND does while the device runs. -/
theorem Dev.tickFrameSend_of_running {d : Dev}
    (h : ¬ (d.flag F.FLT_STATE.STOPPED = true ∨ d.boot.low = true ∨ d.boot.halted = true)) : d.tickFrameSend =
      (let e := (d.atCycle 64).exportTouch
       (List.range 8).foldl (Dev.sendLink e.t96) e) := by
  refine (if_neg h).trans ?_
  dsimp only
  refine congrArg (fun f => List.foldl f ((d.atCycle 64).exportTouch) (List.range 8)) ?_
  funext d k
  unfold Dev.sendLink
  simp only [Bool.not_eq_true']
  rfl

/-- Settles O46: the fold over the links that send, the judgement of a frame at its END, and a burst by its check. -/
theorem tickFramesAndBursts : Obligations.TickFramesAndBursts := by
  intro k fill frame rest s d bl e quiet hears r
  have hsend : Gives .tickFrameSend s d.tickFrameSend := rfl
  have hframe : Gives (.tickFrameReceive k fill frame rest) s (d.tickFrameReceive k bl) := rfl
  have hburst : Gives (.bulkBurstReceive k fill frame rest) s (d.bulkBurstReceive k bl) := rfl
  have hmismatch : Gives (.watermarkMismatch k) s (d.wmMismatch k) := rfl
  clear_value d
  refine ⟨fun hquiet => hsend.of_eq (if_pos hquiet), fun hrun => hsend.of_eq (Dev.tickFrameSend_of_running hrun), fun hrun hloop => ?sent,
    fun hdeaf => ?deaf, fun hhears => ⟨fun hnone => ?none, fun sync b whole hsome => ?judged, fun i data good hgot => ?burst⟩,
    fun hstate hloop hmism => hmismatch.of_eq (Dev.wmMismatch_of_due hstate hloop hmism)⟩
  case sent =>
    obtain ⟨d', hfold, hregs, hlinks⟩ := Dev.tickFrames_shown hloop
    exact ⟨d', hsend.of_eq ((Dev.tickFrameSend_of_running hrun).trans hfold), hregs, hlinks⟩
  case deaf =>
    have hoff : d.linkHears k = false := Bool.eq_false_iff.mpr fun h => hdeaf (Dev.linkHears_iff.mp h)
    exact ⟨hframe.of_eq (if_neg (by rw [hoff]; decide)), hburst.of_eq (if_pos (by rw [hoff]; rfl))⟩
  all_goals have hon : d.linkHears k = true := Dev.linkHears_iff.mpr hhears
  case none => exact hframe.of_eq ((if_pos hon).trans (Dev.frameBlocksTake_none hnone))
  case judged =>
    intro h x state missed gives
    have hjudge := hframe.of_eq ((if_pos hon).trans (Dev.frameBlocksTake_some hsome))
    have hgives {g : Dev} (hg : h.frameJudge k sync b whole = g) : gives g := hg ▸ hjudge
    have hsame : Dev.BlockSame k d h := Dev.BlockSame.blocksTake k d _
    refine ⟨fun hdown => hgives (Dev.frameJudge_down hdown), fun hup hpart => ?part, fun hup hwhole hcrc => ?bad,
      fun hup hwhole hcrc => ?good⟩
    case part =>
      subst hpart
      exact hgives (Dev.frameJudge_part hup)
    case bad =>
      subst hwhole
      exact hgives (Dev.frameJudge_bad hup hcrc)
    case good =>
      subst hwhole
      have hloop : h.klLooped k = false := Dev.klLooped_of_unlooped ((hsame.loopDepth k.isLt 3 k).trans hhears.2)
      have htick : h.tick = d.tick := congrArg (fun v => v.2.1) hsame.view
      have htdc : h.tdc (128 + k) = d.tdc (128 + k) := Dev.tdc_of_view hsame.view _
      have hbase : h.get F.KL_RX_BASE.BASE = d.get F.KL_RX_BASE.BASE :=
        hsame.get F.KL_RX_BASE.BASE 0 (linkStat_key_ne k (by decide)).symm
      have hshows := Dev.frameGood_shows k.isLt hloop (sync := sync) (frameOf_body_length hsome)
      rw [htick, htdc, hbase] at hshows
      exact ⟨_, hgives (Dev.frameJudge_good hup hcrc), hshows⟩
  case burst =>
    intro kl bad kept name
    have htake := hburst.of_eq (Dev.bulkBurstReceive_of_burst hon hgot)
    refine ⟨fun hgood hnew => ?good, fun hgood hnamed => ?named, fun hbad => ?bad⟩
    case good =>
      subst hgood
      exact htake.of_eq ((Dev.bulkReceive_good i data).trans (if_neg (ne_true_of_eq_false hnew)))
    case named =>
      subst hgood
      exact htake.of_eq ((Dev.bulkReceive_good i data).trans (if_pos hnamed))
    case bad =>
      subst hbad
      exact htake.of_eq (Dev.bulkReceive_bad i data)

end Sys2Proof.Machine
end

section
/-! SUPPORT and proof of O47. Block lock, the states of a link and the swap procedure (R269, R271, R273). -/

namespace Sys2Proof.Machine

section
variable {d : Dev} {k : Nat}

/-! ## UP and DOWN -/

theorem Dev.linkUpNow_of_good (hstate : d.get F.KL_LINK_STAT.STATE k = 2) (hlock : (d.klink k).lock = true)
    (hgood : 16 ≤ (d.klink k).good) : d.linkUpNow k =
      (d.put F.KL_LINK_STAT.STATE 3 k).setKlink k { d.klink k with newUp := true } := if_pos ⟨hstate, hlock, hgood⟩

/-- R273: CAL is another field than STATE, and no field of KL_GEN. -/
theorem Dev.cal_linkDown (v : Nat) (x : KlLink) :
    (((d.put F.KL_LINK_STAT.STATE v k).setKlink k x).wmAgree k).get F.KL_LINK_STAT.CAL k = d.get F.KL_LINK_STAT.CAL k := by
  have hgen (e : Dev) : (e.wmAgree k).get F.KL_LINK_STAT.CAL k = e.get F.KL_LINK_STAT.CAL k :=
    Dev.get_put_ne e F.KL_GEN.MISMATCH F.KL_LINK_STAT.CAL _ _ _ (linkStat_key_ne k (by decide))
  rw [hgen]
  exact Dev.get_put_other d F.KL_LINK_STAT.STATE F.KL_LINK_STAT.CAL v k (by decide) (by decide) rfl (by decide)

/-- R273: a link that goes DOWN ends its procedure. -/
theorem Dev.calFail_eq {c : Nat} (h : d.get F.KL_LINK_STAT.CAL k = c) :
    d.calFail k = if c = 1 ∨ c = 2 then (d.put F.KL_LINK_STAT.CAL 4 k).fault 229 else d := by
  subst h
  rfl

theorem Dev.linkDownNow_of_missed (hstate : d.get F.KL_LINK_STAT.STATE k ≠ 0) (hmissed : 3 ≤ (d.klink k).missed) :
    d.linkDownNow k =
      (let e := ((d.put F.KL_LINK_STAT.STATE 0 k).setKlink k
        { d.klink k with good := 0, missed := 0, lock := false, mism := 0 }).wmAgree k
       (((if d.get F.KL_LINK_STAT.CAL k = 1 ∨ d.get F.KL_LINK_STAT.CAL k = 2 then (e.put F.KL_LINK_STAT.CAL 4 k).fault 229 else e).rrefsLost
         k).fault 224 k).fault 8 0 5) := by
  refine (if_pos ⟨hstate, hmissed⟩).trans ?_
  dsimp only
  rw [Dev.calFail_eq (Dev.cal_linkDown 0 _)]
  rfl

/-! ## Block lock -/

/-- R269: a link after one more sync header and payload. -/
def KlLink.headSeen (x : KlLink) (b : Block) : KlLink :=
  { x with
    rxScr := (b.payload >>> 6).setWidth 58, run := if b.head = 0b01 ∨ b.head = 0b10 then min 64 (x.run + 1) else 0
    heads := x.heads <<< 1 ||| (if b.head = 0b01 ∨ b.head = 0b10 then 0 else 1) }

theorem headValid_iff (h : BitVec 2) : headValid h = true ↔ h = 0b01 ∨ h = 0b10 := by
  unfold headValid
  simp

theorem KlLink.take_fst (x : KlLink) (b : Block) : (x.take b).1 = x.headSeen b := by
  unfold KlLink.take KlLink.headSeen
  simp only [headValid_iff]
  rfl

theorem KlLink.take_snd (x : KlLink) (b : Block) : (x.take b).2 = ⟨decide (b.head = 0b10), leBytes 8
    (b.payload ^^^ ((b.payload ++ x.rxScr) >>> 19).setWidth 64 ^^^ (b.payload ++ x.rxScr).setWidth 64).toNat⟩ := rfl

theorem Dev.setKlink_setKlink (x y : KlLink) : (d.setKlink k x).setKlink k y = d.setKlink k y :=
  congrArg (fun t => ({ d with kl := { d.kl with links := t } } : Dev)) (Tbl.set_set ..)

/-- R269: 64 valid headers in a row give block lock. -/
theorem Dev.blockTake_gains {b : Block} (hlock : (d.klink k).lock = false) (hrun : ((d.klink k).headSeen b).run = 64) :
    (d.blockTake k b).1 =
      (let e := d.setKlink k { (d.klink k).headSeen b with lock := true, heads := 0 }
       if d.get F.KL_LINK_STAT.STATE k = 0 then e.put F.KL_LINK_STAT.STATE 1 k else e) := by
  unfold Dev.blockTake
  dsimp only
  rw [KlLink.take_fst, hlock]
  refine (if_pos (by rw [hrun]; rfl)).trans ?_
  unfold Dev.lockGained
  rw [Dev.klink_setKlink_self, Dev.setKlink_setKlink]
  rfl

/-- R269: a link without block lock counts on. -/
theorem Dev.blockTake_waits {b : Block} (hlock : (d.klink k).lock = false) (hrun : ((d.klink k).headSeen b).run < 64) :
    (d.blockTake k b).1 = d.setKlink k ((d.klink k).headSeen b) := by
  have hne : (((d.klink k).headSeen b).run == 64) = false := beq_false_of_ne (Nat.ne_of_lt hrun)
  unfold Dev.blockTake
  dsimp only
  rw [KlLink.take_fst, hlock, hne]
  rfl

section
variable {b : Block} (hlock : (d.klink k).lock = true)
include hlock

/-- R269: 16 invalid headers of the last 64 take block lock. -/
theorem Dev.blockTake_loses (hbad : 16 ≤ (List.range 64).countP fun i => ((d.klink k).headSeen b).heads.getLsbD i) :
    (d.blockTake k b).1 =
      (let e := d.setKlink k { (d.klink k).headSeen b with lock := false, run := 0 }
       if d.get F.KL_LINK_STAT.STATE k = 1 then e.put F.KL_LINK_STAT.STATE 0 k else e) := by
  unfold Dev.blockTake
  dsimp only
  rw [KlLink.take_fst, hlock, decide_eq_true hbad]
  refine (if_neg Bool.false_ne_true).trans ((if_pos rfl).trans ?_)
  unfold Dev.lockLost
  rw [Dev.klink_setKlink_self, Dev.setKlink_setKlink]
  rfl

theorem Dev.blockTake_keeps (hbad : (List.range 64).countP (fun i => ((d.klink k).headSeen b).heads.getLsbD i) < 16) :
    (d.blockTake k b).1 = d.setKlink k ((d.klink k).headSeen b) := by
  unfold Dev.blockTake
  dsimp only
  rw [KlLink.take_fst, hlock, decide_eq_false (Nat.not_le.mpr hbad)]
  rfl

end

theorem Dev.blocksTake_one (b : Block) : (Dev.blocksTake k d [b]).1 = (d.blockTake k b).1 := rfl

/-! ## The swap procedure -/

/-- R273, R29: how far ahead the tick with these low 30 bits lies. -/
def Dev.calAhead (d : Dev) (s30 : Nat) : Nat := (s30 + 2 ^ 30 - d.tick % 2 ^ 30) % 2 ^ 30

/-- R273: what CAL does with the tick that its low bits name, if they name one. -/
def Dev.calNamed (d : Dev) (p : Path) (k : Nat) : Option Nat → Dev
  | none => d.refuse p.code (R.KL_LINK_CMD.off k) .range
  | some t => d.setKlink k { d.klink k with cmdCal := some t }

theorem Dev.linkCalCmd_eq : Dev.linkCalCmd = fun d p k s30 => d.calNamed p k (d.calTick s30) := by
  have hmatch : Dev.linkCalCmd = fun d p k s30 => match d.calTick s30 with
    | none => d.refuse p.code (R.KL_LINK_CMD.off k) .range
    | some t => d.setKlink k { d.klink k with cmdCal := some t } := rfl
  rw [hmatch]
  funext d p k s30
  generalize d.calTick s30 = named
  cases named with
  | none => rfl
  | some t => rfl

theorem Dev.linkCalCmd_of_ahead {p : Path} {s30 : Nat} (hmin : 16 ≤ d.calAhead s30) (hmax : d.calAhead s30 < 2 ^ 29) :
    d.linkCalCmd p k s30 = d.setKlink k { d.klink k with cmdCal := some (d.tick + d.calAhead s30) } := by
  have htick : d.calTick s30 = some (d.tick + d.calAhead s30) := by
    unfold Dev.calAhead at hmin hmax ⊢
    unfold Dev.calTick
    exact if_pos ⟨hmin, hmax⟩
  rw [Dev.linkCalCmd_eq]
  exact congrArg (d.calNamed p k) htick

theorem Dev.calSwap_of_due {t : Nat} (hcal : d.get F.KL_LINK_STAT.CAL k = 1) (hdue : (d.klink k).calS + 1024 ≤ t) : d.calSwap k t =
    (d.put F.KL_LINK_STAT.CAL 2 k).setKlink k { d.klink k with
      thetaN := roundDiv (d.klink k).calSum (max 1 (d.klink k).calN), calSum := 0, calN := 0 } := if_pos ⟨hcal, hdue⟩

theorem Dev.calEnd_of_due {t : Nat} (hcal : d.get F.KL_LINK_STAT.CAL k = 2) (hdue : (d.klink k).calS + 2048 ≤ t) : d.calEnd k t =
    (let asym := d.gets F.KL_LINK_ASYM.VALUE k +
       roundDiv ((d.klink k).thetaN - roundDiv (d.klink k).calSum (max 1 (d.klink k).calN)) 2
     (d.put F.KL_LINK_ASYM.VALUE (ofSigned 32 (satSigned 32 asym)) k).put F.KL_LINK_STAT.CAL 3 k) := if_pos ⟨hcal, hdue⟩

end

/-- Settles O47: one block by what its header says, and each state change by its condition. -/
theorem linkStatesAndCalibration : Obligations.LinkStatesAndCalibration := by
  intro p k s30 b bl s d x state cal ahead hears
  have hup : Gives (.linkUp k) s (d.linkUpNow k) := rfl
  have hdown : Gives (.linkDown k) s (d.linkDownNow k) := rfl
  have hgained (l : List Block) : Gives (.blockLockGained ⟨k, l⟩) s (d.blocksReceive k l) := rfl
  have hlost (l : List Block) : Gives (.blockLockLost ⟨k, l⟩) s (d.blocksReceive k l) := rfl
  have hswap : Gives (.linkCalSwap k) s (d.calSwap k (d.tick + 1)) := rfl
  have hend : Gives (.linkCalEnd k) s (d.calEnd k (d.tick + 1)) := rfl
  have hcal {d' : Dev} (hreach : s.reaches p (R.KL_LINK_CMD.off k)) (h : d.linkCalCmd p k s30.toNat = d') :
      Gives (.linkCal p k s30) s d' := Gives.of_reach (·.linkCalCmd p k s30.toNat) rfl hreach h
  have habort {d' : Dev} (hreach : s.reaches p (R.KL_LINK_CMD.off k)) (h : d.linkAbortCmd k = d') :
      Gives (.linkCalAbort p k) s d' := Gives.of_reach (·.linkAbortCmd k) rfl hreach h
  clear_value d
  refine ⟨fun hstate hlock hgood => hup.of_eq (Dev.linkUpNow_of_good hstate hlock hgood),
    fun hstate hmissed => hdown.of_eq (Dev.linkDownNow_of_missed hstate hmissed), fun hdeaf => ?deaf, fun hhears => ?blocks,
    fun hreach => ⟨fun hmin hmax => hcal hreach (Dev.linkCalCmd_of_ahead hmin hmax), habort hreach rfl⟩,
    fun hone hdue => hswap.of_eq (Dev.calSwap_of_due hone hdue), fun htwo hdue => hend.of_eq (Dev.calEnd_of_due htwo hdue)⟩
  case deaf =>
    have hoff : ¬ d.linkHears k = true := fun h => hdeaf (Dev.linkHears_iff.mp h)
    exact ⟨(hgained bl).of_eq (if_neg hoff), (hlost bl).of_eq (if_neg hoff)⟩
  case blocks =>
    have hon (l : List Block) : d.blocksReceive k l = (Dev.blocksTake k d l).1 := if_pos (Dev.linkHears_iff.mpr hhears)
    intro descrambled valid heads seen bad
    exact ⟨(hgained bl).of_eq (hon bl), (hlost bl).of_eq (hon bl), KlLink.take_snd x b,
      fun hlock hrun => (hgained [b]).of_eq ((hon [b]).trans (Dev.blockTake_gains hlock hrun)),
      fun hlock hbad => (hlost [b]).of_eq ((hon [b]).trans (Dev.blockTake_loses hlock hbad)),
      fun hlock hbad => (hlost [b]).of_eq ((hon [b]).trans (Dev.blockTake_keeps hlock hbad)),
      fun hlock hrun => (hgained [b]).of_eq ((hon [b]).trans (Dev.blockTake_waits hlock hrun))⟩

end Sys2Proof.Machine
end

section
/-! SUPPORT and proof of O48. Lead, joining, failover, split and the system PLL (R277-R281). -/

namespace Sys2Proof.Machine

section
variable {d e : Dev}

/-- A field is no wider than its bits. -/
theorem Dev.get_lt (d : Dev) (f : Fld) (n : Nat) : d.get f n < 2 ^ (f.hi + 1 - f.lo) := Nat.mod_lt _ (Nat.two_pow_pos _)

/-! ## The group's state as registers show it -/

/-- Two devices that differ in KL_GROUP_STAT, and in what no link shows. -/
def Dev.GroupSame (d e : Dev) : Prop :=
  e.kl.links = d.kl.links ∧ ∀ (f : Fld) (n : Nat), f.reg.key n ≠ R.KL_GROUP_STAT.key 0 → e.get f n = d.get f n

theorem Dev.GroupSame.refl (d : Dev) : d.GroupSame d := ⟨rfl, fun _ _ _ => rfl⟩

theorem Dev.GroupSame.put (h : d.GroupSame e) {f : Fld} (hf : f.reg = R.KL_GROUP_STAT) (v : Nat) : d.GroupSame (e.put f v) :=
  ⟨h.1, fun g n hg => (Dev.get_put_ne e f g v 0 n (hf ▸ hg)).trans (h.2 g n hg)⟩

theorem Dev.GroupSame.linkUp (h : d.GroupSame e) (k : Nat) : e.linkUp k = d.linkUp k := by
  obtain ⟨_, hget⟩ := h
  have hgroup : R.KL_GROUP_STAT.key 0 = 0x08D00004 := rfl
  have hstate : e.get F.KL_LINK_STAT.STATE k = d.get F.KL_LINK_STAT.STATE k := hget _ _ (by
    have hkey : F.KL_LINK_STAT.STATE.reg.key k = 0x08D01008 + 64 * k := rfl
    omega)
  have hcfg (n : Nat) : R.TST_LB_CFG.key n ≠ R.KL_GROUP_STAT.key 0 := by
    have hkey : R.TST_LB_CFG.key n = 0x09200004 + copyStride * n := rfl
    omega
  unfold Dev.linkUp Dev.linkState Dev.klLooped Dev.loopDepth Dev.flag
  rw [hstate, hget F.TST_LB_CFG.ENABLE _ (hcfg _), hget F.TST_LB_CFG.DEPTH _ (hcfg _)]

theorem Dev.GroupSame.bestUp (h : d.GroupSame e) : e.bestUp = d.bestUp := by
  unfold Dev.bestUp Dev.klink
  simp only [h.linkUp, h.1]

/-- R277: the best link is one of the eight. -/
theorem Dev.bestUp_lt {k : Nat} (h : d.bestUp = some k) : k < 8 := by
  unfold Dev.bestUp at h
  revert h
  refine List.foldlRecOn (motive := fun b => b = some k → k < 8) (List.range 8) _ (fun h => nomatch h) ?_
  intro b hb j hj
  have hlt : j < 8 := List.mem_range.mp hj
  split
  · split
    · split
      · exact fun h => Option.some.inj h ▸ hlt
      · exact hb
    · exact fun h => Option.some.inj h ▸ hlt
  · exact hb

theorem Dev.role_upstream : d.upstream.get F.KL_GROUP_STAT.ROLE = d.get F.KL_GROUP_STAT.ROLE := by
  unfold Dev.upstream
  split
  · rfl
  · split
    · rw [Dev.get_put_other _ F.KL_GROUP_STAT.HOPS F.KL_GROUP_STAT.ROLE _ _ (by decide) (by decide) rfl (by decide),
        Dev.get_put_other _ F.KL_GROUP_STAT.UPSTREAM F.KL_GROUP_STAT.ROLE _ _ (by decide) (by decide) rfl (by decide)]
    · rfl

theorem Dev.upstream_frame : d.upstream.kl = d.kl ∧ d.upstream.tick = d.tick ∧ d.upstream.time = d.time ∧ d.upstream.tickOn = d.tickOn := by
  unfold Dev.upstream
  split
  · exact ⟨rfl, rfl, rfl, rfl⟩
  · split <;> exact ⟨rfl, rfl, rfl, rfl⟩

/-! ## The lead -/

/-- R277: a device shows itself as the lead of the epoch behind the one of `d`. -/
def Dev.leadOf (d e : Dev) : Prop :=
  e.get F.KL_GROUP_STAT.ROLE = 1 ∧ e.get F.KL_GROUP_STAT.LEAD = d.get F.KL_CFG.DEV ∧ e.get F.KL_GROUP_STAT.HOPS = 0 ∧
  e.get F.KL_GROUP_STAT.NEXT_VALID = 0 ∧ e.get F.KL_GROUP_STAT.LEPOCH = (d.get F.KL_GROUP_STAT.LEPOCH + 1) % 256 ∧ e.tick = d.tick

theorem Dev.leadOf_congr {e' : Dev} (h : d.leadOf e) (hregs : e'.regs = e.regs) (htick : e'.tick = e.tick) : d.leadOf e' := by
  unfold Dev.leadOf
  rw [Dev.get_congr e' e hregs, Dev.get_congr e' e hregs, Dev.get_congr e' e hregs, Dev.get_congr e' e hregs, Dev.get_congr e' e hregs, htick]
  exact h

/-- The registers of a device that became lead. -/
def Dev.leadShown (d : Dev) : Dev :=
  ((((d.put F.KL_GROUP_STAT.ROLE 1).put F.KL_GROUP_STAT.LEAD (d.get F.KL_CFG.DEV)).put F.KL_GROUP_STAT.HOPS 0).put
    F.KL_GROUP_STAT.LEPOCH ((d.get F.KL_GROUP_STAT.LEPOCH + 1) % 256)).put F.KL_GROUP_STAT.NEXT_VALID 0

theorem Dev.becomeLead_eq : d.becomeLead = { d.leadShown with kl := { d.kl with wait := 0 } } := by
  have hepoch : (((d.put F.KL_GROUP_STAT.ROLE 1).put F.KL_GROUP_STAT.LEAD (d.get F.KL_CFG.DEV)).put F.KL_GROUP_STAT.HOPS 0).get
      F.KL_GROUP_STAT.LEPOCH 0 = d.get F.KL_GROUP_STAT.LEPOCH := by
    rw [Dev.get_put_other _ F.KL_GROUP_STAT.HOPS F.KL_GROUP_STAT.LEPOCH _ _ (by decide) (by decide) rfl (by decide),
      Dev.get_put_other _ F.KL_GROUP_STAT.LEAD F.KL_GROUP_STAT.LEPOCH _ _ (by decide) (by decide) rfl (by decide),
      Dev.get_put_other _ F.KL_GROUP_STAT.ROLE F.KL_GROUP_STAT.LEPOCH _ _ (by decide) (by decide) rfl (by decide)]
  unfold Dev.becomeLead Dev.leadShown Dev.incWrap
  dsimp only
  rw [hepoch]
  rfl

theorem Dev.leadOf_leadShown : d.leadOf d.leadShown := by
  have hdev : d.get F.KL_CFG.DEV < 8 := Dev.get_lt ..
  unfold Dev.leadShown
  refine ⟨?role, ?dev, ?hops, Dev.get_put_self _ F.KL_GROUP_STAT.NEXT_VALID _ _ (by decide) (by decide), ?epoch, rfl⟩
  case role =>
    rw [Dev.get_put_other _ F.KL_GROUP_STAT.NEXT_VALID F.KL_GROUP_STAT.ROLE _ _ (by decide) (by decide) rfl (by decide),
      Dev.get_put_other _ F.KL_GROUP_STAT.LEPOCH F.KL_GROUP_STAT.ROLE _ _ (by decide) (by decide) rfl (by decide),
      Dev.get_put_other _ F.KL_GROUP_STAT.HOPS F.KL_GROUP_STAT.ROLE _ _ (by decide) (by decide) rfl (by decide),
      Dev.get_put_other _ F.KL_GROUP_STAT.LEAD F.KL_GROUP_STAT.ROLE _ _ (by decide) (by decide) rfl (by decide),
      Dev.get_put_self _ F.KL_GROUP_STAT.ROLE _ _ (by decide) (by decide)]
    rfl
  case dev =>
    rw [Dev.get_put_other _ F.KL_GROUP_STAT.NEXT_VALID F.KL_GROUP_STAT.LEAD _ _ (by decide) (by decide) rfl (by decide),
      Dev.get_put_other _ F.KL_GROUP_STAT.LEPOCH F.KL_GROUP_STAT.LEAD _ _ (by decide) (by decide) rfl (by decide),
      Dev.get_put_other _ F.KL_GROUP_STAT.HOPS F.KL_GROUP_STAT.LEAD _ _ (by decide) (by decide) rfl (by decide),
      Dev.get_put_self _ F.KL_GROUP_STAT.LEAD _ _ (by decide) (by decide)]
    exact Nat.mod_eq_of_lt hdev
  case hops =>
    rw [Dev.get_put_other _ F.KL_GROUP_STAT.NEXT_VALID F.KL_GROUP_STAT.HOPS _ _ (by decide) (by decide) rfl (by decide),
      Dev.get_put_other _ F.KL_GROUP_STAT.LEPOCH F.KL_GROUP_STAT.HOPS _ _ (by decide) (by decide) rfl (by decide),
      Dev.get_put_self _ F.KL_GROUP_STAT.HOPS _ _ (by decide) (by decide)]
    rfl
  case epoch =>
    rw [Dev.get_put_other _ F.KL_GROUP_STAT.NEXT_VALID F.KL_GROUP_STAT.LEPOCH _ _ (by decide) (by decide) rfl (by decide),
      Dev.get_put_self _ F.KL_GROUP_STAT.LEPOCH _ _ (by decide) (by decide)]
    exact Nat.mod_mod ..

theorem Dev.leadElection_of_due (hgroup : d.flag F.KL_CFG.GROUP = true) (hrole : d.get F.KL_GROUP_STAT.ROLE = 0)
    (hwait : d.get F.KL_CFG.JOIN_WAIT * 1000 ≤ d.kl.wait)
    (hlow : ∀ h ∈ d.kl.heard, d.get F.KL_CFG.PRIO * 8 + d.get F.KL_CFG.DEV ≤ h.1 * 8 + h.2) :
    d.leadElection = { d.leadShown with kl := { d.kl with wait := 0 }, tickOn := true, time := Time.reset } := by
  have hjoining : d.joining = true := by
    unfold Dev.joining Dev.role
    rw [hgroup, hrole]
    rfl
  unfold Dev.leadElection
  refine (if_pos ⟨hjoining, hwait, List.all_eq_true.mpr fun h hh => decide_eq_true (hlow h hh)⟩).trans ?_
  rw [Dev.becomeLead_eq]

/-- A device with another group state. -/
def Dev.withKl (e : Dev) (x : Kl) : Dev := { e with kl := x }

theorem Dev.withKl_time (x : Kl) : (e.withKl x).time = e.time := rfl

theorem Dev.leadOf_withKl (h : d.leadOf e) (x : Kl) : d.leadOf (e.withKl x) := h

theorem Dev.leadShown_time : d.leadShown.time = d.time := rfl

/-- R280: a lead by failover keeps the frequency of its system clock. -/
def Dev.takesOver (d : Dev) : Dev := d.leadShown.withKl { d.kl with wait := 0, pll := .xoHeld, adj := 0 }

theorem Dev.takesOver_shows : d.leadOf d.takesOver ∧ d.takesOver.time = d.time ∧ d.takesOver.kl.pll = .xoHeld ∧ d.takesOver.kl.adj = 0 := by
  unfold Dev.takesOver
  exact ⟨Dev.leadOf_withKl Dev.leadOf_leadShown _, (Dev.withKl_time _).trans Dev.leadShown_time, rfl, rfl⟩

theorem Dev.failover_of_lost (hrole : d.get F.KL_GROUP_STAT.ROLE = 2) (hvalid : d.flag F.KL_GROUP_STAT.NEXT_VALID = true)
    (hnext : d.get F.KL_GROUP_STAT.NEXT = d.get F.KL_CFG.DEV)
    (hlinks : ∀ k, k < 8 → d.linkUp k = true → klDev (d.klink k) ≠ d.get F.KL_GROUP_STAT.LEAD)
    (hdirect : ∀ k ∈ d.framesOf (d.tick - 1), klDirect (d.klink k) = false) :
    d.failover = d.takesOver.fault 225 := by
  have hdown : ((List.range 8).all fun k => !(d.linkUp k && klDev (d.klink k) == d.get F.KL_GROUP_STAT.LEAD)) = true := by
    simp only [List.all_eq_true, List.mem_range, Bool.not_eq_true', Bool.and_eq_false_imp, beq_eq_false_iff_ne]
    exact hlinks
  have hnone : ((d.framesOf (d.tick - 1)).any fun k => klDirect (d.klink k)) = false := by
    simpa using hdirect
  unfold Dev.failover Dev.takesOver Dev.withKl
  dsimp only
  rw [hnone]
  refine (if_pos ⟨hrole, hvalid, hnext, hdown, rfl⟩).trans ?_
  rw [Dev.becomeLead_eq]

/-! ## Joining and rejoining -/

/-- R279: what a device takes from the frame by which it joins. -/
def Dev.joined (d : Dev) (x : KlLink) (off : Int) : Dev :=
  let w := toSigned 48 (leAt x.body 36 6)
  { d with
    tick := leAt x.sync 2 4 + 1, tickOn := true
    time := { d.time with lt := leAt x.body 24 12 * 2 ^ 16 + dltOf w, prev := leAt x.body 24 12 * 2 ^ 16, dlt := dltOf w, dltPrev := dltOf w }
    kl := { d.kl with
      tword := w, tqueue := [], lastLead := leAt x.sync 2 4 + 1, wait := 0, pll := .steer, adj := if d.kl.phased then 0 else -off
      phased := false } }

/-- The registers of a device that joined, but for its upstream. -/
def Dev.joinShown (e : Dev) (x : KlLink) : Dev :=
  ((e.put F.KL_GROUP_STAT.ROLE 2).put F.KL_GROUP_STAT.LEPOCH (leAt x.body 22 1)).put F.KL_GROUP_STAT.LEAD (leAt x.body 21 1 % 8)

theorem Dev.join_of_bestUp {k : Nat} (hgroup : d.flag F.KL_CFG.GROUP = true) (hrole : d.get F.KL_GROUP_STAT.ROLE = 0)
    (hbest : d.bestUp = some k) :
    d.join = ((d.joined (d.klink k) (d.gets F.KL_LINK_OFFSET.VALUE k)).joinShown (d.klink k)).upstream := by
  have hjoining : d.joining = true := by
    unfold Dev.joining Dev.role
    rw [hgroup, hrole]
    rfl
  unfold Dev.join
  rw [hjoining, hbest]
  rfl

theorem Dev.GroupSame.joinShown (h : d.GroupSame e) (x : KlLink) : d.GroupSame (e.joinShown x) :=
  ((h.put (f := F.KL_GROUP_STAT.ROLE) rfl _).put (f := F.KL_GROUP_STAT.LEPOCH) rfl _).put (f := F.KL_GROUP_STAT.LEAD) rfl _

theorem Dev.role_joinShown (x : KlLink) : (e.joinShown x).get F.KL_GROUP_STAT.ROLE = 2 := by
  unfold Dev.joinShown
  rw [Dev.get_put_other _ F.KL_GROUP_STAT.LEAD F.KL_GROUP_STAT.ROLE _ _ (by decide) (by decide) rfl (by decide),
    Dev.get_put_other _ F.KL_GROUP_STAT.LEPOCH F.KL_GROUP_STAT.ROLE _ _ (by decide) (by decide) rfl (by decide),
    Dev.get_put_self _ F.KL_GROUP_STAT.ROLE _ _ (by decide) (by decide)]
  rfl

theorem leAt_one_lt (l : List Byte) (i : Nat) : leAt l i 1 < 256 := by
  unfold leAt
  match sliceB l i 1, sliceB_length l i 1 with
  | [b], _ => exact b.isLt

theorem Dev.lead_joinShown (x : KlLink) : (e.joinShown x).get F.KL_GROUP_STAT.LEPOCH = leAt x.body 22 1 ∧
    (e.joinShown x).get F.KL_GROUP_STAT.LEAD = leAt x.body 21 1 % 8 := by
  unfold Dev.joinShown
  refine ⟨?_, ?_⟩
  · rw [Dev.get_put_other _ F.KL_GROUP_STAT.LEAD F.KL_GROUP_STAT.LEPOCH _ _ (by decide) (by decide) rfl (by decide),
      Dev.get_put_self _ F.KL_GROUP_STAT.LEPOCH _ _ (by decide) (by decide)]
    exact Nat.mod_eq_of_lt (leAt_one_lt ..)
  · rw [Dev.get_put_self _ F.KL_GROUP_STAT.LEAD _ _ (by decide) (by decide)]
    exact Nat.mod_mod ..

theorem Dev.upstream_of_bestUp {k : Nat} (hrole : d.get F.KL_GROUP_STAT.ROLE = 2) (hbest : d.bestUp = some k) :
    d.upstream = (d.put F.KL_GROUP_STAT.UPSTREAM k).put F.KL_GROUP_STAT.HOPS (min 15 (klHops (d.klink k) + 1)) := by
  unfold Dev.upstream Dev.role
  rw [hrole, hbest]
  rfl

/-- R277: a follower shows its best link, and one hop more than that shows. -/
theorem Dev.get_upstream {k : Nat} (hrole : d.get F.KL_GROUP_STAT.ROLE = 2) (hbest : d.bestUp = some k) :
    d.upstream.get F.KL_GROUP_STAT.UPSTREAM = k ∧ d.upstream.get F.KL_GROUP_STAT.HOPS = min 15 (klHops (d.klink k) + 1) ∧
    d.upstream.get F.KL_GROUP_STAT.LEPOCH = d.get F.KL_GROUP_STAT.LEPOCH ∧
    d.upstream.get F.KL_GROUP_STAT.LEAD = d.get F.KL_GROUP_STAT.LEAD := by
  rw [Dev.upstream_of_bestUp hrole hbest]
  refine ⟨?_, ?_, ?_, ?_⟩
  · rw [Dev.get_put_other _ F.KL_GROUP_STAT.HOPS F.KL_GROUP_STAT.UPSTREAM _ _ (by decide) (by decide) rfl (by decide),
      Dev.get_put_self _ F.KL_GROUP_STAT.UPSTREAM _ _ (by decide) (by decide)]
    exact Nat.mod_eq_of_lt (Dev.bestUp_lt hbest)
  · rw [Dev.get_put_self _ F.KL_GROUP_STAT.HOPS _ _ (by decide) (by decide)]
    exact Nat.mod_eq_of_lt (Nat.lt_succ_of_le (Nat.min_le_left ..))
  · rw [Dev.get_put_other _ F.KL_GROUP_STAT.HOPS F.KL_GROUP_STAT.LEPOCH _ _ (by decide) (by decide) rfl (by decide),
      Dev.get_put_other _ F.KL_GROUP_STAT.UPSTREAM F.KL_GROUP_STAT.LEPOCH _ _ (by decide) (by decide) rfl (by decide)]
  · rw [Dev.get_put_other _ F.KL_GROUP_STAT.HOPS F.KL_GROUP_STAT.LEAD _ _ (by decide) (by decide) rfl (by decide),
      Dev.get_put_other _ F.KL_GROUP_STAT.UPSTREAM F.KL_GROUP_STAT.LEAD _ _ (by decide) (by decide) rfl (by decide)]

/-- R281: a device that rejoins pulls its system clock in. -/
def Dev.pullsIn (d : Dev) : Dev := { d with kl := { d.kl with lastLead := d.tick, pll := .pullIn } }

theorem Dev.levelOff_frame (s : Nat) :
    (d.levelOff s).regs = d.regs ∧ (d.levelOff s).tick = d.tick ∧ (d.levelOff s).time = d.time := ⟨rfl, rfl, rfl⟩

theorem Dev.pullsIn_frame : d.pullsIn.regs = d.regs ∧ d.pullsIn.tick = d.tick ∧ d.pullsIn.time = d.time ∧
    d.pullsIn.kl.lastLead = d.tick ∧ d.pullsIn.kl.pll = .pullIn := ⟨rfl, rfl, rfl, rfl, rfl⟩

theorem Dev.splitNow_of_lost (hrole : d.get F.KL_GROUP_STAT.ROLE = 2)
    (hlost : (∀ k, k < 8 → d.linkUp k = false) ∨ d.kl.lastLead + d.get F.KL_CFG.DEPTH + 3 < d.tick) :
    d.splitNow = (d.put F.KL_GROUP_STAT.ROLE 3).levelOn 226 := by
  have hall : ((List.range 8).all fun k => !d.linkUp k) = true ↔ ∀ k, k < 8 → d.linkUp k = false := by
    simp only [List.all_eq_true, List.mem_range, Bool.not_eq_true']
  exact if_pos ⟨hrole, hlost.imp_left hall.mpr⟩

theorem Dev.rejoin_of_seen {k : Nat} (hk : k < 8) (hrole : d.get F.KL_GROUP_STAT.ROLE = 3) (hup : d.linkUp k = true)
    (hnew : (d.klink k).newUp = true) (hrx : (d.klink k).rxTick = some (d.tick - 1)) (htick : klTick (d.klink k) = (d.tick - 1) % 2 ^ 32)
    (hhops : klHops (d.klink k) < 15) (hoff : (d.gets F.KL_LINK_OFFSET.VALUE k).natAbs ≤ 500 * 2 ^ 16) :
    d.rejoin = ((d.put F.KL_GROUP_STAT.ROLE 2).levelOff 226).pullsIn.upstream := by
  unfold Dev.rejoin Dev.role
  refine (if_neg (not_not_intro hrole)).trans (if_pos (List.any_eq_true.mpr ⟨k, List.mem_range.mpr hk, ?_⟩))
  rw [hup, hnew, hrx, htick, decide_eq_true hhops, decide_eq_true hoff, beq_self_eq_true, beq_self_eq_true]
  rfl

/-! ## The system PLL -/

theorem Dev.pllBoundary_of_follower (hrole : d.get F.KL_GROUP_STAT.ROLE = 2) :
    d.pllBoundary = { d with kl := { d.kl with pll := d.pllFollow.1, adj := d.pllFollow.2 } } := by
  have hnow : d.pllNow = d.pllFollow := by
    unfold Dev.pllNow Dev.role
    rw [hrole]
    rfl
  unfold Dev.pllBoundary
  rw [hnow]

/-- R277: a good frame of the previous tick came on the link. -/
def Dev.frameCame (d : Dev) (k : Nat) : Prop := d.linkUp k = true ∧ (d.klink k).rxTick = some (d.tick - 1)

section
variable {up : Nat} (hup : d.get F.KL_GROUP_STAT.UPSTREAM = up)
include hup

theorem Dev.pllFollow_holds (h : d.get F.KL_LINK_STAT.CAL up = 2 ∨ ¬ d.frameCame up) :
    d.pllFollow = (if d.kl.pll = .pullIn then .pullIn else .hold, 0) := by
  subst hup
  refine if_pos (h.imp_right fun hno => ?_)
  by_cases hlink : d.linkUp (d.get F.KL_GROUP_STAT.UPSTREAM) = true
  · exact .inr fun hrx => hno ⟨hlink, hrx⟩
  · exact .inl (by simpa using hlink)

variable (hcal : d.get F.KL_LINK_STAT.CAL up ≠ 2) (hframe : d.frameCame up)
include hcal hframe

theorem Dev.pllFollow_of_frame : d.pllFollow =
    (if d.kl.pll = .pullIn ∧ 2 ^ 16 < (d.gets F.KL_LINK_OFFSET.VALUE up).natAbs then
      (.pullIn, if 0 < d.gets F.KL_LINK_OFFSET.VALUE up then -(2 ^ 16) else 2 ^ 16)
    else (.steer, -(d.gets F.KL_LINK_OFFSET.VALUE up))) := by
  subst hup
  obtain ⟨hlink, hrx⟩ := hframe
  refine if_neg fun h => ?_
  rcases h with hc | hl | hr
  · exact hcal hc
  · rw [hlink] at hl
    exact nomatch hl
  · exact hr hrx

end
end

/-- Settles O48: each step of the group by its condition; a lead and a follower show what they took. -/
theorem groupLifecycle : Obligations.GroupLifecycle := by
  intro s d role dev joining lead
  have helect : Gives .leadElection s d.leadElection := rfl
  have hjoin : Gives .join s d.join := rfl
  have hfail : Gives .leadFailover s d.failover := rfl
  have hsplit : Gives .split s d.splitNow := rfl
  have hrejoin : Gives .rejoin s d.rejoin := rfl
  clear_value d
  refine ⟨?elect, ?join, ?fail, fun hrole hlost => hsplit.of_eq (Dev.splitNow_of_lost hrole hlost), ?rejoin, ?pll⟩
  case elect =>
    rintro ⟨hgroup, hrole⟩ hwait hlow
    exact ⟨_, helect.of_eq (Dev.leadElection_of_due hgroup hrole hwait hlow), Dev.leadOf_congr Dev.leadOf_leadShown rfl rfl, rfl, rfl⟩
  case join =>
    rintro k ⟨hgroup, hrole⟩ hbest
    refine ⟨_, hjoin.of_eq (Dev.join_of_bestUp hgroup hrole hbest), ?_⟩
    intro b w
    have hsame : d.GroupSame ((d.joined (d.klink k) (d.gets F.KL_LINK_OFFSET.VALUE k)).joinShown (d.klink k)) :=
      Dev.GroupSame.joinShown ⟨rfl, fun _ _ _ => rfl⟩ _
    have hshown := Dev.lead_joinShown (e := d.joined (d.klink k) (d.gets F.KL_LINK_OFFSET.VALUE k)) (d.klink k)
    have hfollows := Dev.role_joinShown (e := d.joined (d.klink k) (d.gets F.KL_LINK_OFFSET.VALUE k)) (d.klink k)
    have hlink : ((d.joined (d.klink k) (d.gets F.KL_LINK_OFFSET.VALUE k)).joinShown (d.klink k)).klink k = d.klink k := rfl
    have hjoined : (d.joined (d.klink k) (d.gets F.KL_LINK_OFFSET.VALUE k)).tick = leAt (d.klink k).sync 2 4 + 1 := rfl
    obtain ⟨hup, hhops, hepoch, hlead⟩ := Dev.get_upstream hfollows (hsame.bestUp.trans hbest)
    obtain ⟨hkl, htick, htime, hon⟩ :=
      Dev.upstream_frame (d := (d.joined (d.klink k) (d.gets F.KL_LINK_OFFSET.VALUE k)).joinShown (d.klink k))
    rw [hon, htick, htime, hkl, Dev.role_upstream, hfollows, hepoch, hlead, hup, hhops, hlink]
    exact ⟨rfl, hjoined, rfl, rfl, rfl, hshown.1, hshown.2, rfl, rfl, rfl⟩
  case fail =>
    intro hrole hvalid hnext hlinks hdirect
    obtain ⟨hlead, htime, hpll, hadj⟩ := Dev.takesOver_shows (d := d)
    exact ⟨d.takesOver, hlead, htime, hpll, hadj, hfail.of_eq (Dev.failover_of_lost hrole hvalid hnext hlinks hdirect)⟩
  case rejoin =>
    intro k hk hrole hup hnew hrx htick hhops hoff
    refine ⟨_, hrejoin.of_eq (Dev.rejoin_of_seen hk hrole hup hnew hrx htick hhops hoff), ?_⟩
    obtain ⟨hkl, hat, htime, _⟩ := Dev.upstream_frame (d := ((d.put F.KL_GROUP_STAT.ROLE 2).levelOff 226).pullsIn)
    obtain ⟨hregs, hat', htime', hlast, hpll⟩ := Dev.pullsIn_frame (d := (d.put F.KL_GROUP_STAT.ROLE 2).levelOff 226)
    obtain ⟨hregs', hat'', htime''⟩ := Dev.levelOff_frame (d := d.put F.KL_GROUP_STAT.ROLE 2) 226
    rw [Dev.role_upstream, hkl, hat, htime, hlast, hpll, hat', htime', hat'', htime'', Dev.get_congr _ _ (hregs.trans hregs')]
    exact ⟨Dev.get_put_self d F.KL_GROUP_STAT.ROLE _ _ (by decide) (by decide), rfl, rfl, rfl, rfl⟩
  case pll =>
    intro hrole up off frame
    rw [Dev.pllBoundary_of_follower hrole]
    refine ⟨rfl, fun hhold => ?_, fun hcal hframe hsteer => ?_, fun hcal hframe hpull hfar => ?_⟩
    · rw [Dev.pllFollow_holds rfl hhold]
      exact ⟨rfl, fun hpull => if_neg hpull⟩
    · rw [Dev.pllFollow_of_frame rfl hcal hframe,
        if_neg fun h => hsteer.elim (fun hne => hne h.1) fun hnear => Nat.not_lt.mpr hnear h.2]
      exact ⟨rfl, rfl⟩
    · rw [Dev.pllFollow_of_frame rfl hcal hframe, if_pos ⟨hpull, hfar⟩]
      exact ⟨rfl, rfl⟩

end Sys2Proof.Machine
end

section
/-! SUPPORT and proof of O49. The Ream's commands, their ends and an ABORT (R291-R296). -/

namespace Sys2Proof.Machine

section
variable {d : Dev}

/-! ## What starts a command -/

/-- R291, R387: a PROGRAM or ERASE may change what this address names. -/
def Dev.sectorOpen (d : Dev) (s : Nat) : Prop :=
  ∀ r, d.regionOf s = some r ∨ d.regionOfS s = some r → r ≠ 0 ∧ r ≠ 9 ∧
    (d.flag F.REAM_STAT.NVWP = true → d.flag F.REAM_RGN_CFG.PROTECT r = false ∧ d.getS F.REAM_RGN_CFG.PROTECT r ≠ 1)

theorem Dev.mem_reamRegions {addr r : Nat} :
    r ∈ d.reamRegions addr ↔ d.regionOf (addr / 4096) = some r ∨ d.regionOfS (addr / 4096) = some r := by
  unfold Dev.reamRegions
  rw [List.mem_append, Option.mem_toList, Option.mem_toList]

theorem Dev.reamReserved_of_open {addr op : Nat} (h : d.sectorOpen (addr / 4096)) : d.reamReserved op addr = false := by
  have hno (r : Nat) (hr : r = 0 ∨ r = 9) : (d.reamRegions addr).contains r = false := by
    rw [List.contains_eq_mem, decide_eq_false_iff_not]
    intro hmem
    obtain ⟨hzero, hnine, _⟩ := h r (Dev.mem_reamRegions.mp hmem)
    exact hr.elim hzero hnine
  unfold Dev.reamReserved
  rw [hno 0 (.inl rfl), hno 9 (.inr rfl)]
  exact Bool.and_false _

/-- Table Ream refusal codes: a region that is protected while NVWP is high. -/
def Dev.reamGuarded (d : Dev) (addr : Nat) : Bool :=
  d.flag F.REAM_STAT.NVWP &&
    (d.reamRegions addr).any fun r => d.flag F.REAM_RGN_CFG.PROTECT r || d.getS F.REAM_RGN_CFG.PROTECT r == 1

theorem Dev.reamGuarded_of_open {addr : Nat} (h : d.sectorOpen (addr / 4096)) : d.reamGuarded addr = false := by
  unfold Dev.reamGuarded
  rw [Bool.and_eq_false_imp]
  intro hpin
  rw [List.any_eq_false]
  intro r hr
  obtain ⟨_, _, hopen⟩ := h r (Dev.mem_reamRegions.mp hr)
  obtain ⟨hforce, hstaged⟩ := hopen hpin
  rw [hforce, beq_false_of_ne hstaged]
  decide

/-- R291: the controller is busy with a command, a save or a record of the fault log. -/
def Dev.reamBusy (d : Dev) : Bool := d.ream.cmd.isSome || d.ream.save.isSome || d.logBusy

/-- R298: a half-erased sector stands in the way of a command. -/
def Dev.halfBars (d : Dev) (op addr len : Nat) : Bool :=
  !d.ream.half.isEmpty && !(op != 2 && d.ream.half.contains (addr / 4096) && (op == 3 || (addr + len - 1) / 4096 == addr / 4096))

/-- Table Ream refusal codes, behind the check of the range. -/
def Dev.reamCode (d : Dev) (op addr len : Nat) : Nat :=
  if d.reamBusy then 2
  else if op != 1 && d.reamGuarded addr then 3
  else if d.reamReserved op addr then 4
  else if d.halfBars op addr len then 5
  else if d.ream.arm.isSome then 2
  else 0

theorem Dev.reamCheck_read {addr len vat : Nat} (hmin : 8 ≤ len) (hmax : len ≤ 65536) (hwords : len % 8 = 0) (haddr : addr % 8 = 0)
    (hvat : vat % 8 = 0) (hend : vat + len ≤ 2 ^ 26) (hend' : addr + len ≤ 2 ^ 20) : d.reamCheck 1 addr len vat = d.reamCode 1 addr len := by
  unfold Dev.reamCheck
  refine (if_neg ?_).trans rfl
  simp only [Bool.or_eq_true, decide_eq_true_eq, bne_iff_ne]
  omega

theorem Dev.reamCheck_program {addr len vat : Nat} (hmin : 8 ≤ len) (hmax : len ≤ 256) (hwords : len % 8 = 0) (haddr : addr % 8 = 0)
    (hvat : vat % 8 = 0) (hend : vat + len ≤ 2 ^ 26) : d.reamCheck 2 addr len vat = d.reamCode 2 addr len := by
  unfold Dev.reamCheck Dev.reamCode Dev.reamGuarded
  refine (if_neg ?_).trans ?_
  · simp only [Bool.or_eq_true, decide_eq_true_eq, bne_iff_ne]
    omega
  · rw [← Bool.and_assoc]
    rfl

theorem Dev.reamCheck_erase {addr len vat : Nat} (haddr : addr % 4096 = 0) : d.reamCheck 3 addr len vat = d.reamCode 3 addr len := by
  unfold Dev.reamCheck Dev.reamCode Dev.reamGuarded
  refine (if_neg ?_).trans ?_
  · simp only [bne_iff_ne]
    omega
  · rw [← Bool.and_assoc]
    rfl

/-- R291: nothing keeps the controller from a command. -/
def Dev.reamIdle (d : Dev) : Prop := d.ream.cmd = none ∧ d.ream.save = none ∧ d.ream.arm = none ∧ d.logBusy = false

theorem Dev.reamCode_of_idle {op addr len : Nat} (hidle : d.reamIdle) (hguard : op = 1 ∨ d.sectorOpen (addr / 4096))
    (hhalf : d.halfBars op addr len = false) : d.reamCode op addr len = 0 := by
  obtain ⟨hcmd, hsave, harm, hlog⟩ := hidle
  have hbusy : d.reamBusy = false := by
    unfold Dev.reamBusy
    rw [hcmd, hsave, hlog]
    rfl
  have hprotect : (op != 1 && d.reamGuarded addr) = false := by
    rcases hguard with rfl | hopen
    · rfl
    · rw [Dev.reamGuarded_of_open hopen]
      exact Bool.and_false _
  have hreserved : d.reamReserved op addr = false := by
    rcases hguard with rfl | hopen
    · rfl
    · exact Dev.reamReserved_of_open hopen
  unfold Dev.reamCode
  rw [hbusy, hprotect, hreserved, hhalf, harm]
  rfl

theorem Dev.halfBars_of_whole {op addr len : Nat} (h : d.ream.half = []) : d.halfBars op addr len = false := by
  unfold Dev.halfBars
  rw [h]
  rfl

/-- R298: an erase of the half-erased sector itself is not barred. -/
theorem Dev.halfBars_erase {addr len : Nat} (h : addr / 4096 ∈ d.ream.half) : d.halfBars 3 addr len = false := by
  unfold Dev.halfBars
  rw [List.contains_eq_mem, decide_eq_true h]
  exact Bool.and_false _

/-- R291: the device with a command that starts. -/
def Dev.reamStart (d : Dev) (c : ReamCmd) : Dev :=
  { (d.put F.REAM_STAT.STATE 1).put F.REAM_STAT.ABORT_LATE 0 with ream := { d.ream with cmd := some c } }

section
variable {p : Path} {op len addr vat : Nat} (haddr : addr = d.get F.REAM_ADDR.ADDR p.code) (hvat : vat = d.get F.REAM_VAT.OFFSET p.code)
  (hstop : d.flag F.FLT_STATE.STOPPED = false)
include haddr hvat hstop

theorem Dev.reamCmd_starts (hcheck : d.reamCheck op addr len vat = 0) :
    d.reamCmd p op len = if op = 3 then (d.reamStart ⟨op, addr, len, vat⟩).eraseBegin (addr / 4096) else d.reamStart ⟨op, addr, len, vat⟩ := by
  unfold Dev.reamCmd Dev.stopped
  dsimp only
  rw [← haddr, ← hvat, hstop, hcheck]
  exact if_neg fun h => nomatch (show false = true from h)

theorem Dev.reamCmd_busy (hcheck : d.reamCheck 1 addr len vat = 2) :
    d.reamCmd p 1 len = (d.put F.REAM_STAT.REFUSE 2).refuse p.code R.REAM_CMD.off .state := by
  unfold Dev.reamCmd Dev.stopped
  dsimp only
  rw [← haddr, ← hvat, hstop, hcheck]
  exact if_pos (Bool.or_eq_true_iff.mpr (.inl (by decide)))

end

/-! ## A READ -/

/-- R294: the groups of a READ end with code 1, 2 or 3. -/
theorem Dev.readGroup_code (g vat : Nat) {code : Nat} (h : code ≤ 3) : (d.readGroup g vat code).2 ≤ 3 := by
  unfold Dev.readGroup
  split
  · exact Nat.le_refl 3
  · dsimp only
    split
    · exact Nat.max_le.mpr ⟨h, by decide⟩
    · exact h

theorem Dev.readGroup_of_good {g vat code : Nat} (hue : g ∉ d.ream.ue) (hce : g ∉ d.ream.ce) :
    d.readGroup g vat code = (d.vatUser vat (Memory.readN 0xFF d.ream.mem (8 * g) 8), code) := by
  have hream (a : Nat) (l : List Byte) : (d.vatUser a l).ream = d.ream := by
    have hkept : (d.vatUser a l).kept.ream = d.kept.ream := congrArg (fun e : Dev => e.ream) (d.vatUser_kept a l)
    exact hkept
  unfold Dev.readGroup
  refine (if_neg (by rwa [List.contains_iff_mem])).trans (if_neg ?_)
  rwa [hream, List.contains_iff_mem]

/-- R291: a command that ends. -/
def Dev.reamEnded (d : Dev) (st code : Nat) : Dev :=
  { (d.put F.REAM_STAT.STATE st).put F.REAM_STAT.CODE code with ream := { d.ream with cmd := none, doneAt := some d.absCycle } }

theorem Dev.reamEnd_eq (st code : Nat) : d.reamEnd st code = if code = 6 then (d.reamEnded st code).fault 68 else d.reamEnded st code := rfl

theorem Dev.reamEnd_of_good {st code : Nat} (h : code ≠ 6) : d.reamEnd st code = d.reamEnded st code := d.reamEnd_eq st code ▸ if_neg h

theorem Dev.reamEnd_verify (st : Nat) : d.reamEnd st 6 = (d.reamEnded st 6).fault 68 := d.reamEnd_eq st 6 ▸ if_pos rfl

theorem Dev.reamReadDone_of_read {addr len vat : Nat} (h : d.ream.cmd = some ⟨1, addr, len, vat⟩) : d.reamReadDone =
    (let r := (List.range (len / 8)).foldl (fun (x : Dev × Nat) i => x.1.readGroup (addr / 8 + i) (vat + 8 * i) x.2) (d, 1)
     r.1.reamEnded 2 r.2) := by
  have hdone : d.reamReadDone =
      (let r := (List.range (len / 8)).foldl (fun (x : Dev × Nat) i => x.1.readGroup (addr / 8 + i) (vat + 8 * i) x.2) (d, 1)
       r.1.reamEnd 2 r.2) := by
    unfold Dev.reamReadDone
    rw [h]
    rfl
  rw [hdone]
  dsimp only
  refine Dev.reamEnd_of_good (Nat.ne_of_lt (Nat.lt_of_le_of_lt (m := 3) ?_ (by decide)))
  exact List.foldlRecOn (motive := fun x : Dev × Nat => x.2 ≤ 3) _ _ (show 1 ≤ 3 by decide) fun x hx i _ => x.1.readGroup_code _ _ hx

/-! ## Groups programmed one after the other -/

/-- R292: the i-th group of a PROGRAM at an address, wrapping inside its page. -/
def groupAt (addr i : Nat) : Nat := 32 * (addr / 256) + (addr / 8 % 32 + i) % 32

theorem groupAt_inj {addr i j : Nat} (hi : i < 32) (hj : j < 32) (h : groupAt addr i = groupAt addr j) : i = j := by
  unfold groupAt at h
  omega

theorem foldl_programGroups (c : ReamCmd) (f : Dev → Nat × Nat → Dev) :
    (programGroups c).zipIdx.foldl f d = (List.range (c.len / 8)).foldl (fun d i => f d (groupAt c.addr i, i)) d := by
  have hzip : (programGroups c).zipIdx = (List.range (c.len / 8)).map fun i => (groupAt c.addr i, i) :=
    List.ext_getElem (by simp [programGroups]) (by simp [programGroups, groupAt])
  rw [hzip, List.foldl_map]

/-- The byte at an address of the Ream. -/
def Dev.reamAt (d : Dev) (a : Nat) : Byte := Memory.read 0xFF d.ream.mem a

/-- A step of a PROGRAM: what it leaves. -/
structure GroupStep (group : Nat → Nat) (step : Dev → Nat → Dev) : Prop where
  vat : ∀ d i, (step d i).vat = d.vat
  out : ∀ d i a, a / 8 ≠ group i → (step d i).reamAt a = d.reamAt a

section
variable {group : Nat → Nat} {step : Dev → Nat → Dev} (h : GroupStep group step)
include h

theorem GroupStep.foldl_vat (m : Nat) : ((List.range m).foldl step d).vat = d.vat := by
  generalize List.range m = l
  induction l generalizing d with
  | nil => rfl
  | cons i r ih => exact ih.trans (h.vat d i)

theorem GroupStep.foldl_out (m : Nat) {a : Nat} (ha : ∀ i, i < m → a / 8 ≠ group i) :
    ((List.range m).foldl step d).reamAt a = d.reamAt a := by
  induction m with
  | zero => rfl
  | succ m ih =>
    rw [List.range_succ, List.foldl_append]
    exact (h.out _ m a (ha m (Nat.lt_succ_self m))).trans (ih fun i hi => ha i (Nat.lt_succ_of_lt hi))

/-- A group holds at the end what its own step left in it. -/
theorem GroupStep.foldl_at {m i a : Nat} (hinj : ∀ j, j < m → group j = group i → j = i) (hi : i < m) (ha : a / 8 = group i) :
    ((List.range m).foldl step d).reamAt a = (step ((List.range i).foldl step d) i).reamAt a := by
  induction m with
  | zero => exact absurd hi (Nat.not_lt_zero i)
  | succ m ih =>
    rw [List.range_succ, List.foldl_append]
    by_cases hlast : i = m
    · subst hlast
      rfl
    · have hother : a / 8 ≠ group m := fun heq => hlast (hinj m (Nat.lt_succ_self m) (heq.symm.trans ha)).symm
      exact (h.out _ m a hother).trans (ih (fun j hj => hinj j (Nat.lt_succ_of_lt hj)) (Nat.lt_of_le_of_ne (Nat.le_of_lt_succ hi) hlast))

end

theorem readN_congr {x : Byte} {m m' : Memory} {a b n : Nat} {y : Byte} (h : ∀ i, i < n → m.read x (a + i) = m'.read y (b + i)) :
    Memory.readN x m a n = Memory.readN y m' b n := by
  unfold Memory.readN
  exact List.map_congr_left fun i hi => h i (List.mem_range.mp hi)

theorem Memory.readN_length (x : Byte) (m : Memory) (a n : Nat) : (Memory.readN x m a n).length = n := by
  simp [Memory.readN]

/-- A part of what was read, read by itself. -/
theorem sliceB_readN (x : Byte) (m : Memory) {a n i k : Nat} (h : i + k ≤ n) :
    sliceB (Memory.readN x m a n) i k = Memory.readN x m (a + i) k := by
  have hwhole : sliceB (Memory.readN x m a n) i k = ((Memory.readN x m a n).drop i).take k := by
    unfold sliceB
    simp [Memory.readN_length, Nat.le_sub_of_add_le (Nat.add_comm i k ▸ h)]
  rw [hwhole]
  refine List.ext_getElem ?_ fun j _ _ => ?_
  · simp [Memory.readN]
    omega
  · simp [Memory.readN, Nat.add_assoc]

/-- R287: a group programmed with eight bytes. -/
theorem Dev.groupPut_reads {g : Nat} {l : List Byte} (hl : l.length = 8) {i : Nat} (hi : i < 8) :
    (d.groupPut g l).reamAt (8 * g + i) = l[i] := by
  have hwhole : sliceB l 0 8 = l := by
    unfold sliceB
    simp [hl]
  have hmem : (d.groupPut g l).ream.mem = Memory.writeN 0xFF d.ream.mem (8 * g) (sliceB l 0 8) := rfl
  unfold Dev.reamAt
  rw [hmem, hwhole, Memory.read_writeN_in _ _ _ _ _ (hl ▸ hi)]

theorem Dev.groupPut_out (g : Nat) (l : List Byte) {a : Nat} (ha : a / 8 ≠ g) : (d.groupPut g l).reamAt a = d.reamAt a := by
  have hmem : (d.groupPut g l).ream.mem = Memory.writeN 0xFF d.ream.mem (8 * g) (sliceB l 0 8) := rfl
  unfold Dev.reamAt
  rw [hmem, Memory.read_writeN_out _ _ _ _ _ (by rw [sliceB_length]; omega)]

/-- A group whose programming was cut has free bytes (log entry 2), in its own place. -/
theorem Dev.groupIndet_out (g : Nat) {a : Nat} (ha : a / 8 ≠ g) : (d.groupIndet g).reamAt a = d.reamAt a :=
  Dev.groupPut_out g _ ha

/-- R293: one group of a PROGRAM of the bytes `l` at an address. -/
def programStep (addr : Nat) (l : List Byte) (d : Dev) (i : Nat) : Dev := d.groupPut (groupAt addr i) (sliceB l (8 * i) 8)

/-- R295: one group of a PROGRAM that an ABORT cut after n of them. -/
def cutStep (addr n : Nat) (l : List Byte) (d : Dev) (i : Nat) : Dev :=
  if i < n then programStep addr l d i else if i = n then d.groupIndet (groupAt addr i) else d

theorem programStep_frame (addr : Nat) (l : List Byte) : GroupStep (groupAt addr) (programStep addr l) where
  vat _ _ := rfl
  out _ _ _ ha := Dev.groupPut_out _ _ ha

theorem cutStep_frame (addr n : Nat) (l : List Byte) : GroupStep (groupAt addr) (cutStep addr n l) where
  vat d i := by
    unfold cutStep
    split
    · rfl
    · split <;> rfl
  out d i a ha := by
    unfold cutStep
    split
    · exact Dev.groupPut_out _ _ ha
    · split
      · exact Dev.groupIndet_out _ ha
      · rfl

/-- R293: what the groups of a PROGRAM hold at its end. -/
theorem GroupStep.foldl_program {addr n m : Nat} {step : Dev → Nat → Dev} {g : Dev} {vat : Nat} (h : GroupStep (groupAt addr) step)
    (hm : m ≤ 32) {len : Nat} (hlen : m = len / 8) (hstep : ∀ d i, i < n → step d i = programStep addr (g.vbytes vat len) d i)
    {i : Nat} (hi : i < m) (hn : i < n) :
    Memory.readN 0xFF ((List.range m).foldl step d).ream.mem (8 * groupAt addr i) 8 = Memory.readN 0 g.vat.mem (vat + 8 * i) 8 := by
  have hslice : sliceB (g.vbytes vat len) (8 * i) 8 = Memory.readN 0 g.vat.mem (vat + 8 * i) 8 := sliceB_readN 0 g.vat.mem (by omega)
  refine readN_congr fun k hk => ?_
  refine (h.foldl_at (fun j hj => groupAt_inj (by omega) (by omega)) hi (by omega)).trans ?_
  rw [hstep _ i hn]
  unfold programStep
  rw [hslice, Dev.groupPut_reads (Memory.readN_length ..) hk]
  simp [Memory.readN]

/-! ## The end of a PROGRAM, an ERASE and an ABORT -/

/-- R293: the source is sound and the target blank. -/
def Dev.programReady (d : Dev) (addr len vat : Nat) : Prop :=
  d.vbad vat len = false ∧ ∀ i, i < len / 8 → d.groupBlank (groupAt addr i) = true

theorem Dev.programCheck_of_ready {addr len vat : Nat} (h : d.programReady addr len vat) : d.programCheck ⟨2, addr, len, vat⟩ = 0 := by
  obtain ⟨hgood, hblank⟩ := h
  have hmem (g : Nat) (hg : g ∈ programGroups ⟨2, addr, len, vat⟩) : d.groupBlank g = true := by
    obtain ⟨i, hi, heq⟩ := List.mem_map.mp hg
    exact heq ▸ hblank i (List.mem_range.mp hi)
  have hue : (programGroups ⟨2, addr, len, vat⟩).any (fun g => d.ream.ue.contains g) = false := by
    rw [List.any_eq_false]
    intro g hg hc
    have hb := hmem g hg
    unfold Dev.groupBlank at hb
    rw [hc] at hb
    simp at hb
  have hblanks : (programGroups ⟨2, addr, len, vat⟩).any (fun g => !d.groupBlank g) = false := by
    rw [List.any_eq_false]
    intro g hg hc
    rw [hmem g hg] at hc
    exact nomatch hc
  unfold Dev.programCheck
  dsimp only
  rw [hgood, hue, hblanks]
  rfl

/-- R293: the Ream with the whole source in the target. -/
def Dev.programmed (d : Dev) (addr len vat : Nat) : Dev := (List.range (len / 8)).foldl (programStep addr (d.vbytes vat len)) d

/-- R295: the Ream with the first n groups of the source in the target, and the next one cut. -/
def Dev.programCut (d : Dev) (addr len vat n : Nat) : Dev := (List.range (len / 8)).foldl (cutStep addr n (d.vbytes vat len)) d

/-- R295: the device after an ABORT of a command. -/
def Dev.aborted (e : Dev) : Dev := { e.put F.REAM_STAT.STATE 3 with ream := { e.ream with cmd := none } }

/-- R293: the end of a PROGRAM whose source has been read. -/
def Dev.programEnds (d : Dev) (c : ReamCmd) (ok : Bool) : Dev :=
  if d.programCheck c ≠ 0 then d.reamEnd 4 (d.programCheck c)
  else
    let e := (programGroups c).zipIdx.foldl (fun e p => e.groupPut p.1 (sliceB (d.vbytes c.vat c.len) (8 * p.2) 8)) d
    if ok then e.reamEnd 2 1 else e.reamEnd 4 6

/-- R295: a PROGRAM that is cut after n groups. -/
def Dev.programStops (d : Dev) (c : ReamCmd) (n : Nat) : Dev :=
  if d.programCheck c ≠ 0 then d
  else (programGroups c).zipIdx.foldl (fun e p =>
    if p.2 < n then e.groupPut p.1 (sliceB (d.vbytes c.vat c.len) (8 * p.2) 8) else if p.2 = n then e.groupIndet p.1 else e) d

section
variable {addr len vat : Nat}

theorem Dev.reamProgramDone_of_ready (hcmd : d.ream.cmd = some ⟨2, addr, len, vat⟩)
    (hready : ((d.ctxShow vat len).vatTouch vat len 4).programReady addr len vat) (ok : Bool) : d.reamProgramDone ok =
    (let e := ((d.ctxShow vat len).vatTouch vat len 4).programmed addr len vat
     if ok then e.reamEnd 2 1 else e.reamEnd 4 6) := by
  have hfold (e : Dev) (l : List Byte) : (programGroups ⟨2, addr, len, vat⟩).zipIdx.foldl
      (fun d p => d.groupPut p.1 (sliceB l (8 * p.2) 8)) e = (List.range (len / 8)).foldl (programStep addr l) e :=
    foldl_programGroups ⟨2, addr, len, vat⟩ _
  have hcheck := Dev.programCheck_of_ready hready
  have hdone : d.reamProgramDone ok = ((d.ctxShow vat len).vatTouch vat len 4).programEnds ⟨2, addr, len, vat⟩ ok := by
    unfold Dev.reamProgramDone
    rw [hcmd]
    rfl
  rw [hdone]
  unfold Dev.programEnds Dev.programmed
  dsimp only
  rw [hcheck, hfold]
  exact if_neg fun h => h rfl

theorem Dev.reamAbort_of_program {p : Path} {n : Nat} (hcmd : d.ream.cmd = some ⟨2, addr, len, vat⟩)
    (hready : (d.ctxShow vat len).programReady addr len vat) :
    d.reamAbort p n = ((d.ctxShow vat len).programCut addr len vat n).aborted := by
  have hfold (e : Dev) (l : List Byte) : (programGroups ⟨2, addr, len, vat⟩).zipIdx.foldl
      (fun d p => if p.2 < n then d.groupPut p.1 (sliceB l (8 * p.2) 8) else if p.2 = n then d.groupIndet p.1 else d) e =
      (List.range (len / 8)).foldl (cutStep addr n l) e :=
    foldl_programGroups ⟨2, addr, len, vat⟩ _
  have hcheck := Dev.programCheck_of_ready hready
  have hread : d.readCut n = d := by
    unfold Dev.readCut
    rw [hcmd]
    rfl
  have hcut : d.reamCut n = (d.ctxShow vat len).programCut addr len vat n := by
    have hstops : d.reamCut n = (d.ctxShow vat len).programStops ⟨2, addr, len, vat⟩ n := by
      unfold Dev.reamCut
      rw [hcmd]
      rfl
    rw [hstops]
    unfold Dev.programStops Dev.programCut
    dsimp only
    rw [hcheck, hfold]
    exact if_neg fun h => h rfl
  unfold Dev.reamAbort
  rw [hread, hcut, hcmd]
  rfl

end

theorem Dev.reamAbort_late {p : Path} {n : Nat} (hcmd : d.ream.cmd = none) (hdone : d.ream.doneAt = some d.absCycle) :
    d.reamAbort p n = d.put F.REAM_STAT.ABORT_LATE 1 := by
  unfold Dev.reamAbort
  rw [hcmd]
  exact if_pos hdone

theorem Dev.reamEraseDone_of_erase {addr len vat : Nat} (hcmd : d.ream.cmd = some ⟨3, addr, len, vat⟩) (ok : Bool) : d.reamEraseDone ok =
    if ok then (d.eraseFinish (addr / 4096)).reamEnded 2 1
    else ((((d.sectorBlank (addr / 4096)).erasesUp (addr / 4096) (d.eraseCount (addr / 4096))).reamEnded 4 6).fault 68) := by
  rw [← Dev.reamEnd_verify, ← Dev.reamEnd_of_good (st := 2) (code := 1) (by decide)]
  unfold Dev.reamEraseDone
  rw [hcmd]
  rfl

/-- R287: every byte of an erased sector reads 0xFF. -/
theorem Dev.read_sectorBlank (s a : Nat) :
    Memory.read 0xFF (d.sectorBlank s).ream.mem a = if a / 4096 = s then 0xFF else Memory.read 0xFF d.ream.mem a := by
  have hmem : (d.sectorBlank s).ream.mem = d.ream.mem.filter fun c => c.1 / 4096 != s := rfl
  rw [hmem]
  unfold Memory.read Tbl.getD
  split
  · next heq => rw [Tbl.find?_filter_drop (fun k => k / 4096 != s) _ _ (by rw [heq, bne_self_eq_false])]; rfl
  · next hne => rw [Tbl.find?_filter_keep (fun k => k / 4096 != s) _ _ (bne_iff_ne.mpr hne)]

/-- The state, code and memories of a command that ended. -/
theorem Dev.reamEnded_shows (st code : Nat) (hst : st < 8) (hcode : code < 16) : (d.reamEnded st code).get F.REAM_STAT.STATE = st ∧
    (d.reamEnded st code).get F.REAM_STAT.CODE = code ∧ (d.reamEnded st code).ream.cmd = none ∧
    (d.reamEnded st code).ream.mem = d.ream.mem ∧ (d.reamEnded st code).vat = d.vat := by
  have hregs : (d.reamEnded st code).regs = ((d.put F.REAM_STAT.STATE st).put F.REAM_STAT.CODE code).regs := rfl
  refine ⟨?_, ?_, rfl, rfl, rfl⟩
  · rw [Dev.get_congr _ _ hregs, Dev.get_put_other _ F.REAM_STAT.CODE F.REAM_STAT.STATE _ _ (by decide) (by decide) rfl (by decide),
      Dev.get_put_self _ F.REAM_STAT.STATE _ _ (by decide) (by decide)]
    exact Nat.mod_eq_of_lt hst
  · rw [Dev.get_congr _ _ hregs, Dev.get_put_self _ F.REAM_STAT.CODE _ _ (by decide) (by decide)]
    exact Nat.mod_eq_of_lt hcode

/-- R293: what a PROGRAM, whole or cut, leaves: the first groups hold the source, and nothing else changed. -/
theorem Dev.programmed_shows {addr len vat : Nat} (hlen : len / 8 ≤ 32) :
    (∀ i, i < len / 8 →
      Memory.readN 0xFF (d.programmed addr len vat).ream.mem (8 * groupAt addr i) 8 = Memory.readN 0 d.vat.mem (vat + 8 * i) 8) ∧
    (d.programmed addr len vat).vat = d.vat ∧
    ∀ a, (∀ i, i < len / 8 → a / 8 ≠ groupAt addr i) → (d.programmed addr len vat).reamAt a = d.reamAt a :=
  have hframe := programStep_frame addr (d.vbytes vat len)
  ⟨fun _ hi => hframe.foldl_program (n := len / 8) hlen rfl (fun _ _ _ => rfl) hi hi, hframe.foldl_vat _, fun _ ha => hframe.foldl_out _ ha⟩

theorem Dev.programCut_shows {addr len vat n : Nat} (hlen : len / 8 ≤ 32) :
    (∀ i, i < len / 8 → i < n →
      Memory.readN 0xFF (d.programCut addr len vat n).ream.mem (8 * groupAt addr i) 8 = Memory.readN 0 d.vat.mem (vat + 8 * i) 8) ∧
    (d.programCut addr len vat n).vat = d.vat ∧
    (∀ a, (∀ i, i < len / 8 → a / 8 ≠ groupAt addr i) → (d.programCut addr len vat n).reamAt a = d.reamAt a) ∧
    ∀ i, i < len / 8 → n < i → Memory.readN 0xFF (d.programCut addr len vat n).ream.mem (8 * groupAt addr i) 8 =
      Memory.readN 0xFF d.ream.mem (8 * groupAt addr i) 8 := by
  have hframe := cutStep_frame addr n (d.vbytes vat len)
  refine ⟨fun i hi hn => hframe.foldl_program hlen rfl (fun d i hi => if_pos hi) hi hn, hframe.foldl_vat _,
    fun _ ha => hframe.foldl_out _ ha, fun i hi hn => readN_congr fun k hk => ?_⟩
  refine (hframe.foldl_at (fun j hj => groupAt_inj (by omega) (by omega)) hi (by omega)).trans ?_
  have hskip (e : Dev) : cutStep addr n (d.vbytes vat len) e i = e := (if_neg (by omega)).trans (if_neg (by omega))
  rw [hskip]
  refine hframe.foldl_out _ fun j hj heq => ?_
  have hsame : groupAt addr i = groupAt addr j := by omega
  exact absurd (groupAt_inj (by omega) (by omega) hsame) (by omega)

/-- R295: an ABORT leaves the memories as the cut PROGRAM left them. -/
theorem Dev.aborted_shows (e : Dev) :
    e.aborted.get F.REAM_STAT.STATE = 3 ∧ e.aborted.ream.cmd = none ∧ e.aborted.ream.mem = e.ream.mem ∧ e.aborted.vat = e.vat :=
  ⟨Dev.get_put_self e F.REAM_STAT.STATE 3 0 (by decide) (by decide), rfl, rfl, rfl⟩

end

/-- Settles O49: a start by the refusal codes, an end by its groups, each of which is programmed in its own place. -/
theorem reamCommands : Obligations.ReamCommands := by
  intro p n17 n c s addr len vat d ended
  have hread {d'} (hreach : s.reaches p R.REAM_CMD.off) (h : d.reamCmd p 1 n17.toNat = d') : Gives (.reamRead p n17) s d' :=
    Gives.of_reach (·.reamCmd p 1 n17.toNat) rfl hreach h
  have hprogram {d'} (hreach : s.reaches p R.REAM_CMD.off) (h : d.reamCmd p 2 n17.toNat = d') : Gives (.reamProgram p n17) s d' :=
    Gives.of_reach (·.reamCmd p 2 n17.toNat) rfl hreach h
  have herase {d'} (hreach : s.reaches p R.REAM_CMD.off) (h : d.reamCmd p 3 0 = d') : Gives (.reamErase p) s d' :=
    Gives.of_reach (·.reamCmd p 3 0) rfl hreach h
  have habort {d'} (hreach : s.reaches p R.REAM_CMD.off) (h : (d.atCycle c.val).reamAbort p n.toNat = d') : Gives (.reamAbort p n c) s d' :=
    Gives.of_reach (fun d => (d.atCycle c.val).reamAbort p n.toNat) rfl hreach h
  have hreadDone : Gives .reamReadDone s d.reamReadDone := rfl
  have hprogramDone (ok : Bool) : Gives (.reamProgramDone ok) s (d.reamProgramDone ok) := rfl
  have heraseDone (ok : Bool) : Gives (.reamEraseDone ok) s (d.reamEraseDone ok) := rfl
  clear_value d
  refine ⟨?start, fun hcmd => hreadDone.of_eq (Dev.reamReadDone_of_read hcmd), fun e g v code hue hce => Dev.readGroup_of_good hue hce, ?_,
    fun hcmd => ?erase, fun hreach hcmd hdone => habort hreach (Dev.reamAbort_late hcmd hdone), fun e sector a => e.read_sectorBlank sector a⟩
  case start =>
    intro hreach haddr hvat hstop start idle inVat mayWrite
    refine ⟨fun hmin hmax hwords halign hin hend => ⟨fun hidle hhalf => ?_, fun hbusy => ?_⟩,
      fun hmin hmax hwords halign hin hidle hwrite hhalf => ?_, fun halign hidle hwrite hhalf => ?_⟩
    · have hcheck := (Dev.reamCheck_read hmin hmax hwords halign hin.1 hin.2 hend).trans
        (Dev.reamCode_of_idle hidle (.inl rfl) (Dev.halfBars_of_whole hhalf))
      exact hread hreach ((Dev.reamCmd_starts haddr hvat hstop hcheck).trans (if_neg (by decide)))
    · have hbusy' : d.reamBusy = true := by
        unfold Dev.reamBusy
        simpa only [Bool.or_eq_true, or_assoc] using hbusy
      have hcheck : d.reamCheck 1 addr n17.toNat vat = 2 :=
        (Dev.reamCheck_read hmin hmax hwords halign hin.1 hin.2 hend).trans (if_pos hbusy')
      exact hread hreach (Dev.reamCmd_busy haddr hvat hstop hcheck)
    · have hcheck := (Dev.reamCheck_program hmin hmax hwords halign hin.1 hin.2).trans
        (Dev.reamCode_of_idle hidle (.inr hwrite) (Dev.halfBars_of_whole hhalf))
      exact hprogram hreach ((Dev.reamCmd_starts haddr hvat hstop hcheck).trans (if_neg (by decide)))
    · have hbars : d.halfBars 3 addr 0 = false := hhalf.elim Dev.halfBars_of_whole Dev.halfBars_erase
      have hcheck := (Dev.reamCheck_erase (vat := vat) halign).trans (Dev.reamCode_of_idle (len := 0) hidle (.inr hwrite) hbars)
      exact herase hreach ((Dev.reamCmd_starts haddr hvat hstop hcheck).trans (if_pos rfl))
  case erase =>
    intro sector count erased logged whole
    exact ⟨(heraseDone true).of_eq ((Dev.reamEraseDone_of_erase hcmd true).trans (if_pos rfl)),
      (heraseDone false).of_eq ((Dev.reamEraseDone_of_erase hcmd false).trans (if_neg Bool.false_ne_true))⟩
  intro group same kept ready src cut hcmd hmin hmax hwords
  have hm : len / 8 ≤ 32 := by omega
  have hdone (h : ready src) (ok : Bool) := Dev.reamProgramDone_of_ready hcmd h ok
  have hcutDone (h : ready cut) := Dev.reamAbort_of_program (d := d.atCycle c.val) (p := p) (n := n.toNat) hcmd h
  refine ⟨fun hready => ?_, fun hready => ?_, fun hreach hready => ?_⟩
  · have hend := ((hdone hready true).trans (if_pos rfl)).trans (Dev.reamEnd_of_good (st := 2) (code := 1) (by decide))
    refine ⟨(src.programmed addr len vat).reamEnded 2 1, (hprogramDone true).of_eq hend, ?_⟩
    clear_value src
    obtain ⟨hstate, hcode, hnone, hmem, hvat⟩ := (src.programmed addr len vat).reamEnded_shows 2 1 (by decide) (by decide)
    obtain ⟨hgroups, hsrc, hout⟩ := src.programmed_shows (addr := addr) (vat := vat) hm
    exact ⟨hstate, hcode, hnone, fun i hi => (congrArg (fun m => Memory.readN 0xFF m _ 8) hmem).trans (hgroups i hi), hvat.trans hsrc,
      fun a ha => (congrArg (fun m => Memory.read 0xFF m a) hmem).trans (hout a ha)⟩
  · have hend := ((hdone hready false).trans (if_neg Bool.false_ne_true)).trans (Dev.reamEnd_verify 4)
    refine ⟨(src.programmed addr len vat).reamEnded 4 6, (hprogramDone false).of_eq hend, ?_⟩
    clear_value src
    obtain ⟨hstate, hcode, hnone, hmem, hvat⟩ := (src.programmed addr len vat).reamEnded_shows 4 6 (by decide) (by decide)
    obtain ⟨hgroups, hsrc, hout⟩ := src.programmed_shows (addr := addr) (vat := vat) hm
    exact ⟨hstate, hcode, hnone, fun i hi => (congrArg (fun m => Memory.readN 0xFF m _ 8) hmem).trans (hgroups i hi), hvat.trans hsrc,
      fun a ha => (congrArg (fun m => Memory.read 0xFF m a) hmem).trans (hout a ha)⟩
  · refine ⟨(cut.programCut addr len vat n.toNat).aborted, habort hreach (hcutDone hready), ?_⟩
    clear_value cut
    obtain ⟨hstate, hnone, hmem, hvat⟩ := (cut.programCut addr len vat n.toNat).aborted_shows
    obtain ⟨hgroups, hsrc, hout, hrest⟩ := cut.programCut_shows (addr := addr) (vat := vat) (n := n.toNat) hm
    exact ⟨hstate, hnone, fun i hi hn => (congrArg (fun m => Memory.readN 0xFF m _ 8) hmem).trans (hgroups i hi hn), ⟨hvat.trans hsrc,
      fun a ha => (congrArg (fun m => Memory.read 0xFF m a) hmem).trans (hout a ha)⟩,
      fun i hi hn => (congrArg (fun m => Memory.readN 0xFF m _ 8) hmem).trans (hrest i hi hn)⟩

end Sys2Proof.Machine
end

section
/-! SUPPORT of O50. What a detection leaves of FLT_STATUS: the bit of its source is set, and no bit goes (R308, R315). -/

namespace Sys2Proof.Machine

/-- FLT_STATUS of every group. -/
def Dev.statuses (d : Dev) (g : Fin 9) : Nat := d.rd R.FLT_STATUS g

/-- The place of FLT_STATUS, as numbers. -/
theorem statusKey (g : Nat) : R.FLT_STATUS.key g = 0x08F00040 + 4 * g := rfl

section
variable (d : Dev)

theorem Dev.statuses_congr {d e : Dev} (h : d.regs = e.regs) : d.statuses = e.statuses := funext fun g => Dev.rd_congr d e h R.FLT_STATUS g

theorem Dev.statuses_wr {r : Reg} {n : Nat} (h : ∀ g, g < 9 → R.FLT_STATUS.key g ≠ r.key n) (v : Nat) : (d.wr r v n).statuses = d.statuses :=
  funext fun g => Dev.rd_wr_ne _ _ _ _ _ _ (h g g.isLt)

theorem Dev.statuses_put {f : Fld} {n : Nat} (h : ∀ g, g < 9 → R.FLT_STATUS.key g ≠ f.reg.key n) (v : Nat) :
    (d.put f v n).statuses = d.statuses := d.statuses_wr h _

/-- A register of one copy that lies before or behind FLT_STATUS. -/
theorem status_ne_at {r : Reg} {n a : Nat} (hkey : r.key n = a) (ha : a < 0x08F00040 ∨ 0x08F00064 ≤ a) (g : Nat) (hg : g < 9) :
    R.FLT_STATUS.key g ≠ r.key n := by
  rw [statusKey, hkey]
  omega

theorem Dev.statuses_ite {c : Prop} [Decidable c] {x y z : Dev} (hx : x.statuses = z.statuses) (hy : y.statuses = z.statuses) :
    (if c then x else y).statuses = z.statuses := by
  split
  · exact hx
  · exact hy

theorem Dev.statuses_foldl {α : Type} (f : Dev → α → Dev) (l : List α) (hf : ∀ d, ∀ x ∈ l, (f d x).statuses = d.statuses) (d : Dev) :
    (l.foldl f d).statuses = d.statuses :=
  List.foldlRecOn (motive := fun e : Dev => e.statuses = d.statuses) l f rfl fun e he x hx => (hf e x hx).trans he

/-! ## Registers that the reactions write -/

theorem Dev.statuses_state {f : Fld} (hf : f.reg = R.FLT_STATE) (v : Nat) : (d.put f v).statuses = d.statuses :=
  d.statuses_put (hf ▸ status_ne_at (r := R.FLT_STATE) (n := 0) rfl (by decide)) v

theorem Dev.statuses_pin {f : Fld} (hf : f.reg = R.FLT_PIN) (v : Nat) : (d.put f v).statuses = d.statuses :=
  d.statuses_put (hf ▸ status_ne_at (r := R.FLT_PIN) (n := 0) rfl (by decide)) v

theorem Dev.statuses_logStat {f : Fld} (hf : f.reg = R.FLT_LOG_STAT) (v : Nat) : (d.put f v).statuses = d.statuses :=
  d.statuses_put (hf ▸ status_ne_at (r := R.FLT_LOG_STAT) (n := 0) rfl (by decide)) v

theorem Dev.statuses_trace {f : Fld} (hf : f.reg = R.TDC_TR_STAT) {r : Nat} (hr : r < 4) (v : Nat) : (d.put f v r).statuses = d.statuses :=
  d.statuses_put (hf ▸ status_ne_at (r := R.TDC_TR_STAT) (n := r) (a := 0x08904014 + 64 * r) rfl (by omega)) v

theorem Dev.statuses_out {f : Fld} (hf : f.reg = R.OUT_STAT) {k : Nat} (hk : k < 72) (v : Nat) : (d.put f v k).statuses = d.statuses :=
  d.statuses_put (hf ▸ status_ne_at (r := R.OUT_STAT) (n := k) (a := 0x0870402C + 64 * k) rfl (by omega)) v

/-- No copy of SYN_STAT, whatever its number, lies in FLT_STATUS. -/
theorem Dev.statuses_syn (n v : Nat) : (d.put F.SYN_STAT.HOLD v n).statuses = d.statuses := by
  refine d.statuses_put (fun g hg => ?_) v
  have hkey : F.SYN_STAT.HOLD.reg.key n = 0x08700014 + 256 * n := rfl
  rw [statusKey, hkey]
  omega

/-! ## Reactions -/

theorem Dev.statuses_event (n : Nat) : (d.event n).statuses = d.statuses := by
  have horphan (e : Dev) (v : Nat) : (e.put F.ENG_ORPHAN.COUNT v).statuses = e.statuses :=
    e.statuses_put (status_ne_at (r := R.ENG_ORPHAN) (n := 0) rfl (by decide)) v
  have htask (e i source : Nat) : (d.taskEvent e i source).statuses = d.statuses := by
    unfold Dev.taskEvent
    extract_lets ts live
    refine Dev.statuses_ite (horphan d _) ?_
    exact (Dev.statuses_foldl _ _ (fun d t _ => Dev.statuses_congr (d.makeReady_regs t)) _).trans (Dev.statuses_ite rfl rfl)
  exact Dev.statuses_ite (htask ..) rfl

theorem Dev.statuses_safeEnter {k : Nat} (hk : k < 72) : (d.safeEnter k).statuses = d.statuses := by
  unfold Dev.safeEnter
  refine Dev.statuses_ite rfl ?_
  extract_lets x st e
  have he : e.statuses = d.statuses := (Dev.statuses_out _ (f := F.OUT_STAT.SSTATE) rfl hk _).trans (d.statuses_out (f := F.OUT_STAT.SAFE) rfl hk _)
  exact Dev.statuses_ite ((e.statuses_syn ..).trans he) he

theorem Dev.statuses_safeEnterFor (source : Nat) : (d.safeEnterFor source).statuses = d.statuses :=
  Dev.statuses_foldl _ _ (fun d _ hk => Dev.statuses_ite (d.statuses_safeEnter (List.mem_range.mp hk)) rfl) d

theorem Dev.statuses_trTrigger {r : Nat} (hr : r < 4) (src : Nat) : (d.trTrigger r src).1.statuses = d.statuses := by
  have hmissed : (d.incSat F.TDC_TR_STAT.MISSED r).statuses = d.statuses := d.statuses_trace (f := F.TDC_TR_STAT.MISSED) rfl hr _
  have hmiss : (d.trMiss r src).1.statuses = d.statuses := by
    unfold Dev.trMiss
    extract_lets x
    split
    · exact d.statuses_trace (f := F.TDC_TR_STAT.QUEUED) rfl hr 1
    · exact hmissed
  unfold Dev.trTrigger
  split
  · split
    · exact hmissed
    · rfl
  · exact d.statuses_trace (f := F.TDC_TR_STAT.STATE) rfl hr 2
  · split
    · exact hmiss
    · rfl
  · exact hmiss

theorem Dev.statuses_trSource (trig ix : Nat) : (d.trSource trig ix).1.statuses = d.statuses := by
  unfold Dev.trSource
  refine List.foldlRecOn (motive := fun p : Dev × List Nat => p.1.statuses = d.statuses) _ _ rfl fun p hp r hr => ?_
  split
  · exact (p.1.statuses_trTrigger (List.mem_range.mp hr) _).trans hp
  · exact hp

theorem Dev.statuses_irqRefresh : d.irqRefresh.statuses = d.statuses := by
  unfold Dev.irqRefresh
  extract_lets e on x
  have he : e.statuses = d.statuses := d.statuses_put (f := F.HOST_IRQ_CAUSE.FAULT) (status_ne_at (r := R.HOST_IRQ_CAUSE) (n := 0) rfl (by decide)) _
  exact (Dev.statuses_ite (Dev.statuses_congr (e.msixSend_regs 0 0)) rfl).trans he

theorem Dev.statuses_logQueue (x : LogEntry) : (d.logQueue x).statuses = d.statuses := by
  unfold Dev.logQueue
  refine Dev.statuses_ite rfl (Dev.statuses_ite ?_ (Dev.statuses_ite ?_ ?_))
  · exact Dev.statuses_logStat _ (f := F.FLT_LOG_STAT.LEVEL) rfl _
  · exact (Dev.statuses_logStat _ (f := F.FLT_LOG_STAT.DROPPED) rfl _).trans (Dev.statuses_logStat _ (f := F.FLT_LOG_STAT.LEVEL) rfl _)
  · exact Dev.statuses_logStat _ (f := F.FLT_LOG_STAT.DROPPED) rfl _

theorem Dev.statuses_faultPulse : d.faultPulse.statuses = d.statuses := by
  unfold Dev.faultPulse
  extract_lets e
  have he : e.statuses = d.statuses := Dev.statuses_ite (d.statuses_pin (f := F.FLT_PIN.LOW) rfl 1) rfl
  exact (Dev.statuses_congr rfl).trans he

theorem Dev.statuses_framesStop : d.framesStop.statuses = d.statuses := by
  unfold Dev.framesStop
  extract_lets e
  have he : e.statuses = d.statuses := Dev.statuses_foldl _ _ (fun d p hp => by
    have hp8 : p < 8 := List.mem_range.mp hp
    exact d.statuses_put (status_ne_at (r := R.FRM_PORT_STAT) (n := p) (a := 0x08C00004 + 256 * p) rfl (by omega)) 0) d
  exact (Dev.statuses_congr rfl).trans he

theorem Dev.statuses_enterStopped : d.enterStopped.statuses = d.statuses := by
  unfold Dev.enterStopped
  extract_lets e x
  have he : e.statuses = d.statuses := (Dev.statuses_framesStop _).trans ((Dev.statuses_pin _ (f := F.FLT_PIN.LOW) rfl 1).trans
    (d.statuses_state (f := F.FLT_STATE.STOPPED) rfl 1))
  clear_value e
  rw [← he]
  exact (Dev.statuses_foldl _ _ (fun d k hk => d.statuses_safeEnter (List.mem_range.mp hk)) _).trans (Dev.statuses_congr rfl)

theorem Dev.statuses_firstNote (s : Nat) : (d.firstNote s).statuses = d.statuses := by
  unfold Dev.firstNote
  refine Dev.statuses_ite ?_ (Dev.statuses_ite (d.statuses_state (f := F.FLT_STATE.FIRST) rfl s) rfl)
  exact (Dev.statuses_state _ (f := F.FLT_STATE.FIRST) rfl s).trans (d.statuses_state (f := F.FLT_STATE.FIRST_VALID) rfl 1)

/-! ## Detections -/

/-- R315: the STATUS bit of a source is set, and no other bit of its group changes. -/
theorem Dev.statuses_detectOne (s inst detail : Nat) (forced wasActive : Bool) : (d.detectOne s inst detail forced wasActive).statuses =
    (d.wr R.FLT_STATUS (d.rd R.FLT_STATUS (s / 32) ||| 2 ^ (s % 32)) (s / 32)).statuses := by
  have hinfo (e : Dev) (f : Fld) (hf : f.reg = R.FLT_SRC_INFO) (v : Nat) : (e.put f v s).statuses = e.statuses :=
    e.statuses_put (hf ▸ status_ne_at (r := R.FLT_SRC_INFO) (n := s) (a := 0x08F00204 + copyStride * s) rfl (by omega)) v
  have hdetail (e : Dev) (v : Nat) : (e.wr R.FLT_SRC_DETAIL v s).statuses = e.statuses :=
    e.statuses_wr (status_ne_at (r := R.FLT_SRC_DETAIL) (n := s) (a := 0x08F00208 + copyStride * s) rfl (by omega)) v
  unfold Dev.detectOne
  extract_lets g had cls d1 d2 d3 d4 stopping flags d5 d6 d7 d8
  have h3 : d3.statuses = d1.statuses := (hdetail _ _).trans ((hinfo _ F.FLT_SRC_INFO.INSTANCE rfl _).trans (hinfo _ F.FLT_SRC_INFO.COUNT rfl _))
  have h5 : d5.statuses = d1.statuses := (Dev.statuses_ite rfl (d4.statuses_logQueue _)).trans ((d3.statuses_firstNote s).trans h3)
  have h6 : d6.statuses = d1.statuses := (Dev.statuses_ite d5.statuses_faultPulse rfl).trans h5
  have h7 : d7.statuses = d1.statuses := (Dev.statuses_ite d6.statuses_enterStopped (Dev.statuses_ite (d6.statuses_safeEnterFor s) rfl)).trans h6
  have h8 : d8.statuses = d1.statuses := (Dev.statuses_ite rfl (d7.statuses_event _)).trans h7
  exact ((Dev.statuses_congr (Dev.evtFaults_regs _)).trans (d8.statuses_irqRefresh.trans h8)).trans (Dev.statuses_congr rfl)

end

/-- No STATUS bit of `d` is clear in `e`. -/
def Dev.StatusUp (d e : Dev) : Prop := ∀ g i, bit (d.statuses g) i = true → bit (e.statuses g) i = true

theorem Dev.StatusUp.trans {d e f : Dev} (h : d.StatusUp e) (h' : e.StatusUp f) : d.StatusUp f := fun g i hi => h' g i (h g i hi)

theorem Dev.StatusUp.of_eq {d e : Dev} (h : e.statuses = d.statuses) : d.StatusUp e := fun _ _ hi => h ▸ hi

theorem bit_eq_testBit (v i : Nat) : bit v i = v.testBit i := by
  unfold bit
  rw [Nat.testBit_eq_decide_div_mod_eq]
  rfl

theorem Dev.rd_wr_status (d : Dev) (v g : Nat) (hv : v < 2 ^ 32) : (d.wr R.FLT_STATUS v g).rd R.FLT_STATUS g = v :=
  (Dev.rd_wr_self ..).trans (Nat.mod_eq_of_lt hv)

theorem Dev.detectOne_status (d : Dev) {s : Nat} (hs : s < 288) (inst detail : Nat) (forced wasActive : Bool) :
    d.StatusUp (d.detectOne s inst detail forced wasActive) ∧
    bit ((d.detectOne s inst detail forced wasActive).statuses ⟨s / 32, by omega⟩) (s % 32) = true := by
  have hword : d.rd R.FLT_STATUS (s / 32) ||| 2 ^ (s % 32) < 2 ^ 32 :=
    Nat.or_lt_two_pow (d.rd_lt ..) (Nat.pow_lt_pow_right (by decide) (Nat.mod_lt s (by decide)))
  have hown := Dev.rd_wr_status d _ (s / 32) hword
  rw [Dev.statuses_detectOne]
  refine ⟨fun g i hi => ?_, ?_⟩
  · by_cases hg : g.val = s / 32
    · have hold : (d.rd R.FLT_STATUS (s / 32)).testBit i = true := by
        rw [← hg, ← bit_eq_testBit]
        exact hi
      rw [Dev.statuses_detectOne]
      unfold Dev.statuses
      rw [hg, hown, bit_eq_testBit, Nat.testBit_or, hold]
      rfl
    · have hne : R.FLT_STATUS.key g ≠ R.FLT_STATUS.key (s / 32) := by
        rw [statusKey, statusKey]
        omega
      rw [Dev.statuses_detectOne]
      unfold Dev.statuses at hi ⊢
      rwa [Dev.rd_wr_ne _ _ _ _ _ _ hne]
  · unfold Dev.statuses
    rw [hown, bit_eq_testBit, Nat.testBit_or, Nat.testBit_two_pow_self, Bool.or_true]

theorem Dev.StatusUp.trHit (d : Dev) (trig ix : Nat) : d.StatusUp (d.trHit trig ix) := by
  have hmissed (rs : List Nat) (e : Dev) : e.StatusUp (e.trMissed rs) := by
    unfold Dev.trMissed
    refine List.foldlRecOn (motive := fun x : Dev => e.StatusUp x) rs _ (Dev.StatusUp.of_eq rfl) fun x hx r _ => hx.trans ?_
    refine (Dev.detectOne_status x (s := 165) (by decide) r 0 false (x.faultActive 165)).1.trans (Dev.StatusUp.of_eq ?_)
    exact Dev.statuses_ite rfl (Dev.statuses_trSource _ 3 165)
  exact (Dev.StatusUp.of_eq (d.statuses_trSource trig ix)).trans (hmissed _ _)

/-- R308: a source that is detected has its STATUS bit set. -/
theorem Dev.status_detect (d : Dev) {s : Nat} (hs : s < 288) (inst detail : Nat) (forced wasActive : Bool) :
    bit ((d.detect s inst detail forced wasActive).rd R.FLT_STATUS (s / 32)) (s % 32) = true := by
  have hhit (e : Dev) : bit ((e.detectHit s inst detail forced wasActive).rd R.FLT_STATUS (s / 32)) (s % 32) = true := by
    have hset := (Dev.detectOne_status e hs inst detail forced wasActive).2
    unfold Dev.detectHit
    split
    · exact hset
    · exact Dev.StatusUp.trHit _ 3 s ⟨s / 32, by omega⟩ (s % 32) hset
  exact hhit _

end Sys2Proof.Machine
end

section
/-! SUPPORT and proof of O50. The fault block: detections, the log, FAULT_N, forcing and clearing (R307-R319, R353). -/

namespace Sys2Proof.Machine

section
variable (d : Dev)

/-! ## A record of a journal takes no time of its own (R299, R317) -/

theorem Dev.tick_fault (s inst detail : Nat) : (d.fault s inst detail).tick = d.tick := by
  have hstill : (d.fault s inst detail).still.tick = d.still.tick := congrArg (fun e : Dev => e.tick) (d.fault_still s inst detail)
  exact hstill

theorem Dev.tick_foldl {α : Type} (f : Dev → α → Dev) (hf : ∀ e x, (f e x).tick = e.tick) (l : List α) (d : Dev) :
    (l.foldl f d).tick = d.tick :=
  List.foldlRecOn (motive := fun e : Dev => e.tick = d.tick) l f rfl fun e he x _ => (hf e x).trans he

theorem Dev.tick_ite {c : Prop} [Decidable c] {x y z : Dev} (hx : x.tick = z.tick) (hy : y.tick = z.tick) :
    (if c then x else y).tick = z.tick := by
  split
  · exact hx
  · exact hy

theorem Dev.tick_reamPut (a : Nat) (l : List Byte) : (d.reamPut a l).tick = d.tick := by
  unfold Dev.reamPut
  exact Dev.tick_foldl (fun d i => d.groupPut (a / 8 + i) (sliceB l (8 * i) 8)) (fun _ _ => rfl) _ d

theorem Dev.tick_erasesUp (s count : Nat) : (d.erasesUp s count).tick = d.tick := Dev.tick_ite (Dev.tick_fault _ 70 s 0) rfl

theorem Dev.tick_halfShow : d.halfShow.tick = d.tick := by
  unfold Dev.halfShow
  split <;> rfl

theorem Dev.tick_logSlotPut (sector kind count : Nat) : (d.logSlotPut sector kind count).tick = d.tick := d.tick_reamPut _ _

theorem Dev.tick_logAppend (sector kind count : Nat) : (d.logAppend sector kind count).tick = d.tick := by
  refine (Dev.tick_logSlotPut _ sector kind count).trans ?_
  unfold Dev.logRotate
  dsimp only
  refine Dev.tick_ite rfl ((Dev.tick_foldl _ (fun e s => e.tick_logSlotPut s 1 _) _ _).trans ?_)
  exact (Dev.tick_logSlotPut _ _ 2 _).trans ((Dev.tick_erasesUp _ _ _).trans (d.tick_logSlotPut _ 1 _))

theorem Dev.tick_eraseOwn (s : Nat) : (d.eraseOwn s).tick = d.tick := by
  have hbegin : (d.eraseBegin s).tick = d.tick := (Dev.tick_halfShow _).trans (d.tick_logAppend s 1 _)
  have hfinish (e : Dev) : (e.eraseFinish s).tick = e.tick :=
    (Dev.tick_halfShow _).trans ((Dev.tick_logAppend _ s 2 _).trans (Dev.tick_erasesUp _ s _))
  exact (hfinish _).trans hbegin

theorem Dev.tick_recordsPut (s : Nat) (l : List (List Byte)) : (d.recordsPut s l).1.tick = d.tick := by
  unfold Dev.recordsPut
  refine List.foldlRecOn (motive := fun p : Dev × Nat => p.1.tick = d.tick) l _ rfl fun p hp b _ => ?_
  split
  · exact (p.1.tick_reamPut _ _).trans hp
  · exact hp

theorem Dev.tick_journalEnter (rgn s : Nat) : (d.journalEnter rgn s).1.tick = d.tick := by
  unfold Dev.journalEnter
  extract_lets e all keep kept x
  have hx : x.tick = d.tick := Dev.tick_ite (d.tick_eraseOwn s) rfl
  clear_value x
  have hput := (x.tick_recordsPut s kept).trans hx
  exact Dev.tick_ite ((Dev.tick_eraseOwn _ e).trans hput) hput

theorem Dev.tick_journalRoom (rgn need k s o : Nat) : (d.journalRoom rgn need k s o).1.tick = d.tick := by
  induction k generalizing d s o with
  | zero => rfl
  | succ k ih =>
    unfold Dev.journalRoom
    split
    · rfl
    · exact (ih _ _ _).trans (d.tick_journalEnter rgn _)

theorem Dev.tick_journalAppend (rgn id : Nat) (payload : List Byte) : (d.journalAppend rgn id payload).tick = d.tick := by
  unfold Dev.journalAppend
  dsimp only
  exact Dev.tick_ite ((Dev.tick_reamPut _ _ _).trans (d.tick_journalRoom ..)) (d.tick_journalRoom ..)

/-- R317: the write of a record lasts beyond its tick (log entry 58). -/
theorem Dev.writing_logBegin (addr : Nat) (erased : Bool) :
    ∃ w, (d.logBegin addr erased).ream.writing = some w ∧ d.tick < w.done := by
  refine ⟨⟨d.tick + (d.freeVal % 100 + 1 + (if erased then d.freeNext.freeVal % 25001 else 0)), addr⟩, rfl, ?_⟩
  dsimp only
  omega

end

section
variable {d : Dev}

/-! ## The log and the pin -/

theorem Dev.logFree_iff : d.logFree = true ↔
    d.ream.cmd = none ∧ d.ream.save = none ∧ d.logBusy = false ∧ 3 ≤ d.get F.BOOT_STAT.STEP ∧ d.flt.stopLogged = false := by
  unfold Dev.logFree
  simp [and_assoc]

/-- R316: the device whose log takes one entry, and what waits behind it. -/
def Dev.logTaken (d : Dev) (x : LogEntry) (r : List LogEntry) : Dev :=
  (({ d with flt := { d.flt with log := r, stopLogged := bit x.flags 2 && !r.any fun y => bit y.flags 2 } } : Dev).put
    F.FLT_LOG_STAT.LEVEL r.length).journalAppend 4 0x0F01 x.bytes

/-- R317: the write of that entry's record. -/
def Dev.logWritten (d : Dev) (x : LogEntry) (r : List LogEntry) : Dev :=
  let y := d.logTaken x r
  y.logBegin (4096 * (y.journalPlace 4).1 + (y.journalPlace 4).2.1 - 32) (y.ream.logSeq != d.ream.logSeq)

theorem Dev.logWrite_of_free {x : LogEntry} {r : List LogEntry} (hlog : d.flt.log = x :: r) (hfree : d.logFree = true) :
    d.logWrite = (let z := d.logWritten x r
      if (bit x.flags 2 && !r.any fun y => bit y.flags 2) = true then { z.put F.FLT_LOG_STAT.LEVEL 0 with flt := { z.flt with log := [] } } else z) := by
  unfold Dev.logWrite
  rw [hlog]
  exact if_pos hfree

theorem Dev.logWrite_of_empty (hlog : d.flt.log = []) : d.logWrite = d := by
  unfold Dev.logWrite
  rw [hlog]

theorem Dev.logWrite_of_busy (hfree : ¬ d.logFree = true) : d.logWrite = d := by
  cases hlog : d.flt.log with
  | nil => exact Dev.logWrite_of_empty hlog
  | cons x r =>
    unfold Dev.logWrite
    rw [hlog]
    exact if_neg hfree

theorem Dev.writing_logWritten (x : LogEntry) (r : List LogEntry) :
    ∃ w, (d.logWritten x r).ream.writing = some w ∧ d.tick < w.done := by
  unfold Dev.logWritten
  have htick : (d.logTaken x r).tick = d.tick := Dev.tick_journalAppend _ 4 0x0F01 x.bytes
  exact htick ▸ (d.logTaken x r).writing_logBegin _ _

theorem Dev.pulseDone_of_due {t : Nat} (hend : d.flt.pulseEnd = some t) (hdue : t ≤ d.tick) (hstop : d.flag F.FLT_STATE.STOPPED = false) :
    d.pulseDone = { d.put F.FLT_PIN.LOW (if d.pinsLive = true then d.get F.FLT_PIN.SW_ASSERT else 0) with
      flt := { d.flt with pulseEnd := none } } := by
  unfold Dev.pulseDone
  rw [hend]
  exact if_pos ⟨hdue, by unfold Dev.stopped; rw [hstop]; rfl⟩

/-! ## Collection and forcing -/

theorem Dev.collect_of_reserved {src inst detail : Nat} (h : src ∉ namedSources) : d.collect src inst detail = d :=
  if_pos (by simpa using h)

section
variable {src inst detail : Nat}

theorem Dev.collect_supply (h : src = 4) : d.collect src inst detail = if detail ≤ 14 then d.levelOn 4 detail detail else d :=
  (if_neg (by rw [h]; decide)).trans (if_pos h)

variable (hnamed : src ∈ namedSources)
include hnamed

theorem Dev.collect_level (hne : src ≠ 4) (hlevel : src ∈ levelSources) : d.collect src inst detail = d.levelOn src inst detail :=
  (if_neg (by simpa using hnamed)).trans ((if_neg hne).trans (if_pos (by simpa using hlevel)))

theorem Dev.collect_event (hlevel : src ∉ levelSources) : d.collect src inst detail = d.fault src inst detail := by
  have hne : src ≠ 4 := fun h => hlevel (h ▸ by decide)
  exact (if_neg (by simpa using hnamed)).trans ((if_neg hne).trans (if_neg (by simpa using hlevel)))

end

theorem Dev.forceCmd_of_allowed {p : Path} {g w : Nat}
    (h : (∀ i ∈ (List.range 32).filter (fun i => bit w i && !bit (d.rd R.FLT_FORCE g) i),
        d.faultClass (32 * g + i) ≠ 3 ∧ d.faultClassS (32 * g + i) ≠ 3) ∨
      (d.flag F.FLT_CTRL.FORCE_STOP_EN = true ∧ d.getS F.FLT_CTRL.FORCE_STOP_EN = 1)) : d.forceCmd p g w = d.forceWrite g w := by
  refine if_neg fun hbad => ?_
  rw [Bool.and_eq_true, Bool.not_eq_true', List.any_eq_true] at hbad
  obtain ⟨⟨i, hi, hstop⟩, hoff⟩ := hbad
  rw [Bool.and_eq_true, Bool.or_eq_true, beq_iff_eq, beq_iff_eq] at hstop
  rcases h with hnone | ⟨hforce, hstaged⟩
  · obtain ⟨hforce, hstaged⟩ := hnone i (List.mem_filter.mpr ⟨hi, hstop.1⟩)
    exact hstop.2.elim hforce hstaged
  · rw [hforce, hstaged] at hoff
    exact nomatch hoff

/-! ## Clearing -/

/-- A bit that an and takes away. -/
theorem testBit_sub_and (v m i : Nat) : (v - (v &&& m)).testBit i = (v.testBit i && !m.testBit i) := by
  have hodd : (v &&& m) % 2 = 1 ↔ v % 2 = 1 ∧ m % 2 = 1 := Nat.and_mod_two_eq_one
  have hle : v / 2 &&& m / 2 ≤ v / 2 := Nat.and_le_left
  have hhalf : (v &&& m) / 2 = v / 2 &&& m / 2 := Nat.and_div_two
  induction i generalizing v m with
  | zero =>
    simp only [Nat.testBit_zero]
    rw [← decide_not, ← Bool.decide_and]
    exact decide_eq_decide.mpr (by omega)
  | succ i ih =>
    have hstep : (v - (v &&& m)) / 2 = v / 2 - (v / 2 &&& m / 2) := by omega
    rw [Nat.testBit_succ, Nat.testBit_succ, Nat.testBit_succ, hstep]
    exact ih _ _ Nat.and_mod_two_eq_one Nat.and_le_left Nat.and_div_two

/-- The bits gathered by a loop over a word. -/
theorem testBit_gather (c : Nat → Bool) (n i : Nat) :
    ((List.range n).foldl (fun m i => if c i = true then m ||| 2 ^ i else m) 0).testBit i = (decide (i < n) && c i) := by
  induction n with
  | zero => simp
  | succ n ih =>
    rw [List.range_succ, List.foldl_append]
    dsimp only [List.foldl_cons, List.foldl_nil]
    split
    · next hc =>
      rw [Nat.testBit_or, ih, Nat.testBit_two_pow]
      by_cases hi : i = n
      · subst hi
        simp [hc]
      · simp [Ne.symm hi, show i < n + 1 ↔ i < n by omega]
    · next hc =>
      rw [ih]
      by_cases hi : i = n
      · subst hi
        simp [hc]
      · simp [show i < n + 1 ↔ i < n by omega]

/-- R5: a bit that a clearing write leaves. -/
theorem Dev.testBit_w1cLeft (r : Reg) (mask n i : Nat) : (d.w1cLeft r mask n).testBit i =
    ((d.rd r n).testBit i && (!mask.testBit i || !(2 ^ 32 - 1 - d.justSet (r.key n)).testBit i)) := by
  unfold Dev.w1cLeft
  dsimp only
  rw [Nat.and_assoc, testBit_sub_and, Nat.testBit_and, Bool.not_and]

theorem Dev.w1cLeft_lt (r : Reg) (mask n : Nat) : d.w1cLeft r mask n < 2 ^ 32 := Nat.lt_of_le_of_lt (Nat.sub_le ..) (d.rd_lt r n)

theorem Dev.bit_clearStatus (g : Fin 9) (mask : Nat) {i : Nat} (hi : i < 32) : bit ((d.clearStatus g mask).rd R.FLT_STATUS g) i =
    (bit (d.rd R.FLT_STATUS g) i && (!bit mask i || !bit (2 ^ 32 - 1 - d.justSet (R.FLT_STATUS.key g)) i ||
      (levelSources.contains (32 * g + i) && d.faultHeld (32 * g + i)))) := by
  unfold Dev.clearStatus
  extract_lets keep w
  have hkeep : keep.testBit i = (levelSources.contains (32 * g + i) && d.faultHeld (32 * g + i)) := by
    refine (testBit_gather _ 32 i).trans ?_
    rw [decide_eq_true hi, Bool.true_and]
  clear_value keep
  have hlt : d.w1cLeft R.FLT_STATUS mask g ||| (w &&& keep) < 2 ^ 32 :=
    Nat.or_lt_two_pow (d.w1cLeft_lt ..) (Nat.lt_of_le_of_lt Nat.and_le_left (d.rd_lt ..))
  have hrefresh := congrFun ((d.wr R.FLT_STATUS (d.w1cLeft R.FLT_STATUS mask g ||| (w &&& keep)) g).statuses_irqRefresh) g
  unfold Dev.statuses at hrefresh
  rw [hrefresh, Dev.rd_wr_status _ _ _ hlt]
  simp only [bit_eq_testBit, Nat.testBit_or, Nat.testBit_and, d.testBit_w1cLeft, hkeep]
  exact (Bool.and_or_distrib_left ..).symm

theorem Dev.bit_causeClear (w : Nat) {i : Nat} (hmin : 1 ≤ i) : bit ((d.causeClear w).rd R.HOST_IRQ_CAUSE) i =
    (bit (d.rd R.HOST_IRQ_CAUSE) i && !(decide (i ≤ 6) && bit w i && bit (2 ^ 32 - 1 - d.justSet (R.HOST_IRQ_CAUSE.key 0)) i)) := by
  have hmask : (0x7E : Nat).testBit i = decide (i ≤ 6) := by
    by_cases h : i ≤ 6
    · rw [decide_eq_true h]
      exact (by decide : ∀ j, j < 7 → 1 ≤ j → (0x7E : Nat).testBit j = true) i (by omega) hmin
    · rw [decide_eq_false h]
      exact Nat.testBit_lt_two_pow (Nat.lt_of_lt_of_le (by decide : 0x7E < 2 ^ 7) (Nat.pow_le_pow_right (by decide) (by omega)))
  have hput (e : Dev) (v : Nat) : bit ((e.put F.HOST_IRQ_CAUSE.FAULT v).rd R.HOST_IRQ_CAUSE) i = bit (e.rd R.HOST_IRQ_CAUSE) i := by
    have hword : (e.put F.HOST_IRQ_CAUSE.FAULT v).rd R.HOST_IRQ_CAUSE = setBits (e.rd R.HOST_IRQ_CAUSE) 0 0 v := by
      refine (Dev.rd_wr_self ..).trans (Nat.mod_eq_of_lt ?_)
      exact setBits_lt _ _ _ _ _ (by decide) (by decide) (e.rd_lt ..)
    rw [hword, bit_eq_testBit, testBit_setBits _ _ _ _ _ (by decide), if_neg (by omega), bit_eq_testBit]
  have hrefresh (e : Dev) : bit (e.irqRefresh.rd R.HOST_IRQ_CAUSE) i = bit (e.rd R.HOST_IRQ_CAUSE) i := by
    unfold Dev.irqRefresh
    extract_lets f on x
    have hx : x.regs = f.regs := by
      have hsend := f.msixSend_regs 0 0
      show (if (on && !f.flt.irq) = true then f.msixSend 0 0 else f).regs = f.regs
      split
      · exact hsend
      · rfl
    exact (congrArg (bit · i) (Dev.rd_congr _ f hx R.HOST_IRQ_CAUSE 0)).trans (hput e _)
  have hclear (e : Dev) : (if e.irqEnabled then e.msixSend 0 0 else e).rd R.HOST_IRQ_CAUSE = e.rd R.HOST_IRQ_CAUSE := by
    split
    · exact Dev.rd_congr _ e (e.msixSend_regs 0 0) R.HOST_IRQ_CAUSE 0
    · rfl
  unfold Dev.causeClear
  dsimp only
  rw [hclear, hrefresh, Dev.rd_wr_self, Nat.mod_eq_of_lt (d.w1cLeft_lt ..)]
  simp only [bit_eq_testBit, d.testBit_w1cLeft, Nat.testBit_and, hmask]
  cases w.testBit i <;> simp

end

/-- Settles O50: a detection by its source's kind, the log by its front entry, a clearing write bit by bit. -/
theorem faultCommands : Obligations.FaultCommands := by
  intro p src inst detail w g c s d e collect
  have hcollect : Gives collect s (e.collect src inst.toNat detail.toNat) := rfl
  have hend : Gives (.faultConditionEnd src inst) s (d.levelOff src inst.toNat) := rfl
  have hlog : Gives .faultLogWrite s d.logWrite := rfl
  have hpulse : Gives .faultPinPulseEnd s d.pulseDone := rfl
  have hforce {d'} (hreach : s.reaches p (R.FLT_FORCE.off g)) (h : e.forceCmd p g w.toNat = d') : Gives (.faultForce p g w c) s d' :=
    Gives.of_reach (fun d => (d.atCycle c.val).forceCmd p g w.toNat) rfl hreach h
  have hstatus (hreach : s.reaches p (R.FLT_STATUS.off g)) : Gives (.faultStatusClear p g ⟨w, c⟩) s (e.clearStatus g w.toNat) :=
    Gives.of_reach (fun d => (d.atCycle c.val).clearStatus g w.toNat) rfl hreach rfl
  have hcause (hreach : s.reaches p R.HOST_IRQ_CAUSE.off) : Gives (.irqCauseClear p ⟨w, c⟩) s (e.causeClear w.toNat) :=
    Gives.of_reach (fun d => (d.atCycle c.val).causeClear w.toNat) rfl hreach rfl
  have hheld (j : Nat) : e.faultHeld j = d.faultHeld j := rfl
  have hrd (r : Reg) (n : Nat) : e.rd r n = d.rd r n := rfl
  clear_value e d
  refine ⟨fun hno => hcollect.of_eq (Dev.collect_of_reserved hno), fun hfour => hcollect.of_eq (Dev.collect_supply hfour),
    fun hnamed hne hlevel => hcollect.of_eq (Dev.collect_level hnamed hne hlevel),
    fun hnamed hlevel => ⟨hcollect.of_eq (Dev.collect_event hnamed hlevel), Dev.status_detect e src.isLt ..⟩, hend, ?write, ?wait,
    fun t hpend hdue hstop => hpulse.of_eq (Dev.pulseDone_of_due hpend hdue hstop), ?force, fun hreach => ?status, fun hreach => ?cause⟩
  case write =>
    intro x r hentries hcmd hsave hbusy hstep hstopped last y place z
    have hfree : d.logFree = true := Dev.logFree_iff.mpr ⟨hcmd, hsave, hbusy, hstep, hstopped⟩
    have hz : z = d.logWritten x r := rfl
    clear_value z
    subst hz
    exact ⟨Dev.writing_logWritten x r, hlog.of_eq (Dev.logWrite_of_free hentries hfree)⟩
  case wait =>
    rintro (hempty | hbusy)
    · exact hlog.of_eq (Dev.logWrite_of_empty hempty)
    · refine hlog.of_eq (Dev.logWrite_of_busy fun hfree => ?_)
      obtain ⟨hcmd, hsave, hlogBusy, hstep, hstopped⟩ := Dev.logFree_iff.mp hfree
      simp [hcmd, hsave, hlogBusy, hstopped, Nat.not_lt.mpr hstep] at hbusy
  case force =>
    intro hreach old rising hallowed
    exact hforce hreach (Dev.forceCmd_of_allowed hallowed)
  case status =>
    exact ⟨_, hstatus hreach, fun i hi => by rw [Dev.bit_clearStatus g w.toNat hi, hheld, hrd]⟩
  case cause =>
    exact ⟨_, hcause hreach, fun i hmin _ => by rw [Dev.bit_causeClear w.toNat hmin, hrd]⟩

end Sys2Proof.Machine
end

section
/-! SUPPORT of O51 and O52. What stops at once, and the outputs that have their ticks to stop in (R304, R312, R324, R370). -/

namespace Sys2Proof.Machine

/-! ## Loops over the instances of a group -/

/-- What the step of one copy brings about, and those of the others keep, holds after a loop over all of them. -/
theorem foldl_range_at {P : Dev → Prop} {step : Dev → Nat → Dev} {n m : Nat} (hn : n < m) (hset : ∀ d, P (step d n))
    (hkeep : ∀ d i, i ≠ n → P d → P (step d i)) (d : Dev) : P ((List.range m).foldl step d) := by
  induction m with
  | zero => exact absurd hn (Nat.not_lt_zero n)
  | succ m ih =>
    rw [List.range_succ, List.foldl_append]
    by_cases h : m = n
    · exact h ▸ hset _
    · exact hkeep _ m h (ih (Nat.lt_of_le_of_ne (Nat.le_of_lt_succ hn) (Ne.symm h)))

/-- What every step keeps holds after a loop. -/
theorem foldl_keeps {α β : Type} (view : Dev → β) (step : Dev → α → Dev) (h : ∀ d x, view (step d x) = view d) (l : List α) (d : Dev) :
    view (l.foldl step d) = view d :=
  List.foldlRecOn (motive := fun e => view e = view d) l step rfl fun e he x _ => (h e x).trans he

/-- Two instances of a group lie apart. -/
theorem Reg.key_ne_of_stride {r : Reg} (hkind : r.kind = .plain) (hstride : 0 < r.stride) {i n : Nat} (h : i ≠ n) : r.key i ≠ r.key n := by
  have hkey (j : Nat) : r.key j = r.base + r.stride * j := by
    unfold Reg.key
    rw [hkind]
  rw [hkey, hkey]
  exact fun heq => h (Nat.eq_of_mul_eq_mul_left hstride (Nat.add_left_cancel heq))

/-- A field of every copy of a group is cleared. -/
theorem Dev.get_foldl_clear {f : Fld} (hkind : f.reg.kind = .plain) (hstride : 0 < f.reg.stride) (hlo : f.lo ≤ f.hi + 1) (hhi : f.hi < 32)
    {n m : Nat} (hn : n < m) {step : Dev → Nat → Dev} (hstep : ∀ d i, (step d i).regs = (d.put f 0 i).regs) (d : Dev) :
    ((List.range m).foldl step d).get f n = 0 := by
  refine foldl_range_at (P := fun e => e.get f n = 0) hn (fun e => ?_) (fun e i hi he => ?_) d
  · exact (Dev.get_congr _ _ (hstep e n) f n).trans ((Dev.get_put_self e f 0 n hlo hhi).trans (Nat.zero_mod _))
  · exact (Dev.get_congr _ _ (hstep e i) f n).trans ((Dev.get_put_ne e f f 0 i n (Reg.key_ne_of_stride hkind hstride hi.symm)).trans he)

/-! ## Frame ports, links and PCIe -/

/-- The device without the registers, the links and the frame ports. -/
def Dev.unstopped (d : Dev) : Dev := { d with regs := [], kl := { d.kl with links := [] }, frm := Frm.reset }

/-- R304, R324: every link goes DOWN. -/
def Dev.linksDown (d : Dev) : Dev := (List.range 8).foldl (fun (d : Dev) k => (d.put F.KL_LINK_STAT.STATE 0 k).setKlink k KlLink.reset) d

section
variable (d : Dev)

theorem Dev.unstopped_framesStop : d.framesStop.unstopped = d.unstopped := by
  have hframes (e : Dev) (x : Frm) : ({ e with frm := x } : Dev).unstopped = e.unstopped := rfl
  exact (hframes _ _).trans (foldl_keeps Dev.unstopped (fun d p => d.put F.FRM_PORT_STAT.STATE 0 p) (fun _ _ => rfl) _ d)

theorem Dev.unstopped_linksDown : d.linksDown.unstopped = d.unstopped :=
  foldl_keeps Dev.unstopped (fun d k => (d.put F.KL_LINK_STAT.STATE 0 k).setKlink k KlLink.reset) (fun _ _ => rfl) _ d

theorem Dev.state_framesStop {p : Nat} (hp : p < 8) : d.framesStop.get F.FRM_PORT_STAT.STATE p = 0 := by
  have hregs : d.framesStop.regs = ((List.range 8).foldl (fun d p => d.put F.FRM_PORT_STAT.STATE 0 p) d).regs := rfl
  rw [Dev.get_congr _ _ hregs]
  exact Dev.get_foldl_clear rfl (by decide) (by decide) (by decide) hp (fun _ _ => rfl) d

theorem Dev.state_linksDown {k : Nat} (hk : k < 8) : d.linksDown.get F.KL_LINK_STAT.STATE k = 0 := by
  have hlink (e : Dev) (k : Nat) (x : KlLink) : (e.setKlink k x).regs = e.regs := rfl
  unfold Dev.linksDown
  exact Dev.get_foldl_clear (f := F.KL_LINK_STAT.STATE) rfl (by decide) (by decide) (by decide) hk (fun _ _ => hlink _ _ _) d

/-- Another register than FRM_PORT_STAT. -/
theorem Dev.get_framesStop {f : Fld} {n : Nat} (h : ∀ p, p < 8 → f.reg.key n ≠ R.FRM_PORT_STAT.key p) :
    d.framesStop.get f n = d.get f n := by
  have hregs : d.framesStop.regs = ((List.range 8).foldl (fun d p => d.put F.FRM_PORT_STAT.STATE 0 p) d).regs := rfl
  rw [Dev.get_congr _ _ hregs]
  exact List.foldlRecOn (motive := fun e : Dev => e.get f n = d.get f n) _ _ rfl fun e he p hp =>
    (Dev.get_put_ne e F.FRM_PORT_STAT.STATE f 0 p n (h p (List.mem_range.mp hp))).trans he

/-- Another register than KL_LINK_STAT. -/
theorem Dev.get_linksDown {f : Fld} {n : Nat} (h : ∀ k, k < 8 → f.reg.key n ≠ R.KL_LINK_STAT.key k) : d.linksDown.get f n = d.get f n :=
  List.foldlRecOn (motive := fun e : Dev => e.get f n = d.get f n) _ _ rfl fun e he k hk =>
    (Dev.get_congr _ _ rfl f n).trans ((Dev.get_put_ne e F.KL_LINK_STAT.STATE f 0 k n (h k (List.mem_range.mp hk))).trans he)

/-- What does not stop. -/
theorem Dev.of_unstopped {d e : Dev} (h : d.unstopped = e.unstopped) : d.ream = e.ream ∧ d.vat = e.vat ∧ d.tick = e.tick ∧
    d.boot = e.boot ∧ d.outcs = e.outcs ∧ d.dispatchOn = e.dispatchOn ∧ d.tickOn = e.tickOn ∧ d.evts = e.evts ∧ d.flt = e.flt :=
  have hview {β : Type} (view : Dev → β) (hself : ∀ x, view x.unstopped = view x) : view d = view e :=
    (hself d).symm.trans ((congrArg view h).trans (hself e))
  ⟨hview (·.ream) fun _ => rfl, hview (·.vat) fun _ => rfl, hview (·.tick) fun _ => rfl, hview (·.boot) fun _ => rfl,
    hview (·.outcs) fun _ => rfl, hview (·.dispatchOn) fun _ => rfl, hview (·.tickOn) fun _ => rfl, hview (·.evts) fun _ => rfl,
    hview (·.flt) fun _ => rfl⟩

/-! ## Outputs -/

/-- The device without what its outputs drive. -/
def Dev.undriven (d : Dev) : Dev := { d with outcs := [], outs := [] }

theorem Dev.undriven_driveNow (k : Nat) : (d.driveNow k).undriven = d.undriven := by
  unfold Dev.driveNow
  split <;> rfl

theorem Dev.undriven_driveAll (m : Nat) : ((List.range m).foldl Dev.driveNow d).undriven = d.undriven :=
  foldl_keeps Dev.undriven Dev.driveNow (fun d k => d.undriven_driveNow k) _ d

/-- What driving leaves alone. -/
theorem Dev.of_undriven {d e : Dev} (h : d.undriven = e.undriven) : d.ream = e.ream ∧ d.vat = e.vat ∧ d.tick = e.tick ∧
    d.boot = e.boot ∧ d.regs = e.regs ∧ d.dispatchOn = e.dispatchOn ∧ d.tickOn = e.tickOn ∧ d.evts = e.evts ∧ d.flt = e.flt ∧
    d.frm = e.frm :=
  have hview {β : Type} (view : Dev → β) (hself : ∀ x, view x.undriven = view x) : view d = view e :=
    (hself d).symm.trans ((congrArg view h).trans (hself e))
  ⟨hview (·.ream) fun _ => rfl, hview (·.vat) fun _ => rfl, hview (·.tick) fun _ => rfl, hview (·.boot) fun _ => rfl,
    hview (·.regs) fun _ => rfl, hview (·.dispatchOn) fun _ => rfl, hview (·.tickOn) fun _ => rfl, hview (·.evts) fun _ => rfl,
    hview (·.flt) fun _ => rfl, hview (·.frm) fun _ => rfl⟩

/-- What an output drives rests on nothing that driving changes. -/
theorem Dev.outDrive_congr {d e : Dev} (h : d.undriven = e.undriven) (k : Nat) : d.outDrive k = e.outDrive k := by
  have hd : d.undriven.outDrive k = d.outDrive k := rfl
  have he : e.undriven.outDrive k = e.outDrive k := rfl
  rw [← hd, h, he]

theorem Dev.drive_driveNow (k : Nat) : ((d.driveNow k).outc k).drive = d.outDrive k := by
  unfold Dev.driveNow
  split
  · next h => exact h.symm
  · exact congrArg OutCh.drive (Tbl.getD_set_self (d.outcs) k _ OutCh.reset)

theorem Dev.outc_driveNow {i k : Nat} (h : k ≠ i) : (d.driveNow i).outc k = d.outc k := by
  unfold Dev.driveNow
  split
  · rfl
  · exact Tbl.getD_set_ne _ _ _ _ _ h

/-- R178: after all outputs took up what they drive, each does. -/
theorem Dev.drive_driveAll {k m : Nat} (hk : k < m) : (((List.range m).foldl Dev.driveNow d).outc k).drive = d.outDrive k := by
  have hboth : ∀ e : Dev, e.undriven = d.undriven →
      ((List.range m).foldl Dev.driveNow e).undriven = d.undriven ∧ (((List.range m).foldl Dev.driveNow e).outc k).drive = d.outDrive k := by
    intro e he
    refine ⟨(e.undriven_driveAll m).trans he, ?_⟩
    induction m with
    | zero => exact absurd hk (Nat.not_lt_zero k)
    | succ m ih =>
      rw [List.range_succ, List.foldl_append]
      have hsame := (e.undriven_driveAll m).trans he
      by_cases h : m = k
      · subst h
        exact (Dev.drive_driveNow _ m).trans (Dev.outDrive_congr hsame m)
      · have hkept := Dev.outc_driveNow ((List.range m).foldl Dev.driveNow e) (i := m) (k := k) (Ne.symm h)
        exact (congrArg OutCh.drive hkept).trans (ih (Nat.lt_of_le_of_ne (Nat.le_of_lt_succ hk) (Ne.symm h)))
  exact (hboth d rfl).2

/-- R324, R370: the outputs are held, with at most `limit` ticks to stop in. -/
def Dev.outsHold (d : Dev) (limit : Nat) : Dev :=
  { d with boot := { d.boot with outsHeld := true, stopLeft := if d.boot.stopLeft = 0 then limit else min limit d.boot.stopLeft } }

theorem Dev.outsStop_eq (limit : Nat) : d.outsStop limit = (List.range 72).foldl Dev.driveNow (d.outsHold limit) := rfl

theorem Dev.undriven_outsStop (limit : Nat) : (d.outsStop limit).undriven = (d.outsHold limit).undriven := by
  rw [Dev.outsStop_eq]
  exact Dev.undriven_driveAll _ 72

theorem Dev.stopLeft_outsHold {limit : Nat} (h : 1 ≤ limit) : 1 ≤ (d.outsHold limit).boot.stopLeft ∧ (d.outsHold limit).boot.stopLeft ≤ limit := by
  have heq : (d.outsHold limit).boot.stopLeft = if d.boot.stopLeft = 0 then limit else min limit d.boot.stopLeft := rfl
  rw [heq]
  split <;> omega

/-- R324, R370: an output that has stopped goes to high impedance. -/
theorem Dev.drive_outsStop {limit k : Nat} (hk : k < 72) (hclosed : d.flag F.OUT_STAT.OPEN k = false) :
    ((d.outsStop limit).outc k).drive = ⟨.highZ, .highZ, 0, 0⟩ := by
  have hopen : (d.outsHold limit).flag F.OUT_STAT.OPEN k = false := hclosed
  have hheld : (d.outsHold limit).boot.outsHeld = true := rfl
  rw [Dev.outsStop_eq, Dev.drive_driveAll _ hk]
  unfold Dev.outDrive
  dsimp only
  rw [hopen, hheld]
  simp only [Bool.not_false, Bool.and_true, Bool.or_true, if_true]

end
end Sys2Proof.Machine
end

section
/-! SUPPORT and proof of O51. Power failure, the save and the power-loss detector (R303-R305, R370). -/

namespace Sys2Proof.Machine

section
variable {d : Dev}

/-! ## A Vat without errors -/

theorem Dev.vatTouch_clean (hue : d.vat.ue = []) (hce : d.vat.ce = []) (a n origin : Nat) : d.vatTouch a n origin = d := by
  have hword (w : Nat) : d.eccRead origin w = d := by
    unfold Dev.eccRead
    rw [hue, hce]
    rfl
  unfold Dev.vatTouch
  exact List.foldlRecOn (motive := fun e => e = d) _ _ rfl fun e he w _ => he ▸ hword w

theorem Dev.vbad_clean (hue : d.vat.ue = []) (a n : Nat) : d.vbad a n = false := by
  unfold Dev.vbad
  rw [hue]
  rfl

theorem Dev.saveTouch_clean (hue : d.vat.ue = []) (hce : d.vat.ce = []) : d.saveTouch = d := by
  have hloop (step : Dev → Nat → Dev) (hstep : ∀ o, step d o = d) (l : List Nat) : l.foldl step d = d :=
    List.foldlRecOn (motive := fun e => e = d) l step rfl fun e he o _ => he ▸ hstep o
  have hpi : (if d.flag F.TIME_PI_CFG.ENABLE then
      (List.range 72).foldl (fun (d : Dev) o => d.vatTouch (d.piGranule o) 64 4) d else d) = d := by
    split
    · exact hloop _ (fun o => d.vatTouch_clean hue hce _ _ _) _
    · rfl
  unfold Dev.saveTouch
  dsimp only
  rw [hpi, hloop (fun (e : Dev) n => e.vatTouch (e.ctxAddr n) 44 4) (fun o => d.vatTouch_clean hue hce _ _ _)]
  exact d.vatTouch_clean hue hce _ _ _

theorem Dev.saveBad_clean (hue : d.vat.ue = []) : d.saveBad = [] := by
  have hctx (n : Nat) : d.ctxSaveBad n = [] := by
    unfold Dev.ctxSaveBad
    simp [Dev.vbad_clean hue]
  unfold Dev.saveBad
  simp [Dev.vbad_clean hue, hctx]

/-- R303: the image begins with its magic number. -/
theorem Dev.saveImage_magic : d.saveImage.take 4 = [0x52, 0x45, 0x41, 0x4D] := by
  unfold Dev.saveImage
  dsimp only
  simp only [List.append_assoc, List.cons_append, List.take_succ_cons, List.take_zero]

/-! ## What a save stops -/

/-- R304: the blocks and the outputs of a device that saves. -/
def Dev.saveHalt (d : Dev) : Dev := ({ d.saveStop with boot := { d.saveStop.boot with halted := true } } : Dev).outsStop 20

/-- R303, R304: the image is taken, and is to go into an area. -/
def Dev.saveTaken (d : Dev) (a : Nat) : Dev :=
  { d.saveTouch.put F.REAM_SAVE_STAT.ARMED 0 with
    ream := { d.saveTouch.ream with save := some ⟨a, d.saveImage, d.saveBad⟩, armed := none } }

theorem Dev.saveInto_of_idle {a : Nat} (hcmd : d.ream.cmd = none) : d.saveInto a = d.saveHalt.saveTaken a := by
  unfold Dev.saveInto
  rw [hcmd]
  rfl

theorem Dev.saveStop_eq : d.saveStop = ({ d with dispatchOn := false } : Dev).framesStop.linksDown.put F.HOST_PCIE_STAT.L0 0 := rfl

theorem Dev.unstopped_put (f : Fld) (v n : Nat) : (d.put f v n).unstopped = d.unstopped := rfl

theorem Dev.unstopped_saveStop : d.saveStop.unstopped = ({ d with dispatchOn := false } : Dev).unstopped := by
  rw [Dev.saveStop_eq, Dev.unstopped_put, Dev.unstopped_linksDown, Dev.unstopped_framesStop]

/-- R304: the device halts, and its outputs are held. -/
def Dev.haltHold (d : Dev) : Dev := ({ d with boot := { d.boot with halted := true } } : Dev).outsHold 20

theorem Dev.haltHold_frame : d.haltHold.ream = d.ream ∧ d.haltHold.vat = d.vat ∧ d.haltHold.tick = d.tick ∧
    d.haltHold.dispatchOn = d.dispatchOn ∧ d.haltHold.regs = d.regs ∧ d.haltHold.boot.halted = true ∧ d.haltHold.boot.outsHeld = true :=
  ⟨rfl, rfl, rfl, rfl, rfl, rfl, rfl⟩

theorem Dev.stopLeft_haltHold : 1 ≤ d.haltHold.boot.stopLeft ∧ d.haltHold.boot.stopLeft ≤ 20 :=
  Dev.stopLeft_outsHold ({ d with boot := { d.boot with halted := true } } : Dev) (limit := 20) (by decide)

theorem Dev.undriven_saveHalt : d.saveHalt.undriven = d.saveStop.haltHold.undriven :=
  Dev.undriven_outsStop ({ d.saveStop with boot := { d.saveStop.boot with halted := true } } : Dev) 20

/-- R304: what a save leaves of the device, and how it halts it. -/
theorem Dev.saveHalt_frame : d.saveHalt.ream = d.ream ∧ d.saveHalt.vat = d.vat ∧ d.saveHalt.tick = d.tick ∧
    d.saveHalt.dispatchOn = false ∧ d.saveHalt.boot.halted = true ∧ d.saveHalt.boot.outsHeld = true ∧
    1 ≤ d.saveHalt.boot.stopLeft ∧ d.saveHalt.boot.stopLeft ≤ 20 ∧ d.saveHalt.regs = d.saveStop.regs := by
  obtain ⟨hream, hvat, htick, hboot, hregs, hon, -⟩ := Dev.of_undriven d.undriven_saveHalt
  obtain ⟨hream', hvat', htick', hon', hregs', hhalted, hheld⟩ := Dev.haltHold_frame (d := d.saveStop)
  obtain ⟨hream'', hvat'', htick'', -, -, hon'', -⟩ := Dev.of_unstopped d.unstopped_saveStop
  obtain ⟨hmin, hmax⟩ := Dev.stopLeft_haltHold (d := d.saveStop)
  rw [hboot]
  exact ⟨(hream.trans hream').trans hream'', (hvat.trans hvat').trans hvat'', (htick.trans htick').trans htick'',
    (hon.trans hon').trans hon'', hhalted, hheld, hmin, hmax, hregs.trans hregs'⟩

/-- R304: the registers that show what a save stopped. -/
theorem Dev.get_saveStop : d.saveStop.get F.HOST_PCIE_STAT.L0 = 0 ∧ (∀ k, k < 8 → d.saveStop.get F.KL_LINK_STAT.STATE k = 0) ∧
    (∀ k, k < 8 → d.saveStop.get F.FRM_PORT_STAT.STATE k = 0) ∧ ∀ k, k < 72 → d.saveStop.get F.OUT_STAT.OPEN k = d.get F.OUT_STAT.OPEN k := by
  have hpcie : R.HOST_PCIE_STAT.key 0 = 0x09100044 := rfl
  have hlink (k : Nat) : R.KL_LINK_STAT.key k = 0x08D01008 + 64 * k := rfl
  have hport (k : Nat) : R.FRM_PORT_STAT.key k = 0x08C00004 + 256 * k := rfl
  have hout (k : Nat) : R.OUT_STAT.key k = 0x0870402C + 64 * k := rfl
  rw [Dev.saveStop_eq]
  refine ⟨Dev.get_put_self _ F.HOST_PCIE_STAT.L0 0 0 (by decide) (by decide), fun k hk => ?_, fun k hk => ?_, fun k hk => ?_⟩
  · rw [Dev.get_put_ne _ F.HOST_PCIE_STAT.L0 F.KL_LINK_STAT.STATE 0 0 k (show R.KL_LINK_STAT.key k ≠ R.HOST_PCIE_STAT.key 0 by rw [hlink, hpcie]; omega)]
    exact Dev.state_linksDown _ hk
  · rw [Dev.get_put_ne _ F.HOST_PCIE_STAT.L0 F.FRM_PORT_STAT.STATE 0 0 k (show R.FRM_PORT_STAT.key k ≠ R.HOST_PCIE_STAT.key 0 by rw [hport, hpcie]; omega),
      Dev.get_linksDown _ (f := F.FRM_PORT_STAT.STATE) fun j hj => show R.FRM_PORT_STAT.key k ≠ R.KL_LINK_STAT.key j by rw [hport, hlink]; omega]
    exact Dev.state_framesStop _ hk
  · rw [Dev.get_put_ne _ F.HOST_PCIE_STAT.L0 F.OUT_STAT.OPEN 0 0 k (show R.OUT_STAT.key k ≠ R.HOST_PCIE_STAT.key 0 by rw [hout, hpcie]; omega),
      Dev.get_linksDown _ (f := F.OUT_STAT.OPEN) fun j hj => show R.OUT_STAT.key k ≠ R.KL_LINK_STAT.key j by rw [hout, hlink]; omega,
      Dev.get_framesStop _ (f := F.OUT_STAT.OPEN) fun j hj => show R.OUT_STAT.key k ≠ R.FRM_PORT_STAT.key j by rw [hout, hport]; omega]
    exact Dev.get_congr _ _ rfl _ _

/-- R304: an output that has stopped goes to high impedance. -/
theorem Dev.drive_saveHalt {k : Nat} (hk : k < 72) (hclosed : d.saveStop.flag F.OUT_STAT.OPEN k = false) :
    (d.saveHalt.outc k).drive = ⟨.highZ, .highZ, 0, 0⟩ := by
  have hboot (e : Dev) (b : Boot) : ({ e with boot := b } : Dev).flag F.OUT_STAT.OPEN k = e.flag F.OUT_STAT.OPEN k := rfl
  unfold Dev.saveHalt
  exact Dev.drive_outsStop _ hk ((hboot _ _).trans hclosed)

/-! ## The image -/

/-- R303: what the save's image leaves, where the Vat has no errors. -/
theorem Dev.saveTaken_eq {a : Nat} (hue : d.vat.ue = []) (hce : d.vat.ce = []) : d.saveTaken a =
    { d.put F.REAM_SAVE_STAT.ARMED 0 with ream := { d.ream with save := some ⟨a, d.saveImage, []⟩, armed := none } } := by
  unfold Dev.saveTaken
  rw [d.saveTouch_clean hue hce, d.saveBad_clean hue]

section
variable {a : Nat} (hue : d.vat.ue = []) (hce : d.vat.ce = [])
include hue hce

theorem Dev.saveTaken_frame : (d.saveTaken a).ream = { d.ream with save := some ⟨a, d.saveImage, []⟩, armed := none } ∧
    (d.saveTaken a).boot = d.boot ∧ (d.saveTaken a).dispatchOn = d.dispatchOn ∧ (d.saveTaken a).outcs = d.outcs ∧
    (d.saveTaken a).tick = d.tick ∧ (d.saveTaken a).vat = d.vat ∧ (d.saveTaken a).get F.REAM_SAVE_STAT.ARMED = 0 := by
  rw [Dev.saveTaken_eq hue hce]
  refine ⟨rfl, rfl, rfl, rfl, rfl, rfl, ?_⟩
  exact (Dev.get_congr _ _ rfl _ _).trans (Dev.get_put_self d F.REAM_SAVE_STAT.ARMED 0 0 (by decide) (by decide))

theorem Dev.get_saveTaken {f : Fld} {n : Nat} (h : f.reg.key n ≠ R.REAM_SAVE_STAT.key 0) : (d.saveTaken a).get f n = d.get f n := by
  rw [Dev.saveTaken_eq hue hce]
  exact (Dev.get_congr _ _ rfl f n).trans (Dev.get_put_ne d F.REAM_SAVE_STAT.ARMED f 0 0 n h)

end

/-- R304, R305: the device that handles a power failure: what waits for the fault log is gone. -/
def Dev.pfailTaken (d : Dev) : Dev :=
  ({ d with flt := { d.flt with saveBegun := true, log := [], overflow := false }, boot := { d.boot with pfail := false } } : Dev).put
    F.FLT_LOG_STAT.LEVEL 0

theorem Dev.pfailTaken_frame : d.pfailTaken.ream = d.ream ∧ d.pfailTaken.vat = d.vat ∧ d.pfailTaken.tick = d.tick := ⟨rfl, rfl, rfl⟩

theorem Dev.get_pfailTaken {f : Fld} {n : Nat} (h : f.reg.key n ≠ R.FLT_LOG_STAT.key 0) : d.pfailTaken.get f n = d.get f n :=
  (Dev.get_put_ne _ F.FLT_LOG_STAT.LEVEL f 0 0 n h).trans (Dev.get_congr _ _ rfl f n)

theorem Dev.powerFail_of_none (h : d.boot.pfail = false) : d.powerFail = d := if_neg (by rw [h]; exact Bool.false_ne_true)

theorem Dev.powerFail_of_pfail (h : d.boot.pfail = true) (htest : d.test.run = none) (hopen : d.pi.isOpen = false) :
    d.powerFail = d.saveStart := by
  have hstop : d.bistStop = d := by
    unfold Dev.bistStop
    rw [htest]
  have hpi : d.piPower = d := if_neg (by rw [hopen]; exact Bool.false_ne_true)
  refine (if_pos h).trans ?_
  rw [hstop, hpi]

theorem Dev.enable_pfailTaken : d.pfailTaken.flag F.REAM_SAVE_CFG.ENABLE = d.flag F.REAM_SAVE_CFG.ENABLE := by
  unfold Dev.flag
  rw [Dev.get_pfailTaken (Reg.key_ne_of_plain (q := R.REAM_SAVE_CFG) (r := R.FLT_LOG_STAT) rfl rfl rfl (by decide) 0)]

/-- R305: without an armed area, or without ENABLE, no save starts. -/
theorem Dev.saveStart_skips (h : d.ream.armed = none ∨ d.flag F.REAM_SAVE_CFG.ENABLE = false) : d.saveStart = d.pfailTaken.saveSkip := by
  have hstart : d.saveStart = match d.pfailTaken.ream.armed with
      | some a => if d.pfailTaken.flag F.REAM_SAVE_CFG.ENABLE then d.pfailTaken.saveInto a else d.pfailTaken.saveSkip
      | none => d.pfailTaken.saveSkip := rfl
  rw [hstart, Dev.enable_pfailTaken, Dev.pfailTaken_frame.1]
  rcases h with hnone | hoff
  · rw [hnone]
  · rw [hoff]
    split <;> rfl

theorem Dev.saveStart_saves {a : Nat} (harmed : d.ream.armed = some a) (hon : d.flag F.REAM_SAVE_CFG.ENABLE = true)
    (hcmd : d.ream.cmd = none) : d.saveStart = d.pfailTaken.saveHalt.saveTaken a := by
  have hstart : d.saveStart = match d.pfailTaken.ream.armed with
      | some a => if d.pfailTaken.flag F.REAM_SAVE_CFG.ENABLE then d.pfailTaken.saveInto a else d.pfailTaken.saveSkip
      | none => d.pfailTaken.saveSkip := rfl
  rw [hstart, Dev.enable_pfailTaken, Dev.pfailTaken_frame.1, harmed, hon]
  exact (if_pos rfl).trans (Dev.saveInto_of_idle hcmd)

/-! ## The end of a save -/

theorem Dev.boot_saveProgram (r : SaveRun) (n : Nat) : (d.saveProgram r n false).boot = d.boot := by
  unfold Dev.saveProgram
  refine foldl_keeps Dev.boot _ (fun e x => ?_) _ d
  dsimp only
  split
  · split <;> rfl
  · rw [Bool.and_false]
    rfl

theorem Dev.saveEnd_of_run {r : SaveRun} (hsave : d.ream.save = some r) (hreset : d.boot.resetPend = 0) : d.saveEnd =
    (let x := d.saveProgram r (saveGroups r.image.length).length false
     { x with ream := { x.ream with save := none, saved := true, skipped := false, saveSeq := (x.ream.saveSeq + 1) % 2 ^ 32 } }) := by
  have hboot := d.boot_saveProgram r (saveGroups r.image.length).length
  have hdone : d.saveDone = (let x := d.saveProgram r (saveGroups r.image.length).length false
     { x with ream := { x.ream with save := none, saved := true, skipped := false, saveSeq := (x.ream.saveSeq + 1) % 2 ^ 32 } }) := by
    unfold Dev.saveDone
    rw [hsave]
  have hpend : d.saveDone.boot.resetPend = 0 := by
    rw [hdone]
    dsimp only
    rw [hboot, hreset]
  unfold Dev.saveEnd
  rw [hsave]
  refine (if_neg Bool.false_ne_true).trans ?_
  dsimp only
  rw [hpend]
  exact hdone

/-! ## The end of the outputs' time, and of the synthesizers -/

/-- R370: an output that still runs at the end of its time is cut. -/
def Dev.outCut (d : Dev) (k : Nat) : Dev := if d.flag F.OUT_STAT.OPEN k then (d.put F.OUT_STAT.OPEN 0 k).driveNow k else d

theorem Dev.outsCut_closes (h : d.boot.stopLeft = 1) {k : Nat} (hk : k < 72) : d.outsCut.flag F.OUT_STAT.OPEN k = false := by
  have hregs (e : Dev) (i : Nat) : (e.driveNow i).regs = e.regs := (Dev.of_undriven (e.undriven_driveNow i)).2.2.2.2.1
  have hput (e : Dev) : ((e.put F.OUT_STAT.OPEN 0 k).driveNow k).get F.OUT_STAT.OPEN k = 0 :=
    (Dev.get_congr _ _ (hregs _ k) _ _).trans (Dev.get_put_self e F.OUT_STAT.OPEN 0 k (by decide) (by decide))
  have hother (e : Dev) {i : Nat} (hi : i ≠ k) : ((e.put F.OUT_STAT.OPEN 0 i).driveNow i).get F.OUT_STAT.OPEN k = e.get F.OUT_STAT.OPEN k :=
    (Dev.get_congr _ _ (hregs _ i) _ _).trans
      (Dev.get_put_ne e F.OUT_STAT.OPEN F.OUT_STAT.OPEN 0 i k (Reg.key_ne_of_stride (r := R.OUT_STAT) rfl (by decide) hi.symm))
  have hfold (e : Dev) : ((List.range 72).foldl Dev.outCut e).get F.OUT_STAT.OPEN k = 0 := by
    refine foldl_range_at (P := fun e => e.get F.OUT_STAT.OPEN k = 0) hk (fun e => ?_) (fun e i hi he => ?_) e
    · unfold Dev.outCut
      split
      · exact hput e
      · next hclosed => simpa [Dev.flag] using hclosed
    · unfold Dev.outCut
      split
      · exact (hother e hi).trans he
      · exact he
  have hcut : d.outsCut = (List.range 72).foldl Dev.outCut { d with boot := { d.boot with stopLeft := 0 } } := by
    unfold Dev.outsCut
    rw [h]
    exact if_neg fun hne => hne rfl
  unfold Dev.flag
  rw [hcut, hfold]
  rfl

theorem Dev.lossBoundary_stops (h : d.boot.loss = true ∨ d.boot.halted = true) (hclosed : ∀ k : Fin 72, d.flag F.OUT_STAT.OPEN k = false)
    {n : Nat} (hn : n < 16) : d.lossBoundary.flag F.SYN_STAT.LOCK n = false := by
  have hstopped : d.outsStopped = true := List.all_eq_true.mpr fun k hk => by
    rw [hclosed ⟨k, List.mem_range.mp hk⟩]
    rfl
  have hzero : d.lossBoundary.get F.SYN_STAT.LOCK n = 0 := by
    unfold Dev.lossBoundary
    rw [if_pos (by rw [hstopped, Bool.and_true, Bool.or_eq_true]; exact h)]
    exact Dev.get_foldl_clear (f := F.SYN_STAT.LOCK) rfl (by decide) (by decide) (by decide) hn (fun _ _ => rfl) d
  unfold Dev.flag
  rw [hzero]
  rfl

/-- R303, R304: what a save shows once it has begun. -/
theorem Dev.save_shows {a : Nat} (hue : d.vat.ue = []) (hce : d.vat.ce = []) :
    let x := d.pfailTaken.saveHalt.saveTaken a
    ∃ r, x.ream.save = some r ∧ r.area = a ∧ r.bad = [] ∧ r.image.take 4 = [0x52, 0x45, 0x41, 0x4D] ∧ x.ream.armed = none ∧
      x.ream.mem = d.ream.mem ∧ x.get F.REAM_SAVE_STAT.ARMED = 0 ∧ x.boot.halted = true ∧ x.boot.outsHeld = true ∧ x.dispatchOn = false ∧
      1 ≤ x.boot.stopLeft ∧ x.boot.stopLeft ≤ 20 ∧
      (∀ k : Fin 72, x.flag F.OUT_STAT.OPEN k = d.flag F.OUT_STAT.OPEN k ∧
        (x.flag F.OUT_STAT.OPEN k = false → (x.outc k).drive = ⟨.highZ, .highZ, 0, 0⟩)) ∧
      x.get F.HOST_PCIE_STAT.L0 = 0 ∧ (∀ k : Fin 8, x.get F.KL_LINK_STAT.STATE k = 0) ∧
      (∀ k : Fin 8, x.get F.FRM_PORT_STAT.STATE k = 0) ∧ x.tick = d.tick ∧ x.vat = d.vat := by
  intro x
  obtain ⟨hream, hvat, htick, hon, hhalted, hheld, hmin, hmax, hregs⟩ := Dev.saveHalt_frame (d := d.pfailTaken)
  obtain ⟨hream', hvat', htick'⟩ := Dev.pfailTaken_frame (d := d)
  obtain ⟨hpcie, hlinks, hports, houts⟩ := Dev.get_saveStop (d := d.pfailTaken)
  have hue' : d.pfailTaken.saveHalt.vat.ue = [] := by rw [hvat, hvat', hue]
  have hce' : d.pfailTaken.saveHalt.vat.ce = [] := by rw [hvat, hvat', hce]
  obtain ⟨hsave, hboot, hdispatch, houtcs, htaken, hvatTaken, harmed⟩ := Dev.saveTaken_frame (a := a) hue' hce'
  have hget {f : Fld} {n : Nat} (h : f.reg.key n ≠ R.REAM_SAVE_STAT.key 0) : x.get f n = d.pfailTaken.saveStop.get f n :=
    (Dev.get_saveTaken hue' hce' h).trans (Dev.get_congr _ _ hregs f n)
  have hkept (r : Ream) (run : Option SaveRun) : ({ r with save := run, armed := none } : Ream).mem = r.mem := rfl
  have hlog : R.FLT_LOG_STAT.key 0 = 0x08F00220 := rfl
  have harea : R.REAM_SAVE_STAT.key 0 = 0x08E00034 := rfl
  have hout (k : Fin 72) : R.OUT_STAT.key k = 0x0870402C + 64 * k := rfl
  have hlink (k : Fin 8) : R.KL_LINK_STAT.key k = 0x08D01008 + 64 * k := rfl
  have hport (k : Fin 8) : R.FRM_PORT_STAT.key k = 0x08C00004 + 256 * k := rfl
  have hstopped (k : Fin 72) : x.get F.OUT_STAT.OPEN k = d.pfailTaken.saveStop.get F.OUT_STAT.OPEN k :=
    hget (show R.OUT_STAT.key k ≠ _ by rw [hout, harea]; omega)
  have hopen (k : Fin 72) : x.get F.OUT_STAT.OPEN k = d.get F.OUT_STAT.OPEN k :=
    (hstopped k).trans ((houts k k.isLt).trans (Dev.get_pfailTaken (show R.OUT_STAT.key k ≠ _ by rw [hout, hlog]; omega)))
  refine ⟨⟨a, d.pfailTaken.saveHalt.saveImage, []⟩, ?_, rfl, rfl, Dev.saveImage_magic, ?_, ?_, harmed, ?_, ?_, hdispatch.trans hon, ?_, ?_,
    fun k => ⟨?_, fun hclosed => ?_⟩, (hget (Reg.key_ne_of_plain (q := R.HOST_PCIE_STAT) (r := R.REAM_SAVE_STAT) rfl rfl rfl (by decide) 0)).trans hpcie,
    fun k => ?_, fun k => ?_, (htaken.trans htick).trans htick', (hvatTaken.trans hvat).trans hvat'⟩
  · rw [hsave]
  · rw [hsave]
  · rw [hsave]
    exact (hkept _ _).trans (congrArg Ream.mem (hream.trans hream'))
  · rw [hboot, hhalted]
  · rw [hboot, hheld]
  · rw [hboot]
    exact hmin
  · rw [hboot]
    exact hmax
  · unfold Dev.flag
    rw [hopen]
  · have hdriven : x.outc k = d.pfailTaken.saveHalt.outc k := congrArg (fun o => Tbl.getD o k OutCh.reset) houtcs
    rw [hdriven]
    refine Dev.drive_saveHalt k.isLt ?_
    unfold Dev.flag at hclosed ⊢
    rwa [hstopped] at hclosed
  · rw [hget (f := F.KL_LINK_STAT.STATE) (show R.KL_LINK_STAT.key k ≠ _ by rw [hlink, harea]; omega)]
    exact hlinks k k.isLt
  · rw [hget (f := F.FRM_PORT_STAT.STATE) (show R.FRM_PORT_STAT.key k ≠ _ by rw [hport, harea]; omega)]
    exact hports k k.isLt

/-- R305, R313: no save starts in STOPPED, or while a start is under way. -/
theorem Dev.pfailRecognised_skips {e : Dev} (he : e = d.fault 9)
    (h : e.flag F.FLT_STATE.STOPPED = true ∨ (e.get F.BOOT_STAT.STEP < 12 ∧ e.boot.live = false)) : d.pfailRecognised = e.saveSkip := by
  subst he
  exact if_pos (h.imp_right fun hstart => ⟨hstart.1, by rw [hstart.2]; rfl⟩)

theorem Dev.pfailRecognised_waits {e : Dev} (he : e = d.fault 9) (hstop : e.flag F.FLT_STATE.STOPPED = false)
    (h : ¬ (e.get F.BOOT_STAT.STEP < 12 ∧ e.boot.live = false)) :
    d.pfailRecognised = { e with boot := { e.boot with pfail := true } } := by
  subst he
  refine if_neg ?_
  rintro (hstopped | ⟨hstep, hlive⟩)
  · exact Bool.false_ne_true (hstop.symm.trans hstopped)
  · exact h ⟨hstep, Bool.not_eq_true' _ ▸ hlive⟩

end

/-- Settles O51: each command by its conditions; what a save shows follows from what it stops, holds and takes. -/
theorem powerFailAndSave : Obligations.PowerFailAndSave := by
  refine ⟨fun s => ?_, fun d h k => d.outsCut_closes h k.isLt, fun d h hclosed n => Dev.lossBoundary_stops h hclosed n.isLt⟩
  intro d e skipped begun starting
  have hpfail : Gives .pfailRecognised s (d.pinSee 2 false).pfailRecognised := rfl
  have hstart : Gives .saveStart s d.powerFail := rfl
  have hdone : Gives .saveDone s d.saveEnd := rfl
  have hloss : Gives .powerLossDetect s d.powerLoss := rfl
  have he : e = (d.pinSee 2 false).fault 9 := rfl
  clear_value e
  clear_value d
  refine ⟨fun hstop hno => hpfail.of_eq (Dev.pfailRecognised_waits he hstop hno), fun h => hpfail.of_eq (Dev.pfailRecognised_skips he h),
    fun hno => hstart.of_eq (Dev.powerFail_of_none hno), fun hpend htest hpi => ⟨fun hno => ?none, fun a harmed hon hcmd hue hce => ?save⟩,
    fun r hsave hreset => hdone.of_eq (Dev.saveEnd_of_run hsave hreset), hloss⟩
  case none => exact hstart.of_eq ((Dev.powerFail_of_pfail hpend htest hpi).trans (Dev.saveStart_skips hno))
  case save =>
    obtain ⟨r, hshows⟩ := Dev.save_shows (a := a) hue hce
    exact ⟨_, r, hstart.of_eq ((Dev.powerFail_of_pfail hpend htest hpi).trans (Dev.saveStart_saves harmed hon hcmd)), hshows⟩

end Sys2Proof.Machine
end

section
/-! SUPPORT of O52. What a loss of power and a reset leave of the Ream, and the COLD state (R313, R324, R334). -/

namespace Sys2Proof.Machine

section
variable {d : Dev}

/-! ## The Ream when it is cut -/

/-- What runs in the Ream. -/
def Ream.running (r : Ream) : Option ReamCmd × Option SaveRun × Option AreaErase × Option LogWriting := (r.cmd, r.save, r.arm, r.writing)

theorem Dev.running_groupIndet (g : Nat) : (d.groupIndet g).ream.running = d.ream.running := rfl

theorem Dev.running_eraseCut (s : Nat) : (d.eraseCut s).ream.running = d.ream.running := by
  have hfold : ((List.range 512).foldl (fun d i => d.groupIndet (512 * s + i)) d).ream.running = d.ream.running :=
    foldl_keeps (fun e => e.ream.running) (fun d i => d.groupIndet (512 * s + i)) (fun _ _ => rfl) _ d
  have hspare (e : Dev) (t : Tbl Nat) : ({ e.freeNext with ream := { e.freeNext.ream with erases := t } } : Dev).ream.running = e.ream.running := rfl
  unfold Dev.eraseCut
  exact (hspare _ _).trans hfold

theorem Dev.armCut_of_none (h : d.ream.arm = none) : d.armCut = d := by
  unfold Dev.armCut
  rw [h]

/-- R306, R336: no erase of a save area runs on, and a command is left alone. -/
theorem Dev.armCut_stops : d.armCut.ream.arm = none ∧ d.armCut.ream.cmd = d.ream.cmd := by
  cases h : d.ream.arm with
  | none => exact ⟨(congrArg (fun e : Dev => e.ream.arm) (Dev.armCut_of_none h)).trans h, congrArg (fun e : Dev => e.ream.cmd) (Dev.armCut_of_none h)⟩
  | some x =>
    have hcut : d.armCut = { d.eraseCut x.sector with ream := { (d.eraseCut x.sector).ream with arm := none } } := by
      unfold Dev.armCut
      rw [h]
    have hcmd {r r' : Ream} (h : r.running = r'.running) : r.cmd = r'.cmd := congrArg Prod.fst h
    have hends (e : Dev) : let f : Dev := { e with ream := { e.ream with arm := none } }; f.ream.arm = none ∧ f.ream.cmd = e.ream.cmd :=
      ⟨rfl, rfl⟩
    rw [hcut]
    exact ⟨(hends _).1, (hends _).2.trans (hcmd (d.running_eraseCut x.sector))⟩

theorem Dev.logTorn_stops : d.logTorn.ream.writing = none ∧ d.logTorn.ream.arm = d.ream.arm := by
  unfold Dev.logTorn
  split
  · next h => exact ⟨h, rfl⟩
  · dsimp only
    split <;> exact ⟨rfl, rfl⟩

/-- R317: a record whose write is complete stays whole. -/
theorem Dev.mem_logTorn (h : d.logBusy = false) : d.logTorn.ream.mem = d.ream.mem := by
  unfold Dev.logBusy at h
  unfold Dev.logTorn
  split
  · rfl
  · next w hw =>
    rw [hw] at h
    have hdone : w.done ≤ d.tick := Nat.not_lt.mp fun hlt => by simp [hlt] at h
    dsimp only
    rw [if_pos hdone]

theorem Dev.reamCut_of_none {n : Nat} (h : d.ream.cmd = none) : d.reamCut n = d := by
  unfold Dev.reamCut
  rw [h]

/-- R324: nothing runs in the Ream once power has gone. -/
theorem Dev.reamPowerCut_stops (n : Nat) : (d.reamPowerCut n).ream.running = (none, none, none, none) := by
  unfold Dev.reamPowerCut
  extract_lets e f
  have harm : f.ream.arm = none := e.armCut.logTorn_stops.2.trans e.armCut_stops.1
  have hwriting : f.ream.writing = none := e.armCut.logTorn_stops.1
  clear_value f
  unfold Ream.running
  dsimp only
  rw [harm, hwriting]

theorem Dev.mem_reamPowerCut {n : Nat} (hcmd : d.ream.cmd = none) (hsave : d.ream.save = none) (harm : d.ream.arm = none)
    (hlog : d.logBusy = false) : (d.reamPowerCut n).ream.mem = d.ream.mem := by
  unfold Dev.reamPowerCut
  rw [hsave]
  dsimp only
  rw [Dev.reamCut_of_none hcmd, Dev.armCut_of_none harm]
  exact Dev.mem_logTorn hlog

theorem Dev.reamHalt_stops (n : Nat) : (d.reamHalt n).ream.cmd = none ∧ (d.reamHalt n).ream.arm = none := by
  unfold Dev.reamHalt
  extract_lets e f g
  have hcmd : g.ream.cmd = none := by
    show (if d.ream.cmd.isSome = true then _ else d : Dev).ream.cmd = none
    split
    · rfl
    · next h => simpa using h
  exact ⟨g.armCut_stops.2.trans hcmd, g.armCut_stops.1⟩

theorem Dev.reamHalt_of_idle {n : Nat} (hcmd : d.ream.cmd = none) (harm : d.ream.arm = none) : d.reamHalt n = d := by
  unfold Dev.reamHalt
  rw [hcmd]
  exact Dev.armCut_of_none harm

/-! ## RESET_N low (R324) -/

/-- R324, R366: the state in which RESET_N holds the device. -/
def Dev.resetState (e : Dev) : Dev :=
  let f := ((e.put F.HOST_PCIE_STAT.L0 0).put F.BOOT_STAT.CAUSE 1).put F.FLT_PIN.LOW 0
  { f with
    flt := { f.flt with pulseEnd := none }
    boot := { f.boot with low := true, live := false, resetPend := 0, wait := false, failed := false } }

/-- R324: the device whose clocks RESET_N stops. -/
def Dev.clocksOff (d : Dev) : Dev := { d with dispatchOn := false, tickOn := false, evts := [] }

/-- R324: what runs nowhere while RESET_N is low. -/
def Dev.resetHalt (d : Dev) (n : Nat) : Dev := (d.reamHalt n).clocksOff.framesStop.linksDown.resetState

theorem Dev.resetLow_eq (n : Nat) : d.resetLow n = (d.resetHalt n).outsStop 10000 := rfl

theorem Dev.resetState_frame : d.resetState.ream = d.ream ∧ d.resetState.frm = d.frm ∧ d.resetState.evts = d.evts ∧
    d.resetState.tickOn = d.tickOn ∧ d.resetState.dispatchOn = d.dispatchOn ∧ d.resetState.boot.low = true ∧ d.resetState.boot.live = false :=
  ⟨rfl, rfl, rfl, rfl, rfl, rfl, rfl⟩

theorem Dev.get_resetState : d.resetState.get F.HOST_PCIE_STAT.L0 = 0 ∧ d.resetState.get F.BOOT_STAT.CAUSE = 1 ∧
    d.resetState.get F.FLT_PIN.LOW = 0 := by
  have hregs : d.resetState.regs = (((d.put F.HOST_PCIE_STAT.L0 0).put F.BOOT_STAT.CAUSE 1).put F.FLT_PIN.LOW 0).regs := rfl
  have hpcie : R.HOST_PCIE_STAT.key 0 = 0x09100044 := rfl
  have hstat : R.BOOT_STAT.key 0 = 0x09000000 := rfl
  have hpin : R.FLT_PIN.key 0 = 0x08F00210 := rfl
  rw [Dev.get_congr _ _ hregs, Dev.get_congr _ _ hregs, Dev.get_congr _ _ hregs]
  refine ⟨?_, ?_, Dev.get_put_self _ F.FLT_PIN.LOW 0 0 (by decide) (by decide)⟩
  · rw [Dev.get_put_ne _ F.FLT_PIN.LOW F.HOST_PCIE_STAT.L0 0 0 0 (show R.HOST_PCIE_STAT.key 0 ≠ R.FLT_PIN.key 0 by rw [hpcie, hpin]; decide),
      Dev.get_put_ne _ F.BOOT_STAT.CAUSE F.HOST_PCIE_STAT.L0 1 0 0 (show R.HOST_PCIE_STAT.key 0 ≠ R.BOOT_STAT.key 0 by rw [hpcie, hstat]; decide)]
    exact Dev.get_put_self d F.HOST_PCIE_STAT.L0 0 0 (by decide) (by decide)
  · rw [Dev.get_put_ne _ F.FLT_PIN.LOW F.BOOT_STAT.CAUSE 0 0 0 (show R.BOOT_STAT.key 0 ≠ R.FLT_PIN.key 0 by rw [hstat, hpin]; decide)]
    exact Dev.get_put_self _ F.BOOT_STAT.CAUSE 1 0 (by decide) (by decide)

theorem Dev.txs_framesStop : d.framesStop.frm.txs = [] := rfl

theorem Dev.frm_linksDown : d.linksDown.frm = d.frm :=
  foldl_keeps Dev.frm (fun d k => (d.put F.KL_LINK_STAT.STATE 0 k).setKlink k KlLink.reset) (fun _ _ => rfl) _ d

theorem Dev.outsHold_frame (limit : Nat) : (d.outsHold limit).ream = d.ream ∧ (d.outsHold limit).frm = d.frm ∧
    (d.outsHold limit).evts = d.evts ∧ (d.outsHold limit).tickOn = d.tickOn ∧ (d.outsHold limit).dispatchOn = d.dispatchOn ∧
    (d.outsHold limit).boot.low = d.boot.low ∧ (d.outsHold limit).boot.live = d.boot.live ∧ (d.outsHold limit).boot.outsHeld = true ∧
    (d.outsHold limit).regs = d.regs := ⟨rfl, rfl, rfl, rfl, rfl, rfl, rfl, rfl, rfl⟩

/-- What the state of RESET_N low keeps of the halted Ream. -/
theorem Dev.resetHalt_frame (n : Nat) : (d.resetHalt n).ream = (d.reamHalt n).ream ∧ (d.resetHalt n).frm.txs = [] ∧
    (d.resetHalt n).evts = [] ∧ (d.resetHalt n).tickOn = false ∧ (d.resetHalt n).dispatchOn = false ∧
    (d.resetHalt n).boot.low = true ∧ (d.resetHalt n).boot.live = false := by
  have hstops := ((d.reamHalt n).clocksOff.framesStop.unstopped_linksDown).trans (d.reamHalt n).clocksOff.unstopped_framesStop
  obtain ⟨hream, -, -, -, -, hdisp, htick, hevts, -⟩ := Dev.of_unstopped hstops
  have hfrm : ((d.reamHalt n).clocksOff.framesStop.linksDown).frm.txs = [] :=
    (congrArg Frm.txs Dev.frm_linksDown).trans Dev.txs_framesStop
  have hoff (e : Dev) : e.clocksOff.ream = e.ream ∧ e.clocksOff.evts = [] ∧ e.clocksOff.tickOn = false ∧ e.clocksOff.dispatchOn = false :=
    ⟨rfl, rfl, rfl, rfl⟩
  obtain ⟨hream0, hevts0, htick0, hdisp0⟩ := hoff (d.reamHalt n)
  unfold Dev.resetHalt
  obtain ⟨hream1, hfrm1, hevts1, htick1, hdisp1, hlow, hlive⟩ := Dev.resetState_frame (d := (d.reamHalt n).clocksOff.framesStop.linksDown)
  exact ⟨(hream1.trans hream).trans hream0, (congrArg Frm.txs hfrm1).trans hfrm, (hevts1.trans hevts).trans hevts0,
    (htick1.trans htick).trans htick0, (hdisp1.trans hdisp).trans hdisp0, hlow, hlive⟩

/-- R324: what RESET_N low brings about. -/
theorem Dev.resetLow_shows {n : Nat} {x : Dev} (hx : d.resetLow n = x) :
    x.boot.low = true ∧ x.boot.live = false ∧ x.boot.outsHeld = true ∧ x.tickOn = false ∧ x.dispatchOn = false ∧ x.frm.txs = [] ∧
    x.evts = [] ∧ x.get F.BOOT_STAT.CAUSE = 1 ∧ x.get F.HOST_PCIE_STAT.L0 = 0 ∧ x.get F.FLT_PIN.LOW = 0 ∧ 1 ≤ x.boot.stopLeft ∧
    x.boot.stopLeft ≤ 10000 ∧ (∀ k : Fin 72, x.flag F.OUT_STAT.OPEN k = false → (x.outc k).drive = ⟨.highZ, .highZ, 0, 0⟩) ∧
    x.ream.cmd = none ∧ x.ream.arm = none ∧ (d.ream.cmd = none → d.ream.arm = none → x.ream = d.ream) := by
  rw [Dev.resetLow_eq] at hx
  obtain ⟨hream, hfrm, hevts, htick, hdisp, hlow, hlive⟩ := Dev.resetHalt_frame (d := d) n
  have hget : (d.resetHalt n).get F.HOST_PCIE_STAT.L0 = 0 ∧ (d.resetHalt n).get F.BOOT_STAT.CAUSE = 1 ∧ (d.resetHalt n).get F.FLT_PIN.LOW = 0 :=
    Dev.get_resetState
  obtain ⟨hcmd, harm⟩ := Dev.reamHalt_stops (d := d) n
  have hidle := Dev.reamHalt_of_idle (d := d) (n := n)
  generalize d.resetHalt n = y at *
  have hundriven := y.undriven_outsStop 10000
  have hdrive {k : Nat} := Dev.drive_outsStop y (limit := 10000) (k := k)
  rw [hx] at hundriven hdrive
  obtain ⟨hream2, hfrm2, hevts2, htick2, hdisp2, hlow2, hlive2, hheld2, hregs2⟩ := Dev.outsHold_frame (d := y) 10000
  obtain ⟨hmin, hmax⟩ := Dev.stopLeft_outsHold y (limit := 10000) (by decide)
  obtain ⟨hream3, -, -, hboot, hregs3, hdisp3, htick3, hevts3, -, hfrm3⟩ := Dev.of_undriven hundriven
  have hregs := hregs3.trans hregs2
  have hstay := (hream3.trans hream2).trans hream
  obtain ⟨hpcie, hcause, hpin⟩ := hget
  rw [hboot, htick3, hdisp3, hfrm3, hevts3, hlow2, hlive2, htick2, hdisp2, hfrm2, hevts2, Dev.get_congr _ _ hregs, Dev.get_congr _ _ hregs,
    Dev.get_congr _ _ hregs, hstay]
  refine ⟨hlow, hlive, hheld2, htick, hdisp, hfrm, hevts, hcause, hpcie, hpin, hmin, hmax, fun k hclosed => hdrive k.isLt ?_, hcmd, harm,
    fun hc ha => congrArg Dev.ream (hidle hc ha)⟩
  unfold Dev.flag at hclosed ⊢
  rwa [Dev.get_congr _ _ hregs] at hclosed

end
end Sys2Proof.Machine
end

section
/-! SUPPORT and proof of O52. COLD, the start, an image restart and the static inputs (R24, R323-R335). -/

namespace Sys2Proof.Machine

section
variable {d : Dev}

/-! ## STOPPED survives COLD (R312) -/

/-- Another register than those of the outputs and their synthesizers. -/
theorem Dev.get_safeEnters {f : Fld} {n : Nat} (hout : ∀ k, k < 72 → f.reg.key n ≠ R.OUT_STAT.key k) (hsyn : ∀ k, f.reg.key n ≠ R.SYN_STAT.key k) :
    ((List.range 72).foldl (fun d k => d.safeEnter k) d).get f n = d.get f n := by
  refine List.foldlRecOn (motive := fun e : Dev => e.get f n = d.get f n) _ _ rfl fun e he k hk => Eq.trans ?_ he
  have hkey := hout k (List.mem_range.mp hk)
  unfold Dev.safeEnter
  split
  · rfl
  · extract_lets x st e1
    have he1 : e1.get f n = e.get f n := (Dev.get_congr _ _ rfl f n).trans
      ((Dev.get_put_ne _ F.OUT_STAT.SSTATE f st k n hkey).trans (Dev.get_put_ne e F.OUT_STAT.SAFE f 1 k n hkey))
    clear_value e1
    split
    · exact (Dev.get_put_ne e1 F.SYN_STAT.HOLD f 1 x.src n (hsyn x.src)).trans he1
    · exact he1

/-- R312: STOPPED is entered: the state and FAULT_N show it; what the log has written stays. -/
theorem Dev.enterStopped_shows : d.enterStopped.get F.FLT_STATE.STOPPED = 1 ∧ d.enterStopped.get F.FLT_PIN.LOW = 1 ∧
    d.enterStopped.flt.stopLogged = d.flt.stopLogged := by
  have hstate : R.FLT_STATE.key 0 = 0x08F00000 := rfl
  have hpin : R.FLT_PIN.key 0 = 0x08F00210 := rfl
  have hport (p : Nat) : R.FRM_PORT_STAT.key p = 0x08C00004 + 256 * p := rfl
  have hout (k : Nat) : R.OUT_STAT.key k = 0x0870402C + 64 * k := rfl
  have hsyn (k : Nat) : R.SYN_STAT.key k = 0x08700014 + 256 * k := rfl
  have hflt (e : Dev) (k : Nat) : (e.safeEnter k).flt = e.flt := by
    unfold Dev.safeEnter
    split
    · rfl
    · dsimp only
      split <;> rfl
  unfold Dev.enterStopped
  extract_lets e src f
  have he (g : Fld) (hg : ∀ p, p < 8 → g.reg.key 0 ≠ R.FRM_PORT_STAT.key p) :
      f.get g 0 = ((d.put F.FLT_STATE.STOPPED 1).put F.FLT_PIN.LOW 1).get g 0 :=
    (Dev.get_congr f e rfl g 0).trans (Dev.get_framesStop _ hg)
  have hlogged : f.flt.stopLogged = d.flt.stopLogged := by
    have hkept : f.flt.stopLogged = e.flt.stopLogged := rfl
    obtain ⟨-, -, -, -, -, -, -, -, heq⟩ := Dev.of_unstopped ((d.put F.FLT_STATE.STOPPED 1).put F.FLT_PIN.LOW 1).unstopped_framesStop
    exact hkept.trans (congrArg Flt.stopLogged heq)
  clear_value f
  refine ⟨?_, ?_, ?_⟩
  · rw [Dev.get_safeEnters (f := F.FLT_STATE.STOPPED) (fun k hk => show R.FLT_STATE.key 0 ≠ _ by rw [hstate, hout]; omega)
      (fun k => show R.FLT_STATE.key 0 ≠ _ by rw [hstate, hsyn]; omega),
      he F.FLT_STATE.STOPPED (fun p hp => show R.FLT_STATE.key 0 ≠ _ by rw [hstate, hport]; omega),
      Dev.get_put_ne _ F.FLT_PIN.LOW F.FLT_STATE.STOPPED 1 0 0 (show R.FLT_STATE.key 0 ≠ R.FLT_PIN.key 0 by rw [hstate, hpin]; decide)]
    exact Dev.get_put_self d F.FLT_STATE.STOPPED 1 0 (by decide) (by decide)
  · rw [Dev.get_safeEnters (f := F.FLT_PIN.LOW) (fun k hk => show R.FLT_PIN.key 0 ≠ _ by rw [hpin, hout]; omega)
      (fun k => show R.FLT_PIN.key 0 ≠ _ by rw [hpin, hsyn]; omega),
      he F.FLT_PIN.LOW (fun p hp => show R.FLT_PIN.key 0 ≠ _ by rw [hpin, hport]; omega)]
    exact Dev.get_put_self _ F.FLT_PIN.LOW 1 0 (by decide) (by decide)
  · exact (congrArg Flt.stopLogged (foldl_keeps Dev.flt (fun d k => d.safeEnter k) hflt _ f)).trans hlogged

/-! ## COLD (R334) -/

/-- R334: what COLD keeps, in the state after reset. -/
def Dev.coldBlocks (d : Dev) : Dev :=
  { Dev.reset with
    ream := { d.ream with cmd := none, save := none, doneAt := none, arm := none, writing := none }
    free := d.free, outs := d.outs, cycle := d.cycle, sensors := d.sensors
    vat := { d.vat with scrub := [] }
    flt := { Flt.reset with
      log := d.flt.log.map fun (x : LogEntry) => { x with cyc := none }
      overflow := d.flt.overflow, stopLogged := d.flt.stopLogged }
    host := { HostIf.reset with perst := d.host.perst }
    test := { Test.reset with ir := d.test.ir } }

/-- R178, R334: the outputs that were driven go to high impedance. -/
def Dev.coldPins (d : Dev) : Dev :=
  (List.range 72).foldl (fun (e : Dev) k =>
    if (d.outc k).drive = e.outDrive k then e else e.emit (.output k (e.outDrive k))) d.coldBlocks

/-- R326, R334: the records of COLD that a start reads. -/
def Dev.coldShown (e d : Dev) : Dev :=
  (((e.put F.FLT_LOG_STAT.LEVEL d.flt.log.length).put F.BOOT_KEY.ROLLBACK Config.rollback.toNat).putB F.BOOT_KEY.REVOKED1
    Config.revoked1).setBoot { Boot.reset with pinLast := d.boot.pinLast, pinSeen := d.boot.pinSeen, sel := d.boot.sel }

theorem Dev.cold_eq : d.cold = (if d.stopped then d.coldPins.enterStopped else d.coldPins).coldShown d := rfl

theorem Dev.coldPins_frame : d.coldPins.regs = Dev.reset.regs ∧ d.coldPins.tick = 0 ∧ d.coldPins.tickOn = false ∧ d.coldPins.engs = [] ∧
    d.coldPins.loops = [] ∧ d.coldPins.ream = d.coldBlocks.ream ∧ d.coldPins.flt = d.coldBlocks.flt := by
  have hview {β : Type} (view : Dev → β) (hemit : ∀ e o, view (Dev.emit e o) = view e) : view d.coldPins = view d.coldBlocks := by
    refine foldl_keeps view (fun (e : Dev) k => if (d.outc k).drive = e.outDrive k then e else e.emit (.output k (e.outDrive k)))
      (fun e k => ?_) _ _
    split
    · rfl
    · exact hemit _ _
  exact ⟨hview Dev.regs fun _ _ => rfl, hview Dev.tick fun _ _ => rfl, hview Dev.tickOn fun _ _ => rfl, hview Dev.engs fun _ _ => rfl,
    hview Dev.loops fun _ _ => rfl, hview Dev.ream fun _ _ => rfl, hview Dev.flt fun _ _ => rfl⟩

theorem Dev.coldShown_frame (e : Dev) : (e.coldShown d).tick = e.tick ∧ (e.coldShown d).tickOn = e.tickOn ∧ (e.coldShown d).engs = e.engs ∧
    (e.coldShown d).loops = e.loops ∧ (e.coldShown d).ream = e.ream ∧ (e.coldShown d).flt = e.flt ∧
    (e.coldShown d).boot.sel = d.boot.sel := ⟨rfl, rfl, rfl, rfl, rfl, rfl, rfl⟩

theorem Dev.rd_coldShown (e : Dev) {r : Reg} {n : Nat} (hlog : r.key n ≠ R.FLT_LOG_STAT.key 0) (hkey : r.key n ≠ R.BOOT_KEY.key 0) :
    (e.coldShown d).rd r n = e.rd r n :=
  (Dev.rd_congr _ _ rfl r n).trans ((Dev.rd_wr_ne _ R.BOOT_KEY r _ 0 n hkey).trans ((Dev.rd_wr_ne _ R.BOOT_KEY r _ 0 n hkey).trans
    (Dev.rd_wr_ne _ R.FLT_LOG_STAT r _ 0 n hlog)))

theorem Dev.get_coldShown (e : Dev) {f : Fld} {n : Nat} (hlog : f.reg.key n ≠ R.FLT_LOG_STAT.key 0) (hkey : f.reg.key n ≠ R.BOOT_KEY.key 0) :
    (e.coldShown d).get f n = e.get f n := congrArg (bits · f.hi f.lo) (Dev.rd_coldShown e hlog hkey)

theorem Dev.cold_of_stopped (h : d.flag F.FLT_STATE.STOPPED = true) : d.cold = d.coldPins.enterStopped.coldShown d :=
  Dev.cold_eq.trans (congrArg (fun e : Dev => e.coldShown d) (if_pos h))

theorem Dev.cold_of_running (h : d.flag F.FLT_STATE.STOPPED = false) : d.cold = d.coldPins.coldShown d :=
  Dev.cold_eq.trans (congrArg (fun e : Dev => e.coldShown d) (if_neg fun hs => Bool.false_ne_true (h.symm.trans hs)))

/-- R312: COLD in STOPPED. -/
theorem Dev.cold_stopped (h : d.flag F.FLT_STATE.STOPPED = true) : d.cold.flag F.FLT_STATE.STOPPED = true ∧
    d.cold.get F.FLT_PIN.LOW = 1 ∧ d.cold.flt.stopLogged = d.flt.stopLogged := by
  have hstate : R.FLT_STATE.key 0 = 0x08F00000 := rfl
  have hpin : R.FLT_PIN.key 0 = 0x08F00210 := rfl
  have hlog : R.FLT_LOG_STAT.key 0 = 0x08F00220 := rfl
  have hkey : R.BOOT_KEY.key 0 = 0x09000018 := rfl
  obtain ⟨hstopped, hlow, hlogged⟩ := Dev.enterStopped_shows (d := d.coldPins)
  obtain ⟨-, -, -, -, -, hflt, -⟩ := Dev.coldShown_frame (d := d) d.coldPins.enterStopped
  obtain ⟨-, -, -, -, -, -, hflt'⟩ := Dev.coldPins_frame (d := d)
  have hkept : d.coldBlocks.flt.stopLogged = d.flt.stopLogged := rfl
  rw [Dev.cold_of_stopped h]
  refine ⟨?_, ?_, ?_⟩
  · unfold Dev.flag
    rw [Dev.get_coldShown _ (f := F.FLT_STATE.STOPPED) (show R.FLT_STATE.key 0 ≠ _ by rw [hstate, hlog]; decide)
      (show R.FLT_STATE.key 0 ≠ _ by rw [hstate, hkey]; decide), hstopped]
    rfl
  · rw [Dev.get_coldShown _ (f := F.FLT_PIN.LOW) (show R.FLT_PIN.key 0 ≠ _ by rw [hpin, hlog]; decide)
      (show R.FLT_PIN.key 0 ≠ _ by rw [hpin, hkey]; decide), hlow]
  · rw [hflt, hlogged, hflt', hkept]

/-- R334: COLD elsewhere. -/
theorem Dev.cold_running (h : d.flag F.FLT_STATE.STOPPED = false) : d.cold.tick = 0 ∧ d.cold.tickOn = false ∧ d.cold.engs = [] ∧
    d.cold.loops = [] ∧ d.cold.ream.mem = d.ream.mem ∧ d.cold.ream.erases = d.ream.erases ∧ d.cold.rd R.FLT_STATE = 0 ∧
    d.cold.flt.log = d.flt.log.map (fun l => { l with cyc := none }) := by
  have hstate : R.FLT_STATE.key 0 = 0x08F00000 := rfl
  have hlog : R.FLT_LOG_STAT.key 0 = 0x08F00220 := rfl
  have hkey : R.BOOT_KEY.key 0 = 0x09000018 := rfl
  obtain ⟨htick, hon, hengs, hloops, hream, hflt, -⟩ := Dev.coldShown_frame (d := d) d.coldPins
  obtain ⟨hregs, htick', hon', hengs', hloops', hream', hflt'⟩ := Dev.coldPins_frame (d := d)
  have hreset : Dev.reset.rd R.FLT_STATE = 0 := by decide
  have hkept : d.coldBlocks.ream.mem = d.ream.mem ∧ d.coldBlocks.ream.erases = d.ream.erases ∧
      d.coldBlocks.flt.log = d.flt.log.map (fun l => { l with cyc := none }) := ⟨rfl, rfl, rfl⟩
  rw [Dev.cold_of_running h, htick, hon, hengs, hloops, hream, hflt, hream', hflt',
    Dev.rd_coldShown _ (r := R.FLT_STATE) (by rw [hstate, hlog]; decide) (by rw [hstate, hkey]; decide), Dev.rd_congr _ Dev.reset hregs]
  exact ⟨htick', hon', hengs', hloops', hkept.1, hkept.2.1, hreset, hkept.2.2⟩

/-! ## The start (R326) -/

/-- R326: step 1 of a start. -/
def Dev.bootFirst (d : Dev) (i : BootIn) (sel cause : Nat) : Dev :=
  ((({ d with boot := { d.boot with low := false, inp := i } } : Dev).put F.BOOT_STAT.BOOTSEL sel).put F.BOOT_STAT.CAUSE cause).bootTime 1
    (i.us.toList.getD 0 0).toNat

/-- R326, R327: what follows step 2 of a start. -/
def Dev.bootOn (d : Dev) (half : Nat) : Dev :=
  let timed := d.bootTime 2 (d.stepUs 2)
  if timed.stepLimit 2 half < timed.stepUs 2 then { timed with boot := { timed.boot with failed := true, wait := false } }
  else (timed.bootRecord false false 0 2).bootXo

theorem Dev.sel_cold : d.cold.boot.sel = d.boot.sel := by
  rw [Dev.cold_eq]
  exact (Dev.coldShown_frame _).2.2.2.2.2.2

theorem Dev.bootStart_eq (i : BootIn) (cause : Nat) : d.bootStart i cause =
    (let scanned := ((d.cold.bootFirst i d.boot.sel cause).put F.BOOT_STAT.STEP 2).bootScan
     if scanned.flag F.BOOT_STAT.HALTED then scanned else scanned.bootOn d.halfScan.length) := by
  have hsel : d.cold.boot.sel = d.boot.sel := Dev.sel_cold
  unfold Dev.bootStart
  generalize d.cold = y at *
  rw [← hsel]
  rfl

theorem Dev.resetRelease_of_low {i : BootIn} (hstop : d.flag F.FLT_STATE.STOPPED = false) (hpend : d.boot.resetPend = 0) (hlow : d.boot.low = true) :
    d.resetRelease i = ({ d with boot := { d.boot with sel := d.bootselNow } } : Dev).bootStart i (d.get F.BOOT_STAT.CAUSE) := by
  have hstopped : d.stopped = false := hstop
  have hcause (b : Boot) : (d.setBoot b).get F.BOOT_STAT.CAUSE = d.get F.BOOT_STAT.CAUSE := Dev.get_congr _ _ rfl _ _
  have hon (b : Boot) : (d.setBoot b).stopped = false := hstop
  unfold Dev.resetRelease
  dsimp only
  rw [hstopped, hcause, hon]
  refine (if_neg Bool.false_ne_true).trans ((if_neg fun hne => hne hpend).trans ((if_pos hlow).trans ?_))
  rfl

theorem Dev.stepFail_of_failed {i : BootIn} (h : d.boot.failed = true) : d.stepFail i =
    (let f := if d.get F.BOOT_STAT.STEP = 8 then 7 else d.get F.BOOT_STAT.STEP
     let g := (d.bootRecord false false f (d.get F.BOOT_STAT.STEP - 1)).fault 256 0 f
     (g.freeNext.reamHalt (g.freeVal % 33)).bootStart i 2) := by
  unfold Dev.stepFail
  rw [h]
  rfl

theorem Dev.stepFail_of_passed {i : BootIn} (h : d.boot.failed = false) : d.stepFail i = d := by
  unfold Dev.stepFail
  rw [h]
  rfl

/-! ## An image restart (R335) -/

theorem Dev.boot_portDown (p : Nat) : (d.portDown p).boot = d.boot := by
  have hlevel (e : Dev) (s i : Nat) (on : Bool) : (e.levelSet s i on).boot = e.boot := by
    have hstill : (e.levelSet s i on).still.boot = e.still.boot := congrArg Dev.boot (e.levelSet_still s i on)
    exact hstill
  unfold Dev.portDown
  split
  · exact hlevel _ 193 p _
  · rfl

/-- R335: dispatch ends, and the frame ports power down. -/
def Dev.switchBegun (d : Dev) : Dev :=
  let f := (List.range 8).foldl Dev.portDown (d.bootTime 8 (d.tick - d.boot.waitFrom - d.get F.BOOT_TIME.US 6))
  { f with dispatchOn := false, boot := { f.boot with switching := true } }

theorem Dev.boot_switchBegun : d.switchBegun.boot = { d.boot with switching := true } := by
  have hdown (e : Dev) : ((List.range 8).foldl Dev.portDown e).boot = e.boot :=
    foldl_keeps Dev.boot Dev.portDown (fun e p => e.boot_portDown p) _ e
  have hbegun (e : Dev) : ({ e with dispatchOn := false, boot := { e.boot with switching := true } } : Dev).boot =
      { e.boot with switching := true } := rfl
  unfold Dev.switchBegun
  exact (hbegun _).trans (congrArg (fun b : Boot => { b with switching := true }) (hdown _))

theorem Dev.restartSwitch_of_due {b : List Byte} (hnext : d.boot.next = some b) (hswitch : d.boot.switching = false)
    (hhalted : d.boot.halted = false) (hlow : d.boot.low = false) : d.restartSwitch = d.switchBegun.restartGo := by
  refine if_neg ?_
  rw [hnext, hswitch, hhalted, hlow]
  rintro (h | h | h | h) <;> exact nomatch h

theorem Dev.restartSwitch_of_none (h : d.boot.next = none ∨ d.boot.switching = true ∨ d.boot.halted = true ∨ d.boot.low = true) :
    d.restartSwitch = d := by
  refine if_pos ?_
  rwa [Option.isNone_iff_eq_none]

theorem Dev.restartGo_waits {k : Nat} (hk : k < 8) (h : d.get F.FRM_PORT_STAT.STATE k ≠ 0) : d.restartGo = d :=
  if_pos (.inr (List.any_eq_true.mpr ⟨k, List.mem_range.mpr hk, bne_iff_ne.mpr h⟩))

theorem Dev.restartGo_goes {b : List Byte} (hnext : d.boot.next = some b) (hswitch : d.boot.switching = true)
    (hoff : ∀ k, k < 8 → d.get F.FRM_PORT_STAT.STATE k = 0) : d.restartGo =
    (let y := d.restartClear.imagePlace b
     let x := y.enginesStart.put F.BOOT_STAT.STEP 11
     { x with
       boot := { x.boot with
         next := none, switching := false, restart := true, runs := some d.runMask, waitFrom := x.tick
         imageId := leAt b 6 2, version := leAt b 8 2, profiles := leAt b 0x12 2, baseOk := y.baseLoaded }
       kl := { x.kl with served := b } }) := by
  have hno : ¬ ((!d.boot.switching) = true ∨ ((List.range 8).any fun p => d.portState p != 0) = true) := by
    rw [hswitch]
    rintro (h | h)
    · exact nomatch h
    · obtain ⟨p, hp, hne⟩ := List.any_eq_true.mp h
      exact bne_iff_ne.mp hne (hoff p (List.mem_range.mp hp))
  unfold Dev.restartGo
  rw [if_neg hno, hnext]

/-! ## The static inputs (R24) -/

/-- R24: the levels recognised after a sample. -/
def seenAfter (last seen v : BitVec 8) : BitVec 8 := (v &&& ~~~(last ^^^ v)) ||| (seen &&& (last ^^^ v))

theorem getLsbD_seenAfter {last seen v : BitVec 8} {i : Nat} (hi : i < 8) : (seenAfter last seen v).getLsbD i =
    if v.getLsbD i = last.getLsbD i then v.getLsbD i else seen.getLsbD i := by
  unfold seenAfter
  rw [BitVec.getLsbD_or, BitVec.getLsbD_and, BitVec.getLsbD_and, BitVec.getLsbD_not, BitVec.getLsbD_xor, decide_eq_true hi]
  cases v.getLsbD i <;> cases last.getLsbD i <;> simp

/-- R24: the device that has taken a sample. -/
def Dev.sampled (d : Dev) (v : BitVec 8) : Dev :=
  let seen := seenAfter d.boot.pinLast d.boot.pinSeen v
  ({ d with boot := { d.boot with pinLast := v, pinSeen := seen } } : Dev).putB F.REAM_STAT.NVWP (!seen.getLsbD 3)

/-- R24: PFAIL_N and PERST_N do not change; RESET_N may have fallen. -/
theorem Dev.pinsSample_of_others {v : BitVec 8}
    (hperst : (seenAfter d.boot.pinLast d.boot.pinSeen v).getLsbD 1 = d.boot.pinSeen.getLsbD 1)
    (hpfail : (seenAfter d.boot.pinLast d.boot.pinSeen v).getLsbD 2 = d.boot.pinSeen.getLsbD 2) :
    d.pinsSample v = if (d.boot.pinSeen.getLsbD 0 && !(seenAfter d.boot.pinLast d.boot.pinSeen v).getLsbD 0) = true
      then (d.sampled v).freeNext.resetAssert ((d.sampled v).freeVal % 64) else d.sampled v := by
  have hsample : d.pinsSample v =
      (let seen := seenAfter d.boot.pinLast d.boot.pinSeen v
       let fell := fun i => d.boot.pinSeen.getLsbD i && !seen.getLsbD i
       let e := if fell 2 && !d.boot.low && !d.boot.halted then (d.sampled v).pfailRecognised else d.sampled v
       let f := if fell 1 then e.perst else if seen.getLsbD 1 && !d.boot.pinSeen.getLsbD 1 then e.perstRelease else e
       if fell 0 then f.freeNext.resetAssert (f.freeVal % 64) else f) := rfl
  have hpf : ¬ ((d.boot.pinSeen.getLsbD 2 && !(seenAfter d.boot.pinLast d.boot.pinSeen v).getLsbD 2 && !d.boot.low &&
      !d.boot.halted) = true) := by
    rw [hpfail, Bool.and_not_self]
    exact Bool.false_ne_true
  have hfell : ¬ ((d.boot.pinSeen.getLsbD 1 && !(seenAfter d.boot.pinLast d.boot.pinSeen v).getLsbD 1) = true) := by
    rw [hperst, Bool.and_not_self]
    exact Bool.false_ne_true
  have hrose : ¬ (((seenAfter d.boot.pinLast d.boot.pinSeen v).getLsbD 1 && !d.boot.pinSeen.getLsbD 1) = true) := by
    rw [hperst, Bool.and_not_self]
    exact Bool.false_ne_true
  rw [hsample]
  dsimp only
  rw [if_neg hpf, if_neg hfell, if_neg hrose]

/-! ## Power and the commands of BOOT_CMD (R332, R335, R371) -/

theorem Dev.powerOn_shows (n : Nat) {x : Dev} (hx : d.powerOn n = x) :
    x = { Dev.reset with ream := x.ream, free := x.free, sensors := d.sensors } ∧
      x.ream.cmd = none ∧ x.ream.save = none ∧ x.ream.arm = none ∧ x.ream.writing = none ∧
      (d.ream.cmd = none → d.ream.save = none → d.ream.arm = none → d.logBusy = false → x.ream.mem = d.ream.mem) := by
  have hstops := Dev.reamPowerCut_stops (d := d) n
  have hmem := Dev.mem_reamPowerCut (d := d) (n := n)
  unfold Dev.powerOn at hx
  generalize d.reamPowerCut n = cut at hx hstops hmem
  obtain ⟨hcmd, hsave, harm, hwriting⟩ : cut.ream.cmd = none ∧ cut.ream.save = none ∧ cut.ream.arm = none ∧ cut.ream.writing = none := by
    simpa only [Ream.running, Prod.mk.injEq] using hstops
  subst hx
  exact ⟨rfl, hcmd, hsave, harm, hwriting, hmem⟩

theorem Dev.bootRestartCmd_waits {p : Path} {src : Nat} {flash : List Byte} (hsrc : src ≠ 3) (hgoes : d.get F.BOOT_STAT.RESTART ≠ 1)
    (hnone : d.boot.cmdRestart = none) (hstage : d.get F.KL_STAGE_STAT.STATE = 0) : d.bootRestartCmd p src flash =
    { d with boot := { d.boot with cmdRestart := some (src, flash), pushed := false } } := by
  refine (if_neg hsrc).trans (if_neg ?_)
  rw [hnone, hstage, decide_eq_false hgoes]
  exact Bool.false_ne_true

theorem Dev.bootReleaseCmd_releases (hstep : d.get F.BOOT_STAT.STEP = 13) (halt : bit (d.get F.BOOT_ALT.ALT) 11 = true)
    (hloss : d.boot.loss = false) (hhalted : d.boot.halted = false) :
    d.bootReleaseCmd = { d with boot := { d.boot with outsHeld := false } } :=
  if_pos ⟨hstep, halt, by rw [hloss]; rfl, by rw [hhalted]; rfl⟩

theorem Dev.resetAssert_of_stopped {n : Nat} (h : d.flag F.FLT_STATE.STOPPED = true) : d.resetAssert n = d := if_pos h

theorem Dev.resetAssert_of_save {n : Nat} (h : d.flag F.FLT_STATE.STOPPED = false) (hsave : d.ream.save.isSome = true) :
    d.resetAssert n = d.setBoot { d.boot with resetPend := 1 } :=
  (if_neg fun hs => Bool.false_ne_true (h.symm.trans hs)).trans (if_pos hsave)

theorem Dev.resetAssert_of_high {n : Nat} (h : d.flag F.FLT_STATE.STOPPED = false) (hsave : d.ream.save = none)
    (hhigh : d.boot.low = false) : d.resetAssert n = d.resetLow n := by
  refine (if_neg fun hs => Bool.false_ne_true (h.symm.trans hs)).trans ((if_neg ?_).trans (if_neg ?_))
  · rw [hsave]
    exact Bool.false_ne_true
  · rw [hhigh]
    exact Bool.false_ne_true

/-- R24: a low level of RESET_N that the samples show is asserted, for a free number of cycles. -/
theorem Dev.pinsSample_resets {v : BitVec 8} {seen : BitVec 8} (hseen : seenAfter d.boot.pinLast d.boot.pinSeen v = seen)
    (hperst : seen.getLsbD 1 = d.boot.pinSeen.getLsbD 1) (hpfail : seen.getLsbD 2 = d.boot.pinSeen.getLsbD 2) :
    (d.boot.pinSeen.getLsbD 0 = true → seen.getLsbD 0 = false →
      d.pinsSample v = (d.sampled v).freeNext.resetAssert ((d.sampled v).freeVal % 64)) ∧
    (d.boot.pinSeen.getLsbD 0 = false ∨ seen.getLsbD 0 = true → d.pinsSample v = d.sampled v) := by
  subst hseen
  rw [Dev.pinsSample_of_others hperst hpfail]
  refine ⟨fun hhigh hlow => if_pos (by rw [hhigh, hlow]; rfl), fun hstays => if_neg ?_⟩
  rcases hstays with hlow | hhigh
  · rw [hlow]
    exact Bool.false_ne_true
  · rw [hhigh, Bool.not_true, Bool.and_false]
    exact Bool.false_ne_true

end

/-- Settles O52: each command by its conditions; what POWER, RESET_N and COLD leave is told by what they stop and clear. -/
theorem resetAndBootCommands : Obligations.ResetAndBootCommands := by
  intro p n m c i src flash s d e step
  have hpower : Gives (.powerOn n) s (d.powerOn n.toNat) := rfl
  have hassert : Gives (.resetAssert m c) s (e.resetAssert m.toNat) := rfl
  have hrelease : Gives (.resetRelease i) s ((d.pinSee 0 true).resetRelease i) := rfl
  have hfail : Gives (.bootStepFail i) s (d.stepFail i) := rfl
  have hrestart {d' : Dev} (hreach : s.reaches p R.BOOT_CMD.off) (h : d.bootRestartCmd p src.toNat flash = d') :
      Gives (.bootRestart p src flash) s d' := Gives.of_reach (·.bootRestartCmd p src.toNat flash) rfl hreach h
  have hrel {d' : Dev} (hreach : s.reaches p R.BOOT_CMD.off) (h : d.bootReleaseCmd = d') : Gives (.bootRelease p) s d' :=
    Gives.of_reach (·.bootReleaseCmd) rfl hreach h
  have hpush (hreach : s.reaches p R.BOOT_CMD.off) : Gives (.pushGo p) s d.pushGoCmd := Gives.of_reach (·.pushGoCmd) rfl hreach rfl
  have hswitch : Gives .imageRestartSwitch s d.restartSwitch := rfl
  have hstopped : e.flag F.FLT_STATE.STOPPED = d.flag F.FLT_STATE.STOPPED := rfl
  have hsave : e.ream = d.ream := rfl
  have hlow : e.boot.low = d.boot.low := rfl
  clear_value e
  clear_value d
  refine ⟨⟨_, hpower, Dev.powerOn_shows _ rfl⟩, fun h => hassert.of_eq (Dev.resetAssert_of_stopped (hstopped.trans h)),
    fun h hrun => hassert.of_eq (Dev.resetAssert_of_save (hstopped.trans h) (hsave ▸ hrun)), fun h hnone hhigh => ?reset,
    fun h hpend hhold => hrelease.of_eq (Dev.resetRelease_of_low (d := d.pinSee 0 true) h hpend hhold),
    fun h => hfail.of_eq (Dev.stepFail_of_failed h), fun h => hfail.of_eq (Dev.stepFail_of_passed h), fun x h => x.cold_stopped h,
    ?start, ?cmds, ?switch, fun h => hswitch.of_eq (Dev.restartSwitch_of_none h), fun x v => ?pins⟩
  case reset =>
    have hshows := Dev.resetLow_shows (d := e) (n := m.toNat) rfl
    rw [← hsave]
    exact ⟨_, hassert.of_eq (Dev.resetAssert_of_high (hstopped.trans h) ((congrArg Ream.save hsave).trans hnone) (hlow.trans hhigh)), hshows⟩
  case start =>
    intro x cause h y z scanned
    obtain ⟨htick, hon, hengs, hloops, hmem, herases, hstate, hlog⟩ := x.cold_running h
    refine ⟨htick, hon, hengs, hloops, hmem, herases, hstate, hlog, fun hhalted => ?_, fun hgoes => ?_⟩
    · exact (Dev.bootStart_eq i cause).trans (if_pos hhalted)
    · exact (Dev.bootStart_eq i cause).trans (if_neg fun hhalted => Bool.false_ne_true (hgoes.symm.trans hhalted))
  case cmds =>
    intro hreach
    exact ⟨fun hsrc hgoes hnone hstage => hrestart hreach (Dev.bootRestartCmd_waits hsrc hgoes hnone hstage),
      fun hstep halt hloss hhalted => hrel hreach (Dev.bootReleaseCmd_releases hstep halt hloss hhalted), hpush hreach⟩
  case switch =>
    intro b hnext hbegun hhalted hhigh f g
    have hboot : g.boot = { d.boot with switching := true } := Dev.boot_switchBegun
    have hgoes : d.restartSwitch = g.restartGo := Dev.restartSwitch_of_due hnext hbegun hhalted hhigh
    clear_value g
    refine ⟨fun ⟨k, hk⟩ => hswitch.of_eq (hgoes.trans (Dev.restartGo_waits k.isLt hk)), fun hoff => hswitch.of_eq (hgoes.trans ?_)⟩
    exact Dev.restartGo_goes ((congrArg Boot.next hboot).trans hnext) (congrArg Boot.switching hboot) fun k hk => hoff ⟨k, hk⟩
  case pins =>
    intro differ seen y
    refine ⟨fun j h => (getLsbD_seenAfter j.isLt).trans (if_pos h), fun j h => (getLsbD_seenAfter j.isLt).trans (if_neg h),
      fun hperst hpfail => Dev.pinsSample_resets rfl hperst hpfail⟩

end Sys2Proof.Machine
end

section
/-! Refutation of O21. R97: LOAD reads its source as every party reads the Vat: a correctable error in it is corrected and counted,
which the statement's device after a LOAD leaves out. -/

namespace Sys2Proof.Machine

/-- A curve of two points for table 0. -/
def twoPointCurve : List Byte := [1, 0, 2] ++ List.replicate 13 0 ++ [1]

/-- An open change, and a source address in pool 8. -/
def openChange : Dev := (Dev.reset.put F.KL_STAGE_STAT.STATE 1).put F.TBL_LOAD_SRC.OFFSET 5621760 Path.regs.code

/-- The curve lies at the source address; its first word has a correctable error. -/
def upsetSource : State :=
  ⟨{ openChange with
      vat := { openChange.vat with mem := Memory.writeN 0 openChange.vat.mem 44974080 twoPointCurve, ce := [5621760] } }, []⟩

/-- VAT_ECC_CE of the state that a command answers. -/
def StepOut.eccCount : StepOut → Nat
  | .next s => s.dev.get F.VAT_ECC_CE.COUNT
  | _ => 0

/-- The LOAD counts the error. -/
theorem upsetSource_tableLoad : StepOut.eccCount (exec (.tableLoad .regs 0 24) upsetSource) = 1 := by decide +kernel

/-- The LOAD is one that the statement names. -/
theorem upsetSource_loads : upsetSource.dev.quiet.get F.KL_STAGE_STAT.STATE = 1 ∧
    upsetSource.dev.quiet.get F.TBL_LOAD_SRC.OFFSET Path.regs.code * 8 = 44974080 ∧
    tableLen (upsetSource.dev.quiet.vbytes 44974080 24) = some 24 ∧ upsetSource.dev.quiet.bufferOk 0 44974080 24 = true ∧
    upsetSource.dev.quiet.get F.VAT_ECC_CE.COUNT = 0 := by decide +kernel

/-- By the statement a LOAD counts no error. -/
theorem eccCount_of_stagedChangeResults (h : Obligations.StagedChangeResults) {s : State} {src : Nat}
    (hstate : s.dev.quiet.get F.KL_STAGE_STAT.STATE = 1) (hsrc : s.dev.quiet.get F.TBL_LOAD_SRC.OFFSET Path.regs.code * 8 = src)
    (hlen : tableLen (s.dev.quiet.vbytes src 24) = some 24) (hbuffer : s.dev.quiet.bufferOk 0 src 24 = true) :
    StepOut.eccCount (exec (.tableLoad .regs 0 24) s) = s.dev.quiet.get F.VAT_ECC_CE.COUNT := by
  subst hsrc
  have hgives := ((h.1 .regs 0 24 s).1 rfl hstate).1 (by decide) (by decide) hlen hbuffer
  exact (congrArg StepOut.eccCount hgives).trans (Dev.get_put_ne _ F.TBL_STAT.STAGED F.VAT_ECC_CE.COUNT _ 0 0 (by decide))

/-- Refutes O21: with `upsetSource` the LOAD also counts the correctable error that it reads (R97). -/
theorem not_stagedChangeResults : ¬ Obligations.StagedChangeResults := by
  intro h
  obtain ⟨hstate, hsrc, hlen, hbuffer, hcount⟩ := upsetSource_loads
  have hnone := (eccCount_of_stagedChangeResults h hstate hsrc hlen hbuffer).trans hcount
  exact Nat.one_ne_zero (upsetSource_tableLoad.symm.trans hnone)

end Sys2Proof.Machine
end

section
/-! SUPPORT and proof of O20. Clusters start one at a time (R325, R47), and their instruction stores are written (R32, R49). -/

namespace Sys2Proof.Machine

/-- R4: a number read where its bytes were written. -/
theorem Memory.readLe_writeN (x : Byte) (m : Memory) (a n v : Nat) : (m.writeN x a (leBytes n v)).readLe x a n = v % 256 ^ n := by
  have hbytes : (m.writeN x a (leBytes n v)).readN x a n = leBytes n v := by
    simpa using Memory.readN_writeN_prefix x m a (leBytes n v) []
  unfold Memory.readLe
  rw [hbytes, ofLe_leBytes]

/-- A number read apart from the bytes written. -/
theorem Memory.readLe_writeN_ne (x : Byte) (m : Memory) {a b n : Nat} (l : List Byte) (h : b + n ≤ a ∨ a + l.length ≤ b) :
    (m.writeN x a l).readLe x b n = m.readLe x b n :=
  Memory.readLe_congr fun i hi => Memory.read_writeN_out _ _ _ _ _ (by omega)

section
variable {d : Dev} {c : Nat}

theorem Dev.clusterStart_starts (hwaits : (d.clus c).waiting = true) (hfirst : ∀ b, b < c → (d.clus b).waiting = false)
    (hspaced : ∀ t, d.lastStart = some t → t + 500 ≤ d.tick) : d.clusterStart c =
    { d.setClus c { d.clus c with waiting := false, startedAt := some d.tick } with lastStart := some d.tick } := by
  have hall : ((List.range c).all fun b => !(d.clus b).waiting) = true :=
    List.all_eq_true.mpr fun b hb => by rw [hfirst b (List.mem_range.mp hb)]; rfl
  have htime : (d.lastStart.map fun t => decide (t + 500 ≤ d.tick)).getD true = true := by
    cases hlast : d.lastStart with
    | none => rfl
    | some t => exact decide_eq_true (hspaced t hlast)
  refine if_pos ?_
  rw [hwaits, hall, htime]
  rfl

/-- R47: of the powered clusters, one more. -/
theorem Dev.clusterOn_put {b : Nat} (hb : b < 16) :
    (d.put F.ENG_CLUSTER_STAT.POWERED (d.get F.ENG_CLUSTER_STAT.POWERED ||| 2 ^ c)).clusterOn b = (b == c || d.clusterOn b) := by
  have hput : (d.put F.ENG_CLUSTER_STAT.POWERED (d.get F.ENG_CLUSTER_STAT.POWERED ||| 2 ^ c)).get F.ENG_CLUSTER_STAT.POWERED =
      (d.get F.ENG_CLUSTER_STAT.POWERED ||| 2 ^ c) % 2 ^ 16 := Dev.get_put_self _ _ _ _ (by decide) (by decide)
  unfold Dev.clusterOn
  rw [hput, bit_eq_testBit, bit_eq_testBit, Nat.testBit_mod_two_pow, Nat.testBit_lor, Nat.testBit_two_pow, decide_eq_true hb,
    Bool.true_and, Bool.or_comm, Bool.beq_eq_decide_eq, decide_eq_decide.mpr (eq_comm (a := c))]

theorem Dev.clusterDone_of_started {t : Nat} (h : (d.clus c).startedAt = some t) : d.clusterDone c =
    (d.setClus c { d.clus c with startedAt := none }).put F.ENG_CLUSTER_STAT.POWERED (d.get F.ENG_CLUSTER_STAT.POWERED ||| 2 ^ c) :=
  if_pos (by rw [h]; rfl)

/-- R47: a started cluster is powered at the end of its power-up. -/
theorem Dev.clusterDone_powers {t : Nat} (h : (d.clus c).startedAt = some t) :
    ((d.clusterDone c).clus c).startedAt = none ∧ (∀ b : Fin 16, (d.clusterDone c).clusterOn b = (b.val == c || d.clusterOn b)) ∧
    d.clusterDone c = { d with regs := (d.clusterDone c).regs, cluss := (d.clusterDone c).cluss } ∧
    (∀ (r : Reg) n, r.key n ≠ R.ENG_CLUSTER_STAT.key 0 → (d.clusterDone c).rd r n = d.rd r n) := by
  have hon (b : Nat) : (d.setClus c { d.clus c with startedAt := none }).clusterOn b = d.clusterOn b := rfl
  rw [Dev.clusterDone_of_started h]
  refine ⟨?_, fun b => ?_, rfl, fun r n hkey => ?_⟩
  · exact congrArg Cluster.startedAt (Dev.clus_setClus_self d c _)
  · exact (Dev.clusterOn_put b.isLt).trans (congrArg _ (hon b))
  · exact Dev.rd_wr_ne _ R.ENG_CLUSTER_STAT r _ 0 n hkey

theorem Dev.istoreWrite_stores {p : Path} {i v : Nat} (hhost : p.isHost = true) (hreach : d.reachable c i = false)
    (hon : d.clusterOn c = true) : d.istoreWrite p c i v =
    d.setClus c { d.clus c with istore := Memory.writeN 0 (d.clus c).istore (4 * i) (leBytes 4 v) } := by
  unfold Dev.istoreWrite
  rw [hhost, hreach, hon]
  rfl

end

/-- Settles O20: each command by its conditions; a stored word is read back, and the words beside it are as they were. -/
theorem clusterStartAndStoreResults : Obligations.ClusterStartAndStoreResults := by
  refine ⟨fun c s => ?clusters, fun p c i w s => ?stores⟩
  case clusters =>
    intro d x
    have hstart : Gives (.clusterStart c) s (d.clusterStart c) := rfl
    have hdone : Gives (.clusterPowerUpDone c) s (d.clusterDone c) := rfl
    clear_value d
    refine ⟨fun hwaits hfirst hspaced => hstart.of_eq (Dev.clusterStart_starts hwaits hfirst hspaced), fun t ht => ?_⟩
    obtain ⟨hnone, hon, heq, hrd⟩ := Dev.clusterDone_powers ht
    have hsame (b : Fin 16) : (b.val == c.val) = (b == c) := by rw [Bool.eq_iff_iff, beq_iff_eq, beq_iff_eq, Fin.ext_iff]
    exact ⟨_, hdone, hnone, fun b => hsame b ▸ hon b, heq, hrd⟩
  case stores =>
    intro d hreaches hhost hreach hon
    refine ⟨_, Gives.of_reach (·.istoreWrite p c i w.toNat) rfl hreaches (Dev.istoreWrite_stores hhost hreach hon), ?_, fun j hj => ?_⟩
    · exact (Memory.readLe_writeN ..).trans (Nat.mod_eq_of_lt w.isLt)
    · refine Memory.readLe_writeN_ne _ _ _ ?_
      rw [leBytes_length]
      omega

end Sys2Proof.Machine
end

section
/-! SUPPORT. Register sites: where the offset of a site lies, which copy a path reaches, and what one accepted word does (R5, R6, R19,
R337). -/

namespace Sys2Proof.Machine

/-! ## Sites (R337) -/

/-- The site lies in the register table, inside its group. -/
structure Site.Sound (x : Site) : Prop where
  mem : (x.reg, x.fields) ∈ RegSpec.all
  n_lt : x.n < x.reg.count
  k_lt : x.k < x.reg.count2

theorem Reg.off_of_indices {r : Reg} {off n k : Nat} (h : r.indices off = some (n, k)) :
    r.base + r.stride * n + r.stride2 * k = off ∧ n < r.count ∧ k < r.count2 := by
  unfold Reg.indices at h
  by_cases hbase : off < r.base
  · rw [if_pos hbase] at h
    exact nomatch h
  rw [if_neg hbase] at h
  extract_lets x n' y k' at h
  have hle : n' * r.stride ≤ x := by
    unfold n'
    split
    · omega
    · exact Nat.div_mul_le_self _ _
  have hx : x = off - r.base := rfl
  have hy : y = x - n' * r.stride := rfl
  clear_value x n' y k'
  split at h
  next hin =>
    obtain ⟨hrest, hn, hk⟩ := hin
    obtain ⟨rfl, rfl⟩ := Prod.mk.inj (Option.some.inj h)
    refine ⟨?_, hn, hk⟩
    rw [Nat.mul_comm r.stride, Nat.mul_comm r.stride2]
    omega
  · exact nomatch h

theorem site_sound {a : Nat} {x : Site} (h : siteAt a = some x) : x.Sound ∧ x.off = a := by
  obtain ⟨e, he, hsite⟩ := List.exists_of_findSome?_eq_some h
  split at hsite
  next n k hix =>
    obtain ⟨hoff, hn, hk⟩ := Reg.off_of_indices hix
    split at hsite
    · exact nomatch hsite
    · obtain rfl := Option.some.inj hsite
      exact ⟨⟨he, hn, hk⟩, hoff⟩
  · exact nomatch hsite

/-- A register that the list names is one of the table's with its base. -/
theorem Site.is_base {x : Site} {r : Reg} (h : x.is [r] = true) : x.reg.base = r.base := by
  rw [Site.is, List.any_cons, List.any_nil, Bool.or_false] at h
  exact (beq_iff_eq.mp h).symm

/-- FRM_POLICE and ENG_AGE are whole registers. -/
theorem Site.whole_of_settled {x : Site} (hx : x.Sound) (h : x.is [R.FRM_POLICE] = true ∨ x.is [R.ENG_AGE] = true) :
    x.reg.part = .whole := by
  have hall : ∀ e ∈ RegSpec.all, e.1.base = R.FRM_POLICE.base ∨ e.1.base = R.ENG_AGE.base → e.1.part = .whole := by decide +kernel
  exact hall _ hx.mem (h.imp Site.is_base Site.is_base)

/-! ## Masks -/

/-- R5, R19: the bits that an accepted word changes at once. -/
def Site.nowMask (x : Site) : Nat := maskOf x.fields fun f => f.rw && !f.tick

theorem mergeWord_zero {a : Nat} (b : Nat) (ha : a < 2 ^ 32) : mergeWord 0 a b = a := by
  unfold mergeWord
  rw [Nat.sub_zero, Nat.and_zero, Nat.or_zero, Nat.and_two_pow_sub_one_eq_mod]
  exact Nat.mod_eq_of_lt ha

/-- The bits of a mask cleared. -/
theorem mergeWord_clear {m a : Nat} (hm : m < 2 ^ 32) (ha : a < 2 ^ 32) : mergeWord m a 0 % 2 ^ 32 = a - (a &&& m) := by
  refine Nat.eq_of_testBit_eq fun i => ?_
  unfold mergeWord
  rw [Nat.zero_and, Nat.or_zero, Nat.testBit_mod_two_pow, Nat.testBit_and, testBit_sub_and, Nat.sub_sub, Nat.add_comm 1 m,
    Nat.testBit_two_pow_sub_succ hm]
  by_cases hi : i < 32
  · simp [hi]
  · have hhigh : a.testBit i = false := Nat.testBit_lt_two_pow (Nat.lt_of_lt_of_le ha (Nat.pow_le_pow_right (by decide) (Nat.le_of_not_lt hi)))
    simp [hhigh]

/-- No field is cleared by writing 1. -/
theorem maskOf_of_none {fs : List FieldSpec} {p : FieldSpec → Bool} (h : ∀ f ∈ fs, p f = false) : maskOf fs p = 0 := by
  unfold maskOf
  refine List.foldlRecOn (motive := fun m => m = 0) fs _ rfl fun m hm f hf => ?_
  rw [if_neg (fun hp => Bool.false_ne_true ((h f hf).symm.trans hp))]
  exact hm

/-! ## One word (R5, R6, R19) -/

section
variable {d e : Dev} {n : Nat} {y : Site × Nat}

/-- R5: the fields that act at once. -/
def Dev.takeNow (d : Dev) (n m : Nat) (y : Site × Nat) : Dev :=
  if m = 0 then d else d.wr y.1.own (mergeWord m (d.rd y.1.own n) y.2) n

/-- R19: tick-synchronous fields wait for the boundary. -/
def Dev.takeSync (d : Dev) (n : Nat) (y : Site × Nat) : Dev :=
  if y.1.fields.any FieldSpec.sync then { d with acc := Tbl.set d.acc (y.1.own.key n) (BitVec.ofNat 32 y.2) } else d

/-- R6: RWL fields wait in the open change. -/
def Dev.takeLocked (d : Dev) (n : Nat) (y : Site × Nat) : Dev :=
  if y.1.fields.any FieldSpec.locked && d.stage == 1 then
    { d with staged := Tbl.set d.staged (y.1.own.key n) (BitVec.ofNat 32 y.2) } else d

theorem Dev.takeWord_eq (d : Dev) (n : Nat) (y : Site × Nat) :
    d.takeWord n false y = ((d.takeNow n y.1.nowMask y).takeSync n y).takeLocked n y := by
  have hmask : (maskOf y.1.fields fun f => (f.rw && !f.tick) || (false && f.locked)) = y.1.nowMask :=
    congrArg (maskOf y.1.fields) (funext fun f => Bool.or_false _)
  have heq : d.takeWord n false y =
      ((d.takeNow n (maskOf y.1.fields fun f => (f.rw && !f.tick) || (false && f.locked)) y).takeSync n y).takeLocked n y := rfl
  rw [heq, hmask]

theorem Dev.takeNow_frame (d : Dev) (n m : Nat) (y : Site × Nat) : d.takeNow n m y = { d with regs := (d.takeNow n m y).regs } := by
  unfold Dev.takeNow
  split <;> rfl

theorem Dev.takeSync_frame (d : Dev) (n : Nat) (y : Site × Nat) : d.takeSync n y =
    { d with acc := (if y.1.fields.any FieldSpec.sync then Tbl.set d.acc (y.1.own.key n) (BitVec.ofNat 32 y.2) else d.acc) } := by
  unfold Dev.takeSync
  split <;> rfl

theorem Dev.takeLocked_frame (d : Dev) (n : Nat) (y : Site × Nat) : d.takeLocked n y =
    { d with staged := (if y.1.fields.any FieldSpec.locked && d.stage == 1 then
        Tbl.set d.staged (y.1.own.key n) (BitVec.ofNat 32 y.2) else d.staged) } := by
  unfold Dev.takeLocked
  split <;> rfl

theorem Dev.stage_congr (h : e.regs = d.regs) : e.stage = d.stage := Dev.get_congr _ _ h _ _

/-- What one word changes. -/
theorem Dev.takeWord_frame (d : Dev) (n : Nat) (y : Site × Nat) : d.takeWord n false y =
    { d with
      regs := (d.takeNow n y.1.nowMask y).regs
      acc := if y.1.fields.any FieldSpec.sync then Tbl.set d.acc (y.1.own.key n) (BitVec.ofNat 32 y.2) else d.acc
      staged := if y.1.fields.any FieldSpec.locked && (d.takeNow n y.1.nowMask y).stage == 1 then
        Tbl.set d.staged (y.1.own.key n) (BitVec.ofNat 32 y.2) else d.staged } := by
  have hregs (e : Dev) : (e.takeSync n y).regs = e.regs := by rw [Dev.takeSync_frame]
  have hstage : ((d.takeNow n y.1.nowMask y).takeSync n y).stage = (d.takeNow n y.1.nowMask y).stage := Dev.stage_congr (hregs _)
  rw [Dev.takeWord_eq, Dev.takeLocked_frame, hstage]
  generalize hnow : d.takeNow n y.1.nowMask y = e
  have he := Dev.takeNow_frame d n y.1.nowMask y
  rw [hnow] at he
  rw [Dev.takeSync_frame, he]

theorem Dev.find?_takeNow {m k : Nat} (h : k ≠ y.1.own.key n) : Tbl.find? (d.takeNow n m y).regs k = Tbl.find? d.regs k := by
  unfold Dev.takeNow
  split
  · rfl
  · exact Tbl.find?_set_ne _ _ _ _ h

theorem Dev.rd_takeNow (m : Nat) : (d.takeNow n m y).rd y.1.own n = mergeWord m (d.rd y.1.own n) y.2 % 2 ^ 32 := by
  unfold Dev.takeNow
  split
  next h =>
    subst h
    rw [mergeWord_zero _ (d.rd_lt _ _), Nat.mod_eq_of_lt (d.rd_lt _ _)]
  · exact Dev.rd_wr_self ..

/-- Another register's word is read as before. -/
theorem Dev.rd_of_find? {r : Reg} (h : Tbl.find? e.regs (r.key n) = Tbl.find? d.regs (r.key n)) : e.rd r n = d.rd r n :=
  congrArg (fun o : Option Word => (o.getD (BitVec.ofNat 32 r.reset)).toNat) h

/-- R284: the open change is that of KL_STAGE_STAT. -/
theorem Dev.stage_of_find? (h : Tbl.find? e.regs (R.KL_STAGE_STAT.key 0) = Tbl.find? d.regs (R.KL_STAGE_STAT.key 0)) : e.stage = d.stage :=
  congrArg (bits · F.KL_STAGE_STAT.STATE.hi F.KL_STAGE_STAT.STATE.lo) (Dev.rd_of_find? (r := R.KL_STAGE_STAT) h)

end
end Sys2Proof.Machine
end

section
/-! SUPPORT and proof of O18. A register write that no check refuses (R5, R6, R8, R19). -/

namespace Sys2Proof.Machine

/-! ## No part of a value lies at KL_STAGE_STAT -/

/-- The offset of KL_STAGE_STAT, whose STATE says whether a change is open. -/
def stageAt : Nat := R.KL_STAGE_STAT.base

theorem Site.key_own_plain {x : Site} (h : x.reg.kind = .plain) (n : Nat) :
    x.own.key n = x.reg.base + x.reg.stride2 * x.k + x.reg.stride * n := by
  obtain ⟨⟨name, base, stride, count, stride2, count2, kind, part, reset⟩, i, k, fields⟩ := x
  obtain rfl : kind = .plain := h
  rfl

theorem Site.key_own_other {x : Site} (h : x.reg.kind ≠ .plain) (n : Nat) : x.own.key n = x.off + copyStride * n := by
  obtain ⟨⟨name, base, stride, count, stride2, count2, kind, part, reset⟩, i, k, fields⟩ := x
  cases kind with
  | plain => exact absurd rfl h
  | path => rfl
  | sel sort => rfl

/-- A copy of a register elsewhere does not lie there. -/
theorem Site.key_ne_stage {x : Site} (hx : x.Sound) (hoff : x.off ≠ stageAt) {n : Nat} (hn : n < 4096) :
    x.own.key n ≠ R.KL_STAGE_STAT.key 0 := by
  have hall : ∀ e ∈ RegSpec.all, e.1.kind = .plain → (e.1.base = stageAt ∧ e.1.stride = 0 ∧ e.1.stride2 = 0) ∨
      ∀ k ∈ List.range e.1.count2, e.1.base + e.1.stride2 * k ≠ stageAt ∧ (e.1.base + e.1.stride2 * k ≤ stageAt → e.1.stride = 0 ∨
        (stageAt - (e.1.base + e.1.stride2 * k)) % e.1.stride ≠ 0 ∨ 4096 ≤ (stageAt - (e.1.base + e.1.stride2 * k)) / e.1.stride) := by
    decide +kernel
  have hstage : R.KL_STAGE_STAT.key 0 = stageAt := rfl
  have hlow : stageAt < 2 ^ 28 := by decide
  rw [hstage]
  intro hkey
  by_cases hkind : x.reg.kind = .plain
  · rw [Site.key_own_plain hkind] at hkey
    rcases hall _ hx.mem hkind with ⟨hbase, hstride, hstride2⟩ | hfar
    · refine hoff ?_
      unfold Site.off
      rw [hbase, hstride, hstride2]
      omega
    · obtain ⟨hne, hfar⟩ : x.reg.base + x.reg.stride2 * x.k ≠ stageAt ∧ (x.reg.base + x.reg.stride2 * x.k ≤ stageAt → x.reg.stride = 0 ∨
          (stageAt - (x.reg.base + x.reg.stride2 * x.k)) % x.reg.stride ≠ 0 ∨
          4096 ≤ (stageAt - (x.reg.base + x.reg.stride2 * x.k)) / x.reg.stride) := hfar x.k (List.mem_range.mpr hx.k_lt)
      have hleft : stageAt - (x.reg.base + x.reg.stride2 * x.k) = x.reg.stride * n := by omega
      have hpos : 0 < x.reg.stride := by
        refine Nat.pos_of_ne_zero fun hzero => hne ?_
        rwa [hzero, Nat.zero_mul, Nat.add_zero] at hkey
      rw [hleft, Nat.mul_mod_right, Nat.mul_div_cancel_left _ hpos] at hfar
      rcases hfar (by omega) with hzero | hmod | hdiv
      · omega
      · exact hmod rfl
      · omega
  · rw [Site.key_own_other hkind] at hkey
    unfold copyStride at hkey
    omega

/-- R8: at KL_STAGE_STAT and beside it lies no _HI register whose parts reach it. -/
theorem part_near_stage {x : Site} : (siteAt stageAt = some x → x.reg.part = .whole) ∧
    (siteAt (stageAt + 4) = some x → x.reg.part = .whole) ∧ (siteAt (stageAt - 4) = some x → x.reg.part = .hi false) := by
  have hall : ((siteAt stageAt).all fun x => x.reg.part == .whole) = true ∧
      ((siteAt (stageAt + 4)).all fun x => x.reg.part == .whole) = true ∧
      ((siteAt (stageAt - 4)).all fun x => x.reg.part == .hi false) = true := by decide +kernel
  obtain ⟨hat, hbehind, hbefore⟩ := hall
  refine ⟨fun h => ?_, fun h => ?_, fun h => ?_⟩
  · rw [h] at hat
    exact beq_iff_eq.mp hat
  · rw [h] at hbehind
    exact beq_iff_eq.mp hbehind
  · rw [h] at hbefore
    exact beq_iff_eq.mp hbefore

/-- R8: a _HI register and the other parts of its value are sound, and none lies at KL_STAGE_STAT. -/
theorem Site.others_sound {a : Nat} {x y : Site} {f : Bool} (hsite : siteAt a = some x) (hpart : x.reg.part = .hi f) (hy : y ∈ x.others) :
    y.Sound ∧ y.off ≠ stageAt := by
  obtain ⟨-, hoff⟩ := site_sound hsite
  obtain ⟨-, hbehind, hbefore⟩ := part_near_stage (x := x)
  unfold Site.others at hy
  rw [hpart, hoff] at hy
  rcases List.mem_append.mp hy with hlow | hfrac
  · obtain ⟨hsound, hyoff⟩ := site_sound (Option.mem_toList.mp hlow)
    refine ⟨hsound, fun hat => ?_⟩
    have ha : a = stageAt + 4 := by
      rw [hyoff] at hat
      have : 0 < stageAt := by decide
      omega
    rw [hbehind (ha ▸ hsite)] at hpart
    exact nomatch hpart
  · split at hfrac
    next hf =>
      obtain ⟨hsound, hyoff⟩ := site_sound (Option.mem_toList.mp hfrac)
      refine ⟨hsound, fun hat => ?_⟩
      have ha : a = stageAt - 4 := by omega
      rw [hbefore (ha ▸ hsite), hf] at hpart
      exact nomatch hpart
    · exact nomatch hfrac

theorem path_code_lt (p : Path) : p.code < 4096 := by
  cases p with
  | engine e => exact Nat.lt_of_lt_of_le e.isLt (by decide)
  | pcie f => exact Nat.lt_of_lt_of_le (Nat.add_lt_add_left f.isLt 512) (by decide)
  | _ => decide

section
variable {d e : Dev} {n : Nat} {p : Path} {x : Site}

/-- R32, R338: the copy of a _HI register that a path reaches. -/
theorem Dev.copyOf_lt (hx : x.Sound) {f : Bool} (hpart : x.reg.part = .hi f) : d.copyOf p x < 4096 := by
  have hall : ∀ e ∈ RegSpec.all, e.1.part = .hi true ∨ e.1.part = .hi false →
      (e.1.kind = .plain ∧ e.1.count ≤ 4096) ∨ e.1.kind = .path ∨ e.1.kind = .sel .ctx := by decide +kernel
  unfold Dev.copyOf
  rcases hall _ hx.mem (by cases f <;> simp [hpart]) with ⟨hkind, hcount⟩ | hkind | hkind
  · rw [hkind]
    exact Nat.lt_of_lt_of_le hx.n_lt hcount
  · rw [hkind]
    exact path_code_lt p
  · rw [hkind]
    exact Dev.get_lt d F.CTX_SEL.INDEX p.code


/-! ## Several words (R8) -/

/-- What one word leaves at its own place. -/
structure Dev.Took (d e : Dev) (n : Nat) (y : Site × Nat) : Prop where
  rd : e.rd y.1.own n = mergeWord y.1.nowMask (d.rd y.1.own n) y.2 % 2 ^ 32
  acc : y.1.fields.any FieldSpec.sync = true → Tbl.find? e.acc (y.1.own.key n) = some (BitVec.ofNat 32 y.2)
  staged : y.1.fields.any FieldSpec.locked = true → d.stage = 1 → Tbl.find? e.staged (y.1.own.key n) = some (BitVec.ofNat 32 y.2)

/-- Nothing changed at a place of the register file. -/
structure Dev.SameAt (d e : Dev) (k : Nat) : Prop where
  regs : Tbl.find? e.regs k = Tbl.find? d.regs k
  acc : Tbl.find? e.acc k = Tbl.find? d.acc k
  staged : Tbl.find? e.staged k = Tbl.find? d.staged k

theorem Dev.SameAt.trans {f : Dev} {k : Nat} (h : d.SameAt e k) (h' : e.SameAt f k) : d.SameAt f k :=
  ⟨h'.regs.trans h.regs, h'.acc.trans h.acc, h'.staged.trans h.staged⟩

theorem Dev.regs_takeWord (y : Site × Nat) : (d.takeWord n false y).regs = (d.takeNow n y.1.nowMask y).regs := by
  rw [Dev.takeWord_frame]

theorem Dev.takeWord_took (y : Site × Nat) (hstage : y.1.own.key n ≠ R.KL_STAGE_STAT.key 0) : d.Took (d.takeWord n false y) n y := by
  have hkept : (d.takeNow n y.1.nowMask y).stage = d.stage := Dev.stage_of_find? (Dev.find?_takeNow hstage.symm)
  refine ⟨(Dev.rd_congr _ _ (Dev.regs_takeWord y) _ _).trans (Dev.rd_takeNow _), fun hsync => ?_, fun hlocked hopen => ?_⟩
  · rw [Dev.takeWord_frame, if_pos hsync]
    exact Tbl.find?_set_self ..
  · rw [Dev.takeWord_frame, hkept, hlocked, hopen]
    exact Tbl.find?_set_self ..

theorem Dev.takeWord_sameAt (y : Site × Nat) {k : Nat} (h : k ≠ y.1.own.key n) : d.SameAt (d.takeWord n false y) k := by
  refine ⟨(congrArg (Tbl.find? · k) (Dev.regs_takeWord y)).trans (Dev.find?_takeNow h), ?_, ?_⟩
  · rw [Dev.takeWord_frame]
    dsimp only
    split
    · exact Tbl.find?_set_ne _ _ _ _ h
    · rfl
  · rw [Dev.takeWord_frame]
    dsimp only
    split
    · exact Tbl.find?_set_ne _ _ _ _ h
    · rfl

/-- A word's own place as another's leaves it. -/
theorem Dev.Took.of_sameAt {f : Dev} {y : Site × Nat} (h : d.Took e n y) (hsame : e.SameAt f (y.1.own.key n)) : d.Took f n y :=
  ⟨(Dev.rd_of_find? hsame.regs).trans h.rd, fun hs => hsame.acc.trans (h.acc hs), fun hl ho => hsame.staged.trans (h.staged hl ho)⟩

theorem Dev.Took.from_sameAt {f : Dev} {y : Site × Nat} (hsame : d.SameAt e (y.1.own.key n)) (hopen : e.stage = d.stage)
    (h : e.Took f n y) : d.Took f n y :=
  ⟨h.rd.trans (congrArg (fun v => mergeWord y.1.nowMask v y.2 % 2 ^ 32) (Dev.rd_of_find? hsame.regs)), h.acc,
    fun hl ho => h.staged hl (hopen.trans ho)⟩

/-- R8: words of different places are taken one after another. -/
theorem Dev.takeWords_took (ws : List (Site × Nat)) (hnodup : (ws.map fun y => y.1.own.key n).Nodup)
    (hstage : ∀ y ∈ ws, y.1.own.key n ≠ R.KL_STAGE_STAT.key 0) (d : Dev) :
    (∀ y ∈ ws, d.Took (ws.foldl (fun (e : Dev) y => e.takeWord n false y) d) n y) ∧
    ∀ k, (∀ y ∈ ws, k ≠ y.1.own.key n) → d.SameAt (ws.foldl (fun (e : Dev) y => e.takeWord n false y) d) k := by
  induction ws generalizing d with
  | nil => exact ⟨fun y hy => absurd hy List.not_mem_nil, fun k _ => ⟨rfl, rfl, rfl⟩⟩
  | cons z ws ih =>
    obtain ⟨hnew, hrest⟩ := List.nodup_cons.mp hnodup
    have hapart (y : Site × Nat) (hy : y ∈ ws) : y.1.own.key n ≠ z.1.own.key n := fun heq =>
      hnew (List.mem_map.mpr ⟨y, hy, heq⟩)
    have hz := hstage z (List.mem_cons_self ..)
    obtain ⟨htook, hsame⟩ := ih hrest (fun y hy => hstage y (List.mem_cons_of_mem _ hy)) (d.takeWord n false z)
    have hopen : (d.takeWord n false z).stage = d.stage := Dev.stage_of_find? (Dev.takeWord_sameAt z hz.symm).regs
    refine ⟨fun y hy => ?_, fun k hk => ?_⟩
    · rcases List.mem_cons.mp hy with rfl | hy
      · exact (Dev.takeWord_took y hz).of_sameAt (hsame _ fun u hu => (hapart u hu).symm)
      · exact Dev.Took.from_sameAt (Dev.takeWord_sameAt z (hapart y hy)) hopen (htook y hy)
    · exact (Dev.takeWord_sameAt z (hk z (List.mem_cons_self ..))).trans (hsame k fun y hy => hk y (List.mem_cons_of_mem _ hy))

/-- The register file and what waits; nothing else. -/
theorem Dev.takeWords_frame (ws : List (Site × Nat)) (d : Dev) : ∃ regs acc staged,
    ws.foldl (fun (e : Dev) y => e.takeWord n false y) d = { d with regs := regs, acc := acc, staged := staged } := by
  refine List.foldlRecOn (motive := fun e : Dev => ∃ regs acc staged, e = { d with regs := regs, acc := acc, staged := staged }) ws _
    ⟨_, _, _, rfl⟩ fun e he y hy => ?_
  obtain ⟨regs, acc, staged, rfl⟩ := he
  exact ⟨_, _, _, Dev.takeWord_frame _ n y⟩

/-! ## Bits of access W1C (R5) -/

theorem Dev.clearBits_frame (w : Nat) : d.clearBits x n w = { d with regs := (d.clearBits x n w).regs } := by
  unfold Dev.clearBits
  dsimp only
  split <;> rfl

theorem Dev.find?_clearBits {k : Nat} (w : Nat) (h : k ≠ x.own.key n) : Tbl.find? (d.clearBits x n w).regs k = Tbl.find? d.regs k := by
  unfold Dev.clearBits
  dsimp only
  split
  · rfl
  · exact Tbl.find?_set_ne _ _ _ _ h

theorem Dev.clearBits_of_none (w : Nat) (h : x.fields.all (fun f => f.acc != .w1c) = true) : d.clearBits x n w = d := by
  refine if_pos (maskOf_of_none fun f hf => ?_)
  exact Bool.eq_false_iff.mpr fun heq => bne_iff_ne.mp (List.all_eq_true.mp h f hf) (beq_iff_eq.mp heq)

theorem Dev.rd_clearBits {w : Nat} (hw : w < 2 ^ 32) : (d.clearBits x n w).rd x.own n =
    mergeWord ((maskOf x.fields fun f => f.acc == .w1c) &&& w &&& (2 ^ 32 - 1 - d.justSet (x.own.key n))) (d.rd x.own n) 0 % 2 ^ 32 := by
  have hlt : (maskOf x.fields fun f => f.acc == .w1c) &&& w &&& (2 ^ 32 - 1 - d.justSet (x.own.key n)) < 2 ^ 32 :=
    Nat.lt_of_le_of_lt Nat.and_le_left (Nat.and_lt_two_pow _ hw)
  rw [mergeWord_clear hlt (d.rd_lt _ _)]
  unfold Dev.clearBits
  dsimp only
  split
  next hm => rw [hm, Nat.zero_and, Nat.zero_and, Nat.and_zero, Nat.sub_zero]
  · rw [Dev.rd_wr_self, Nat.mod_eq_of_lt (Dev.w1cLeft_lt ..)]
    unfold Dev.w1cLeft
    rw [← Nat.and_assoc]

end

end Sys2Proof.Machine
end

section
/-! SUPPORT and proof of O18. How a path's write comes to a register (R8, R337, R343), and what is left of it. -/

namespace Sys2Proof.Machine

section
variable {d : Dev} {p : Path} {x : Site} {a n w : Nat} {whole : Bool}

/-! ## The way to a register -/

theorem Dev.regWrite_site (hlow : 0x08000000 ≤ a) (hhigh : a < 0x0A000000) (hsite : siteAt a = some x) (direct : Bool) :
    d.regWrite p a w whole direct = d.siteWrite p x a w whole direct := by
  refine (if_neg (by omega)).trans ((if_neg (by omega)).trans ?_)
  rw [hsite]

theorem Dev.pathWrite_reaches {off : Nat} (hoff : d.pathOff p off = some a) (habsent : d.access p a true ≠ .absent)
    (htimeout : d.access p a true ≠ .timeout) : d.pathWrite p off w whole false = d.regWrite p a w whole false := by
  unfold Dev.pathWrite
  rw [hoff]
  dsimp only
  split
  · exact absurd (by assumption) habsent
  · exact absurd (by assumption) htimeout
  · rfl

theorem Dev.pathWrite_site {off : Nat} (hoff : d.pathOff p off = some a) (hok : d.access p a true = .ok) (hlow : 0x08000000 ≤ a)
    (hhigh : a < 0x0A000000) (hsite : siteAt a = some x) : d.pathWrite p off w whole false = d.siteWrite p x a w whole false :=
  (Dev.pathWrite_reaches hoff (by rw [hok]; exact nofun) (by rw [hok]; exact nofun)).trans (Dev.regWrite_site hlow hhigh hsite false)

theorem Dev.siteWrite_takes {ws : List (Site × Nat)} (hcmd : x.is commandRegs = false) (hws : Dev.newWords d d.view p x (d.copyOf p x) w = ws)
    (hform : Dev.formBad d d.view p x a (d.copyOf p x) w true = none)
    (hbad : Dev.writeBad d d.view (d.view.withWords x (d.copyOf p x) ws) p x a (d.copyOf p x) ws false = none) :
    d.siteWrite p x a w true false = d.writeTake p x (d.copyOf p x) w ws false := by
  subst hws
  unfold Dev.siteWrite
  dsimp only
  rw [hform]
  dsimp only
  rw [hcmd, if_neg Bool.false_ne_true, hbad]

/-! ## Parts (R8) -/

theorem Site.others_of_whole (h : x.reg.part = .whole) : x.others = [] := by
  unfold Site.others
  rw [h]

theorem Site.stages_of_whole (h : x.reg.part = .whole) : x.stages = false := by
  unfold Site.stages
  rw [h]

theorem Site.stages_of_hi {f : Bool} (h : x.reg.part = .hi f) : x.stages = false := by
  unfold Site.stages
  rw [h]

theorem Dev.newWords_of_whole {o : Dev} (h : x.reg.part = .whole) : Dev.newWords d o p x n w = [(x, o.newWord p x n w)] := by
  unfold Dev.newWords
  rw [Site.others_of_whole h, Site.stages_of_whole h]
  rfl

theorem Dev.newWords_of_stages {o : Dev} (h : x.stages = true) : Dev.newWords d o p x n w = [(x, o.newWord p x n w)] := by
  unfold Dev.newWords
  rw [h]
  rfl

theorem Dev.halvesDone_of_whole (h : x.reg.part = .whole) : d.halvesDone p x = d := by
  unfold Dev.halvesDone
  rw [Site.stages_of_whole h, Site.others_of_whole h]
  rfl

/-- R8: what a path has staged, after its _HI write. -/
theorem Tbl.find?_del_all {α : Type} (l : List Site) (t : Tbl α) (k : Nat) :
    Tbl.find? (l.foldl (fun t (y : Site) => Tbl.del t (pathKey p y.off)) t) k =
      if ∃ y ∈ l, k = pathKey p y.off then none else Tbl.find? t k := by
  induction l generalizing t with
  | nil => simp
  | cons y l ih =>
    rw [List.foldl_cons, ih, Tbl.find?_del]
    by_cases hl : ∃ z ∈ l, k = pathKey p z.off <;> by_cases hy : k = pathKey p y.off <;> simp [hl, hy]

/-! ## Tokens and promotions that are settled before (R45, R257) -/

/-- R257, R45: what the old values of FRM_POLICE and ENG_AGE have brought. -/
def Dev.settled (d : Dev) (x : Site) (n : Nat) : Dev :=
  if x.is [R.FRM_POLICE] then d.tokensSettle n else if x.is [R.ENG_AGE] then d.agesSettle else d

theorem Dev.settled_frame : ∃ frm tasks ageFrom, d.settled x n = { d with frm := frm, tasks := tasks, ageFrom := ageFrom } := by
  unfold Dev.settled
  split
  · exact ⟨_, _, _, rfl⟩
  · split
    · have hpromote (e : Dev) (t now : Nat) : ∃ tasks, e.promote t now = { e with tasks := tasks } := by
        unfold Dev.promote
        dsimp only
        split
        · exact ⟨_, rfl⟩
        · exact ⟨e.tasks, rfl⟩
      have hfold (now : Nat) : ∃ tasks, d.tasks.foldl (fun (d : Dev) t => (d.promote t.1 now).promote t.1 now) d = { d with tasks := tasks } := by
        refine List.foldlRecOn (motive := fun e : Dev => ∃ tasks, e = { d with tasks := tasks }) d.tasks _ ⟨d.tasks, rfl⟩ fun e he t ht => ?_
        obtain ⟨ts, rfl⟩ := he
        obtain ⟨ts1, h1⟩ := hpromote { d with tasks := ts } t.1 now
        obtain ⟨ts2, h2⟩ := hpromote { d with tasks := ts1 } t.1 now
        rw [h1, h2]
        exact ⟨_, rfl⟩
      obtain ⟨ts, hts⟩ := hfold d.absCycle
      unfold Dev.agesSettle
      dsimp only
      rw [hts]
      exact ⟨_, _, _, rfl⟩
    · exact ⟨d.frm, d.tasks, d.ageFrom, rfl⟩

theorem Dev.settled_of_part (hx : x.Sound) (h : x.reg.part ≠ .whole) : d.settled x n = d := by
  refine (if_neg fun hp => h (Site.whole_of_settled hx (.inl hp))).trans (if_neg fun ha => h (Site.whole_of_settled hx (.inr ha)))

/-! ## An accepted write -/

theorem Dev.writeTake_of_whole {word : Nat} (h : x.reg.part = .whole) : d.writeTake p x n w [(x, word)] false =
    (d.settled x n).writeHook (((d.settled x n).takeWord n false (x, word)).clearBits x n w) p x n false := by
  refine (if_neg (fun hs => Bool.false_ne_true ((Site.stages_of_whole h).symm.trans hs))).trans ?_
  exact congrArg (fun e : Dev => (d.settled x n).writeHook (e.clearBits x n w) p x n false) (Dev.halvesDone_of_whole h)

/-- What a write of a whole register leaves. -/
theorem Dev.wrote_whole {d1 : Dev} {word : Nat} (hw : w < 2 ^ 32) (h1 : ∃ frm tasks ageFrom, d1 = { d with frm := frm, tasks := tasks, ageFrom := ageFrom })
    {e : Dev} (he : (d1.takeWord n false (x, word)).clearBits x n w = e) :
    e.rd x.own n = mergeWord ((maskOf x.fields fun f => f.acc == .w1c) &&& w &&& (2 ^ 32 - 1 - d.justSet (x.own.key n)))
      (mergeWord x.nowMask (d.rd x.own n) word % 2 ^ 32) 0 % 2 ^ 32 ∧
    (∀ k, k ≠ x.own.key n → Tbl.find? e.regs k = Tbl.find? d.regs k) ∧
    e.acc = (if x.fields.any FieldSpec.sync then Tbl.set d.acc (x.own.key n) (BitVec.ofNat 32 word) else d.acc) ∧
    (x.own.key n ≠ R.KL_STAGE_STAT.key 0 → e.staged = if x.fields.any FieldSpec.locked && d.stage == 1 then
      Tbl.set d.staged (x.own.key n) (BitVec.ofNat 32 word) else d.staged) ∧
    e = { d1 with regs := e.regs, acc := e.acc, staged := e.staged } := by
  obtain ⟨frm, tasks, ageFrom, hd1⟩ := h1
  have hregs : d1.regs = d.regs := by rw [hd1]
  have hacc : d1.acc = d.acc := by rw [hd1]
  have hstaged : d1.staged = d.staged := by rw [hd1]
  have hfresh (f : Dev) (hf : f = { d1 with regs := f.regs, acc := f.acc, staged := f.staged }) (k : Nat) : f.justSet k = d.justSet k := by
    rw [hf, hd1]
    rfl
  have hword := Dev.takeWord_frame d1 n (x, word)
  have hkept (hstage : x.own.key n ≠ R.KL_STAGE_STAT.key 0) : (d1.takeNow n x.nowMask (x, word)).stage = d.stage :=
    (Dev.stage_of_find? (Dev.find?_takeNow (y := (x, word)) hstage.symm)).trans (Dev.stage_congr hregs)
  have hrd : (d1.takeWord n false (x, word)).rd x.own n = mergeWord x.nowMask (d.rd x.own n) word % 2 ^ 32 := by
    refine (Dev.rd_congr _ _ (Dev.regs_takeWord (x, word)) _ _).trans ((Dev.rd_takeNow (y := (x, word)) _).trans ?_)
    exact congrArg (fun v => mergeWord x.nowMask v word % 2 ^ 32) (Dev.rd_congr _ _ hregs _ _)
  have hsame {k : Nat} (hk : k ≠ x.own.key n) : Tbl.find? (d1.takeWord n false (x, word)).regs k = Tbl.find? d.regs k :=
    (Dev.takeWord_sameAt (x, word) hk).regs.trans (congrArg (Tbl.find? · k) hregs)
  generalize d1.takeWord n false (x, word) = f at *
  have hclear := Dev.clearBits_frame (d := f) (x := x) (n := n) w
  rw [he] at hclear
  refine ⟨?_, fun k hk => ?_, ?_, fun hstage => ?_, ?_⟩
  · rw [← he, Dev.rd_clearBits hw, hrd, hfresh f (by rw [hword])]
  · rw [← he]
    exact (Dev.find?_clearBits w hk).trans (hsame hk)
  · rw [hclear, hword, hacc]
  · rw [hclear, hword, hkept hstage, hstaged]
  · rw [hclear, hword]

theorem Dev.writeTake_of_stages (hx : x.Sound) (hstages : x.stages = true) (hmask : writeMask p x n ≠ 0) (ws : List (Site × Nat)) :
    d.writeTake p x n w ws false = { d with half := Tbl.set d.half (pathKey p x.off) (BitVec.ofNat 32 w) } := by
  have hsettled : d.settled x n = d := Dev.settled_of_part hx fun hwhole =>
    Bool.false_ne_true ((Site.stages_of_whole hwhole).symm.trans hstages)
  have heq (e : Dev) (he : d.settled x n = e) : d.writeTake p x n w ws false = if x.stages then
      (if writeMask p x n = 0 then e else { e with half := Tbl.set e.half (pathKey p x.off) (BitVec.ofNat 32 w) })
      else Dev.writeHook e (((ws.foldl (fun (e : Dev) y => e.takeWord n false y) e).halvesDone p x).clearBits x n w) p x n false := by
    subst he
    rfl
  rw [heq d hsettled, if_pos hstages, if_neg hmask]

theorem Dev.writeTake_of_hi {f : Bool} (hx : x.Sound) (hpart : x.reg.part = .hi f) (ws : List (Site × Nat)) :
    d.writeTake p x n w ws false =
    d.writeHook (((ws.foldl (fun (e : Dev) y => e.takeWord n false y) d).halvesDone p x).clearBits x n w) p x n false := by
  have hsettled : d.settled x n = d := Dev.settled_of_part hx (by rw [hpart]; exact nofun)
  have heq (e : Dev) (he : d.settled x n = e) : d.writeTake p x n w ws false = if x.stages then
      (if writeMask p x n = 0 then e else { e with half := Tbl.set e.half (pathKey p x.off) (BitVec.ofNat 32 w) })
      else Dev.writeHook e (((ws.foldl (fun (e : Dev) y => e.takeWord n false y) e).halvesDone p x).clearBits x n w) p x n false := by
    subst he
    rfl
  rw [heq d hsettled, if_neg (fun hs => Bool.false_ne_true ((Site.stages_of_hi hpart).symm.trans hs))]

theorem Dev.newWords_of_hi {o : Dev} {f : Bool} (h : x.reg.part = .hi f) : Dev.newWords d o p x n w =
    (x, o.newWord p x n w) :: x.others.filterMap fun y => (Tbl.find? d.half (pathKey p y.off)).map fun h => (y, o.newWord p y n h.toNat) := by
  unfold Dev.newWords
  rw [Site.stages_of_hi h]
  rfl

/-- R8: what a _HI write applies lies at sites of the value. -/
theorem Dev.site_of_newWords {o : Dev} {f : Bool} (hpart : x.reg.part = .hi f) {y : Site × Nat} (hy : y ∈ Dev.newWords d o p x n w) :
    y.1 = x ∨ y.1 ∈ x.others := by
  rw [Dev.newWords_of_hi hpart] at hy
  rcases List.mem_cons.mp hy with rfl | hy
  · exact .inl rfl
  · obtain ⟨z, hz, heq⟩ := List.mem_filterMap.mp hy
    obtain ⟨h, -, rfl⟩ := Option.map_eq_some_iff.mp heq
    exact .inr hz

/-- What a write of a _HI register leaves. -/
theorem Dev.wrote_parts {f : Bool} (hsite : siteAt a = some x) (hpart : x.reg.part = .hi f) (hn : n < 4096) {o : Dev}
    {ws : List (Site × Nat)} (hws : Dev.newWords d o p x n w = ws) (hnodup : (ws.map fun y => y.1.own.key n).Nodup)
    {e : Dev} (he : ((ws.foldl (fun (e : Dev) y => e.takeWord n false y) d).halvesDone p x).clearBits x n w = e) :
    (∀ y ∈ ws,
      (y.1.fields.all (fun f => f.acc != .w1c) = true →
        e.rd y.1.own n = mergeWord y.1.nowMask (d.rd y.1.own n) y.2 % 2 ^ 32) ∧
      (y.1.fields.any FieldSpec.sync = true → Tbl.find? e.acc (y.1.own.key n) = some (BitVec.ofNat 32 y.2)) ∧
      (y.1.fields.any FieldSpec.locked = true → d.stage = 1 → Tbl.find? e.staged (y.1.own.key n) = some (BitVec.ofNat 32 y.2))) ∧
    (∀ k, (∀ y ∈ ws, k ≠ y.1.own.key n) → d.SameAt e k) ∧
    (∀ k, Tbl.find? e.half k = if ∃ y ∈ x.others, k = pathKey p y.off then none else Tbl.find? d.half k) ∧
    e = { d with regs := e.regs, acc := e.acc, staged := e.staged, half := e.half } := by
  obtain ⟨hx, hoff⟩ := site_sound hsite
  have hfirst : (x, o.newWord p x n w) ∈ ws := by
    rw [← hws, Dev.newWords_of_hi hpart]
    exact List.mem_cons_self ..
  have hstage (y : Site × Nat) (hy : y ∈ ws) : y.1.own.key n ≠ R.KL_STAGE_STAT.key 0 := by
    rcases Dev.site_of_newWords hpart (hws ▸ hy) with heq | hmem
    · rw [heq]
      refine Site.key_ne_stage hx (fun hat => ?_) hn
      rw [part_near_stage.1 (hat ▸ hoff ▸ hsite)] at hpart
      exact nomatch hpart
    · obtain ⟨hy, hne⟩ := Site.others_sound hsite hpart hmem
      exact Site.key_ne_stage hy hne hn
  obtain ⟨htook, hsame⟩ := Dev.takeWords_took ws hnodup hstage d
  obtain ⟨regs, acc, staged, hframe⟩ := Dev.takeWords_frame (n := n) ws d
  have hdone (g : Dev) : g.halvesDone p x =
      { g with half := x.others.foldl (fun t (y : Site) => Tbl.del t (pathKey p y.off)) g.half } :=
    if_neg fun hs => Bool.false_ne_true ((Site.stages_of_hi hpart).symm.trans hs)
  generalize ws.foldl (fun (e : Dev) y => e.takeWord n false y) d = g at *
  have hclear := Dev.clearBits_frame (d := g.halvesDone p x) (x := x) (n := n) w
  rw [he, hdone] at hclear
  have hkept (k : Nat) (hk : k ≠ x.own.key n) : g.SameAt e k := by
    refine ⟨?_, ?_, ?_⟩
    · rw [← he, Dev.find?_clearBits w hk, hdone]
    · rw [hclear]
    · rw [hclear]
  refine ⟨fun y hy => ?_, fun k hk => (hsame k hk).trans (hkept k (hk _ hfirst)), fun k => ?_, ?_⟩
  · refine ⟨fun hall => ?_, fun hsync => ?_, fun hlocked hopen => ?_⟩
    · by_cases heq : y.1.own.key n = x.own.key n
      · have hyx : y = (x, o.newWord p x n w) := List.inj_on_of_nodup_map hnodup hy hfirst heq
        subst hyx
        refine Eq.trans ?_ (htook _ hfirst).rd
        rw [← he, Dev.clearBits_of_none w hall, hdone]
        rfl
      · exact ((htook y hy).of_sameAt (hkept _ heq)).rd
    · rw [hclear]
      exact (htook y hy).acc hsync
    · rw [hclear]
      exact (htook y hy).staged hlocked hopen
  · rw [hclear, hframe]
    exact Tbl.find?_del_all ..
  · rw [hclear, hframe]

end

/-- Settles O18: the way of an accepted write to `Dev.writeTake`, and what each of its words leaves. -/
theorem registerWriteResults : Obligations.RegisterWriteResults := by
  refine ⟨?whole, ?staging, ?hi⟩
  case whole =>
    intro cmd p off w c s a x hcmd d o hoff hok hlow hhigh hsite hno hpart n word hform hbad d1
    obtain ⟨hx, -⟩ := site_sound hsite
    have hgives : Gives cmd s (d.siteWrite p x a w.toNat true false) := by
      rcases hcmd with rfl | ⟨on, rfl, hat, hw⟩ | ⟨e, k, st, rfl, rfl, hat, hw⟩
      · have hwrite : Gives (.registerWrite p off w true false c) s (d.pathWrite p off.toNat w.toNat true false) := rfl
        exact hwrite.of_eq (Dev.pathWrite_site hoff hok hlow hhigh hsite)
      · have hwrite : Gives (.clusterPower p on c) s (d.pathWrite p R.ENG_CLUSTER_PWR.off on.toNat true false) := rfl
        rw [hw]
        exact hwrite.of_eq (Dev.pathWrite_site (hat ▸ hoff) hok hlow hhigh hsite)
      · have hwrite : Gives (.inStateWrite e k st c) s (d.regWrite (.engine e) (R.IN_STATE.off k) st.toNat true false) := rfl
        have ha : off.toNat = a := Option.some.inj hoff
        rw [hw]
        refine hwrite.of_eq ?_
        rw [← hat, ha]
        exact Dev.regWrite_site hlow hhigh hsite false
    have htake : d.siteWrite p x a w.toNat true false =
        (d.settled x n).writeHook (((d.settled x n).takeWord n false (x, word)).clearBits x n w.toNat) p x n false :=
      (Dev.siteWrite_takes hno (Dev.newWords_of_whole hpart) hform hbad).trans (Dev.writeTake_of_whole hpart)
    exact ⟨_, hgives.of_eq htake, Dev.wrote_whole w.isLt Dev.settled_frame rfl⟩
  case staging =>
    intro p off w c s a x d o hoff hok hlow hhigh hsite hno hstages n word hmask hform hbad
    obtain ⟨hx, -⟩ := site_sound hsite
    have hwrite : Gives (.registerWrite p off w true false c) s (d.pathWrite p off.toNat w.toNat true false) := rfl
    have htake := (Dev.siteWrite_takes hno (Dev.newWords_of_stages hstages) hform hbad).trans (Dev.writeTake_of_stages hx hstages hmask _)
    refine hwrite.of_eq ((Dev.pathWrite_site hoff hok hlow hhigh hsite).trans (htake.trans ?_))
    rw [BitVec.ofNat_toNat, BitVec.setWidth_eq]
  case hi =>
    intro p off w c s a x f d o hoff hok hlow hhigh hsite hno hpart n word staged ws hnodup hform hbad
    obtain ⟨hx, -⟩ := site_sound hsite
    have hwrite : Gives (.registerWrite p off w true false c) s (d.pathWrite p off.toNat w.toNat true false) := rfl
    have hws : Dev.newWords d o p x n w.toNat = ws := Dev.newWords_of_hi hpart
    have htake := (Dev.siteWrite_takes hno hws hform hbad).trans (Dev.writeTake_of_hi hx hpart ws)
    obtain ⟨hwords, hsame, hhalf, hframe⟩ := Dev.wrote_parts hsite hpart (Dev.copyOf_lt hx hpart) hws hnodup rfl
    exact ⟨_, hwrite.of_eq ((Dev.pathWrite_site hoff hok hlow hhigh hsite).trans htake), hwords,
      fun k hk => ⟨(hsame k hk).regs, (hsame k hk).acc, (hsame k hk).staged⟩, hhalf, hframe⟩

end Sys2Proof.Machine
end

section
/-! SUPPORT and proof of O19. Register reads with their latches (R8, R227), refused writes (R25, R339) and poisoned ones (R346). -/

namespace Sys2Proof.Machine

section
variable {d : Dev} {p : Path} {x : Site} {a n w : Nat} {whole : Bool}

/-! ## Reads (R8, R337, R347) -/

theorem Dev.spaceRead_site (hlow : 0x08000000 ≤ a) (hhigh : a < 0x09300000) (hsite : siteAt a = some x) :
    d.spaceRead p a = ((d.siteRead p x).1, (d.siteRead p x).2, 0) := by
  have hblock : inBlock a = true := decide_eq_true ⟨hlow, hhigh⟩
  refine (if_neg (by omega)).trans ((if_pos hblock).trans ?_)
  rw [hsite]

/-- What a path's read of one register gives it. -/
theorem Dev.hostRead_site {off : Nat} (hoff : d.pathOff p off = some a) (hok : d.access p a false = .ok) (hlow : 0x08000000 ≤ a)
    (hhigh : a < 0x09300000) (hsite : siteAt a = some x) : d.hostRead p off true =
    (d.siteRead p x).1.emit (.readData p.code [BitVec.ofNat 32 (d.siteRead p x).2] (if p = .spi then 0x5A else 0)) := by
  have hread : d.pathRead p off = some ((d.siteRead p x).1, (d.siteRead p x).2, 0) := by
    unfold Dev.pathRead
    rw [hoff]
    dsimp only
    rw [hok]
    exact congrArg some (Dev.spaceRead_site hlow hhigh hsite)
  have hstatus : pathStatus p 0 = if p = .spi then 0x5A else 0 := by cases p <;> rfl
  unfold Dev.hostRead
  rw [hread, ← hstatus]
  rfl

theorem Dev.siteRead_whole (hpart : x.reg.part = .whole)
    (h : x.is [R.CTX_STAT] = false ∨ Tbl.find? d.latch (ctxStatKey p (d.copyOf p x)) = none) :
    d.siteRead p x = (d, d.shown x (d.copyOf p x)) := by
  unfold Dev.siteRead
  dsimp only
  rw [hpart]
  dsimp only
  rcases h with hno | hnone
  · rw [hno]
    rfl
  · rw [hnone]
    exact ite_self _

theorem Dev.siteRead_latched {v : Word} (hpart : x.reg.part = .whole) (hstat : x.is [R.CTX_STAT] = true)
    (h : Tbl.find? d.latch (ctxStatKey p (d.copyOf p x)) = some v) :
    d.siteRead p x = ({ d with latch := Tbl.del d.latch (ctxStatKey p (d.copyOf p x)) }, v.toNat) := by
  unfold Dev.siteRead
  dsimp only
  rw [hpart]
  dsimp only
  rw [hstat, h]
  rfl

/-- R8: what a read of a _LO register latches for its path. -/
def Dev.latched (d : Dev) (p : Path) (x : Site) : Tbl Word :=
  x.others.foldl (fun t (y : Site) => Tbl.set t (pathKey p y.off) (BitVec.ofNat 32 (d.shown y (d.copyOf p x)))) d.latch

theorem Dev.siteRead_lo {f : Bool} (hpart : x.reg.part = .lo f) (hno : x.is [R.CTX_TIME_NS_LO] = false) :
    d.siteRead p x = ({ d with latch := d.latched p x }, d.shown x (d.copyOf p x)) := by
  unfold Dev.siteRead
  dsimp only
  rw [hpart]
  dsimp only
  rw [hno]
  rfl

theorem Dev.siteRead_time {f : Bool} {y : Site} (hpart : x.reg.part = .lo f) (htime : x.is [R.CTX_TIME_NS_LO] = true)
    (hstat : siteAt R.CTX_STAT.base = some y) : d.siteRead p x =
    ({ d with latch := Tbl.set (d.latched p x) (ctxStatKey p (d.copyOf p x)) (BitVec.ofNat 32 (d.shown y (d.copyOf p x))) },
      d.shown x (d.copyOf p x)) := by
  unfold Dev.siteRead
  dsimp only
  rw [hpart]
  dsimp only
  rw [htime, hstat]
  rfl

theorem Dev.siteRead_other {f : Bool} (hpart : x.reg.part = .hi f ∨ x.reg.part = .frac) :
    d.siteRead p x = (d, (Tbl.getD d.latch (pathKey p x.off) 0).toNat) := by
  unfold Dev.siteRead
  dsimp only
  rcases hpart with hpart | hpart <;> rw [hpart]

/-! ## Refused commands (R339) -/

theorem refuse_eq_refusedAs (d : Dev) (p : Path) (off : Nat) (r : Reason) : d.refuse p.code off r = refusedAs d p off r := rfl

/-- A command that its register refuses, for the command's own reason where it has one. -/
theorem State.runBy_refused {s : State} {off : Nat} {r : Reason} (f : Dev → Dev) (h : s.dev.quiet.access p off true = .refused r) :
    s.runBy p off f = .next { s with
      dev := refusedAs s.dev.quiet p off (if r = .state then (s.dev.quiet.refusalOf f).getD .state else r) } := by
  have heq : s.runBy p off f = .next { s with dev := (match s.dev.quiet.access p off true with
    | .ok => f s.dev.quiet
    | .absent => s.dev.quiet
    | .timeout => s.dev.quiet.accessTimeout p
    | .refused .state => s.dev.quiet.refuse p.code off ((s.dev.quiet.refusalOf f).getD .state)
    | .refused r => s.dev.quiet.refuse p.code off r) } := rfl
  rw [heq, h]
  cases r <;> rfl

theorem Gives.of_refused {c : Instr} {s : State} {off : Nat} {r : Reason} (f : Dev → Dev) (hexec : exec c s = s.runBy p off f)
    (h : s.dev.quiet.access p off true = .refused r) :
    ∃ r', (r ≠ .state → r' = r) ∧ Gives c s (refusedAs s.dev.quiet p off r') :=
  ⟨_, fun hr => if_neg hr, hexec.trans (State.runBy_refused f h)⟩

/-- A command that never refuses itself. -/
theorem Gives.of_refused_free {c : Instr} {s : State} {off : Nat} {r : Reason} (f : Dev → Dev) (hexec : exec c s = s.runBy p off f)
    (h : s.dev.quiet.access p off true = .refused r) (hfree : ∀ e : Dev, (f e).regs = e.regs) :
    Gives c s (refusedAs s.dev.quiet p off r) := by
  have hnone : s.dev.quiet.refusalOf f = none := by
    refine if_pos ((Dev.get_congr _ _ (hfree _) _ _).trans ?_)
    exact Dev.get_put_self s.dev.quiet F.HOST_WERR_CNT.COUNT 0 0 (by decide) (by decide)
  have hreason : (if r = .state then (s.dev.quiet.refusalOf f).getD .state else r) = r := by
    rw [hnone]
    split
    next hr => exact hr.symm
    · rfl
  refine hexec.trans ((State.runBy_refused f h).trans ?_)
  rw [hreason]

theorem Dev.regs_bootReleaseCmd : d.bootReleaseCmd.regs = d.regs := by
  unfold Dev.bootReleaseCmd
  split <;> rfl

/-! ## Refused writes (R8, R25, R339) -/

/-- R8: what the path has staged is used up, but by a write of a part that only stages. -/
theorem Dev.halvesDone_eq : d.halvesDone p x = if x.stages then d else
    { d with half := x.others.foldl (fun t (y : Site) => Tbl.del t (pathKey p y.off)) d.half } := rfl

theorem Dev.siteWrite_form {r : Reason} (h : Dev.formBad d d.view p x a (d.copyOf p x) w whole = some r) :
    d.siteWrite p x a w whole false = refusedAs (d.halvesDone p x) p a r := by
  unfold Dev.siteWrite
  dsimp only
  rw [h]
  rfl

theorem Dev.formBad_reserved {o : Dev} (h : mergeWord (maskOf x.fields fun _ => true) w 0 ≠ 0) :
    Dev.formBad d o p x a n w whole = some .reserved := if_pos (bne_iff_ne.mpr h)

theorem Dev.formBad_size {o : Dev} (h : mergeWord (maskOf x.fields fun _ => true) w 0 = 0) :
    Dev.formBad d o p x a n w false = some .size := (if_neg (by rw [h]; decide)).trans (if_pos rfl)

theorem Dev.siteWrite_refused {r : Reason} (hcmd : x.is commandRegs = false) (hpart : x.reg.part = .whole)
    (hform : Dev.formBad d d.view p x a (d.copyOf p x) w whole = none)
    (hbad : Dev.writeBad d d.view (d.view.withWords x (d.copyOf p x) [(x, d.view.newWord p x (d.copyOf p x) w)]) p x a (d.copyOf p x)
      [(x, d.view.newWord p x (d.copyOf p x) w)] false = some r) :
    d.siteWrite p x a w whole false = refusedAs (Dev.noteAdmit d
      (d.view.withWords x (d.copyOf p x) [(x, d.view.newWord p x (d.copyOf p x) w)]) x (d.copyOf p x) w r) p a r := by
  unfold Dev.siteWrite
  dsimp only
  rw [hform]
  dsimp only
  rw [hcmd, if_neg Bool.false_ne_true, Dev.newWords_of_whole hpart, hbad]
  exact congrArg (fun e : Dev => e.refuse p.code a r) (Dev.halvesDone_of_whole hpart)

/-! ## Poisoned writes (R346) -/

theorem Dev.pathWrite_poisoned {off : Nat} (hoff : d.pathOff p off = some a) (hok : d.access p a true = .ok) :
    d.pathWrite p off w whole true = if (decide (a < 0x04000000) && p.isHost) = true then
      d.windowWrite a ((leBytes 4 w).map fun b => (b, true)) true else d.poisonWrite p a := by
  unfold Dev.pathWrite
  rw [hoff]
  dsimp only
  rw [hok]
  have hreached : (decide (a < 0x04000000) && p.isHost && Reach.ok == Reach.ok) = (decide (a < 0x04000000) && p.isHost) := Bool.and_true _
  dsimp only
  rw [hreached]
  rfl

/-- A poisoned write of a register is refused. -/
theorem Dev.poisonWrite_site (hsite : siteAt a = some x) :
    ∃ r, d.poisonWrite p a = refusedAs ((d.halvesDone p x).freeNext.fault 259) p a r := by
  unfold Dev.poisonWrite
  rw [hsite]
  exact ⟨_, rfl⟩

/-- All bytes enabled make one run. -/
theorem byteRuns_enabled (a : Nat) (l : List Byte) : byteRuns a (l.map fun b => (b, true)) = if l = [] then [] else [(a, l)] := by
  induction l generalizing a with
  | nil => rfl
  | cons b l ih =>
    rw [List.map_cons, byteRuns, ih]
    cases l with
    | nil => rfl
    | cons c l => simp

theorem Dev.vat_markSlots (n : Nat) : (d.markSlots a n).vat = d.vat :=
  foldl_keeps Dev.vat (fun (d : Dev) l => if overlap a n (d.loopBlock l + 16) 8 then d.setLoop l { d.loop l with slotWritten := true } else d)
    (fun d l => by split <;> rfl) _ d

theorem Dev.vat_markServo (n : Nat) : (d.markServo a n).vat = d.vat := by
  unfold Dev.markServo
  split <;> rfl

/-- R346: one poisoned word. -/
def Dev.poisonWord (d : Dev) (w : Nat) : Dev :=
  let d := d.incSat F.VAT_POISON_WR.COUNT
  if d.vat.ue.contains w then d else { d with vat := { d.vat with ue := d.vat.ue ++ [w] } }

theorem Dev.ue_poisonWord (d : Dev) (w : Nat) : w ∈ (d.poisonWord w).vat.ue ∧ ∀ u ∈ d.vat.ue, u ∈ (d.poisonWord w).vat.ue := by
  have hsame : (d.incSat F.VAT_POISON_WR.COUNT).vat = d.vat := rfl
  unfold Dev.poisonWord
  dsimp only
  rw [hsame]
  split
  next hin => exact ⟨List.contains_iff_mem.mp hin, fun u hu => hu⟩
  · exact ⟨List.mem_append_right _ (List.mem_singleton_self w), fun u hu => List.mem_append_left _ hu⟩

theorem Dev.ue_poisonWords (ws : List Nat) (d : Dev) : (∀ w ∈ ws, w ∈ (ws.foldl Dev.poisonWord d).vat.ue) ∧
    ∀ u ∈ d.vat.ue, u ∈ (ws.foldl Dev.poisonWord d).vat.ue := by
  induction ws generalizing d with
  | nil => exact ⟨fun w hw => absurd hw List.not_mem_nil, fun u hu => hu⟩
  | cons v ws ih =>
    obtain ⟨hall, hkept⟩ := ih (d.poisonWord v)
    obtain ⟨hnew, hold⟩ := d.ue_poisonWord v
    refine ⟨fun w hw => ?_, fun u hu => hkept u (hold u hu)⟩
    rcases List.mem_cons.mp hw with rfl | hw
    · exact hkept w hnew
    · exact hall w hw

/-- R346: every word of a poisoned range is poisoned. -/
theorem Dev.ue_vatPoison {l : List Byte} (hw : w ∈ wordsOf a l.length) : w ∈ (d.vatPoison a l).vat.ue :=
  (Dev.ue_poisonWords (wordsOf a l.length) { d with vat := { d.vat with mem := Memory.writeN 0 d.vat.mem a l } }).1 w hw

theorem Dev.vbad_vatPoison {l : List Byte} (hl : 0 < l.length) : (d.vatPoison a l).vbad a l.length = true := by
  have hfirst : a / 8 ∈ wordsOf a l.length := by
    unfold wordsOf
    rw [if_neg (by omega), List.mem_map]
    exact ⟨0, List.mem_range.mpr (by omega), Nat.zero_add _⟩
  exact List.any_eq_true.mpr ⟨a / 8, Dev.ue_vatPoison hfirst, decide_eq_true (by omega)⟩

/-- R346: a poisoned write that touches no structure of the device's own. -/
theorem Dev.vbad_vatUserPoison {l : List Byte} (hl : 0 < l.length) (hguard : d.vatGuarded a l.length = false)
    (htable : overlap a l.length d.qtable (4096 * 32) = false) : (d.vatUserPoison a l).vbad a l.length = true := by
  obtain ⟨⟨htabs, hctxs⟩, hloops⟩ : (d.touchesTables a l.length = false ∧ d.touchesContexts a l.length = false) ∧
      d.touchesLoops a l.length = false := by
    simpa only [Dev.vatGuarded, Bool.or_eq_false_iff] using hguard
  have heq : d.vatUserPoison a l = ((d.vatPoison a l).markSlots a l.length).markServo a l.length := by
    unfold Dev.vatUserPoison Dev.vatUserWith
    dsimp only
    rw [if_neg (by omega), htabs, hctxs, hloops, htable]
    rfl
  have hvat : (d.vatUserPoison a l).vat = (d.vatPoison a l).vat := by
    rw [heq, Dev.vat_markServo, Dev.vat_markSlots]
  unfold Dev.vbad
  rw [hvat]
  exact Dev.vbad_vatPoison hl

/-- R346: a poisoned write of a word of the window. -/
theorem Dev.vbad_windowWrite (ha : a < 0x04000000) (halign : a % 4 = 0) (hguard : (d.fault 259).vatGuarded a 4 = false)
    (htable : overlap a 4 (d.fault 259).qtable (4096 * 32) = false) :
    (d.windowWrite a ((leBytes 4 w).map fun b => (b, true)) true).vbad a 4 = true := by
  have hlen : (leBytes 4 w).length = 4 := leBytes_length 4 w
  have hruns : byteRuns a (((leBytes 4 w).map fun b => (b, true)).take (2 ^ 26 - a)) = [(a, leBytes 4 w)] := by
    rw [List.take_of_length_le (by rw [List.length_map, hlen]; omega), byteRuns_enabled, if_neg]
    exact List.ne_nil_of_length_pos (by omega)
  have heq : d.windowWrite a ((leBytes 4 w).map fun b => (b, true)) true = (d.fault 259).vatUserPoison a (leBytes 4 w) := by
    have hguarded : (d.fault 259).vatGuarded a (leBytes 4 w).length = false := by rw [hlen, hguard]
    have hnone : [(a, leBytes 4 w)].find? (fun r => (d.fault 259).vatGuarded r.1 r.2.length) = none := by
      rw [List.find?_cons, hguarded]
      rfl
    unfold Dev.windowWrite
    rw [hruns]
    dsimp only
    rw [if_pos rfl, hnone]
    rfl
  rw [heq]
  have hbad := Dev.vbad_vatUserPoison (d := d.fault 259) (a := a) (l := leBytes 4 w) (by omega) (by rw [hlen]; exact hguard)
    (by rw [hlen]; exact htable)
  rwa [hlen] at hbad

end

/-- Settles O19: a read by the part that its register holds; a refused command, write and poisoned write by what refuses it. -/
theorem readsAndRefusedWrites : Obligations.ReadsAndRefusedWrites := by
  refine ⟨?reads, fun p off one c s => ⟨_, rfl⟩, ?commands, ?writes, ?poisoned⟩
  case reads =>
    intro p off c s a x d hoff hok hlow hhigh hsite n reads key
    have hread : Gives (.loRead p off true c) s (d.hostRead p off.toNat true) := rfl
    have hreads {e : Dev} {v : Nat} (h : d.siteRead p x = (e, v)) : reads e v := by
      have hgives := hread.of_eq (Dev.hostRead_site hoff hok hlow hhigh hsite)
      rw [h] at hgives
      exact hgives
    refine ⟨fun hpart => ⟨fun h => hreads (Dev.siteRead_whole hpart h), fun w hstat h => hreads (Dev.siteRead_latched hpart hstat h)⟩,
      fun f hpart => ⟨fun hno => hreads (Dev.siteRead_lo hpart hno), fun y htime hstat => hreads (Dev.siteRead_time hpart htime hstat)⟩,
      fun f hpart => hreads (Dev.siteRead_other hpart)⟩
  case commands =>
    intro p off r s hrefused d2
    refine ⟨fun n hoff => ?_, fun hoff => ?_, fun k hoff => ?_, fun hoff => ?_, fun hoff => ?_⟩
    · subst hoff
      exact ⟨Gives.of_refused_free (·.synSearch n) rfl hrefused fun e => rfl, Gives.of_refused_free (·.synAbort n) rfl hrefused fun e => rfl⟩
    · subst hoff
      exact ⟨Gives.of_refused_free (·.bootReleaseCmd) rfl hrefused fun e => Dev.regs_bootReleaseCmd,
        Gives.of_refused_free (·.pushGoCmd) rfl hrefused fun e => rfl⟩
    · subst hoff
      exact Gives.of_refused (·.msArmCmd p k) rfl hrefused
    · subst hoff
      exact ⟨Gives.of_refused (·.stageOpenCmd p) rfl hrefused, Gives.of_refused (·.stageArmCmd p) rfl hrefused,
        Gives.of_refused (·.stageDiscardCmd p) rfl hrefused⟩
    · subst hoff
      exact Gives.of_refused (·.reamCmd p 3 0) rfl hrefused
  case writes =>
    intro p off w whole c s a x d o hoff habsent htimeout hlow hhigh hsite n spare used gives
    have hwrite : Gives (.registerWrite p off w whole false c) s (d.siteWrite p x a w.toNat whole false) := by
      have hpath : Gives (.registerWrite p off w whole false c) s (d.pathWrite p off.toNat w.toNat whole false) := rfl
      exact hpath.of_eq ((Dev.pathWrite_reaches hoff habsent htimeout).trans (Dev.regWrite_site hlow hhigh hsite false))
    have hgives {r : Reason} (h : Dev.formBad d o p x a n w.toNat whole = some r) : gives used r := hwrite.of_eq (Dev.siteWrite_form h)
    refine ⟨fun hspare => hgives (Dev.formBad_reserved (of_decide_eq_true hspare)), fun hspare hpartial => ?_, fun h => hgives h,
      fun hno hform hpart => ?_⟩
    · subst hpartial
      exact hgives (Dev.formBad_size (not_not.mp (of_decide_eq_false hspare)))
    · intro word v r hbad
      exact hwrite.of_eq (Dev.siteWrite_refused hno hpart hform hbad)
  case poisoned =>
    intro p off w c s a d hoff hok
    have hwrite : Gives (.registerWrite p off w true true c) s (d.pathWrite p off.toNat w.toNat true true) := rfl
    have hpoison := Dev.pathWrite_poisoned (w := w.toNat) (whole := true) hoff hok
    refine ⟨fun x hlow hsite => ?_, fun hhost ha halign hguard htable => ?_⟩
    · obtain ⟨r, hr⟩ := Dev.poisonWrite_site (d := d) (p := p) hsite
      refine ⟨r, hwrite.of_eq (hpoison.trans ((if_neg ?_).trans hr))⟩
      rw [decide_eq_false (by omega), Bool.false_and]
      exact Bool.false_ne_true
    · refine ⟨_, hwrite.of_eq (hpoison.trans (if_pos ?_)), Dev.vbad_windowWrite ha halign hguard htable⟩
      rw [decide_eq_true ha, hhost]
      rfl

end Sys2Proof.Machine
end

section
/-! SUPPORT and proof of O28. The edges of the TDC channels (R104, R105, R193-R203) and their calibration (R196-R198). -/

namespace Sys2Proof.Machine

section
variable {d : Dev} {c coarse code pulse : Nat} {falling : Bool}

/-! ## Which edges come (R104, R357, R366) -/

/-- R104: only inputs have a glitch filter. -/
theorem Dev.input_of_glitch (h : pulse < d.glitch c) : c < 40 := by
  by_contra hc
  have hnone : d.glitch c = 0 := if_neg fun hmode => hc hmode.1
  omega

/-- R104: a pulse shorter than GLITCH does not come, but for an input whose filter is looped around. -/
theorem Dev.edgeComes_of_glitch (h : pulse < d.glitch c) (hloop : d.loopDepth 0 c ≠ some 2) : d.edgeComes c coarse falling pulse = false := by
  have hfilter : d.filterPasses c falling pulse = false := by
    unfold Dev.filterPasses
    rw [beq_false_of_ne (by omega), decide_eq_false (by omega)]
    rfl
  refine (if_pos (Dev.input_of_glitch h)).trans ?_
  rw [hfilter, Bool.and_false, Bool.and_false, Bool.and_false]
  split
  · rfl
  · rfl
  · rfl
  · exact absurd (by assumption) hloop
  · rfl

theorem Dev.edgeComes_of_stop (hc : c < 40) (hloop : d.loopDepth 0 c = some 3) : d.edgeComes c coarse falling pulse = false := by
  refine (if_pos hc).trans ?_
  rw [hloop]
  rfl

theorem Dev.edgeComes_of_open (hin : c < 40 → d.loopDepth 0 c = none ∧ d.pinsLive = true)
    (hout : 40 ≤ c → c < 112 → d.loopDepth 1 (c - 40) = none) (hfilter : d.filterPasses c falling pulse = true) :
    d.edgeComes c coarse falling pulse = true := by
  unfold Dev.edgeComes
  split
  next hc =>
    obtain ⟨hnone, hlive⟩ := hin hc
    rw [hnone, hlive, hfilter]
    rfl
  next hc =>
    split
    next hlt => rw [hout (by omega) hlt]
    · rfl

theorem Dev.filterPasses_of {level : Bool} (hlevel : level = !falling)
    (h : d.glitch c = 0 ∨ d.glitch c ≤ pulse ∧ (d.tdc c).level ≠ some level) : d.filterPasses c falling pulse = true := by
  subst hlevel
  unfold Dev.filterPasses
  rcases h with hoff | ⟨hlong, hnew⟩
  · rw [hoff]
    rfl
  · rw [decide_eq_true hlong, bne_iff_ne.mpr hnew]
    exact Bool.or_true _

/-! ## Edge times (R195) -/

/-- R195: B stamps in even ticks. -/
def Dev.stampCal (d : Dev) (c : Nat) : Option (Nat × Nat) := if d.tick % 2 = 0 then (d.tdc c).calB else (d.tdc c).calA

def Dev.stampStale (d : Dev) (c : Nat) : Bool := if d.tick % 2 = 0 then (d.tdc c).staleB else (d.tdc c).staleA

theorem Dev.interval_of_cal {c1 c2 : Nat} (h : d.stampCal c = some (c1, c2)) :
    d.interval c code = (((code : Int) - (2 * c1 - c2)) * (2 * 2 ^ 32), 5 * (c2 - c1), d.stampStale c) := by
  have hpair : (if d.tick % 2 = 0 then ((d.tdc c).calB, (d.tdc c).staleB) else ((d.tdc c).calA, (d.tdc c).staleA)) =
      (some (c1, c2), d.stampStale c) := by
    rw [← h]
    unfold Dev.stampCal Dev.stampStale
    split <;> rfl
  unfold Dev.interval
  dsimp only
  rw [hpair]

theorem Dev.edgeXo_eq {c1 c2 : Nat} (h : d.stampCal c = some (c1, c2)) (hlt : c1 < c2) :
    (d.edgeXo c coarse code).1 * (5 * ((c2 : Int) - c1)) = (d.edgeXo c coarse code).2 * 2 ^ 33 *
      ((d.tick * 2500 + coarse + 2 : Int) * (c2 - c1) - (code - (2 * c1 - c2))) := by
  unfold Dev.edgeXo
  rw [Dev.interval_of_cal h]
  dsimp only
  have hdiff : ((c2 - c1 : Nat) : Int) = c2 - c1 := Nat.cast_sub hlt.le
  push_cast
  rw [hdiff]
  ring

/-! ## What an edge does (R105, R193, R203) -/

/-- The filter's level and the prescaler's count after an edge. -/
def Dev.edgeSeen (d : Dev) (c : Nat) (falling : Bool) (pre : Nat) : Dev :=
  d.setTdc c { d.tdc c with level := some (!falling), pre := pre }

theorem Dev.tdcStamp_of_none (h : (d.atCycle (coarse / 2)).edgeComes c coarse falling pulse = false) :
    d.tdcStamp c coarse code falling pulse = d.atCycle (coarse / 2) := by
  refine if_pos ?_
  have hno : (({ d with cycle := coarse / 2 } : Dev).edgeComes c coarse falling pulse) = false := h
  rw [hno]
  rfl

/-- R105: an edge that reaches the prescaler. -/
theorem Dev.tdcStamp_reaches (hcomes : (d.atCycle (coarse / 2)).edgeComes c coarse falling pulse = true)
    (hreach : (d.atCycle (coarse / 2)).edgeReaches c falling = true) : d.tdcStamp c coarse code falling pulse =
    if ((d.atCycle (coarse / 2)).tdc c).pre + 1 < (d.atCycle (coarse / 2)).chDiv c then
      (d.atCycle (coarse / 2)).edgeSeen c falling (((d.atCycle (coarse / 2)).tdc c).pre + 1)
    else ((d.atCycle (coarse / 2)).edgeSeen c falling 0).prescaledEdge c coarse code falling := by
  have hstamp : d.tdcStamp c coarse code falling pulse = (d.atCycle (coarse / 2)).tdcStamp c coarse code falling pulse := rfl
  have hsame : (d.atCycle (coarse / 2)).atCycle (coarse / 2) = d.atCycle (coarse / 2) := rfl
  rw [hstamp]
  generalize d.atCycle (coarse / 2) = e at *
  have hself (x : TdcCh) : (e.setTdc c x).tdc c = x := Tbl.getD_set_self ..
  have hreaches (x : TdcCh) : (e.setTdc c x).edgeReaches c falling = true := hreach
  have hdiv (x : TdcCh) : (e.setTdc c x).chDiv c = e.chDiv c := rfl
  have htwice (x y : TdcCh) : (e.setTdc c x).setTdc c y = e.setTdc c y :=
    congrArg (fun t => ({ e with tdcs := t } : Dev)) (Tbl.set_set ..)
  unfold Dev.tdcStamp Dev.edgeSeen
  rw [show ({ e with cycle := coarse / 2 } : Dev) = e from hsame]
  dsimp only
  rw [hcomes, if_neg (by decide), hreaches, if_neg (by decide), hself, hdiv, htwice, htwice]

theorem Dev.edgeReaches_of (hself : d.selfStamping c = false) (hpass : d.edgePasses c falling = true)
    (hport : c < 112 ∨ 128 ≤ c ∨ d.evtPresents (c - 112) = true) : d.edgeReaches c falling = true := by
  unfold Dev.edgeReaches
  rw [hself, hpass]
  rcases hport with hlow | hhigh | hevt
  · rw [decide_eq_true (.inl hlow)]
    rfl
  · rw [decide_eq_true (.inr hhigh)]
    rfl
  · rw [hevt, Bool.or_true]
    rfl

/-- R203: the last stamped edge is less than 2.5 ns ago. -/
def TdcCh.soon (x : TdcCh) (at' : Nat) : Bool := match x.last with
  | some l => decide (at' < l + 10737418240)
  | none => false

theorem TdcCh.soon_iff (x : TdcCh) (at' : Nat) : x.soon at' = true ↔ ∃ l, x.last = some l ∧ at' < l + 10737418240 := by
  unfold TdcCh.soon
  cases x.last with
  | none => exact ⟨fun h => absurd h Bool.false_ne_true, fun ⟨l, h, _⟩ => nomatch h⟩
  | some l => exact decide_eq_true_iff.trans ⟨fun h => ⟨l, rfl, h⟩, fun ⟨l', hl, h⟩ => Option.some.inj hl ▸ h⟩

/-- R105: an input's monitors hear the edge. -/
def Dev.edgeHeard (d : Dev) (c at' k : Nat) (stamped : Bool) : Dev := if c < 40 then d.inputEdge c at' k stamped else d

/-- R196: a prescaled edge of a channel that was calibrated. -/
theorem Dev.prescaledEdge_eq {cal : Nat × Nat} {at' nth : Nat} (hcal : d.stampCal c = some cal)
    (hat : (roundDiv (d.edgeXo c coarse code).1 (d.edgeXo c coarse code).2).toNat = at')
    (hnth : ((d.tdc c).nth + 1) % max 1 (d.get F.TDC_CH_NTH.N c) = nth) {soon : Bool} (hsoon : (d.tdc c).soon at' = soon) :
    d.prescaledEdge c coarse code falling =
    (let y := ((d.incWrap F.TDC_CH_STAT.EDGES c).setTdc c { d.tdc c with
        nth := nth, last := if soon then (d.tdc c).last else some at', lost := (d.tdc c).lost || soon }).edgeHeard c at'
          (d.tick * 2500 + coarse) !soon
     if soon then y.incSat F.TDC_CH_STAT.LOST c
     else y.edgeStamped c (d.edgeLt (d.edgeXo c coarse code) c).toNat falling (d.stampStale c) (nth == 0)) := by
  subst hat hnth hsoon
  have hstale : (d.interval c code).2.2 = d.stampStale c := by rw [Dev.interval_of_cal (c1 := cal.1) (c2 := cal.2) hcal]
  have hopen : ¬ ((if d.tick % 2 = 0 then (d.tdc c).calB.isNone else (d.tdc c).calA.isNone) = true) := by
    unfold Dev.stampCal at hcal
    split at hcal <;> simp [*]
  unfold Dev.prescaledEdge
  dsimp only
  rw [if_neg hopen, hstale]
  rfl

/-- R194, R203: an edge that is stamped, and one that is lost. -/
theorem Dev.prescaledEdge_stamps {cal : Nat × Nat} {at' nth : Nat} (hcal : d.stampCal c = some cal)
    (hat : (roundDiv (d.edgeXo c coarse code).1 (d.edgeXo c coarse code).2).toNat = at')
    (hnth : ((d.tdc c).nth + 1) % max 1 (d.get F.TDC_CH_NTH.N c) = nth) (hsoon : ¬ ∃ l, (d.tdc c).last = some l ∧ at' < l + 10737418240) :
    d.prescaledEdge c coarse code falling =
    (((d.incWrap F.TDC_CH_STAT.EDGES c).setTdc c { d.tdc c with nth := nth, last := some at' }).edgeHeard c at' (d.tick * 2500 + coarse)
      true).edgeStamped c (d.edgeLt (d.edgeXo c coarse code) c).toNat falling (d.stampStale c) (nth == 0) := by
  have hlost : ((d.tdc c).lost || false) = (d.tdc c).lost := Bool.or_false _
  rw [Dev.prescaledEdge_eq hcal hat hnth (soon := false) (Bool.eq_false_iff.mpr fun h => hsoon ((TdcCh.soon_iff _ _).mp h)), hlost]
  rfl

theorem Dev.prescaledEdge_loses {cal : Nat × Nat} {at' nth : Nat} (hcal : d.stampCal c = some cal)
    (hat : (roundDiv (d.edgeXo c coarse code).1 (d.edgeXo c coarse code).2).toNat = at')
    (hnth : ((d.tdc c).nth + 1) % max 1 (d.get F.TDC_CH_NTH.N c) = nth) (hsoon : ∃ l, (d.tdc c).last = some l ∧ at' < l + 10737418240) :
    d.prescaledEdge c coarse code falling =
    (((d.incWrap F.TDC_CH_STAT.EDGES c).setTdc c { d.tdc c with nth := nth, lost := true }).edgeHeard c at' (d.tick * 2500 + coarse)
      false).incSat F.TDC_CH_STAT.LOST c := by
  have hlost : ((d.tdc c).lost || true) = true := Bool.or_true _
  rw [Dev.prescaledEdge_eq hcal hat hnth (soon := true) ((TdcCh.soon_iff _ _).mpr hsoon), hlost]
  rfl

theorem Dev.burstDrain_of {b : List Byte} {r : List (List Byte)} (h : (d.tdc c).burst = b :: r) :
    d.burstDrain c = (d.setTdc c { d.tdc c with burst := r }).stampWrite c b := by
  unfold Dev.burstDrain
  rw [h]

/-! ## Calibrations (R196-R198) -/

section
variable {c1 c2 : Nat}

theorem Dev.tdcCalibration_accepts {odd : Bool} (hodd : odd = decide (d.tick % 2 = 1)) (hcal : d.calibrating c = true)
    (hok : calAccepted (if odd then (d.tdc c).calB else (d.tdc c).calA) c1 c2 = true) : d.tdcCalibration c c1 c2 =
    ((((d.setTdc c (if odd then { d.tdc c with calB := some (c1, c2), staleB := false }
      else { d.tdc c with calA := some (c1, c2), staleA := false })).put F.TDC_CH_CAL.IP (b2n odd) c).put F.TDC_CH_CAL.C1 c1 c).put
        F.TDC_CH_CAL.C2 c2 c).put F.TDC_CH_CAL.STALE 0 c := by
  refine (if_pos hcal).trans ?_
  rcases Nat.mod_two_eq_zero_or_one d.tick with heven | hone
  · obtain rfl : odd = false := by rw [hodd, heven]; rfl
    rw [heven]
    exact if_pos hok
  · obtain rfl : odd = true := by rw [hodd, hone]; rfl
    rw [hone]
    exact if_pos hok

theorem Dev.tdcCalibration_rejects {odd : Bool} (hodd : odd = decide (d.tick % 2 = 1)) (hcal : d.calibrating c = true)
    (hok : calAccepted (if odd then (d.tdc c).calB else (d.tdc c).calA) c1 c2 = false) : d.tdcCalibration c c1 c2 =
    ((d.setTdc c (if odd then { d.tdc c with staleB := true } else { d.tdc c with staleA := true })).put
      F.TDC_CH_CAL.STALE 1 c).fault 160 c := by
  refine (if_pos hcal).trans ?_
  rcases Nat.mod_two_eq_zero_or_one d.tick with heven | hone
  · obtain rfl : odd = false := by rw [hodd, heven]; rfl
    rw [heven]
    exact if_neg fun h => Bool.false_ne_true (hok.symm.trans h)
  · obtain rfl : odd = true := by rw [hodd, hone]; rfl
    rw [hone]
    exact if_neg fun h => Bool.false_ne_true (hok.symm.trans h)

/-- A measurement slot and its state. -/
def Dev.slotView (d : Dev) (k : Nat) : MsSlot × Nat := (d.ms k, d.msState k)

/-- R198: an accepted pair of interpolator A (0) or B (1). -/
def TdcCh.accept (x : TdcCh) (ip c1 c2 : Nat) : TdcCh :=
  if ip = 0 then { x with calA := some (c1, c2), staleA := false } else { x with calB := some (c1, c2), staleB := false }

theorem Dev.calibrate_accepts {ip : Nat} (h : calAccepted (if ip = 0 then (d.tdc c).calA else (d.tdc c).calB) c1 c2 = true) :
    d.calibrate c ip c1 c2 = ((((d.setTdc c ((d.tdc c).accept ip c1 c2)).put F.TDC_CH_CAL.IP ip c).put F.TDC_CH_CAL.C1 c1 c).put
      F.TDC_CH_CAL.C2 c2 c).put F.TDC_CH_CAL.STALE 0 c := if_pos h

theorem Dev.tdc_calibrate {ip : Nat} (h : calAccepted (if ip = 0 then (d.tdc c).calA else (d.tdc c).calB) c1 c2 = true) :
    (d.calibrate c ip c1 c2).tdc c = (d.tdc c).accept ip c1 c2 := by
  rw [Dev.calibrate_accepts h]
  exact Tbl.getD_set_self ..

theorem Dev.slotView_calibrate {ip : Nat} (h : calAccepted (if ip = 0 then (d.tdc c).calA else (d.tdc c).calB) c1 c2 = true)
    (k : Nat) : (d.calibrate c ip c1 c2).slotView k = d.slotView k := by
  have hcal : R.TDC_CH_CAL.key c = 0x08900014 + 32 * c := rfl
  have hslot : R.TDC_MS_STAT.key k = 0x08902018 + 64 * k := rfl
  have hkey : R.TDC_MS_STAT.key k ≠ R.TDC_CH_CAL.key c := by
    rw [hcal, hslot]
    omega
  have hput (e : Dev) (f : Fld) (v : Nat) (hf : f.reg = R.TDC_CH_CAL) : (e.put f v c).slotView k = e.slotView k :=
    Prod.ext rfl (Dev.get_put_ne e f F.TDC_MS_STAT.STATE v c k (hf ▸ hkey))
  rw [Dev.calibrate_accepts h, hput _ _ _ rfl, hput _ _ _ rfl, hput _ _ _ rfl, hput _ _ _ rfl]
  rfl

/-! ## Slots that wait for the channel (R197) -/

/-- A slot once the channel's calibration is done. -/
def MsSlot.calDone (x : MsSlot) (c : Nat) : MsSlot := { x with cal := x.cal.filter (· != c) }

/-- The state of a slot, from what it still waits for. -/
def MsSlot.goesOn (x : MsSlot) (st : Nat) : Nat := if x.cal.isEmpty then (if x.start.isSome || x.stop.isSome then 3 else 2) else st

/-- R197: one slot goes on. -/
def Dev.slotGoesOn (c : Nat) (d : Dev) (k : Nat) : Dev :=
  let d' := d.setMs k ((d.ms k).calDone c)
  if ((d.ms k).calDone c).cal.isEmpty then
    d'.put F.TDC_MS_STAT.STATE (if ((d.ms k).calDone c).start.isSome || ((d.ms k).calDone c).stop.isSome then 3 else 2) k else d'

theorem Dev.slotView_goesOn_self (k : Nat) : (d.slotGoesOn c k).slotView k =
    ((d.ms k).calDone c, ((d.ms k).calDone c).goesOn (d.msState k)) := by
  have hms : (d.setMs k ((d.ms k).calDone c)).ms k = (d.ms k).calDone c := Tbl.getD_set_self ..
  unfold Dev.slotGoesOn MsSlot.goesOn
  dsimp only
  split
  · refine Prod.ext hms ((Dev.get_put_self _ F.TDC_MS_STAT.STATE _ k (by decide) (by decide)).trans ?_)
    split <;> rfl
  · exact Prod.ext hms rfl

theorem Dev.slotView_goesOn_ne {k j : Nat} (h : j ≠ k) : (d.slotGoesOn c k).slotView j = d.slotView j := by
  have hms : (d.setMs k ((d.ms k).calDone c)).ms j = d.ms j := Tbl.getD_set_ne _ _ _ _ _ h
  unfold Dev.slotGoesOn
  dsimp only
  split
  · exact Prod.ext hms (Dev.get_put_ne _ F.TDC_MS_STAT.STATE F.TDC_MS_STAT.STATE _ k j (Reg.key_ne_of_stride rfl (by decide) h))
  · exact Prod.ext hms rfl

theorem Dev.tdcs_goesOn (k : Nat) : (d.slotGoesOn c k).tdcs = d.tdcs := by
  unfold Dev.slotGoesOn
  dsimp only
  split <;> rfl

theorem Dev.slotView_goOn (l : List Nat) (hl : l.Nodup) (d : Dev) (k : Nat) : (l.foldl (Dev.slotGoesOn c) d).slotView k =
    if k ∈ l then ((d.ms k).calDone c, ((d.ms k).calDone c).goesOn (d.msState k)) else d.slotView k := by
  induction l generalizing d with
  | nil => exact (if_neg List.not_mem_nil).symm
  | cons s l ih =>
    obtain ⟨hs, hrest⟩ := List.nodup_cons.mp hl
    rw [List.foldl_cons, ih hrest]
    by_cases hk : k = s
    · subst hk
      rw [if_neg hs, if_pos (List.mem_cons_self ..), Dev.slotView_goesOn_self]
    · have hview : (d.slotGoesOn c s).slotView k = d.slotView k := Dev.slotView_goesOn_ne hk
      have hmem : (k ∈ s :: l) ↔ k ∈ l := by rw [List.mem_cons, or_iff_right hk]
      rw [if_congr hmem rfl rfl, show (d.slotGoesOn c s).ms k = d.ms k from congrArg Prod.fst hview,
        show (d.slotGoesOn c s).msState k = d.msState k from congrArg Prod.snd hview, hview]

/-- The slots that wait for the channel. -/
def Dev.waiters (d : Dev) (c : Nat) : List Nat := (List.range 64).filter fun s => d.msState s == 1 && (d.ms s).cal.contains c

theorem Dev.mem_waiters {k : Nat} (hk : k < 64) : k ∈ d.waiters c ↔ d.msState k = 1 ∧ c ∈ (d.ms k).cal := by
  unfold Dev.waiters
  rw [List.mem_filter, List.mem_range, Bool.and_eq_true, beq_iff_eq, List.contains_iff_mem]
  exact and_iff_right hk

theorem Dev.armCalDone_goesOn {a1 a2 b1 b2 k : Nat} (hk : k ∈ d.waiters c) : d.armCalDone c a1 a2 b1 b2 =
    (d.waiters c).foldl (Dev.slotGoesOn c) ((d.calibrate c 0 a1 a2).calibrate c 1 b1 b2) := by
  refine if_neg fun hempty => ?_
  have hnone : d.waiters c = [] := List.isEmpty_iff.mp hempty
  rw [hnone] at hk
  exact absurd hk List.not_mem_nil

/-- R197, R198: both pairs accepted, the slots that waited for this channel alone go on. -/
theorem Dev.armCalDone_shows {a1 a2 b1 b2 k0 : Nat} (ha : calAccepted (d.tdc c).calA a1 a2 = true)
    (hb : calAccepted (d.tdc c).calB b1 b2 = true) (hk0 : k0 < 64) (hstate : d.msState k0 = 1) (hwaits : c ∈ (d.ms k0).cal)
    {e : Dev} (he : d.armCalDone c a1 a2 b1 b2 = e) :
    (e.tdc c).calA = some (a1, a2) ∧ (e.tdc c).calB = some (b1, b2) ∧
    (∀ k : Fin 64, d.msState k = 1 → (d.ms k).cal = [c] → (e.ms k).cal = [] ∧
      e.msState k = if (d.ms k).start.isSome || (d.ms k).stop.isSome then 3 else 2) ∧
    (∀ k : Fin 64, d.msState k ≠ 1 ∨ c ∉ (d.ms k).cal → e.msState k = d.msState k ∧ e.ms k = d.ms k) := by
  have htdca := Dev.tdc_calibrate (d := d) (c := c) (ip := 0) ha
  have hb' : calAccepted ((d.calibrate c 0 a1 a2).tdc c).calB b1 b2 = true := by rw [htdca]; exact hb
  have htdcb := Dev.tdc_calibrate (d := d.calibrate c 0 a1 a2) (c := c) (ip := 1) hb'
  have hview (k : Nat) : ((d.calibrate c 0 a1 a2).calibrate c 1 b1 b2).slotView k = d.slotView k :=
    (Dev.slotView_calibrate (ip := 1) hb' k).trans (Dev.slotView_calibrate (ip := 0) ha k)
  rw [Dev.armCalDone_goesOn ((Dev.mem_waiters hk0).mpr ⟨hstate, hwaits⟩)] at he
  rw [htdca] at htdcb
  generalize (d.calibrate c 0 a1 a2).calibrate c 1 b1 b2 = f at *
  have hms (k : Nat) : f.ms k = d.ms k := congrArg Prod.fst (hview k)
  have hst (k : Nat) : f.msState k = d.msState k := congrArg Prod.snd (hview k)
  have htdcs : e.tdc c = f.tdc c := by
    rw [← he]
    exact congrArg (fun t => Tbl.getD t c TdcCh.reset) (foldl_keeps Dev.tdcs (Dev.slotGoesOn c) (fun _ k => Dev.tdcs_goesOn k) _ f)
  have hslot (k : Nat) : e.slotView k = if k ∈ d.waiters c then ((d.ms k).calDone c, ((d.ms k).calDone c).goesOn (d.msState k)) else d.slotView k := by
    have hnodup : (d.waiters c).Nodup := List.nodup_range.filter _
    rw [← he, Dev.slotView_goOn _ hnodup, hms, hst, hview]
  refine ⟨?_, ?_, fun k hk hcal => ?_, fun k hno => ?_⟩
  · rw [htdcs, htdcb]
    rfl
  · rw [htdcs, htdcb]
    rfl
  · have hin : k.val ∈ d.waiters c := (Dev.mem_waiters k.isLt).mpr ⟨hk, by rw [hcal]; exact List.mem_singleton_self c⟩
    have heq := (hslot k).trans (if_pos hin)
    have hnone : ((d.ms k).calDone c).cal = [] := by
      unfold MsSlot.calDone
      rw [hcal]
      exact List.filter_eq_nil_iff.mpr fun x hx => by simp [List.mem_singleton.mp hx]
    refine ⟨(congrArg (fun v : MsSlot × Nat => v.1.cal) heq).trans hnone, (congrArg Prod.snd heq).trans (if_pos ?_)⟩
    rw [hnone]
    rfl
  · have hout : k.val ∉ d.waiters c := fun hin => by
      obtain ⟨hstate, hmem⟩ := (Dev.mem_waiters k.isLt).mp hin
      exact hno.elim (fun h => h hstate) fun h => h hmem
    have heq := (hslot k).trans (if_neg hout)
    exact ⟨congrArg Prod.snd heq, congrArg Prod.fst heq⟩

end

end

/-- Settles O28: the cases of `Dev.tdcStamp`, a drain, and what an accepted or refused calibration leaves. -/
theorem stampAndCalibrationResults : Obligations.StampAndCalibrationResults := by
  refine ⟨fun c coarse code falling pulse c1 c2 s => ?stamps, fun c a1 a2 b1 b2 s => ?cals⟩
  case stamps =>
    intro d0 seen d cmd x xo cal stale at' nth soon
    have hstamp : Gives cmd s (s.dev.quiet.tdcStamp c coarse code.toNat falling pulse.toNat) := rfl
    have hdrain : Gives (.burstBufferDrain c) s (s.dev.quiet.burstDrain c) := rfl
    have hnone (h : d0.edgeComes c coarse falling pulse.toNat = false) : Gives cmd s d0 := hstamp.of_eq (Dev.tdcStamp_of_none h)
    have hreaches (hcomes : d0.edgeComes c coarse falling pulse.toNat = true) (hreach : d0.edgeReaches c falling = true) :
        Gives cmd s (if (d0.tdc c).pre + 1 < d0.chDiv c then seen d0 ((d0.tdc c).pre + 1) else d.prescaledEdge c coarse code.toNat falling) :=
      hstamp.of_eq (Dev.tdcStamp_reaches hcomes hreach)
    clear_value d0
    refine ⟨fun hcal hlt => Dev.edgeXo_eq hcal hlt, fun hshort hloop => hnone (Dev.edgeComes_of_glitch hshort hloop), fun h => ?_,
      fun hopen hfilter => Dev.edgeComes_of_open hopen.1 hopen.2 (Dev.filterPasses_of rfl hfilter), fun hcomes hno hpass hport => ?_,
      fun b r hburst => hdrain.of_eq (Dev.burstDrain_of hburst)⟩
    · rcases h with hnever | ⟨hin, hstop⟩
      · exact hnone hnever
      · exact hnone (Dev.edgeComes_of_stop hin hstop)
    · have hgives := hreaches hcomes (Dev.edgeReaches_of hno hpass hport)
      intro n counted heard
      refine ⟨fun hlt => hgives.of_eq (if_pos hlt), fun hge hcal hsoon => hgives.of_eq ((if_neg (Nat.not_lt.mpr hge)).trans ?_),
        fun hge hcal hsoon => hgives.of_eq ((if_neg (Nat.not_lt.mpr hge)).trans ?_)⟩
      · exact Dev.prescaledEdge_stamps hcal rfl rfl hsoon
      · exact Dev.prescaledEdge_loses hcal rfl rfl hsoon
  case cals =>
    intro d x odd ok
    have hcal : Gives (.tdcCalibration c a1 a2) s (d.tdcCalibration c a1.toNat a2.toNat) := rfl
    have harm : Gives (.armCalibrationDone c a1 a2 b1 b2) s (d.armCalDone c a1.toNat a2.toNat b1.toNat b2.toNat) := rfl
    clear_value d
    refine ⟨fun hruns hok => hcal.of_eq (Dev.tdcCalibration_accepts rfl hruns hok),
      fun hruns hok => hcal.of_eq (Dev.tdcCalibration_rejects rfl hruns hok), fun ha hb k0 hstate hwaits => ?_⟩
    exact ⟨_, harm, Dev.armCalDone_shows ha hb k0.isLt hstate hwaits rfl⟩

end Sys2Proof.Machine
end

section
/-! SUPPORT and proof of O29. The input monitors: activity, observation, frequency and suspect gates (R106-R112, R116). -/

namespace Sys2Proof.Machine

section
variable {d : Dev} {n : Nat}

@[simp] theorem Dev.mon_setMon_self (d : Dev) (n : Nat) (x : InMon) : (d.setMon n x).mon n = x := Tbl.getD_set_self ..

theorem Dev.mon_setMon_ne (d : Dev) (x : InMon) {m : Nat} (h : m ≠ n) : (d.setMon n x).mon m = d.mon m := Tbl.getD_set_ne _ _ _ _ _ h

/-! ## The latch (R112) -/

/-- R112: what the latch may change: the suspect tick's registers, and that it is valid. -/
structure Dev.Latched (d e : Dev) (n : Nat) : Prop where
  frame : e = { d with regs := e.regs, mons := e.mons }
  self : e.mon n = { d.mon n with susValid := (e.mon n).susValid }
  others : ∀ m, m ≠ n → e.mon m = d.mon m
  gets : ∀ (f : Fld) (m : Nat), f.reg.key m ≠ R.IN_SUS_TICK_LO.key n → f.reg.key m ≠ R.IN_SUS_TICK_HI.key n → e.get f m = d.get f m

theorem Dev.Latched.refl (d : Dev) (n : Nat) : d.Latched d n := ⟨rfl, rfl, fun _ _ => rfl, fun _ _ _ _ => rfl⟩

theorem Dev.Latched.trans {e f : Dev} (h : d.Latched e n) (h' : e.Latched f n) : d.Latched f n := by
  refine ⟨?_, ?_, fun m hm => (h'.others m hm).trans (h.others m hm), fun g m hlo hhi => (h'.gets g m hlo hhi).trans (h.gets g m hlo hhi)⟩
  · rw [h'.frame, h.frame]
  · rw [h'.self, h.self]

theorem Dev.latched_susLatch (cause tick : Nat) : d.Latched (d.susLatch n cause tick) n := by
  unfold Dev.susLatch
  dsimp only
  split
  · refine ⟨rfl, ?_, fun m hm => Dev.mon_setMon_ne _ _ hm, fun f m hlo hhi => ?_⟩
    · rw [Dev.mon_setMon_self]
    · have hset (e : Dev) (x : InMon) : (e.setMon n x).get f m = e.get f m := rfl
      rw [hset, Dev.get_put_ne _ F.IN_SUS_TICK_HI.CAUSE f cause n m hhi,
        Dev.get_put64_ne (lo := F.IN_SUS_TICK_LO.TICK_LO) (hi := F.IN_SUS_TICK_HI.TICK_HI) d tick n f m hlo hhi]
  · exact Dev.Latched.refl d n

/-! ## Activity windows (R106, R107) -/

theorem Dev.windowLen_atCycle (c w : Nat) : (d.atCycle c).windowLen n w = d.windowLen n w := by
  have hget (f : Fld) (m : Nat) : (d.atCycle c).get f m = d.get f m := Dev.get_congr _ _ rfl f m
  have hnom : (d.atCycle c).inNom n = d.inNom n := rfl
  unfold Dev.windowLen
  rw [hget, hnom]

theorem Dev.activityMissed_of_due {c f : Nat} (hen : d.inEnabled n = true) (hfrom : (d.mon n).windowFrom = some f)
    (hdue : f + d.windowLen n (d.mon n).winTol ≤ d.tick * 2500 + 2 * c + 2) : d.activityMissed n c =
    ((d.atCycle c).windowMissed n).windowOpen n (f + d.windowLen n (d.mon n).winTol) := by
  have hcycle : ({ d with cycle := c } : Dev) = d.atCycle c := rfl
  have hmon : (d.atCycle c).mon n = d.mon n := rfl
  have htick : (d.atCycle c).tick = d.tick := rfl
  have hen' : (d.atCycle c).inEnabled n = true := hen
  have hlen := Dev.windowLen_atCycle (d := d) (n := n) c (d.mon n).winTol
  unfold Dev.activityMissed
  rw [hcycle]
  generalize d.atCycle c = y at *
  have hwindow : y.windowDue n (d.tick * 2500 + 2 * c + 2) = true := by
    unfold Dev.windowDue
    rw [hen', hmon, hfrom, Bool.true_and]
    dsimp only
    rw [hlen, decide_eq_true hdue]
  dsimp only
  rw [htick, if_pos hwindow, hmon, hfrom, hlen, Option.getD_some]

/-- R107: the bucket of a missed window, and ACT_FAIL at REJECT. -/
def Dev.missedMon (d : Dev) (n : Nat) : InMon :=
  let x := d.mon n
  let b := min 255 (x.bucket + d.get F.IN_ACT.FILL n)
  let sets := !x.actFail && decide (d.get F.IN_ACT.REJECT n ≤ b)
  { x with
    bucket := b, riseFrom := if x.bucket = x.lowest then d.tick else x.riseFrom
    actFail := x.actFail || sets, actSeen := x.actSeen || sets }

theorem Dev.latched_windowMissed : (d.setMon n (d.missedMon n)).Latched (d.windowMissed n) n ∧
    ((d.mon n).actFail = true → d.windowMissed n = d.setMon n (d.missedMon n)) := by
  have heq : d.windowMissed n = if !(d.mon n).actFail && decide (d.get F.IN_ACT.REJECT n ≤ min 255 ((d.mon n).bucket + d.get F.IN_ACT.FILL n)) then
      (d.setMon n (d.missedMon n)).susLatch n 2 (if (d.mon n).bucket = (d.mon n).lowest then d.tick else (d.mon n).riseFrom)
      else d.setMon n (d.missedMon n) := rfl
  rw [heq]
  refine ⟨?_, fun hfail => if_neg ?_⟩
  · split
    · exact Dev.latched_susLatch _ _
    · exact Dev.Latched.refl _ n
  · rw [hfail]
    exact Bool.false_ne_true

theorem Dev.windowMissed_shows {f c : Nat} {e : Dev} (he : ((d.atCycle c).windowMissed n).windowOpen n f = e) :
    (e.mon n).bucket = min 255 ((d.mon n).bucket + d.get F.IN_ACT.FILL n) ∧
    (e.mon n).actFail = ((d.mon n).actFail || decide (d.get F.IN_ACT.REJECT n ≤ min 255 ((d.mon n).bucket + d.get F.IN_ACT.FILL n))) ∧
    (e.mon n).windowFrom = some f ∧ (e.mon n).winTol = d.get F.IN_ACT.TOL n ∧ (e.mon n).present = (d.mon n).present ∧
    (e.mon n).edges = (d.mon n).edges ∧ (e.mon n).gateFirst = (d.mon n).gateFirst ∧ (∀ m, m ≠ n → e.mon m = d.mon m) ∧
    e = { d with regs := e.regs, mons := e.mons, cycle := c } ∧ ((d.mon n).actFail = true → e.regs = d.regs) := by
  obtain ⟨hlatched, hkept⟩ := Dev.latched_windowMissed (d := d.atCycle c) (n := n)
  have hlo : R.IN_ACT.key n ≠ R.IN_SUS_TICK_LO.key n := by
    have h1 : R.IN_ACT.key n = R.IN_ACT.base + R.IN_ACT.stride * n := rfl
    have h2 : R.IN_SUS_TICK_LO.key n = R.IN_SUS_TICK_LO.base + R.IN_SUS_TICK_LO.stride * n := rfl
    rw [h1, h2]
    exact fun h => absurd (Nat.add_right_cancel h) (by decide)
  have hhi : R.IN_ACT.key n ≠ R.IN_SUS_TICK_HI.key n := by
    have h1 : R.IN_ACT.key n = R.IN_ACT.base + R.IN_ACT.stride * n := rfl
    have h2 : R.IN_SUS_TICK_HI.key n = R.IN_SUS_TICK_HI.base + R.IN_SUS_TICK_HI.stride * n := rfl
    rw [h1, h2]
    exact fun h => absurd (Nat.add_right_cancel h) (by decide)
  have htol := hlatched.gets F.IN_ACT.TOL n hlo hhi
  generalize (d.atCycle c).windowMissed n = g at *
  have hmon : g.mon n = { (d.atCycle c).missedMon n with susValid := (g.mon n).susValid } :=
    hlatched.self.trans (congrArg (fun x : InMon => { x with susValid := (g.mon n).susValid }) (Dev.mon_setMon_self ..))
  have hopen : e.mon n = { g.mon n with windowFrom := some f, winTol := g.get F.IN_ACT.TOL n } := by
    rw [← he]
    exact Dev.mon_setMon_self ..
  have hfail : ((d.mon n).actFail || (!(d.mon n).actFail && decide (d.get F.IN_ACT.REJECT n ≤ min 255 ((d.mon n).bucket + d.get F.IN_ACT.FILL n)))) =
      ((d.mon n).actFail || decide (d.get F.IN_ACT.REJECT n ≤ min 255 ((d.mon n).bucket + d.get F.IN_ACT.FILL n))) := by
    cases (d.mon n).actFail <;> rfl
  rw [hopen, hmon]
  refine ⟨rfl, hfail, rfl, htol, rfl, rfl, rfl, fun m hm => ?_, ?_, fun hactive => ?_⟩
  · rw [← he]
    exact (Dev.mon_setMon_ne _ _ hm).trans ((hlatched.others m hm).trans (Dev.mon_setMon_ne _ _ hm))
  · have hframe : g = { d with regs := g.regs, mons := g.mons, cycle := c } := hlatched.frame
    have hset (y : Dev) (x : InMon) : (y.setMon n x) = { y with regs := (y.setMon n x).regs, mons := (y.setMon n x).mons } := rfl
    rw [← he]
    unfold Dev.windowOpen
    rw [hset, hframe]
  · have hregs : g.regs = d.regs := by
      rw [hkept hactive]
      rfl
    rw [← he]
    exact hregs

theorem Dev.observation_completes {f : Nat} (hfrom : (d.mon n).obsFrom = some f) (hstate : d.inState n = observeS)
    (hdue : f + d.obsLen n ≤ d.tick + 1) : d.observation n = d.setMon n { d.mon n with obsDone := true } := by
  unfold Dev.observation
  dsimp only
  rw [hfrom]
  exact if_pos ⟨hstate, hdue⟩

/-! ## Frequency gates (R108, R109) -/

/-- R108: the offset that a gate on the XO measured. -/
theorem Dev.gateOffset_eq {first : Nat × Nat} (hbasis : d.get F.IN_MON_CFG.BASIS n = 0) (hfirst : (d.mon n).gateFirst = some first)
    (hlt : first.1 < (d.mon n).gateLast) (hk : 1 ≤ (d.mon n).gateK) (hnom : 0 < d.inNom n) {e : Int} {m : Nat}
    (he : e = (d.mon n).gateK * (d.get F.IN_PRESCALE.DIV n * 2 ^ 48 * 10 ^ 9)) (hm : m = ((d.mon n).gateLast - first.1) * d.inNom n) :
    d.gateOffset n = some (satSigned 32 (roundDiv (10 ^ 9 * (e - m)) m)) := by
  have hperiods : e = (((d.mon n).gateK * d.inPeriodNum n : Nat) : Int) := by
    rw [he]
    unfold Dev.inPeriodNum
    push_cast
    rfl
  have hmax : max 1 (d.inNom n) = d.inNom n := Nat.max_eq_right hnom
  have hgate : ¬ ((d.mon n).gateK < 1 ∨ (d.mon n).gateLast - first.1 = 0) := by omega
  unfold Dev.gateOffset
  dsimp only
  rw [hbasis, hfirst, Option.map_some, Option.getD_some, if_neg hgate, if_pos rfl, hmax, hperiods, hm]

/-- R109: an offset beyond the reject limits. -/
def Dev.freqOut (d : Dev) (n : Nat) (off : Int) : Prop := off < d.gets F.IN_FREJ_MIN.LIMIT n ∨ d.gets F.IN_FREJ_MAX.LIMIT n < off

/-- R109: what a valid result makes of an input's monitors. -/
theorem Dev.latched_freqJudge (off : Int) : ∃ fail : Bool, (d.freqOut n off → fail = true) ∧
    (¬ d.freqOut n off → d.gets F.IN_FACC_MIN.LIMIT n ≤ off ∧ off ≤ d.gets F.IN_FACC_MAX.LIMIT n → fail = false) ∧
    (d.setMon n { d.mon n with fmonValid := true, fmonOffset := ofSigned 32 off, freqFail := fail }).Latched (d.freqJudge n off) n := by
  unfold Dev.freqJudge
  extract_lets x out in' fail e
  refine ⟨fail, fun hout => if_pos hout, fun hno hin => (if_neg hno).trans (if_pos hin), ?_⟩
  have he : e = d.setMon n { x with fmonValid := true, fmonOffset := ofSigned 32 off, freqFail := fail } := rfl
  rw [← he]
  split
  · exact Dev.latched_susLatch _ _
  · exact Dev.Latched.refl e n

theorem Dev.mon_gateStart (from' : Nat) : ∃ bad, (d.gateStart n from').mon n = { d.mon n with
    gateFrom := from', gateFirst := none, gateLast := 0, gateK := 0,
    basisFirst := none, basisLast := 0, basisK := 0, basisBad := bad, gateKept := (none, 0, 0), basisKept := (none, 0, 0) } :=
  ⟨_, Dev.mon_setMon_self ..⟩

theorem Dev.basisMark_of_xo (hbasis : d.get F.IN_MON_CFG.BASIS n = 0) : d.basisMark n = d := by
  unfold Dev.basisMark
  dsimp only
  rw [hbasis]
  exact if_neg Bool.false_ne_true

theorem Dev.freqGateEnd_of_offset {off : Int} (hdue : d.gateDue n = true) (hoff : d.gateOffset n = some off) :
    d.freqGateEnd n = (d.freqJudge n off).gateStart n (d.tick + 1) := by
  obtain ⟨fail, -, -, hlatched⟩ := Dev.latched_freqJudge (d := d) (n := n) off
  have htick : (d.freqJudge n off).tick = d.tick := by
    rw [hlatched.frame]
    rfl
  unfold Dev.freqGateEnd
  rw [if_pos hdue, hoff]
  dsimp only
  rw [htick]

/-- R108, R109: the end of a gate on the XO. -/
theorem Dev.freqGateEnd_shows {off : Int} {e : Dev} (he : (d.freqJudge n off).gateStart n (d.tick + 1) = e) :
    (e.mon n).fmonOffset = ofSigned 32 off ∧ (e.mon n).fmonValid = true ∧ (d.freqOut n off → (e.mon n).freqFail = true) ∧
    (¬ d.freqOut n off → d.gets F.IN_FACC_MIN.LIMIT n ≤ off ∧ off ≤ d.gets F.IN_FACC_MAX.LIMIT n → (e.mon n).freqFail = false) ∧
    (e.mon n).gateFrom = d.tick + 1 ∧ (e.mon n).gateFirst = none ∧ (e.mon n).gateK = 0 := by
  obtain ⟨fail, hout, hin, hlatched⟩ := Dev.latched_freqJudge (d := d) (n := n) off
  obtain ⟨bad, hstart⟩ := Dev.mon_gateStart (d := d.freqJudge n off) (n := n) (d.tick + 1)
  rw [he, hlatched.self, Dev.mon_setMon_self] at hstart
  rw [hstart]
  exact ⟨rfl, rfl, hout, hin, rfl, rfl, rfl⟩

/-! ## Suspect gates (R110-R112) -/

theorem Dev.latched_susCauses (first : Nat) (step : Option Nat) (jump : Bool) : d.Latched (d.susCauses n first step jump) n := by
  have hjump : d.Latched (if jump then d.susLatch n 0 first else d) n := by
    split
    · exact Dev.latched_susLatch _ _
    · exact Dev.Latched.refl d n
  unfold Dev.susCauses
  extract_lets e
  split
  · exact hjump.trans (Dev.latched_susLatch _ _)
  · exact hjump

/-- R111: a judged gate of an input that is not suspect. -/
theorem Dev.susJudge_shows {first : Nat} {step : Option Nat} {jump : Bool} {fit : Int × Int} (hconfirm : (d.mon n).confirm = false)
    (hsuspect : (d.mon n).suspect = false) {e : Dev} (he : d.susJudge n first step jump fit = e) :
    (e.mon n).suspect = (step.isSome || jump) ∧ (e.mon n).samples = (d.mon n).samples ∧
    ((step.isSome || jump) = false → (e.mon n).baseline = some (fit.1, fit.2, first)) := by
  have heq : d.susJudge n first step jump fit = if step.isSome || jump then
      (d.setMon n { d.mon n with suspect := true, confirms := 0 }).susCauses n first step jump
      else d.setMon n { d.mon n with baseline := some (fit.1, fit.2, first) } := by
    unfold Dev.susJudge
    dsimp only
    rw [hconfirm, hsuspect]
    rfl
  rw [heq] at he
  cases hdiverges : step.isSome || jump with
  | true =>
    rw [if_pos hdiverges] at he
    have hlatched := Dev.latched_susCauses (d := d.setMon n { d.mon n with suspect := true, confirms := 0 }) (n := n) first step jump
    rw [he] at hlatched
    rw [hlatched.self, Dev.mon_setMon_self]
    exact ⟨rfl, rfl, fun h => nomatch h⟩
  | false =>
    rw [hdiverges] at he
    rw [← he]
    have hmon : (if false = true then (d.setMon n { d.mon n with suspect := true, confirms := 0 }).susCauses n first step jump
        else d.setMon n { d.mon n with baseline := some (fit.1, fit.2, first) }).mon n = { d.mon n with baseline := some (fit.1, fit.2, first) } :=
      Dev.mon_setMon_self ..
    rw [hmon]
    exact ⟨hsuspect, rfl, fun _ => rfl⟩

/-- R110: a sample departs from the baseline. -/
theorem Dev.stepTick_isSome {line : Int × Int × Nat} (hline : (d.mon n).baseline = some line) (samples : List (Nat × Int)) :
    (d.stepTick n samples).isSome = true ↔ ∃ p ∈ samples, d.get F.IN_SUS_CFG.PSTEP n * 2 ^ 32 <
      (p.2 - (line.2.1 + line.1 * ((p.1 : Int) - line.2.2) / 2 ^ 16)).natAbs := by
  unfold Dev.stepTick
  rw [hline]
  dsimp only
  rw [Option.isSome_map, List.find?_isSome]
  refine exists_congr fun p => and_congr_right fun _ => ?_
  exact decide_eq_true_iff

/-- R110: the device whose gate's samples are taken. -/
def Dev.susTaken (d : Dev) (n : Nat) : Dev := d.setMon n { d.mon n with samples := [], susFrom := d.tick + 1 }

/-- R110, R111: a gate of two samples or more beside a baseline. -/
theorem Dev.suspectGateEnd_judges {line : Int × Int × Nat} {g : Nat} {samples : List (Nat × Int)} (hdue : d.susGateDue n = true)
    (hline : (d.mon n).baseline = some line) (hslow : d.slowInput n = false) (hg : g = d.get F.IN_SUS_CFG.SUS_GATE n)
    (hsamples : samples = (d.mon n).samples.filter fun p => d.tick + 1 - g ≤ p.1) (htwo : 2 ≤ samples.length) :
    d.suspectGateEnd n = (d.susTaken n).susJudge n (d.tick + 1 - g) ((d.susTaken n).stepTick n samples)
      (decide ((d.susTaken n).get F.IN_SUS_CFG.FJUMP n * 2 ^ 48 < ((Config.lineFit samples (d.tick + 1 - g)).1 - line.1).natAbs * 10 ^ 6))
      (Config.lineFit samples (d.tick + 1 - g)) := by
  subst hg hsamples
  have hslow' : (d.susTaken n).slowInput n = false := hslow
  have htaken : d.setMon n { d.mon n with samples := [], susFrom := d.tick + 1 } = d.susTaken n := rfl
  have hline' : ((d.susTaken n).mon n).baseline = some line := (congrArg InMon.baseline (Dev.mon_setMon_self ..)).trans hline
  unfold Dev.suspectGateEnd
  rw [if_pos hdue]
  dsimp only
  rw [htaken, hslow', if_neg Bool.false_ne_true]
  unfold Dev.susFast
  dsimp only
  rw [if_neg (Nat.not_lt.mpr htwo), hline']

/-- R110: what the gate leaves, by the statement's own conditions. -/
theorem Dev.suspectGateEnd_shows {line : Int × Int × Nat} {g : Nat} {samples : List (Nat × Int)} (hdue : d.susGateDue n = true)
    (hline : (d.mon n).baseline = some line) (hconfirm : (d.mon n).confirm = false) (hsuspect : (d.mon n).suspect = false)
    (hslow : d.slowInput n = false) (hg : g = d.get F.IN_SUS_CFG.SUS_GATE n)
    (hsamples : samples = (d.mon n).samples.filter fun p => d.tick + 1 - g ≤ p.1) (htwo : 2 ≤ samples.length)
    {fit : Int × Int} (hfit : fit = Config.lineFit samples (d.tick + 1 - g)) {steps jumps : Prop}
    (hsteps : steps ↔ ∃ p ∈ samples, d.get F.IN_SUS_CFG.PSTEP n * 2 ^ 32 <
      (p.2 - (line.2.1 + line.1 * ((p.1 : Int) - line.2.2) / 2 ^ 16)).natAbs)
    (hjumps : jumps ↔ d.get F.IN_SUS_CFG.FJUMP n * 2 ^ 48 < (fit.1 - line.1).natAbs * 10 ^ 6) {e : Dev} (he : d.suspectGateEnd n = e) :
    ((e.mon n).suspect = true ↔ steps ∨ jumps) ∧ (e.mon n).samples = [] ∧
    (¬ (steps ∨ jumps) → (e.mon n).baseline = some (fit.1, fit.2, d.tick + 1 - g)) := by
  have hmon : (d.susTaken n).mon n = { d.mon n with samples := [], susFrom := d.tick + 1 } := Dev.mon_setMon_self ..
  have hget (f : Fld) : (d.susTaken n).get f n = d.get f n := Dev.get_congr _ _ rfl f n
  have hstep := Dev.stepTick_isSome (d := d.susTaken n) (n := n) ((congrArg InMon.baseline hmon).trans hline) samples
  rw [hget, ← hsteps] at hstep
  rw [Dev.suspectGateEnd_judges hdue hline hslow hg hsamples htwo, ← hfit, hget] at he
  obtain ⟨hsus, hnone, hbase⟩ := Dev.susJudge_shows ((congrArg InMon.confirm hmon).trans hconfirm)
    ((congrArg InMon.suspect hmon).trans hsuspect) he
  have hiff : (((d.susTaken n).stepTick n samples).isSome ||
      decide (d.get F.IN_SUS_CFG.FJUMP n * 2 ^ 48 < (fit.1 - line.1).natAbs * 10 ^ 6)) = true ↔ steps ∨ jumps := by
    rw [Bool.or_eq_true, hstep, decide_eq_true_iff, ← hjumps]
  refine ⟨by rw [hsus, hiff], hnone.trans (congrArg InMon.samples hmon), fun hno => hbase (Bool.eq_false_iff.mpr fun h => hno (hiff.mp h))⟩

end

/-- Settles O29: each monitor's event by its condition; what the suspect latch may change keeps the rest (`Dev.Latched`). -/
theorem inputMonitorEvents : Obligations.InputMonitorEvents := by
  refine ⟨fun n c s f => ?windows, fun n s first line => ?gates⟩
  case windows =>
    intro d x w
    have hmissed : Gives (.activityWindowMissed n c) s (d.activityMissed n c) := rfl
    have hobserved : Gives (.observationComplete n) s (d.observation n) := rfl
    clear_value d
    refine ⟨fun hen hfrom hdue => ?_, fun hfrom hstate hdue => hobserved.of_eq (Dev.observation_completes hfrom hstate hdue)⟩
    obtain ⟨hbucket, hfail, hwindow, htol, hpresent, hedges, hgate, hothers, hframe, hregs⟩ := Dev.windowMissed_shows (d := d) (n := n)
      (f := f + w) (c := c) rfl
    exact ⟨_, hmissed.of_eq (Dev.activityMissed_of_due hen hfrom hdue), hbucket, hfail, hwindow, htol, hpresent, hedges, hgate,
      fun m hm => hothers m fun heq => hm (Fin.ext heq), hframe, hregs⟩
  case gates =>
    intro last
    refine ⟨?frequency, ?suspect⟩
    case frequency =>
      intro d x hdue hbasis hfirst hlt hk hnom e m off low high
      have hgives : Gives (.frequencyGateEnd n) s ((d.basisMark n).freqGateEnd n) := rfl
      have hoff : d.gateOffset n = some off := Dev.gateOffset_eq hbasis hfirst hlt hk hnom rfl rfl
      rw [Dev.basisMark_of_xo hbasis] at hgives
      exact ⟨_, hgives.of_eq (Dev.freqGateEnd_of_offset hdue hoff), Dev.freqGateEnd_shows rfl⟩
    case suspect =>
      intro d x g samples hdue hline hconfirm hsuspect hslow htwo fit steps jumps
      have hgives : Gives (.suspectGateEnd n) s (d.suspectGateEnd n) := rfl
      exact ⟨_, hgives, Dev.suspectGateEnd_shows hdue hline hconfirm hsuspect hslow rfl rfl htwo rfl Iff.rfl Iff.rfl rfl⟩

end Sys2Proof.Machine
end

section
/-! SUPPORT. The memories of the device (R4): what keeps their canonical form. -/

namespace Sys2Proof.Machine

/-- R4: the one form of a memory whose unlisted addresses read `blank`. -/
def Canonical (blank : Byte) (m : Memory) : Prop := m.wf blank

@[simp] theorem canonical_nil (blank : Byte) : Canonical blank [] := ⟨List.Pairwise.nil, fun _ h => nomatch h⟩

@[simp] theorem Canonical.writeN {blank : Byte} {m : Memory} (h : Canonical blank m) (a : Nat) (l : List Byte) :
    Canonical blank (Memory.writeN blank m a l) := Memory.writeN_wf blank l m a h

@[simp] theorem Canonical.filter {blank : Byte} {m : Memory} (h : Canonical blank m) (p : Nat × Byte → Bool) :
    Canonical blank (List.filter p m) := Memory.filter_wf blank m p h

@[simp] theorem Canonical.freeFill {m : Memory} (h : Canonical 0#8 m) (a n free : Nat) : Canonical 0#8 (freeFill m a n free) :=
  freeFill_wf m a n free h

/-- The memories of the device: the Vat, the Ream, the clusters' and the engines'. -/
def Dev.mems (d : Dev) : Memory × Memory × Tbl Cluster × Tbl Engine := (d.vat.mem, d.ream.mem, d.cluss, d.engs)

@[simp] theorem Dev.mems_fields (d : Dev) : (d.vat.mem, d.ream.mem, d.cluss, d.engs) = d.mems := (rfl)

/-- The memories of an explicit state: with this `simp` reads them off a state of which any other field was written. -/
@[simp] theorem Dev.mems_mk
    regs acc staged latch half tick tickOn cycle free fresh freshAt outs engs tasks tins cluss dispatchOn lastStart
    ageFrom vat grants stagedTabs flt mons sels loops slals syns outcs bankBad supplyBad rrefs rwords sensors hot xoHz
    time ctxs evts pi tdcs mss sts trs frm kl ream boot host test base :
    (Dev.mk regs acc staged latch half tick tickOn cycle free fresh freshAt outs engs tasks tins cluss dispatchOn
      lastStart ageFrom vat grants stagedTabs flt mons sels loops slals syns outcs bankBad supplyBad rrefs rwords
      sensors hot xoHz time ctxs evts pi tdcs mss sts trs frm kl ream boot host test base).mems =
      (vat.mem, ream.mem, cluss, engs) := (rfl)

@[simp] theorem Dev.mems_ite (c : Prop) [Decidable c] (d e : Dev) : (if c then d else e).mems = if c then d.mems else e.mems :=
  apply_ite ..

@[simp] theorem Dev.foldl_mems {α : Type} (f : Dev → α → Dev) (hf : ∀ d x, (f d x).mems = d.mems) (l : List α) (d : Dev) :
    (l.foldl f d).mems = d.mems := by
  induction l generalizing d with
  | nil => rfl
  | cons x r ih => exact (ih _).trans (hf d x)

@[simp] theorem Dev.foldl_fst_mems {α β : Type} (f : Dev × β → α → Dev × β) (hf : ∀ p x, (f p x).1.mems = p.1.mems)
    (l : List α) (p : Dev × β) : (l.foldl f p).1.mems = p.1.mems := by
  induction l generalizing p with
  | nil => rfl
  | cons x r ih => exact (ih _).trans (hf p x)

/-- The canonical form of all the memories. -/
def MemsOk (m : Memory × Memory × Tbl Cluster × Tbl Engine) : Prop :=
  Canonical 0#8 m.1 ∧ Canonical 0xFF#8 m.2.1 ∧ (∀ c ∈ m.2.2.1, Canonical 0#8 c.2.istore ∧ Canonical 0#8 c.2.cmem) ∧
  ∀ e ∈ m.2.2.2, Canonical 0#8 e.2.lmem

theorem Dev.memoriesOk_iff (d : Dev) : d.memoriesOk ↔ MemsOk d.mems := Iff.rfl

theorem MemsOk.memoriesOk {d : Dev} (h : MemsOk d.mems) : d.memoriesOk := d.memoriesOk_iff.mpr h

@[simp] theorem memsOk_ite (c : Prop) [Decidable c] (m n : Memory × Memory × Tbl Cluster × Tbl Engine) :
    MemsOk (if c then m else n) ↔ (c → MemsOk m) ∧ (¬c → MemsOk n) := by split <;> simp [*]

section
variable {d : Dev} (h : MemsOk d.mems)
include h

@[simp] theorem MemsOk.eng (e : Nat) : Canonical 0#8 (d.eng e).lmem := d.memoriesOk_eng e h

@[simp] theorem MemsOk.istore (c : Nat) : Canonical 0#8 (d.clus c).istore := (d.memoriesOk_clus c h).1

@[simp] theorem MemsOk.cmem (c : Nat) : Canonical 0#8 (d.clus c).cmem := (d.memoriesOk_clus c h).2

@[simp] theorem MemsOk.vat : Canonical 0#8 d.vat.mem := h.1

@[simp] theorem MemsOk.ream : Canonical 0xFF#8 d.ream.mem := h.2.1

@[simp] theorem MemsOk.setEng {x : Engine} (hx : Canonical 0#8 x.lmem) (e : Nat) : MemsOk (d.setEng e x).mems :=
  d.memoriesOk_setEng e x h hx

/-- An engine's state that keeps its local memory. -/
theorem MemsOk.setEng_same {e : Nat} {x : Engine} (hx : x.lmem = (d.eng e).lmem := by rfl) : MemsOk (d.setEng e x).mems :=
  h.setEng (hx ▸ h.eng e) e

@[simp] theorem MemsOk.setClus {x : Cluster} (hi : Canonical 0#8 x.istore) (hm : Canonical 0#8 x.cmem) (c : Nat) :
    MemsOk (d.setClus c x).mems := d.memoriesOk_setClus c x h hi hm

/-- A cluster's state that keeps its two memories. -/
theorem MemsOk.setClus_same {c : Nat} {x : Cluster} (hi : x.istore = (d.clus c).istore := by rfl)
    (hm : x.cmem = (d.clus c).cmem := by rfl) : MemsOk (d.setClus c x).mems :=
  h.setClus (hi ▸ h.istore c) (hm ▸ h.cmem c) c

/-- A state whose four memories are those of another. -/
theorem MemsOk.same {e : Dev} (hv : e.vat.mem = d.vat.mem := by rfl) (hr : e.ream.mem = d.ream.mem := by rfl)
    (hc : e.cluss = d.cluss := by rfl) (he : e.engs = d.engs := by rfl) : MemsOk e.mems := by
  simpa only [Dev.mems, hv, hr, hc, he] using h

@[simp] theorem MemsOk.withVat {m : Memory} (hm : Canonical 0#8 m) : MemsOk (m, d.ream.mem, d.cluss, d.engs) := ⟨hm, h.2⟩

@[simp] theorem MemsOk.withReam {m : Memory} (hm : Canonical 0xFF#8 m) : MemsOk (d.vat.mem, m, d.cluss, d.engs) :=
  ⟨h.1, hm, h.2.2⟩

@[simp] theorem MemsOk.withEngs {t : Tbl Engine} (ht : ∀ i x, (i, x) ∈ t → Canonical 0#8 x.lmem) :
    MemsOk (d.vat.mem, d.ream.mem, d.cluss, t) := ⟨h.1, h.2.1, h.2.2.1, fun e he => ht e.1 e.2 he⟩

@[simp] theorem MemsOk.withCluss {t : Tbl Cluster}
    (ht : ∀ i x, (i, x) ∈ t → Canonical 0#8 x.istore ∧ Canonical 0#8 x.cmem) :
    MemsOk (d.vat.mem, d.ream.mem, t, d.engs) := ⟨h.1, h.2.1, fun c hc => ht c.1 c.2 hc, h.2.2.2⟩

/-- Every cluster changed by a function that keeps its two memories. -/
theorem MemsOk.mapCluss {f : Nat × Cluster → Nat × Cluster} (hi : ∀ c, (f c).2.istore = c.2.istore)
    (hm : ∀ c, (f c).2.cmem = c.2.cmem) : MemsOk (d.vat.mem, d.ream.mem, d.cluss.map f, d.engs) := by
  refine h.withCluss fun i x hx => ?_
  obtain ⟨c, hc, hcx⟩ := List.mem_map.mp hx
  have hok := h.2.2.1 c hc
  have hist := hi c
  have hcm := hm c
  rw [hcx] at hist hcm
  exact ⟨hist ▸ hok.1, hcm ▸ hok.2⟩

@[simp] theorem MemsOk.foldl {α : Type} {f : Dev → α → Dev} (hf : ∀ d x, MemsOk d.mems → MemsOk (f d x).mems) (l : List α) :
    MemsOk (l.foldl f d).mems := by
  induction l generalizing d with
  | nil => exact h
  | cons x r ih => exact ih (hf d x h)

end

/-- A fold of steps of which each keeps the form, beside another result. -/
theorem MemsOk.foldl_fst {α β : Type} {f : Dev × β → α → Dev × β} (hf : ∀ p x, MemsOk p.1.mems → MemsOk (f p x).1.mems)
    (l : List α) (p : Dev × β) (h : MemsOk p.1.mems) : MemsOk (l.foldl f p).1.mems := by
  induction l generalizing p with
  | nil => exact h
  | cons x r ih => exact ih _ (hf p x h)

theorem MemsOk.mem_engs {d : Dev} (h : MemsOk d.mems) (i : Nat) (x : Engine) (hx : (i, x) ∈ d.engs) : Canonical 0#8 x.lmem :=
  h.2.2.2 (i, x) hx

end Sys2Proof.Machine
end

section
/-! SUPPORT. The memories under the shared operations: registers, events, traces, faults, and the Vat. -/

namespace Sys2Proof.Machine

/-! ## `Machine/Ops.lean` -/

@[simp] theorem Dev.wr_mems (d : Dev) (r : Reg) (v : Nat) (n : Nat) : (d.wr r v n).mems = d.mems := (rfl)

@[simp] theorem Dev.put_mems (d : Dev) (f : Fld) (v : Nat) (n : Nat) : (d.put f v n).mems = d.mems := (rfl)

@[simp] theorem Dev.putB_mems (d : Dev) (f : Fld) (v : Bool) (n : Nat) : (d.putB f v n).mems = d.mems := (rfl)

@[simp] theorem Dev.incSat_mems (d : Dev) (f : Fld) (n : Nat) (by' : Nat) : (d.incSat f n by').mems = d.mems := (rfl)

@[simp] theorem Dev.incWrap_mems (d : Dev) (f : Fld) (n : Nat) (by' : Nat) : (d.incWrap f n by').mems = d.mems := (rfl)

@[simp] theorem Dev.put64_mems (d : Dev) (lo hi : Fld) (v : Nat) (n : Nat) : (d.put64 lo hi v n).mems = d.mems := (rfl)

@[simp] theorem Dev.freeNext_mems (d : Dev) : d.freeNext.mems = d.mems := (rfl)

@[simp] theorem Dev.emit_mems (d : Dev) (o : Out) : (d.emit o).mems = d.mems := (rfl)

@[simp] theorem Dev.pinSee_mems (d : Dev) (i : Nat) (v : Bool) : (d.pinSee i v).mems = d.mems := (rfl)

@[simp] theorem Dev.setTask_mems (d : Dev) (t : Nat) (x : Task) : (d.setTask t x).mems = d.mems := (rfl)

@[simp] theorem Dev.setTin_mems (d : Dev) (i : Nat) (x : TaskIn) : (d.setTin i x).mems = d.mems := (rfl)

@[simp] theorem Dev.noteSet_mems (d : Dev) (key mask : Nat) : (d.noteSet key mask).mems = d.mems := (rfl)

@[simp] theorem Dev.setW1c_mems (d : Dev) (f : Fld) (n : Nat) : (d.setW1c f n).mems = d.mems := (rfl)

/-! ## `Machine/Events.lean` -/

@[simp] theorem Dev.makeReady_mems (d : Dev) (t : Nat) : (d.makeReady t).mems = d.mems := by simp [Dev.makeReady]

@[simp] theorem Dev.taskEvent_mems (d : Dev) (e i source : Nat) : (d.taskEvent e i source).mems = d.mems := by simp [Dev.taskEvent]

@[simp] theorem Dev.event_mems (d : Dev) (n : Nat) : (d.event n).mems = d.mems := by simp [Dev.event]

@[simp] theorem Dev.setOutc_mems (d : Dev) (k : Nat) (x : OutCh) : (d.setOutc k x).mems = d.mems := (rfl)

@[simp] theorem Dev.setSyn_mems (d : Dev) (n : Nat) (x : Syn) : (d.setSyn n x).mems = d.mems := (rfl)

@[simp] theorem Dev.safeEnter_mems (d : Dev) (k : Nat) : (d.safeEnter k).mems = d.mems := by simp [Dev.safeEnter]

@[simp] theorem Dev.safeEnterFor_mems (d : Dev) (source : Nat) : (d.safeEnterFor source).mems = d.mems := by simp [Dev.safeEnterFor]

/-! ## `Machine/TraceOps.lean` -/

@[simp] theorem Dev.setTr_mems (d : Dev) (r : Nat) (x : TraceRec) : (d.setTr r x).mems = d.mems := (rfl)

@[simp] theorem Dev.trProduce_mems (d : Dev) (r : Nat) (bytes : List Byte) : (d.trProduce r bytes).mems = d.mems := by
  simp [Dev.trProduce]

@[simp] theorem Dev.trStream_mems (d : Dev) (kind src : Nat) (bytes : List Byte) : (d.trStream kind src bytes).mems = d.mems := by
  simp [Dev.trStream]

@[simp] theorem Dev.trPre_mems (d : Dev) (r : Nat) : (d.trPre r).mems = d.mems := (rfl)

@[simp] theorem Dev.trPost_mems (d : Dev) (r src tick s32 : Nat) (queued : Bool) : (d.trPost r src tick s32 queued).mems = d.mems :=
  (rfl)

@[simp] theorem Dev.trMiss_mems (d : Dev) (r src : Nat) : (d.trMiss r src).1.mems = d.mems := by simp [Dev.trMiss]

@[simp] theorem Dev.trTrigger_mems (d : Dev) (r src : Nat) : (d.trTrigger r src).1.mems = d.mems := by
  unfold Dev.trTrigger
  split <;> simp

@[simp] theorem Dev.trSource_mems (d : Dev) (trig ix : Nat) : (d.trSource trig ix).1.mems = d.mems := by simp [Dev.trSource]

/-! ## `Machine/FaultOps.lean` -/

@[simp] theorem Dev.bar2Put_mems (d : Dev) (f x : Nat) (b : Byte) : (d.bar2Put f x b).mems = d.mems := (rfl)

@[simp] theorem Dev.msixMark_mems (d : Dev) (f v : Nat) (on : Bool) : (d.msixMark f v on).mems = d.mems := (rfl)

@[simp] theorem Dev.msixEmit_mems (d : Dev) (f v : Nat) : (d.msixEmit f v).mems = d.mems := (rfl)

@[simp] theorem Dev.msixSend_mems (d : Dev) (f v : Nat) : (d.msixSend f v).mems = d.mems := by simp [Dev.msixSend]

@[simp] theorem Dev.msixFlush_mems (d : Dev) (f : Nat) : (d.msixFlush f).mems = d.mems := by simp [Dev.msixFlush]

@[simp] theorem Dev.irqRefresh_mems (d : Dev) : d.irqRefresh.mems = d.mems := by simp [Dev.irqRefresh]

@[simp] theorem Dev.irqSet_mems (d : Dev) (f : Fld) : (d.irqSet f).mems = d.mems := by simp [Dev.irqSet]

@[simp] theorem Dev.logQueue_mems (d : Dev) (e : LogEntry) : (d.logQueue e).mems = d.mems := by simp [Dev.logQueue]

@[simp] theorem Dev.faultPulse_mems (d : Dev) : d.faultPulse.mems = d.mems := by simp [Dev.faultPulse]

@[simp] theorem Dev.framesStop_mems (d : Dev) : d.framesStop.mems = d.mems := (rfl)

@[simp] theorem Dev.enterStopped_mems (d : Dev) : d.enterStopped.mems = d.mems := by simp [Dev.enterStopped]

@[simp] theorem Dev.setEvt_mems (d : Dev) (p : Nat) (x : Evt) : (d.setEvt p x).mems = d.mems := (rfl)

@[simp] theorem Dev.evtDrive_mems (d : Dev) (p : Nat) (lvl : Bool) (at' : Int) : (d.evtDrive p lvl at').mems = d.mems := by
  simp [Dev.evtDrive]

@[simp] theorem Dev.evtFaults_mems (d : Dev) : d.evtFaults.mems = d.mems := by simp [Dev.evtFaults]

@[simp] theorem Dev.firstNote_mems (d : Dev) (s : Nat) : (d.firstNote s).mems = d.mems := by simp [Dev.firstNote]

@[simp] theorem Dev.detectOne_mems (d : Dev) (s inst detail : Nat) (forced : Bool) (wasActive : Bool) :
    (d.detectOne s inst detail forced wasActive).mems = d.mems := by
  simp [Dev.detectOne]

@[simp] theorem Dev.trMissed_mems (d : Dev) (rs : List Nat) : (d.trMissed rs).mems = d.mems := by simp [Dev.trMissed]

@[simp] theorem Dev.trHit_mems (d : Dev) (trig ix : Nat) : (d.trHit trig ix).mems = d.mems := by simp [Dev.trHit]

@[simp] theorem Dev.ueNote_mems (d : Dev) (w origin : Nat) : (d.ueNote w origin).mems = d.mems := (rfl)

@[simp] theorem Dev.detectHit_mems (d : Dev) (s inst detail : Nat) (forced : Bool) (wasActive : Bool) :
    (d.detectHit s inst detail forced wasActive).mems = d.mems := by
  simp [Dev.detectHit]

@[simp] theorem Dev.mapTouch_mems (d : Dev) : d.mapTouch.mems = d.mems := by
  unfold Dev.mapTouch
  dsimp only
  split <;> simp

@[simp] theorem Dev.detect_mems (d : Dev) (s inst detail : Nat) (forced : Bool) (wasActive : Bool) :
    (d.detect s inst detail forced wasActive).mems = d.mems := by
  simp [Dev.detect]

@[simp] theorem Dev.fault_mems (d : Dev) (s : Nat) (inst : Nat) (detail : Nat) : (d.fault s inst detail).mems = d.mems := by
  simp [Dev.fault]

@[simp] theorem Dev.levelOn_mems (d : Dev) (s : Nat) (inst : Nat) (detail : Nat) : (d.levelOn s inst detail).mems = d.mems := by
  simp [Dev.levelOn]

@[simp] theorem Dev.levelOff_mems (d : Dev) (s : Nat) (inst : Nat) : (d.levelOff s inst).mems = d.mems := (rfl)

@[simp] theorem Dev.levelSet_mems (d : Dev) (s inst : Nat) (on : Bool) : (d.levelSet s inst on).mems = d.mems := by
  simp [Dev.levelSet]

@[simp] theorem Dev.clearStatus_mems (d : Dev) (g mask : Nat) : (d.clearStatus g mask).mems = d.mems := by simp [Dev.clearStatus]

@[simp] theorem Dev.forceWrite_mems (d : Dev) (g w : Nat) : (d.forceWrite g w).mems = d.mems := by simp [Dev.forceWrite]

@[simp] theorem Dev.refuse_mems (d : Dev) (path off : Nat) (r : Reason) : (d.refuse path off r).mems = d.mems := by
  simp [Dev.refuse]

/-! ## `Machine/Vat.lean` -/

@[simp] theorem Dev.ueRecord_mems (d : Dev) (w origin : Nat) : (d.ueRecord w origin).mems = d.mems := by simp [Dev.ueRecord]

@[simp] theorem Dev.poisonKept_mems (d : Dev) : d.poisonKept.mems = d.mems := by simp [Dev.poisonKept]

@[simp] theorem Dev.ceCount_mems (d : Dev) : d.ceCount.mems = d.mems := by simp [Dev.ceCount]

@[simp] theorem Dev.eccWrite_mems (d : Dev) (a n w : Nat) : (d.eccWrite a n w).mems = d.mems := by simp [Dev.eccWrite]

@[simp] theorem Dev.vatStore_memsOk (d : Dev) (a : Nat) (l : List Byte) (h : MemsOk d.mems) : MemsOk (d.vatStore a l).mems := by
  simp [Dev.vatStore, h, h.vat]

@[simp] theorem Dev.vatPut_memsOk (d : Dev) (a n v : Nat) (h : MemsOk d.mems) : MemsOk (d.vatPut a n v).mems := by
  simp [Dev.vatPut, h]

@[simp] theorem Dev.eccRead_mems (d : Dev) (origin w : Nat) : (d.eccRead origin w).mems = d.mems := by simp [Dev.eccRead]

@[simp] theorem Dev.vatTouch_mems (d : Dev) (a n origin : Nat) : (d.vatTouch a n origin).mems = d.mems := by simp [Dev.vatTouch]

@[simp] theorem Dev.vatPoison_memsOk (d : Dev) (a : Nat) (l : List Byte) (h : MemsOk d.mems) : MemsOk (d.vatPoison a l).mems := by
  simp [Dev.vatPoison, h, h.vat]

@[simp] theorem Dev.qCheck_mems (d : Dev) (q : Nat) : (d.qCheck q).mems = d.mems := by simp [Dev.qCheck]

@[simp] theorem Dev.qSetHead_memsOk (d : Dev) (q v : Nat) (h : MemsOk d.mems) : MemsOk (d.qSetHead q v).mems := by
  simp [Dev.qSetHead, h]

@[simp] theorem Dev.qSetTail_memsOk (d : Dev) (q v : Nat) (h : MemsOk d.mems) : MemsOk (d.qSetTail q v).mems := by
  simp [Dev.qSetTail, h]

@[simp] theorem Dev.qSetDrops_memsOk (d : Dev) (q v : Nat) (h : MemsOk d.mems) : MemsOk (d.qSetDrops q v).mems := by
  simp [Dev.qSetDrops, h]

@[simp] theorem Dev.qNotify_mems (d : Dev) (q before after : Nat) : (d.qNotify q before after).mems = d.mems := by
  unfold Dev.qNotify
  split <;> simp

theorem Dev.pushed_memsOk (d : Dev) (c : Prop) [Decidable c] (t : Tbl Nat) (h : MemsOk d.mems) :
    MemsOk (if c then { d with vat := { d.vat with pushed := t } } else d : Dev).mems := by
  split <;> exact h

@[simp] theorem Dev.qCommitPush_memsOk (d : Dev) (q n : Nat) (h : MemsOk d.mems) : MemsOk (d.qCommitPush q n).mems := by
  unfold Dev.qCommitPush
  extract_lets d1 x lost d2 v d3
  have h1 : MemsOk d1.mems := by simp [d1, h]
  clear_value lost x d1
  have h2 : MemsOk d2.mems := by
    simp only [d2, Dev.mems_ite, memsOk_ite]
    exact ⟨fun _ => h1, fun _ => Dev.qSetDrops_memsOk _ _ _ (Dev.qSetHead_memsOk _ _ _ h1)⟩
  clear_value d2
  have h3 : MemsOk d3.mems := d2.pushed_memsOk _ _ h2
  clear_value d3
  split
  · exact h1
  · rw [Dev.qNotify_mems]
    exact Dev.qSetTail_memsOk _ _ _ h3

@[simp] theorem Dev.cellsFree_mems (d : Dev) (a : Nat) : (d.cellsFree a).mems = d.mems := (rfl)

@[simp] theorem Dev.handOver_mems (d : Dev) (a : Nat) : (d.handOver a).mems = d.mems := by simp [Dev.handOver]

@[simp] theorem Dev.popRelease_mems (d : Dev) (q n : Nat) : (d.popRelease q n).mems = d.mems := by simp [Dev.popRelease]

@[simp] theorem Dev.qCommitPop_memsOk (d : Dev) (q n : Nat) (h : MemsOk d.mems) : MemsOk (d.qCommitPop q n).mems := by
  simp [Dev.qCommitPop, h]

@[simp] theorem Dev.qPush_memsOk (d : Dev) (q : Nat) (entry : List Byte) (h : MemsOk d.mems) : MemsOk (d.qPush q entry).mems := by
  have hcheck : MemsOk (d.qCheck q).mems := by simp [h]
  unfold Dev.qPush
  extract_lets d1 x full d2
  have h2 : MemsOk d2.mems := by simp [d2, d1, h]
  split
  · exact hcheck
  · split <;> simp [d1, h, h2]

@[simp] theorem Dev.qPop_memsOk (d : Dev) (q : Nat) (origin : Nat) (h : MemsOk d.mems) : MemsOk (d.qPop q origin).1.mems := by
  simp [Dev.qPop, h]

@[simp] theorem Dev.vatRefuse_mems (d : Dev) (code index : Nat) : (d.vatRefuse code index).mems = d.mems := (rfl)

@[simp] theorem Dev.grantUndo_mems (d : Dev) (path : Nat) : (d.grantUndo path).mems = d.mems := (rfl)

@[simp] theorem Dev.qDrop_memsOk (d : Dev) (q : Nat) (h : MemsOk d.mems) : MemsOk (d.qDrop q).mems := by
  have h1 : MemsOk (d.qSetHead q (d.qdesc q).tail).mems := Dev.qSetHead_memsOk _ _ _ h
  unfold Dev.qDrop
  generalize d.qSetHead q (d.qdesc q).tail = e at h1 ⊢
  extract_lets e' v d1
  have h2 : MemsOk d1.mems := by
    refine h1.withEngs fun i x hx => ?_
    obtain ⟨y, hy, hyx⟩ := List.mem_map.mp hx
    cases hyx
    exact h1.mem_engs y.1 y.2 hy
  refine MemsOk.foldl (d := d1) h2 (fun d g h => ?_) _
  split
  · rwa [Dev.grantUndo_mems]
  · exact h

@[simp] theorem Dev.descWrite_memsOk (d : Dev) (q : Nat) (l : List Byte) (i j : Nat) (h : MemsOk d.mems) :
    MemsOk (d.descWrite q l i j).mems := by
  unfold Dev.descWrite
  extract_lets a old off bad new x o strip was d1 v d2 d3 v3
  have h1 : MemsOk d1.mems := d.vatStore_memsOk _ _ h
  clear_value d1
  have h2 : MemsOk d2.mems := by
    simp only [d2]
    cases off <;> exact h1
  clear_value d2
  have h3 : MemsOk d3.mems := Dev.qSetDrops_memsOk _ _ _ (Dev.qSetTail_memsOk _ _ _ (Dev.qSetHead_memsOk _ _ _ h2))
  clear_value d3
  (repeat' split)
  · rwa [Dev.vatRefuse_mems]
  · rwa [Dev.vatRefuse_mems]
  · rwa [Dev.vatRefuse_mems]
  · exact h3
  · exact d2.qDrop_memsOk q h2
  · exact h2

@[simp] theorem Dev.grantSet_mems (d : Dev) (path q : Nat) (push : Bool) (n i : Nat) : (d.grantSet path q push n i).mems = d.mems :=
  (rfl)

@[simp] theorem Dev.grantCommit_memsOk (d : Dev) (path : Nat) (h : MemsOk d.mems) : MemsOk (d.grantCommit path).mems := by
  unfold Dev.grantCommit
  split <;> simp [h]

@[simp] theorem Dev.qhostRefuse_mems (d : Dev) (path q : Nat) : (d.qhostRefuse path q).mems = d.mems := by simp [Dev.qhostRefuse]

@[simp] theorem Dev.qhostPop_mems (d : Dev) (path q n : Nat) : (d.qhostPop path q n).mems = d.mems := by simp [Dev.qhostPop]

@[simp] theorem Dev.qhostPush_mems (d : Dev) (path q n : Nat) : (d.qhostPush path q n).mems = d.mems := by simp [Dev.qhostPush]

@[simp] theorem Dev.qhostCommit_memsOk (d : Dev) (path q : Nat) (h : MemsOk d.mems) : MemsOk (d.qhostCommit path q).mems := by
  unfold Dev.qhostCommit
  dsimp only
  (repeat' split) <;> simp [h]

@[simp] theorem Dev.grantExpire_mems (d : Dev) (path : Nat) : (d.grantExpire path).mems = d.mems := by
  unfold Dev.grantExpire
  split <;> simp

@[simp] theorem Dev.scrubLine_mems (d : Dev) (bank : Nat) (ce ue : List Nat) (collide : Bool) :
    (d.scrubLine bank ce ue collide).mems = d.mems := by
  simp [Dev.scrubLine]

/-! ## `Machine/Access.lean` -/

@[simp] theorem Dev.pathError_mems (d : Dev) (p : Path) (code : Nat) : (d.pathError p code).mems = d.mems := (rfl)

@[simp] theorem Dev.accessTimeout_mems (d : Dev) (p : Path) : (d.accessTimeout p).mems = d.mems := by simp [Dev.accessTimeout]

@[simp] theorem Dev.qhostGo_memsOk (d : Dev) (h : HostPath) (q n : Nat) (go : Dev) (hd : MemsOk d.mems) (hgo : MemsOk go.mems) :
    MemsOk (d.qhostGo h q n go).mems := by
  simp [Dev.qhostGo, hd, hgo]

/-! ## `Machine/Operands.lean` -/

@[simp] theorem Dev.endTask_memsOk (d : Dev) (e : Nat) (h : MemsOk d.mems) : MemsOk (d.endTask e).mems := by
  unfold Dev.endTask
  extract_lets x t used d1 d2 y d3
  have h2 : MemsOk d2.mems := by simp [d2, d1, x, h]
  (repeat' split) <;> simp [d3, h2]

/-! ## `Machine/VatUser.lean` -/

@[simp] theorem Dev.setLoop_mems (d : Dev) (n : Nat) (x : Loop) : (d.setLoop n x).mems = d.mems := (rfl)

@[simp] theorem Dev.setCtx_mems (d : Dev) (n : Nat) (x : Ctx) : (d.setCtx n x).mems = d.mems := (rfl)

@[simp] theorem Dev.ctxMirror_memsOk (d : Dev) (n : Nat) (h : MemsOk d.mems) : MemsOk (d.ctxMirror n).mems := by
  simp [Dev.ctxMirror, h]

@[simp] theorem Dev.ctxShow_memsOk (d : Dev) (a n : Nat) (h : MemsOk d.mems) : MemsOk (d.ctxShow a n).mems := by
  unfold Dev.ctxShow
  extract_lets b i j
  split
  · exact h
  · exact .foldl h (fun d m h => by split <;> simp [h]) _

@[simp] theorem Dev.markSlots_mems (d : Dev) (a n : Nat) : (d.markSlots a n).mems = d.mems := by simp [Dev.markSlots]

@[simp] theorem Dev.markServo_mems (d : Dev) (a n : Nat) : (d.markServo a n).mems = d.mems := by simp [Dev.markServo]

@[simp] theorem Dev.userDesc_memsOk (d : Dev) (a : Nat) (l : List Byte) (q : Nat) (h : MemsOk d.mems) :
    MemsOk (d.userDesc a l q).mems := by
  simp [Dev.userDesc, h]

@[simp] theorem Dev.userSplit_memsOk (d : Dev) (store : Dev → Nat → List Byte → Dev) (a : Nat) (l : List Byte)
    (hs : ∀ d a l, MemsOk d.mems → MemsOk (store d a l).mems) (h : MemsOk d.mems) : MemsOk (d.userSplit store a l).mems := by
  unfold Dev.userSplit
  extract_lets t e below above d1 d2 q0 q1
  have h1 : MemsOk d1.mems := by simp only [d1, Dev.mems_ite, memsOk_ite]; exact ⟨fun _ => h, fun _ => hs _ _ _ h⟩
  clear_value d1
  have h2 : MemsOk d2.mems := by simp only [d2, Dev.mems_ite, memsOk_ite]; exact ⟨fun _ => h1, fun _ => hs _ _ _ h1⟩
  exact .foldl h2 (fun d i h => by simp [h]) _

@[simp] theorem Dev.vatUserWith_memsOk (d : Dev) (store : Dev → Nat → List Byte → Dev) (a : Nat) (l : List Byte)
    (hs : ∀ d a l, MemsOk d.mems → MemsOk (store d a l).mems) (h : MemsOk d.mems) : MemsOk (d.vatUserWith store a l).mems := by
  have h1 : MemsOk (if overlap a l.length d.qtable (4096 * 32) then d.userSplit store a l else store d a l).mems := by
    split
    · exact d.userSplit_memsOk store a l hs h
    · exact hs d a l h
  unfold Dev.vatUserWith
  dsimp only
  (repeat' split) <;> simp_all

@[simp] theorem Dev.vatUser_memsOk (d : Dev) (a : Nat) (l : List Byte) (h : MemsOk d.mems) : MemsOk (d.vatUser a l).mems := by
  exact d.vatUserWith_memsOk _ a l (fun d a l h => by simp [h]) h

@[simp] theorem Dev.vatUserPoison_memsOk (d : Dev) (a : Nat) (l : List Byte) (h : MemsOk d.mems) :
    MemsOk (d.vatUserPoison a l).mems := by
  exact d.vatUserWith_memsOk _ a l (fun d a l h => by simp [h]) h

end Sys2Proof.Machine
end

section
/-! SUPPORT. The memories under what every engine instruction shares. -/

namespace Sys2Proof.Machine

/-! ## `Machine/EngineCore.lean` -/

@[simp] theorem Dev.vputRetire_memsOk (d : Dev) (e now : Nat) (h : MemsOk d.mems) : MemsOk (d.vputRetire e now).mems := by
  unfold Dev.vputRetire
  extract_lets x done d1
  have h1 : MemsOk d1.mems := h.setEng_same
  exact MemsOk.foldl (d := d1) h1 (fun d v h => d.vatUser_memsOk _ _ h) _

@[simp] theorem Dev.abandon_memsOk (d : Dev) (e : Nat) (h : MemsOk d.mems) : MemsOk (d.abandon e).mems := by simp [Dev.abandon, h]

@[simp] theorem Dev.overrun_memsOk (d : Dev) (e : Nat) (h : MemsOk d.mems) : MemsOk (d.overrun e).mems := by
  unfold Dev.overrun
  extract_lets t detail fin d1 x d2
  have h1 : MemsOk d1.mems := Dev.vputRetire_memsOk _ _ _ h
  clear_value d1
  have h2 : MemsOk d2.mems := Dev.endTask_memsOk _ _ (h1.setEng_same)
  simp [h2]

@[simp] theorem Dev.overrunAll_memsOk (d : Dev) (h : MemsOk d.mems) : MemsOk d.overrunAll.mems := by
  exact .foldl h (fun d e h => by split <;> simp [h]) _

@[simp] theorem Dev.engFault_memsOk (d : Dev) (e source : Nat) (h : MemsOk d.mems) : MemsOk (d.engFault e source).mems := by
  simp [Dev.engFault, h]

@[simp] theorem Dev.engIllegal_memsOk (d : Dev) (e : Nat) (h : MemsOk d.mems) : MemsOk (d.engIllegal e).mems := by
  simp [Dev.engIllegal, h]

@[simp] theorem Dev.issue_memsOk (d : Dev) (e cost : Nat) (body : Dev → Dev) (hb : ∀ d, MemsOk d.mems → MemsOk (body d).mems)
    (h : MemsOk d.mems) : MemsOk (d.issue e cost body).mems := by
  unfold Dev.issue
  extract_lets x d1
  have h1 : MemsOk d1.mems := h
  (repeat' split)
  · exact hb _ (Dev.vputRetire_memsOk _ _ _ (h1.setEng_same))
  · exact d1.overrun_memsOk e h1
  · exact h

@[simp] theorem Dev.advance_memsOk (d : Dev) (e : Nat) (h : MemsOk d.mems) : MemsOk (d.advance e).mems := by simp [Dev.advance, h]

@[simp] theorem Dev.engDo_memsOk (d : Dev) (e : Nat) (f : Engine → Engine) (hf : (f (d.eng e)).lmem = (d.eng e).lmem) (h : MemsOk d.mems) :
    MemsOk (d.engDo e f).mems := by
  simp [Dev.engDo, hf, h]

@[simp] theorem Engine.setPred_lmem (x : Engine) (pc : Nat) (v : Option Bool) : (x.setPred pc v).lmem = x.lmem := by
  cases v <;> rfl

@[simp] theorem Engine.write_lmem (x : Engine) (d : Fin 16) (pc : Nat) (r : Res) : (x.write d pc r).lmem = x.lmem := by
  simp only [Engine.write, Engine.setPred_lmem, Engine.setRg]
  split <;> rfl

@[simp] theorem Dev.alu_memsOk (d : Dev) (e cost : Nat) (ok : Bool) (o : EOp) (pc : Nat) (r : Engine → Res) (h : MemsOk d.mems) :
    MemsOk (d.alu e cost ok o pc r).mems := by
  refine d.issue_memsOk e cost _ (fun d h => ?_) h
  split
  · exact d.engDo_memsOk e _ (by simp) h
  · exact d.engIllegal_memsOk e h

@[simp] theorem Dev.alu'_memsOk (d : Dev) (e cost : Nat) (ok : Bool) (o : EOp) (r : Dev → Res) (h : MemsOk d.mems) :
    MemsOk (d.alu' e cost ok o r).mems := by
  refine d.issue_memsOk e cost _ (fun d h => ?_) h
  split
  · exact d.engDo_memsOk e _ (by simp) h
  · exact d.engIllegal_memsOk e h

@[simp] theorem Dev.commitQops_memsOk (d : Dev) (e : Nat) (h : MemsOk d.mems) : MemsOk (d.commitQops e).mems := by
  have h1 : MemsOk (d.setEng e { d.eng e with qops := [] }).mems := by simp [h]
  exact .foldl h1 (fun d o h => by split <;> simp [h]) _

@[simp] theorem Dev.fenceThen_memsOk (d : Dev) (e slack : Nat) (after : Dev → Dev) (ha : ∀ d, MemsOk d.mems → MemsOk (after d).mems)
    (h : MemsOk d.mems) : MemsOk (d.fenceThen e slack after).mems := by
  unfold Dev.fenceThen
  extract_lets d1 x y fin
  have h1 : MemsOk d1.mems := h
  (repeat' split)
  · exact ha _ (Dev.commitQops_memsOk _ _ (Dev.vputRetire_memsOk _ _ _ (h1.setEng_same)))
  · exact d1.overrun_memsOk e h1
  · exact h

@[simp] theorem Dev.haltTask_mems (d : Dev) (t : Nat) : (d.haltTask t).mems = d.mems := (rfl)

/-! ## `Machine/EngineAlu.lean` -/

@[simp] theorem Dev.alu2_memsOk (d : Dev) (e : Nat) (imm : Bool) (o : EOp) (r : DWord → DWord → Res) (h : MemsOk d.mems) :
    MemsOk (d.alu2 e imm o r).mems := by
  simp [Dev.alu2, h]

@[simp] theorem Dev.aluLogic_memsOk (d : Dev) (e : Nat) (imm : Bool) (o : EOp) (r : DWord → DWord → Res) (h : MemsOk d.mems) :
    MemsOk (d.aluLogic e imm o r).mems := by
  simp [Dev.aluLogic, h]

@[simp] theorem Dev.aluShift_memsOk (d : Dev) (e : Nat) (imm : Bool) (o : EOp) (r : DWord → Nat → Res) (h : MemsOk d.mems) :
    MemsOk (d.aluShift e imm o r).mems := by
  simp [Dev.aluShift, h]

@[simp] theorem Dev.predOnly_memsOk (d : Dev) (e pc : Nat) (st : Bool) (h : MemsOk d.mems) : MemsOk (d.predOnly e pc st).mems := by
  simp [Dev.predOnly, h]

/-! ## `Machine/EngineMem.lean` -/

@[simp] theorem Dev.memStore_memsOk (d : Dev) (e a w v : Nat) (h : MemsOk d.mems) : MemsOk (d.memStore e a w v).mems := by
  simp [Dev.memStore, h, h.eng, h.istore, h.cmem]

@[simp] theorem Dev.memWrite_memsOk (d : Dev) (e a w v : Nat) (h : MemsOk d.mems) : MemsOk (d.memWrite e a w v).mems := by
  simp [Dev.memWrite, h]

@[simp] theorem Dev.engVat_memsOk (d : Dev) (e a : Nat) (h : MemsOk d.mems) : MemsOk (d.engVat e a).1.mems := by
  simp [Dev.engVat, h]

@[simp] theorem Dev.vatIssue_memsOk (d : Dev) (e bound : Nat) (body : Dev → Dev) (hb : ∀ d, MemsOk d.mems → MemsOk (body d).mems)
    (h : MemsOk d.mems) : MemsOk (d.vatIssue e bound body).mems := by
  unfold Dev.vatIssue
  split
  · exact Dev.issue_memsOk _ e _ body hb h
  · exact h

@[simp] theorem Engine.qAdd_lmem (x : Engine) (q : Nat) (push : Bool) : (x.qAdd q push).lmem = x.lmem := by
  simp only [Engine.qAdd]
  split <;> rfl

@[simp] theorem Dev.queueOp_memsOk (d : Dev) (e : Nat) (o : EOp) (push : Bool) (h : MemsOk d.mems) :
    MemsOk (d.queueOp e o push).mems := by
  unfold Dev.queueOp
  extract_lets q
  refine d.vatIssue_memsOk e _ _ (fun d h => ?_) h
  split
  · exact d.engIllegal_memsOk e h
  · split
    · exact d.engFault_memsOk e 34 h
    · extract_lets y x n on room addr d1
      have h1 : MemsOk d1.mems := by simp [d1, h]
      clear_value room addr d1
      generalize (if push then y.prod else y.cons) = party
      split
      · exact d.engFault_memsOk e 38 h
      · split
        · exact Dev.engDo_memsOk _ e _ (by simp) (h.setEng_same (Engine.qAdd_lmem ..))
        · exact d1.engDo_memsOk e _ (by simp) h1

@[simp] theorem Dev.tableOp_memsOk (d : Dev) (e cost kind : Nat) (o : EOp) (f : List Byte → Engine → Res) (h : MemsOk d.mems) :
    MemsOk (d.tableOp e cost kind o f).mems := by
  refine d.issue_memsOk e cost _ (fun d h => ?_) h
  (repeat' split)
  · exact d.engIllegal_memsOk e h
  · exact d.engDo_memsOk e _ (by simp) h
  · exact d.engFault_memsOk e 37 h
  · exact d.engFault_memsOk e 37 h

end Sys2Proof.Machine
end

section
/-! SUPPORT. The memories under the inputs, selection, synthesizers, outputs, rewind and loops. -/

namespace Sys2Proof.Machine

/-! ## `Machine/Inputs.lean` -/

@[simp] theorem Dev.setMon_mems (d : Dev) (n : Nat) (x : InMon) : (d.setMon n x).mems = d.mems := (rfl)

@[simp] theorem Dev.setSelx_mems (d : Dev) (n : Nat) (x : Sel) : (d.setSelx n x).mems = d.mems := (rfl)

@[simp] theorem Dev.susLatch_mems (d : Dev) (n cause tick : Nat) : (d.susLatch n cause tick).mems = d.mems := by simp [Dev.susLatch]

@[simp] theorem Dev.windowPresent_mems (d : Dev) (n : Nat) : (d.windowPresent n).mems = d.mems := (rfl)

@[simp] theorem Dev.windowMissed_mems (d : Dev) (n : Nat) : (d.windowMissed n).mems = d.mems := by simp [Dev.windowMissed]

@[simp] theorem Dev.windowOpen_mems (d : Dev) (n coarse : Nat) : (d.windowOpen n coarse).mems = d.mems := (rfl)

@[simp] theorem Dev.activityMissed_mems (d : Dev) (n : Nat) (c : Nat) : (d.activityMissed n c).mems = d.mems := by
  simp [Dev.activityMissed]

@[simp] theorem Dev.gateStamp_mems (d : Dev) (n t e : Nat) : (d.gateStamp n t e).mems = d.mems := (rfl)

@[simp] theorem Dev.basisStamp_mems (d : Dev) (n t e : Nat) : (d.basisStamp n t e).mems = d.mems := by simp [Dev.basisStamp]

@[simp] theorem Dev.inputEdge_mems (d : Dev) (n t k : Nat) (stamped : Bool) : (d.inputEdge n t k stamped).mems = d.mems := by
  simp [Dev.inputEdge]

@[simp] theorem Dev.gateStart_mems (d : Dev) (n from' : Nat) : (d.gateStart n from').mems = d.mems := (rfl)

@[simp] theorem Dev.freqJudge_mems (d : Dev) (n : Nat) (off : Int) : (d.freqJudge n off).mems = d.mems := by simp [Dev.freqJudge]

@[simp] theorem Dev.basisMark_mems (d : Dev) (n : Nat) : (d.basisMark n).mems = d.mems := by simp [Dev.basisMark]

@[simp] theorem Dev.freqGateEnd_mems (d : Dev) (n : Nat) : (d.freqGateEnd n).mems = d.mems := by
  unfold Dev.freqGateEnd
  dsimp only
  (repeat' split) <;> simp

@[simp] theorem Dev.susCauses_mems (d : Dev) (n first : Nat) (step : Option Nat) (jump : Bool) :
    (d.susCauses n first step jump).mems = d.mems := by
  unfold Dev.susCauses
  dsimp only
  split <;> simp

@[simp] theorem Dev.susJudge_mems (d : Dev) (n first : Nat) (step : Option Nat) (jump : Bool) (fit : Int × Int) :
    (d.susJudge n first step jump fit).mems = d.mems := by
  simp [Dev.susJudge]

@[simp] theorem Dev.susSkipped_mems (d : Dev) (n first : Nat) (step : Option Nat) : (d.susSkipped n first step).mems = d.mems := by
  simp [Dev.susSkipped]

@[simp] theorem Dev.susFast_mems (d : Dev) (n first : Nat) (samples : List (Nat × Int)) :
    (d.susFast n first samples).mems = d.mems := by
  unfold Dev.susFast
  dsimp only
  (repeat' split) <;> simp

@[simp] theorem Dev.susSlow_mems (d : Dev) (n first : Nat) (samples : List (Nat × Int)) :
    (d.susSlow n first samples).mems = d.mems := by
  simp [Dev.susSlow]

@[simp] theorem Dev.suspectGateEnd_mems (d : Dev) (n : Nat) : (d.suspectGateEnd n).mems = d.mems := by simp [Dev.suspectGateEnd]

@[simp] theorem Dev.susRestart_mems (d : Dev) (n boundary : Nat) : (d.susRestart n boundary).mems = d.mems := (rfl)

@[simp] theorem Dev.rearm_mems (d : Dev) (n : Nat) : (d.rearm n).mems = d.mems := (rfl)

@[simp] theorem Dev.observation_mems (d : Dev) (n : Nat) : (d.observation n).mems = d.mems := by
  unfold Dev.observation
  dsimp only
  split <;> simp

@[simp] theorem Dev.maskStore_mems (d : Dev) (n i : Nat) (v : Nat × Int × Int) : (d.maskStore n i v).mems = d.mems := (rfl)

@[simp] theorem Dev.maskTake_mems (d : Dev) (n : Nat) (p : Int) : (d.maskTake n p).mems = d.mems := by simp [Dev.maskTake]

@[simp] theorem Dev.maskInterval_mems (d : Dev) (n i tau : Nat) : (d.maskInterval n i tau).mems = d.mems := by
  simp [Dev.maskInterval]

@[simp] theorem Dev.maskCheck_mems (d : Dev) (n : Nat) : (d.maskCheck n).mems = d.mems := by simp [Dev.maskCheck]

@[simp] theorem Dev.monWrite_memsOk (d : Dev) (n : Nat) (h : MemsOk d.mems) : MemsOk (d.monWrite n).mems := by
  simp [Dev.monWrite, h]

@[simp] theorem Dev.selKeep_mems (b d : Dev) (l : Nat) : (b.selKeep d l).mems = d.mems := by
  simp only [Dev.selKeep]
  split <;> simp

@[simp] theorem Dev.dropFlags_mems (d : Dev) (n : Nat) : (d.dropFlags n).mems = d.mems := by simp [Dev.dropFlags]

@[simp] theorem Dev.enterState_mems (d : Dev) (n : Nat) : (d.enterState n).mems = d.mems := by simp [Dev.enterState]

@[simp] theorem Dev.inputOn_mems (d : Dev) (n : Nat) : (d.inputOn n).mems = d.mems := (rfl)

@[simp] theorem Dev.inputOff_mems (d : Dev) (n : Nat) : (d.inputOff n).mems = d.mems := by simp [Dev.inputOff]

@[simp] theorem Dev.susReconfig_mems (d : Dev) (n : Nat) : (d.susReconfig n).mems = d.mems := (rfl)

@[simp] theorem Dev.inputApply_mems (old d : Dev) (n : Nat) : (old.inputApply d n).mems = d.mems := by
  simp only [Dev.inputApply]
  split <;> simp

@[simp] theorem Dev.inputTickEnd_memsOk (d : Dev) (n : Nat) (h : MemsOk d.mems) : MemsOk (d.inputTickEnd n).mems := by
  simp [Dev.inputTickEnd, h]

/-! ## `Machine/Selection.lean` -/

@[simp] theorem Dev.stampReads_mems (d : Dev) (c lo hi n i : Nat) : (d.stampReads c lo hi n i).mems = d.mems := by
  induction n generalizing d i with
  | zero => rfl
  | succ n ih => simp [Dev.stampReads, ih]

@[simp] theorem Dev.stampTouch_mems (d : Dev) (c lo hi : Nat) : (d.stampTouch c lo hi).mems = d.mems := by
  simp [Dev.stampTouch]

@[simp] theorem Dev.fmonRead_mems (d : Dev) (n : Nat) : (d.fmonRead n).mems = d.mems := by simp [Dev.fmonRead]

@[simp] theorem Dev.fmonKeep_mems (d : Dev) (n : Nat) : (d.fmonKeep n).mems = d.mems := (rfl)

@[simp] theorem Dev.detectorTouch_mems (d : Dev) (l : Nat) (ms : List Nat) (lo hi : Nat) :
    (d.detectorTouch l ms lo hi).mems = d.mems := by
  exact Dev.foldl_mems _ (fun d k => by dsimp only; split <;> simp) _ _

/-! ## `Machine/Synth.lean` -/

@[simp] theorem Dev.synApply_mems (d : Dev) (n : Nat) : (d.synApply n).mems = d.mems := by simp [Dev.synApply]

@[simp] theorem Dev.bmStore_mems (d : Dev) (n e : Nat) (l : List Byte) : (d.bmStore n e l).mems = d.mems := (rfl)

@[simp] theorem Dev.bmResult_mems (d : Dev) (n : Nat) (core : Bool) (band vt : Nat) :
    (d.bmResult n core band vt).mems = d.mems := by
  unfold Dev.bmResult
  split <;> simp

@[simp] theorem Dev.hopOutputs_mems (d : Dev) (n : Nat) : (d.hopOutputs n).mems = d.mems := by simp [Dev.hopOutputs]

@[simp] theorem Dev.hopStart_mems (d : Dev) (n : Nat) (search : Bool) : (d.hopStart n search).mems = d.mems := by
  unfold Dev.hopStart
  dsimp only
  split <;> simp

@[simp] theorem Dev.hopLoad_mems (d : Dev) (n : Nat) : (d.hopLoad n).mems = d.mems := by simp [Dev.hopLoad]

@[simp] theorem Dev.hopEnd_mems (d : Dev) (n code : Nat) (lock : Bool) : (d.hopEnd n code lock).mems = d.mems := (rfl)

@[simp] theorem Dev.hopLock_mems (d : Dev) (n : Nat) (locked core : Bool) (band vt : Nat) :
    (d.hopLock n locked core band vt).mems = d.mems := by
  simp [Dev.hopLock]

@[simp] theorem Dev.hopAbort_mems (d : Dev) (n : Nat) : (d.hopAbort n).mems = d.mems := by simp [Dev.hopAbort]

@[simp] theorem Dev.synBoundary_mems (d : Dev) (n : Nat) : (d.synBoundary n).mems = d.mems := by simp [Dev.synBoundary]

@[simp] theorem Dev.synSearch_mems (d : Dev) (n : Nat) : (d.synSearch n).mems = d.mems := (rfl)

@[simp] theorem Dev.synAbort_mems (d : Dev) (n : Nat) : (d.synAbort n).mems = d.mems := (rfl)

/-! ## `Machine/Outputs.lean` -/

@[simp] theorem Dev.driveNow_mems (d : Dev) (k : Nat) : (d.driveNow k).mems = d.mems := by simp [Dev.driveNow]

@[simp] theorem Dev.gateOpen_mems (d : Dev) (k : Nat) : (d.gateOpen k).mems = d.mems := by simp [Dev.gateOpen]

@[simp] theorem Dev.gateClose_mems (d : Dev) (k : Nat) : (d.gateClose k).mems = d.mems := by simp [Dev.gateClose]

@[simp] theorem Dev.outsStop_mems (d : Dev) (limit : Nat) : (d.outsStop limit).mems = d.mems := by simp [Dev.outsStop]

@[simp] theorem Dev.outsCut_mems (d : Dev) : d.outsCut.mems = d.mems := by
  unfold Dev.outsCut
  split <;> simp

@[simp] theorem Dev.lossBoundary_mems (d : Dev) : d.lossBoundary.mems = d.mems := by simp [Dev.lossBoundary]

@[simp] theorem Dev.dphSet_mems (d : Dev) (k st : Nat) : (d.dphSet k st).mems = d.mems := by simp [Dev.dphSet]

@[simp] theorem Dev.dphWindow_mems (d : Dev) (k : Nat) : (d.dphWindow k).mems = d.mems := (rfl)

@[simp] theorem Dev.dphStill_mems (d : Dev) (k : Nat) : (d.dphStill k).mems = d.mems := (rfl)

@[simp] theorem Dev.dphVoid_mems (d : Dev) (k : Nat) : (d.dphVoid k).mems = d.mems := by simp [Dev.dphVoid]

@[simp] theorem Dev.dphBoundary_mems (d : Dev) (k : Nat) : (d.dphBoundary k).mems = d.mems := by simp [Dev.dphBoundary]

@[simp] theorem Dev.dphTouch_mems (d : Dev) (k lo hi : Nat) : (d.dphTouch k lo hi).mems = d.mems := by
  unfold Dev.dphTouch
  dsimp only
  (repeat' split) <;> simp

@[simp] theorem Dev.dphCollect_mems (d : Dev) (k lo hi : Nat) : (d.dphCollect k lo hi).mems = d.mems := by
  unfold Dev.dphCollect
  split <;> simp

@[simp] theorem Dev.dphMeasureEnd_mems (d : Dev) (k : Nat) : (d.dphMeasureEnd k).mems = d.mems := by simp [Dev.dphMeasureEnd]

@[simp] theorem Dev.dphRecentre_mems (d : Dev) (k : Nat) : (d.dphRecentre k).mems = d.mems := by simp [Dev.dphRecentre]

@[simp] theorem Dev.trimArrived_mems (d : Dev) (k : Nat) : (d.trimArrived k).mems = d.mems := by simp [Dev.trimArrived]

@[simp] theorem Dev.dphTrimStep_mems (d : Dev) (k : Nat) : (d.dphTrimStep k).mems = d.mems := by
  unfold Dev.dphTrimStep
  split <;> simp

@[simp] theorem Dev.dividerChange_mems (d : Dev) (k : Nat) : (d.dividerChange k).mems = d.mems := by simp [Dev.dividerChange]

@[simp] theorem Dev.srcTake_mems (d : Dev) (k : Nat) : (d.srcTake k).mems = d.mems := by simp [Dev.srcTake]

@[simp] theorem Dev.xoTake_mems (d : Dev) (k : Nat) : (d.xoTake k).mems = d.mems := (rfl)

@[simp] theorem Dev.sourceSwitch_mems (d : Dev) (k : Nat) : (d.sourceSwitch k).mems = d.mems := by simp [Dev.sourceSwitch]

@[simp] theorem Dev.delayChange_mems (d : Dev) (k : Nat) : (d.delayChange k).mems = d.mems := by
  unfold Dev.delayChange
  split <;> simp

@[simp] theorem Dev.outBoundary_mems (d : Dev) (k : Nat) : (d.outBoundary k).mems = d.mems := by simp [Dev.outBoundary]

@[simp] theorem Dev.bankMeasure_mems (d : Dev) (b mv : Nat) : (d.bankMeasure b mv).mems = d.mems := by
  unfold Dev.bankMeasure
  dsimp only
  (repeat' split) <;> simp

@[simp] theorem Dev.bankMismatch_mems (d : Dev) (b : Nat) : (d.bankMismatch b).mems = d.mems := by simp [Dev.bankMismatch]

@[simp] theorem Dev.supplyTake_mems (d : Dev) (i : Nat) (ok : Bool) : (d.supplyTake i ok).mems = d.mems := by simp [Dev.supplyTake]

@[simp] theorem Dev.suppliesTake_mems (d : Dev) (rails vdd : List Nat) : (d.suppliesTake rails vdd).mems = d.mems := by
  simp [Dev.suppliesTake]

@[simp] theorem Dev.safeExit_mems (d : Dev) (k : Nat) : (d.safeExit k).mems = d.mems := by simp [Dev.safeExit]

/-! ## `Machine/Rewind.lean` -/

@[simp] theorem Dev.setSlal_mems (d : Dev) (n : Nat) (x : Slal) : (d.setSlal n x).mems = d.mems := (rfl)

@[simp] theorem Dev.ckptWrite_memsOk (d : Dev) (l b : Nat) (h : MemsOk d.mems) : MemsOk (d.ckptWrite l b).mems := by
  simp [Dev.ckptWrite, h]

@[simp] theorem Dev.histExclude_memsOk (d : Dev) (l from' : Nat) (h : MemsOk d.mems) : MemsOk (d.histExclude l from').mems := by
  unfold Dev.histExclude
  extract_lets now s0 d1 x
  have h1 : MemsOk d1.mems := .foldl h (fun d i h => by dsimp only; split <;> simp [h]) _
  simp [h1]

@[simp] theorem Dev.ckptFind_mems (d : Dev) (l oldest n t : Nat) : (d.ckptFind l oldest n t).1.mems = d.mems := by
  induction n generalizing d t with
  | zero => rfl
  | succ n ih => simp [Dev.ckptFind, ih]

@[simp] theorem Dev.rewindRestore_memsOk (d : Dev) (l excl : Nat) (h : MemsOk d.mems) : MemsOk (d.rewindRestore l excl).1.mems := by
  unfold Dev.rewindRestore
  extract_lets b x reg again from' excl' oldest old want d1
  have h1 : MemsOk d1.mems := by simp [d1, h]
  have h2 : MemsOk (if b < want + 3 then (d1, none) else d1.ckptFind l oldest (d1.rwdWindow + 1) want).1.mems := by simp [h1]
  split
  next d2 found heq =>
  rw [heq] at h2
  extract_lets trunc d3 ref s d4
  have h3 : MemsOk d3.mems := by simp [d3, h2]
  split
  · simp [d4, h3]
  · dsimp only; split <;> simp [h3]

@[simp] theorem Dev.replayRecord_memsOk (d : Dev) (l t : Nat) (h : MemsOk d.mems) : MemsOk (d.replayRecord l t).mems := by
  unfold Dev.replayRecord
  dsimp only
  split <;> simp [h]

@[simp] theorem Dev.replayLane_memsOk (d : Dev) (l n : Nat) (h : MemsOk d.mems) : MemsOk (d.replayLane l n).mems := by
  induction n generalizing d with
  | zero => exact h
  | succ n ih => simp [Dev.replayLane, h, ih]

@[simp] theorem Dev.replayBoundary_memsOk (d : Dev) (l : Nat) (h : MemsOk d.mems) : MemsOk (d.replayBoundary l).mems := by
  simp [Dev.replayBoundary, h]

@[simp] theorem Dev.replayCaughtUp_mems (d : Dev) (l now : Nat) : (d.replayCaughtUp l now).mems = d.mems := by
  simp [Dev.replayCaughtUp]

@[simp] theorem Dev.rewindStart_mems (d : Dev) (l excl : Nat) : (d.rewindStart l excl).mems = d.mems := (rfl)

@[simp] theorem Dev.rewindAbort_mems (d : Dev) (l : Nat) : (d.rewindAbort l).mems = d.mems := (rfl)

@[simp] theorem Dev.rewindSplice_mems (d : Dev) (l : Nat) : (d.rewindSplice l).mems = d.mems := (rfl)

@[simp] theorem Dev.rewindStartCmd_mems (d : Dev) (p : Path) (l excl : Nat) : (d.rewindStartCmd p l excl).mems = d.mems := by
  simp [Dev.rewindStartCmd]

@[simp] theorem Dev.rewindAbortCmd_mems (d : Dev) (p : Path) (l : Nat) : (d.rewindAbortCmd p l).mems = d.mems := (rfl)

@[simp] theorem Dev.rewindSpliceCmd_mems (d : Dev) (p : Path) (l : Nat) : (d.rewindSpliceCmd p l).mems = d.mems := by
  simp [Dev.rewindSpliceCmd]

@[simp] theorem Dev.slalOffset_mems (d : Dev) (n : Nat) (v : Int) : (d.slalOffset n v).mems = d.mems := (rfl)

@[simp] theorem Dev.slalNext_mems (d : Dev) (n now : Nat) : (d.slalNext n now).mems = d.mems := by simp [Dev.slalNext]

@[simp] theorem Dev.dwellEnd_mems (d : Dev) (n now : Nat) : (d.dwellEnd n now).mems = d.mems := by
  unfold Dev.dwellEnd
  split <;> simp

@[simp] theorem Dev.slalStep_mems (d : Dev) (n : Nat) : (d.slalStep n).mems = d.mems := by
  unfold Dev.slalStep
  dsimp only
  (repeat' split) <;> simp

@[simp] theorem Dev.slalAbortNow_mems (d : Dev) (n : Nat) : (d.slalAbortNow n).mems = d.mems := by simp [Dev.slalAbortNow]

@[simp] theorem Dev.slalFree_mems (d : Dev) (n : Nat) : (d.slalFree n).mems = d.mems := by simp [Dev.slalFree]

@[simp] theorem Dev.slalLeave_mems (d : Dev) (n : Nat) : (d.slalLeave n).mems = d.mems := by simp [Dev.slalLeave]

@[simp] theorem Dev.slalStartCmd_mems (d : Dev) (p : Path) (n : Nat) : (d.slalStartCmd p n).mems = d.mems := by
  unfold Dev.slalStartCmd
  split <;> simp

@[simp] theorem Dev.slalAbortCmd_mems (d : Dev) (p : Path) (n : Nat) : (d.slalAbortCmd p n).mems = d.mems := (rfl)

@[simp] theorem Dev.slalClearCmd_mems (d : Dev) (p : Path) (n : Nat) : (d.slalClearCmd p n).mems = d.mems := by
  simp [Dev.slalClearCmd]

/-! ## `Machine/Loops.lean` -/

@[simp] theorem Dev.tloopMirror_mems (d : Dev) : d.tloopMirror.mems = d.mems := (rfl)

@[simp] theorem Dev.tloopTouch_mems (d : Dev) : d.tloopTouch.mems = d.mems := by
  unfold Dev.tloopTouch
  split <;> simp

@[simp] theorem Dev.gateResult_mems (d : Dev) (l : Nat) (off : Int) : (d.gateResult l off).mems = d.mems := by simp [Dev.gateResult]

@[simp] theorem Dev.lockGateStart_mems (d : Dev) (l from' : Nat) : (d.lockGateStart l from').mems = d.mems := (rfl)

@[simp] theorem Dev.lockGateClose_mems (d : Dev) (l now : Nat) : (d.lockGateClose l now).mems = d.mems := by
  unfold Dev.lockGateClose
  dsimp only
  (repeat' split) <;> simp

@[simp] theorem Dev.lockGateTick_mems (d : Dev) (l : Nat) : (d.lockGateTick l).mems = d.mems := by
  unfold Dev.lockGateTick
  dsimp only
  split <;> simp

@[simp] theorem Dev.lockGateEnd_mems (d : Dev) (l : Nat) : (d.lockGateEnd l).mems = d.mems := by simp [Dev.lockGateEnd]

@[simp] theorem Dev.tloopGate_mems (d : Dev) (t : Nat) (e : Int) : (d.tloopGate t e).mems = d.mems := by
  unfold Dev.tloopGate
  dsimp only
  split <;> simp

@[simp] theorem Dev.blockSample_memsOk (d : Dev) (l : Nat) (e : Option Int) (h : MemsOk d.mems) :
    MemsOk (d.blockSample l e).mems := by
  unfold Dev.blockSample
  extract_lets b d1
  have h1 : MemsOk d1.mems := Dev.vatPut_memsOk _ _ _ _ (Dev.vatPut_memsOk _ _ _ _ (Dev.vatPut_memsOk _ _ _ _ h))
  clear_value d1
  split <;> simp [h1]

@[simp] theorem Dev.loopTickEnd_memsOk (d : Dev) (l : Nat) (h : MemsOk d.mems) : MemsOk (d.loopTickEnd l).mems := by
  simp [Dev.loopTickEnd, h]

@[simp] theorem Dev.tloopTickEnd_memsOk (d : Dev) (h : MemsOk d.mems) : MemsOk d.tloopTickEnd.mems := by
  unfold Dev.tloopTickEnd
  dsimp only
  (repeat' split) <;> simp [h]

@[simp] theorem Dev.gapExpiry_mems (d : Dev) (l : Nat) : (d.gapExpiry l).mems = d.mems := by simp [Dev.gapExpiry]

@[simp] theorem Dev.coastExpiry_mems (d : Dev) (l now : Nat) : (d.coastExpiry l now).mems = d.mems := by simp [Dev.coastExpiry]

@[simp] theorem Dev.rampAborted_mems (d : Dev) (l : Nat) (sp : Option (Int × Bool)) : (d.rampAborted l sp).mems = d.mems := by
  unfold Dev.rampAborted
  split <;> simp

@[simp] theorem Dev.rwdBoundary_memsOk (d : Dev) (l : Nat) (enabled : Bool) (h : MemsOk d.mems) :
    MemsOk (d.rwdBoundary l enabled).1.mems := by
  unfold Dev.rwdBoundary
  extract_lets x d1 r caught d2 s d3 sp ends s4 d4 d5 d6 d7 s8 d8
  have h4 : MemsOk d4.mems := by simp [d4, d3, d2, d1, h]
  clear_value d4
  split
  · exact h
  · split
    · simp [d5, h4]
    · (repeat' split) <;> simp [d8, d7, d6, h4]

@[simp] theorem Dev.slotTouch_mems (d : Dev) (l : Nat) : (d.slotTouch l).mems = d.mems := by simp [Dev.slotTouch]

@[simp] theorem Dev.countMissed_mems (d : Dev) (l : Nat) (missed : Bool) : (d.countMissed l missed).mems = d.mems := by
  simp [Dev.countMissed]

@[simp] theorem Dev.noteEntry_mems (d : Dev) (l old new : Nat) (cause : Option Nat) :
    (d.noteEntry l old new cause).mems = d.mems := by
  unfold Dev.noteEntry
  split <;> simp

@[simp] theorem Dev.enterLoop_mems (d : Dev) (l old new : Nat) (word : Int) : (d.enterLoop l old new word).mems = d.mems := by
  simp [Dev.enterLoop]

@[simp] theorem Dev.slalOwner_mems (d : Dev) (l new : Nat) : (d.slalOwner l new).mems = d.mems := by simp [Dev.slalOwner]

@[simp] theorem Dev.spliceEnd_mems (d : Dev) (l : Nat) : (d.spliceEnd l).mems = d.mems := by simp [Dev.spliceEnd]

@[simp] theorem Dev.applyWord_mems (d : Dev) (l : Nat) (src w : Int) (pi psl ramped : Bool) :
    (d.applyWord l src w pi psl ramped).mems = d.mems :=
  (rfl)

@[simp] theorem Dev.showWord_memsOk (d : Dev) (l : Nat) (h : MemsOk d.mems) : MemsOk (d.showWord l).mems := by
  simp [Dev.showWord, h]

@[simp] theorem Dev.histTick_mems (d : Dev) (l : Nat) : (d.histTick l).mems = d.mems := (rfl)

@[simp] theorem Dev.histSecond_mems (d : Dev) (l : Nat) : (d.histSecond l).mems = d.mems := by simp [Dev.histSecond]

@[simp] theorem Dev.sequence_memsOk (d : Dev) (l : Nat) (enable force : Bool) (h : MemsOk d.mems) :
    MemsOk (d.sequence l enable force).mems := by
  simp [Dev.sequence, h]

@[simp] theorem Dev.wordOut_memsOk (d : Dev) (l : Nat) (h : MemsOk d.mems) : MemsOk (d.wordOut l).mems := by simp [Dev.wordOut, h]

@[simp] theorem Dev.selWatch_mems (d : Dev) (l : Nat) : (d.selWatch l).mems = d.mems := by simp [Dev.selWatch]

@[simp] theorem Dev.loopBoundaryEnd_memsOk (d : Dev) (l : Nat) (h : MemsOk d.mems) : MemsOk (d.loopBoundaryEnd l).mems := by
  simp [Dev.loopBoundaryEnd, h]

@[simp] theorem Dev.histWrite_memsOk (d : Dev) (l : Nat) (h : MemsOk d.mems) : MemsOk (d.histWrite l).mems := by
  unfold Dev.histWrite
  dsimp only
  split <;> simp [h]

@[simp] theorem Dev.historyWrite_memsOk (d : Dev) (h : MemsOk d.mems) : MemsOk d.historyWrite.mems := by
  exact .foldl h (fun d l h => by simp [h]) _

end Sys2Proof.Machine
end

section
/-! SUPPORT. The memories under the contexts, event ports, time-to-digital channels, measurement and traces. -/

namespace Sys2Proof.Machine

/-! ## `Machine/Contexts.lean` -/

@[simp] theorem Dev.ltAdvance_mems (d : Dev) : d.ltAdvance.mems = d.mems := (rfl)

@[simp] theorem Dev.ltStepBy_mems (d : Dev) (tloop : Bool) (e : Int) : (d.ltStepBy tloop e).mems = d.mems := by simp [Dev.ltStepBy]

@[simp] theorem Dev.ltBoundary_mems (d : Dev) : d.ltBoundary.mems = d.mems := by
  unfold Dev.ltBoundary
  extract_lets host own s d1 d2
  have h2 : d2.mems = d1.mems := by simp only [d2, Dev.foldl_mems, Dev.ltStepBy_mems, implies_true]
  exact h2

@[simp] theorem Dev.ltStepCmd_mems (d : Dev) (p : Path) (e : Int) : (d.ltStepCmd p e).mems = d.mems := by simp [Dev.ltStepCmd]

@[simp] theorem Dev.conversion_mems (d : Dev) (path s : Nat) : (d.conversion path s).mems = d.mems := (rfl)

@[simp] theorem Dev.convertCmd_mems (d : Dev) (p : Path) (s : Nat) : (d.convertCmd p s).mems = d.mems := (rfl)

@[simp] theorem Dev.ctxCmd_mems (d : Dev) (n : Nat) (c : CtxCmd) : (d.ctxCmd n c).mems = d.mems := (rfl)

@[simp] theorem Dev.ctxSetCmd_mems (d : Dev) (p : Path) : (d.ctxSetCmd p).mems = d.mems := (rfl)

@[simp] theorem Dev.ctxStepCmd_mems (d : Dev) (p : Path) : (d.ctxStepCmd p).mems = d.mems := (rfl)

@[simp] theorem Dev.ctxSlewCmd_mems (d : Dev) (p : Path) : (d.ctxSlewCmd p).mems = d.mems := (rfl)

@[simp] theorem Dev.ctxCancelCmd_mems (d : Dev) (p : Path) : (d.ctxCancelCmd p).mems = d.mems := (rfl)

@[simp] theorem Dev.ctxDisableCmd_mems (d : Dev) (p : Path) : (d.ctxDisableCmd p).mems = d.mems := (rfl)

@[simp] theorem Dev.leapAnnounce_mems (d : Dev) (n : Nat) (c : Nat) : (d.leapAnnounce n c).mems = d.mems := by
  simp [Dev.leapAnnounce]

@[simp] theorem Dev.leapDo_mems (d : Dev) (n : Nat) (late : Bool) : (d.leapDo n late).mems = d.mems := by simp [Dev.leapDo]

@[simp] theorem Dev.leapBoundary_mems (d : Dev) (n : Nat) : (d.leapBoundary n).mems = d.mems := by simp [Dev.leapBoundary]

@[simp] theorem Dev.leapWrite_mems (d : Dev) (n v : Nat) : (d.leapWrite n v).mems = d.mems := (rfl)

@[simp] theorem Dev.leapArmCmd_mems (d : Dev) (p : Path) (at' : Nat) (del : Bool) : (d.leapArmCmd p at' del).mems = d.mems := by
  simp [Dev.leapArmCmd]

@[simp] theorem Dev.leapDisarmCmd_mems (d : Dev) (p : Path) (at' : Nat) (del : Bool) : (d.leapDisarmCmd p at' del).mems = d.mems :=
  (rfl)

@[simp] theorem Dev.leapTake_mems (d : Dev) (n : Nat) : (d.leapTake n).mems = d.mems := by
  unfold Dev.leapTake
  dsimp only
  split <;> simp

@[simp] theorem Dev.slewEnd_mems (d : Dev) (n : Nat) : (d.slewEnd n).mems = d.mems := (rfl)

@[simp] theorem Dev.slewComplete_mems (d : Dev) (n : Nat) : (d.slewComplete n).mems = d.mems := by simp [Dev.slewComplete]

@[simp] theorem Dev.slewTick_mems (d : Dev) (n : Nat) : (d.slewTick n).mems = d.mems := by simp [Dev.slewTick]

@[simp] theorem Dev.ctxPoison_mems (d : Dev) (n : Nat) : (d.ctxPoison n).mems = d.mems := by simp [Dev.ctxPoison]

@[simp] theorem Dev.ctxAct_mems (d : Dev) (n : Nat) (done : Bool) (k : CtxCmd) : (d.ctxAct n done k).mems = d.mems := by
  cases k with
  | set v => simp [Dev.ctxAct]
  | step e => simp [Dev.ctxAct]
  | slew t => simp [Dev.ctxAct]
  | cancel => simp [Dev.ctxAct]
  | disable => simp [Dev.ctxAct]

@[simp] theorem Dev.ctxBoundary_memsOk (d : Dev) (n : Nat) (h : MemsOk d.mems) : MemsOk (d.ctxBoundary n).mems := by
  unfold Dev.ctxBoundary
  extract_lets d1 x c on d2 done y d3 d4 y4 d5 d6 set
  have h3 : MemsOk d3.mems := by simp [d3, d2, d1, h]
  clear_value d3
  have h4 : MemsOk d4.mems := by
    simp only [d4]
    split <;> simp [h3]
  have h6 : MemsOk d6.mems := by simp [d6, d5, h4]
  clear_value d6
  split <;> simp [h6]

@[simp] theorem Dev.ctxStepAll_memsOk (d : Dev) (h : MemsOk d.mems) : MemsOk d.ctxStepAll.mems := by
  simp +contextual [Dev.ctxStepAll, h]

@[simp] theorem Dev.leapAll_mems (d : Dev) : d.leapAll.mems = d.mems := by simp [Dev.leapAll]

/-! ## `Machine/Ports.lean` -/

@[simp] theorem Dev.evtSet_mems (d : Dev) (p st : Nat) : (d.evtSet p st).mems = d.mems := (rfl)

@[simp] theorem Dev.edgeSkip_mems (d : Dev) (p n : Nat) : (d.edgeSkip p n).mems = d.mems := by simp [Dev.edgeSkip]

@[simp] theorem Dev.phaseShift_mems (d : Dev) (p : Nat) : (d.phaseShift p).mems = d.mems := by
  unfold Dev.phaseShift
  split <;> simp

@[simp] theorem Dev.pulseEnd_mems (d : Dev) (p : Nat) (at' : Int) : (d.pulseEnd p at').mems = d.mems := by simp [Dev.pulseEnd]

@[simp] theorem Dev.trainEdge_mems (d : Dev) (p : Nat) : (d.trainEdge p).mems = d.mems := by simp [Dev.trainEdge]

@[simp] theorem Dev.pulseEdge_mems (d : Dev) (p : Nat) : (d.pulseEdge p).mems = d.mems := by
  unfold Dev.pulseEdge
  dsimp only
  split <;> simp

@[simp] theorem Dev.evtArmCmd_mems (d : Dev) (path : Path) (p : Nat) : (d.evtArmCmd path p).mems = d.mems := by simp [Dev.evtArmCmd]

@[simp] theorem Dev.evtStopCmd_mems (d : Dev) (_path : Path) (p : Nat) : (d.evtStopCmd _path p).mems = d.mems := (rfl)

@[simp] theorem Dev.evtStop_mems (d : Dev) (p : Nat) : (d.evtStop p).mems = d.mems := by simp [Dev.evtStop]

@[simp] theorem Dev.evtStopAt_mems (d : Dev) (p : Nat) : (d.evtStopAt p).mems = d.mems := by simp [Dev.evtStopAt]

@[simp] theorem Dev.evtPark_mems (d : Dev) (p : Nat) : (d.evtPark p).mems = d.mems := by simp [Dev.evtPark]

@[simp] theorem Dev.evtSample_mems (d : Dev) (p : Nat) (pad : Bool) : (d.evtSample p pad).mems = d.mems := by simp [Dev.evtSample]

@[simp] theorem Dev.evtParkEnd_mems (d : Dev) (p : Nat) : (d.evtParkEnd p).mems = d.mems := by simp [Dev.evtParkEnd]

@[simp] theorem Dev.tickPort_mems (d : Dev) (p : Nat) : (d.tickPort p).mems = d.mems := by simp [Dev.tickPort]

@[simp] theorem Dev.pulseBoundary_mems (d : Dev) (p : Nat) (arm stop : Bool) : (d.pulseBoundary p arm stop).mems = d.mems := by
  simp [Dev.pulseBoundary]

@[simp] theorem Dev.phaseSettle_mems (d : Dev) (p : Nat) : (d.phaseSettle p).mems = d.mems := by
  unfold Dev.phaseSettle
  split <;> simp

@[simp] theorem Dev.evtBoundary_mems (d : Dev) (p : Nat) (pad : Bool) : (d.evtBoundary p pad).mems = d.mems := by
  simp [Dev.evtBoundary]

@[simp] theorem Dev.evtCapture_mems (d : Dev) (p s : Nat) : (d.evtCapture p s).mems = d.mems := by simp [Dev.evtCapture]

@[simp] theorem Dev.piShow_memsOk (d : Dev) (o : Nat) (h : MemsOk d.mems) : MemsOk (d.piShow o).mems := by
  unfold Dev.piShow
  split <;> simp [h]

@[simp] theorem Dev.binClose_memsOk (d : Dev) (o kind : Nat) (b : Bin) (h : MemsOk d.mems) : MemsOk (d.binClose o kind b).mems := by
  simp [Dev.binClose, h]

@[simp] theorem Dev.setPi_mems (d : Dev) (x : PiUnit) : (d.setPi x).mems = d.mems := (rfl)

@[simp] theorem Dev.piAccum_mems (d : Dev) : d.piAccum.mems = d.mems := by simp [Dev.piAccum]

@[simp] theorem Dev.piFlag_mems (d : Dev) (f : Nat) : (d.piFlag f).mems = d.mems := (rfl)

@[simp] theorem Dev.leapApply_mems (d : Dev) (n : Nat) : (d.leapApply n).mems = d.mems := by simp [Dev.leapApply]

@[simp] theorem Dev.piCloseKind_memsOk (d : Dev) (kind flags start newFlags : Nat) (h : MemsOk d.mems) :
    MemsOk (d.piCloseKind kind flags start newFlags).mems := by
  simp +contextual [Dev.piCloseKind, h]

@[simp] theorem Dev.piReopen_memsOk (d : Dev) (flags newFlags c : Nat) (h : MemsOk d.mems) :
    MemsOk (d.piReopen flags newFlags c).mems := by
  simp [Dev.piReopen, h]

@[simp] theorem Dev.piLast_memsOk (d : Dev) (flags o : Nat) (h : MemsOk d.mems) : MemsOk (d.piLast flags o).mems := by
  unfold Dev.piLast
  split <;> simp [h]

@[simp] theorem Dev.piShut_memsOk (d : Dev) (flags : Nat) (h : MemsOk d.mems) : MemsOk (d.piShut flags).mems := by
  unfold Dev.piShut
  extract_lets d1 d2 p
  have h1 : MemsOk d1.mems := MemsOk.foldl h (fun d o h => by simp [h]) _
  clear_value d1
  simp [d2, h1]

@[simp] theorem Dev.piOpen_mems (d : Dev) (n c : Nat) : (d.piOpen n c).mems = d.mems := (rfl)

@[simp] theorem Dev.piDue_memsOk (d : Dev) (c : Nat) (h : MemsOk d.mems) : MemsOk (d.piDue c).mems := by
  unfold Dev.piDue
  dsimp only
  split <;> simp [h]

@[simp] theorem Dev.piPoison_mems (d : Dev) (o : Nat) : (d.piPoison o).mems = d.mems := by simp [Dev.piPoison]

@[simp] theorem Dev.piBoundary_memsOk (d : Dev) (h : MemsOk d.mems) : MemsOk d.piBoundary.mems := by simp [Dev.piBoundary, h]

@[simp] theorem Dev.piAfter_memsOk (d : Dev) (h : MemsOk d.mems) : MemsOk d.piAfter.mems := by simp +contextual [Dev.piAfter, h]

@[simp] theorem Dev.piClose_memsOk (d : Dev) (h : MemsOk d.mems) : MemsOk d.piClose.mems := by simp [Dev.piClose, h]

@[simp] theorem Dev.piPower_memsOk (d : Dev) (h : MemsOk d.mems) : MemsOk d.piPower.mems := by simp [Dev.piPower, h]

/-! ## `Machine/Tdc.lean` -/

@[simp] theorem Dev.setTdc_mems (d : Dev) (c : Nat) (x : TdcCh) : (d.setTdc c x).mems = d.mems := (rfl)

@[simp] theorem Dev.setMs_mems (d : Dev) (s : Nat) (x : MsSlot) : (d.setMs s x).mems = d.mems := (rfl)

@[simp] theorem Dev.calibrate_mems (d : Dev) (c ip c1 c2 : Nat) : (d.calibrate c ip c1 c2).mems = d.mems := by simp [Dev.calibrate]

@[simp] theorem Dev.tdcCalibration_mems (d : Dev) (c c1 c2 : Nat) : (d.tdcCalibration c c1 c2).mems = d.mems := by
  simp [Dev.tdcCalibration]

@[simp] theorem Dev.armCalDone_mems (d : Dev) (c a1 a2 b1 b2 : Nat) : (d.armCalDone c a1 a2 b1 b2).mems = d.mems := by
  simp [Dev.armCalDone]

@[simp] theorem Dev.stampWrite_memsOk (d : Dev) (c : Nat) (bytes : List Byte) (h : MemsOk d.mems) :
    MemsOk (d.stampWrite c bytes).mems := by
  simp [Dev.stampWrite, h]

@[simp] theorem Dev.stampForm_mems (d : Dev) (c : Nat) (x : Stamp) : (d.stampForm c x).1.mems = d.mems := (rfl)

@[simp] theorem Dev.burstPut_mems (d : Dev) (c : Nat) (x : Stamp) : (d.burstPut c x).mems = d.mems := by simp [Dev.burstPut]

@[simp] theorem Dev.burstDrain_memsOk (d : Dev) (c : Nat) (h : MemsOk d.mems) : MemsOk (d.burstDrain c).mems := by
  unfold Dev.burstDrain
  split <;> simp [h]

@[simp] theorem Dev.sampleRecord_memsOk (d : Dev) (c : Nat) (x : Stamp) (t : Nat) (h : MemsOk d.mems) :
    MemsOk (d.sampleRecord c x t).mems := by
  simp [Dev.sampleRecord, h]

@[simp] theorem Dev.trReplace_memsOk (d : Dev) (kind src : Nat) (old new : List Byte) (h : MemsOk d.mems) :
    MemsOk (d.trReplace kind src old new).mems := by
  refine MemsOk.foldl h (fun d r h => ?_) _
  extract_lets x last
  clear_value last
  (repeat' split)
  · exact h
  · simpa using h
  · exact d.vatStore_memsOk _ _ h
  · exact h

@[simp] theorem Dev.sampleLate_memsOk (d : Dev) (c : Nat) (x : Stamp) (t : Nat) (h : MemsOk d.mems) :
    MemsOk (d.sampleLate c x t).mems := by
  simp [Dev.sampleLate, h]

@[simp] theorem Dev.stampRecord_memsOk (d : Dev) (c : Nat) (x : Stamp) (nth : Bool) (h : MemsOk d.mems) :
    MemsOk (d.stampRecord c x nth).mems := by
  unfold Dev.stampRecord
  split <;> simp [h]

@[simp] theorem Dev.sampleWrite_memsOk (d : Dev) (c : Nat) (h : MemsOk d.mems) : MemsOk (d.sampleWrite c).mems := by
  simp +contextual [Dev.sampleWrite, h]

@[simp] theorem Dev.tdcApply_mems (old d : Dev) (c : Nat) : (old.tdcApply d c).mems = d.mems := by
  simp only [Dev.tdcApply]
  split <;> simp

/-! ## `Machine/Measure.lean` -/

@[simp] theorem Dev.setSt_mems (d : Dev) (s : Nat) (x : StSlot) : (d.setSt s x).mems = d.mems := (rfl)

@[simp] theorem Dev.stBegin_mems (d : Dev) (s : Nat) : (d.stBegin s).mems = d.mems := (rfl)

@[simp] theorem Dev.stSample_mems (d : Dev) (s : Nat) (v : Int) : (d.stSample s v).mems = d.mems := by simp [Dev.stSample]

@[simp] theorem Dev.stFeed_mems (d : Dev) (slot : Nat) (result : Option Int) : (d.stFeed slot result).mems = d.mems := by
  unfold Dev.stFeed
  split <;> simp

@[simp] theorem Dev.stStartCmd_mems (d : Dev) (p : Path) (s : Nat) : (d.stStartCmd p s).mems = d.mems := by simp [Dev.stStartCmd]

@[simp] theorem Dev.stAbortCmd_mems (d : Dev) (s : Nat) : (d.stAbortCmd s).mems = d.mems := by simp [Dev.stAbortCmd]

@[simp] theorem Dev.stBoundary_mems (d : Dev) (s : Nat) : (d.stBoundary s).mems = d.mems := by simp [Dev.stBoundary]

@[simp] theorem Dev.msArm_mems (d : Dev) (busy : Nat → Bool) (s : Nat) : (d.msArm busy s).mems = d.mems := (rfl)

@[simp] theorem Dev.msBoundary_mems (d : Dev) (busy : Nat → Bool) (s : Nat) : (d.msBoundary busy s).mems = d.mems := by
  simp [Dev.msBoundary]

@[simp] theorem Dev.msEnd_mems (d : Dev) (s st : Nat) (result : Option Int) : (d.msEnd s st result).mems = d.mems := by
  simp [Dev.msEnd]

@[simp] theorem Dev.msDone_mems (d : Dev) (s : Nat) (a b : MsEdge) : (d.msDone s a b).mems = d.mems := by simp [Dev.msDone]

@[simp] theorem Dev.msSettle_mems (d : Dev) (s : Nat) : (d.msSettle s).mems = d.mems := by
  unfold Dev.msSettle
  dsimp only
  split <;> simp

@[simp] theorem Dev.msNative_mems (d : Dev) (s c : Nat) (e : MsEdge) : (d.msNative s c e).mems = d.mems := by simp [Dev.msNative]

@[simp] theorem Dev.msIgnored_mems (d : Dev) (s n : Nat) : (d.msIgnored s n).mems = d.mems := (rfl)

@[simp] theorem Dev.msWindow_mems (d : Dev) (s : Nat) (a e : MsEdge) : (d.msWindow s a e).mems = d.mems := by simp [Dev.msWindow]

@[simp] theorem Dev.msDeckle_mems (d : Dev) (s c : Nat) (e : MsEdge) : (d.msDeckle s c e).mems = d.mems := by
  unfold Dev.msDeckle
  dsimp only
  split <;> simp

@[simp] theorem Dev.msStamp_mems (d : Dev) (c : Nat) (e : MsEdge) (s : Nat) : (d.msStamp c e s).mems = d.mems := by
  simp [Dev.msStamp]

@[simp] theorem Dev.msTimeout_mems (d : Dev) (s cyc : Nat) : (d.msTimeout s cyc).mems = d.mems := by simp [Dev.msTimeout]

@[simp] theorem Dev.deckleNostop_mems (d : Dev) (s cyc : Nat) : (d.deckleNostop s cyc).mems = d.mems := by
  unfold Dev.deckleNostop
  split <;> simp

@[simp] theorem Dev.msArmCmd_mems (d : Dev) (p : Path) (s : Nat) : (d.msArmCmd p s).mems = d.mems := by simp [Dev.msArmCmd]

@[simp] theorem Dev.msAbortCmd_mems (d : Dev) (s : Nat) : (d.msAbortCmd s).mems = d.mems := by simp [Dev.msAbortCmd]

@[simp] theorem Dev.edgeStamped_memsOk (d : Dev) (c t : Nat) (falling stale nth : Bool) (h : MemsOk d.mems) :
    MemsOk (d.edgeStamped c t falling stale nth).mems := by
  simp [Dev.edgeStamped, h]

@[simp] theorem Dev.prescaledEdge_memsOk (d : Dev) (c coarse code : Nat) (falling : Bool) (h : MemsOk d.mems) :
    MemsOk (d.prescaledEdge c coarse code falling).mems := by
  simp [Dev.prescaledEdge, h]

@[simp] theorem Dev.tdcStamp_memsOk (d : Dev) (c coarse code : Nat) (falling : Bool) (pulse : Nat) (h : MemsOk d.mems) :
    MemsOk (d.tdcStamp c coarse code falling pulse).mems := by
  simp [Dev.tdcStamp, h]

/-! ## `Machine/Trace.lean` -/

@[simp] theorem Dev.trWrite_memsOk (d : Dev) (r : Nat) (h : MemsOk d.mems) : MemsOk (d.trWrite r).mems := by
  unfold Dev.trWrite
  dsimp only
  split <;> simp [h]

@[simp] theorem Dev.trHeader_memsOk (d : Dev) (r : Nat) (h : MemsOk d.mems) : MemsOk (d.trHeader r).mems := by
  simp [Dev.trHeader, h]

@[simp] theorem Dev.trDone_memsOk (d : Dev) (r : Nat) (h : MemsOk d.mems) : MemsOk (d.trDone r).mems := by simp [Dev.trDone, h]

@[simp] theorem Dev.trStart_mems (d : Dev) (r : Nat) : (d.trStart r).mems = d.mems := by
  unfold Dev.trStart
  dsimp only
  split <;> simp

@[simp] theorem Dev.trRearmEnd_mems (d : Dev) (r : Nat) : (d.trRearmEnd r).mems = d.mems := by
  unfold Dev.trRearmEnd
  dsimp only
  split <;> simp

@[simp] theorem Dev.trBoundary_mems (d : Dev) (r : Nat) : (d.trBoundary r).mems = d.mems := by simp [Dev.trBoundary]

@[simp] theorem Dev.trArmCmd_mems (d : Dev) (p : Path) (r : Nat) : (d.trArmCmd p r).mems = d.mems := by simp [Dev.trArmCmd]

@[simp] theorem Dev.trTriggerCmd_mems (d : Dev) (r : Nat) : (d.trTriggerCmd r).mems = d.mems := by simp [Dev.trTriggerCmd]

@[simp] theorem Dev.trUnqueue_mems (d : Dev) (r : Nat) : (d.trUnqueue r).mems = d.mems := by simp [Dev.trUnqueue]

@[simp] theorem Dev.trStop_mems (d : Dev) (r : Nat) : (d.trStop r).mems = d.mems := (rfl)

@[simp] theorem Dev.trAbortCmd_memsOk (d : Dev) (r : Nat) (h : MemsOk d.mems) : MemsOk (d.trAbortCmd r).mems := by
  unfold Dev.trAbortCmd
  split <;> simp [h]

@[simp] theorem Dev.trPhase_mems (d : Dev) (l : Nat) : (d.trPhase l).mems = d.mems := by simp [Dev.trPhase]

end Sys2Proof.Machine
end

section
/-! SUPPORT. The memories under the frames, the scheduler, the rings and the links. -/

namespace Sys2Proof.Machine

/-! ## `Machine/Frames.lean` -/

@[simp] theorem Dev.frmCount_mems (d : Dev) (p i : Nat) (by' : Nat) : (d.frmCount p i by').mems = d.mems := (rfl)

@[simp] theorem Dev.pcsLoss_mems (d : Dev) (p : Nat) : (d.pcsLoss p).mems = d.mems := by simp [Dev.pcsLoss]

@[simp] theorem Dev.parseTouch_mems (d : Dev) : d.parseTouch.mems = d.mems := by simp [Dev.parseTouch]

@[simp] theorem Dev.tokensSettle_mems (d : Dev) (p : Nat) : (d.tokensSettle p).mems = d.mems := (rfl)

@[simp] theorem Dev.police_mems (d : Dev) (p len : Nat) : (d.police p len).1.mems = d.mems := (rfl)

@[simp] theorem Dev.framePush_memsOk (d : Dev) (q : Nat) (entry : List Byte) (h : MemsOk d.mems) :
    MemsOk (d.framePush q entry).mems := by
  simp [Dev.framePush, h]

@[simp] theorem Dev.txPut_mems (d : Dev) (x : FrmTx) : (d.txPut x).mems = d.mems := (rfl)

@[simp] theorem Dev.cellsFill_memsOk (d : Dev) (c : FrmCells) (f : List Byte) (h : MemsOk d.mems) :
    MemsOk (d.cellsFill c f).mems := by
  simp [Dev.cellsFill, h]

@[simp] theorem Dev.frameAdmit_memsOk (d : Dev) (p : Nat) (f : List Byte) (x : Parsed) (stamp from' : Nat) (h : MemsOk d.mems) :
    MemsOk (d.frameAdmit p f x stamp from').mems := by
  unfold Dev.frameAdmit
  split <;> simp [h]

@[simp] theorem Dev.frameParse_memsOk (d : Dev) (p : Nat) (f : List Byte) (stamp from' : Nat) (h : MemsOk d.mems) :
    MemsOk (d.frameParse p f stamp from').mems := by
  unfold Dev.frameParse
  dsimp only
  split <;> simp [h]

@[simp] theorem Dev.frameReceive_memsOk (d : Dev) (p : Nat) (f : List Byte) (fcsOk before : Bool) (stamp from' : Nat) (h : MemsOk d.mems) :
    MemsOk (d.frameReceive p f fcsOk before stamp from').mems := by
  simp [Dev.frameReceive, h]

@[simp] theorem Dev.frameLoop_memsOk (d : Dev) (p : Nat) (f : List Byte) (stamp : Nat) (h : MemsOk d.mems) :
    MemsOk (d.frameLoop p f stamp).mems := by
  unfold Dev.frameLoop
  split <;> simp [h]

@[simp] theorem Dev.waitTimeout_mems (d : Dev) (row : Nat) : (d.waitTimeout row).mems = d.mems := by simp [Dev.waitTimeout]

@[simp] theorem Dev.correct_mems (d : Dev) (p : Nat) (f : List Byte) (o : Nat) (res : Int) :
    (d.correct p f o res).1.mems = d.mems := by
  simp [Dev.correct]

@[simp] theorem Dev.twoStepPut_mems (d : Dev) (e : TwoStep) : (d.twoStepPut e).mems = d.mems := (rfl)

@[simp] theorem Dev.doCorrect_mems (d : Dev) (p : Nat) (f : List Byte) (o : Nat) (s : Nat) :
    (d.doCorrect p f o s).1.mems = d.mems := by
  unfold Dev.doCorrect
  split <;> simp

@[simp] theorem Dev.doFollow_mems (d : Dev) (p : Nat) (f : List Byte) (o : Nat) (s : Nat) :
    (d.doFollow p f o s).1.mems = d.mems := by
  unfold Dev.doFollow
  dsimp only
  (repeat' split) <;> simp

@[simp] theorem Dev.transit_mems (d : Dev) (x : FrmTx) (f : List Byte) (s : Nat) : (d.transit x f s).1.mems = d.mems := by
  unfold Dev.transit
  split <;> simp

@[simp] theorem Dev.insertTime_mems (d : Dev) (p : Nat) (f : List Byte) (o s : Nat) : (d.insertTime p f o s).1.mems = d.mems := by
  unfold Dev.insertTime
  split <;> simp

@[simp] theorem Dev.egressEntry_mems (d : Dev) (e : List Byte) : (d.egressEntry e).mems = d.mems := by simp [Dev.egressEntry]

theorem Dev.egressPop_memsOk (d : Dev) (q : Nat) (h : MemsOk d.mems) :
    MemsOk (match d.qPop q with | (d, some e) => d.egressEntry e | (d, none) => d).mems := by
  have hp : MemsOk (d.qPop q).1.mems := d.qPop_memsOk q _ h
  split
  next d' e heq => rw [heq] at hp; simp [hp]
  next d' heq => rwa [heq] at hp

@[simp] theorem Dev.egressPull_memsOk (d : Dev) (h : MemsOk d.mems) : MemsOk d.egressPull.mems := by
  unfold Dev.egressPull
  extract_lets q
  split
  · exact MemsOk.foldl h (fun d _ h => d.egressPop_memsOk q h) _
  · exact h

@[simp] theorem Dev.txDrop_mems (d : Dev) (x : FrmTx) : (d.txDrop x).mems = d.mems := by simp [Dev.txDrop]

@[simp] theorem Dev.descDone_mems (d : Dev) (r : Nat) (desc : List Byte) (port : Option Nat) (stamp : Option Nat) (rlen status : Nat) :
    (d.descDone r desc port stamp rlen status).mems = d.mems := by
  simp [Dev.descDone]

@[simp] theorem Dev.launch_memsOk (d : Dev) (x : FrmTx) (h : MemsOk d.mems) : MemsOk (d.launch x).mems := by
  unfold Dev.launch
  dsimp only
  (repeat' split) <;> simp [h]

@[simp] theorem Dev.frameTransmit_memsOk (d : Dev) (p : Nat) (h : MemsOk d.mems) : MemsOk (d.frameTransmit p).mems := by
  unfold Dev.frameTransmit
  dsimp only
  (repeat' split) <;> simp [h]

@[simp] theorem Dev.twoStepAge_mems (d : Dev) : d.twoStepAge.mems = d.mems := (rfl)

@[simp] theorem Dev.portOff_memsOk (d : Dev) (p : Nat) (h : MemsOk d.mems) : MemsOk (d.portOff p).mems := by
  unfold Dev.portOff
  extract_lets d1 left d2 f d3 d4
  have h1 : MemsOk d1.mems := by simp [d1, h]
  clear_value d1
  have h2 : MemsOk d2.mems := MemsOk.foldl h1 (fun d x h => by dsimp only; split <;> simp [h]) _
  clear_value d2
  have h3 : MemsOk d3.mems := h2
  clear_value d3
  simp [d4, h3]

@[simp] theorem Dev.portDrainEnd_memsOk (d : Dev) (p : Nat) (h : MemsOk d.mems) : MemsOk (d.portDrainEnd p).mems := by
  simp [Dev.portDrainEnd, h]

@[simp] theorem Dev.portDown_mems (d : Dev) (p : Nat) : (d.portDown p).mems = d.mems := by simp [Dev.portDown]

@[simp] theorem Dev.portBoundary_mems (d : Dev) (p : Nat) : (d.portBoundary p).mems = d.mems := by
  unfold Dev.portBoundary
  split <;> simp

/-! ## `Machine/RegMap.lean` -/

@[simp] theorem Dev.dirSet_memsOk (d : Dev) (n o l : Nat) (h : MemsOk d.mems) : MemsOk (d.dirSet n o l).mems := by
  simp [Dev.dirSet, h]

@[simp] theorem Dev.tableSwap_memsOk (old d : Dev) (h : MemsOk d.mems) : MemsOk (old.tableSwap d).mems := by
  simp +contextual [Dev.tableSwap, h]

@[simp] theorem Dev.view_memsOk (d : Dev) (h : MemsOk d.mems) : MemsOk d.view.mems := by simp [Dev.view, h]

/-! ## `Machine/Sched.lean` -/

@[simp] theorem Dev.promote_mems (d : Dev) (t now : Nat) : (d.promote t now).mems = d.mems := by simp [Dev.promote]

@[simp] theorem Dev.promoteAll_mems (d : Dev) (e now : Nat) : (d.promoteAll e now).mems = d.mems := by simp [Dev.promoteAll]

@[simp] theorem Dev.agesSettle_mems (d : Dev) : d.agesSettle.mems = d.mems := by simp [Dev.agesSettle]

@[simp] theorem Dev.startTask_memsOk (d : Dev) (e t : Nat) (h : MemsOk d.mems) : MemsOk (d.startTask e t).mems := by
  simp [Dev.startTask, h]

@[simp] theorem Dev.dispatchFrom_memsOk (n : Nat) (d : Dev) (e : Nat) (h : MemsOk d.mems) :
    MemsOk (Dev.dispatchFrom n d e).mems := by
  induction n generalizing d with
  | zero => exact h
  | succ n ih =>
    simp only [Dev.dispatchFrom]
    split
    · exact h
    · split
      · exact d.startTask_memsOk e _ h
      · exact ih _ (by simpa using h)

@[simp] theorem Dev.dispatch_memsOk (d : Dev) (e c : Nat) (h : MemsOk d.mems) : MemsOk (d.dispatch e c).mems := by
  unfold Dev.dispatch
  extract_lets d1
  have h1 : MemsOk d1.mems := h
  split
  · exact Dev.dispatchFrom_memsOk 16 _ e (by simpa using h1)
  · exact h1

@[simp] theorem Dev.readyTick_mems (d : Dev) : d.readyTick.mems = d.mems := by simp [Dev.readyTick]

@[simp] theorem Dev.cancelTask_mems (d : Dev) (t : Nat) : (d.cancelTask t).mems = d.mems := by simp [Dev.cancelTask]

@[simp] theorem Dev.timerExpire_memsOk (d : Dev) (e : Nat) (t : Fin 4) (h : MemsOk d.mems) : MemsOk (d.timerExpire e t).mems := by
  unfold Dev.timerExpire
  dsimp only
  split <;> simp [h]

@[simp] theorem Dev.timersExpire_memsOk (d : Dev) (h : MemsOk d.mems) : MemsOk d.timersExpire.mems := by
  unfold Dev.timersExpire
  refine MemsOk.foldl h (fun d x h => MemsOk.foldl h (fun d t h => ?_) _) _
  split
  · exact d.timerExpire_memsOk x.1 t h
  · exact h

@[simp] theorem Dev.admitNote_mems (d v : Dev) (e code : Nat) : (d.admitNote v e code).mems = d.mems := (rfl)

@[simp] theorem Dev.clusterOff_memsOk (d : Dev) (c : Nat) (h : MemsOk d.mems) : MemsOk (d.clusterOff c).mems := by
  unfold Dev.clusterOff
  extract_lets x d1 d2
  have h1 : MemsOk d1.mems := h.setClus (canonical_nil _) (canonical_nil _) c
  have h2 : MemsOk d2.mems := h1.withEngs fun i x hx => h1.mem_engs i x (List.mem_of_mem_filter hx)
  simpa using h2

@[simp] theorem Dev.clusterApply_memsOk (d : Dev) (old : Nat) (h : MemsOk d.mems) : MemsOk (d.clusterApply old).mems := by
  unfold Dev.clusterApply
  extract_lets new
  refine MemsOk.foldl h (fun d c h => ?_) _
  split
  · exact d.clusterOff_memsOk c h
  · split
    · exact h.setClus_same
    · exact h

@[simp] theorem Dev.clusterStart_memsOk (d : Dev) (c : Nat) (h : MemsOk d.mems) : MemsOk (d.clusterStart c).mems := by
  unfold Dev.clusterStart
  extract_lets first x d1
  have h1 : MemsOk d1.mems := h.setClus_same
  split
  · exact h1
  · exact h

@[simp] theorem Dev.clusterDone_memsOk (d : Dev) (c : Nat) (h : MemsOk d.mems) : MemsOk (d.clusterDone c).mems := by
  simp [Dev.clusterDone, h]

@[simp] theorem Dev.istoreWrite_memsOk (d : Dev) (p : Path) (c i v : Nat) (h : MemsOk d.mems) :
    MemsOk (d.istoreWrite p c i v).mems := by
  unfold Dev.istoreWrite
  extract_lets off x
  (repeat' split)
  · simpa using h
  · simpa using h
  · exact MemsOk.setClus (x := { x with istore := _ }) h ((h.istore c).writeN _ _) (h.cmem c) c
  · exact h

/-! ## `Machine/Dma.lean` -/

@[simp] theorem Dev.setRead_mems (d : Dev) (r : Nat) (desc : Option (List Byte)) : (d.setRead r desc).mems = d.mems := (rfl)

@[simp] theorem Dev.dmaFrame_memsOk (d : Dev) (r : Nat) (desc f : List Byte) (poison : Bool) (from' : Nat) (h : MemsOk d.mems) :
    MemsOk (d.dmaFrame r desc f poison from').mems := by
  unfold Dev.dmaFrame
  dsimp only
  split <;> simp [h]

@[simp] theorem Dev.dmaFetch_memsOk (d : Dev) (r : Nat) (desc f : List Byte) (got poison : Bool) (from' : Nat) (h : MemsOk d.mems) :
    MemsOk (d.dmaFetch r desc f got poison from').mems := by
  simp [Dev.dmaFetch, h]

@[simp] theorem Dev.dmaReceive_memsOk (d : Dev) (r : Nat) (desc : List Byte) (h : MemsOk d.mems) :
    MemsOk (d.dmaReceive r desc).mems := by
  unfold Dev.dmaReceive
  extract_lets desc' q x e bad f d1
  have h1 : MemsOk (d1.qPop q).1.mems := by simp [d1, h]
  clear_value d1
  split
  · exact h
  · split
    next d2 heq => rwa [heq] at h1
    next d2 v heq =>
      rw [heq] at h1
      dsimp only
      split <;> simpa using h1

@[simp] theorem Dev.dmaTimeout_mems (d : Dev) (r : Nat) (desc : List Byte) : (d.dmaTimeout r desc).mems = d.mems := by
  simp [Dev.dmaTimeout]

@[simp] theorem Dev.ringDisable_mems (d : Dev) (r : Nat) : (d.ringDisable r).mems = d.mems := by
  unfold Dev.ringDisable
  dsimp only
  (repeat' split) <;> simp

/-! ## `Machine/Watermark.lean` -/

@[simp] theorem Dev.stagedView_memsOk (d : Dev) (h : MemsOk d.mems) : MemsOk d.stagedView.mems := by simp [Dev.stagedView, h]

/-! ## `Machine/Links.lean` -/

@[simp] theorem Dev.setKlink_mems (d : Dev) (k : Nat) (x : KlLink) : (d.setKlink k x).mems = d.mems := (rfl)

@[simp] theorem Dev.exportTouch_mems (d : Dev) : d.exportTouch.mems = d.mems := by simp [Dev.exportTouch]

@[simp] theorem Dev.linkEmit_mems (d : Dev) (k : Nat) (l : List LinkBlock) : (d.linkEmit k l).mems = d.mems := (rfl)

@[simp] theorem Dev.klMeasure_mems (d : Dev) (k : Nat) : (d.klMeasure k).mems = d.mems := by
  unfold Dev.klMeasure
  split <;> simp

@[simp] theorem Dev.rrefReceive_mems (d : Dev) (k i : Nat) : (d.rrefReceive k i).mems = d.mems := by simp [Dev.rrefReceive]

@[simp] theorem Dev.rloopReceive_mems (d : Dev) (k m : Nat) : (d.rloopReceive k m).mems = d.mems := by simp [Dev.rloopReceive]

@[simp] theorem Dev.epochReceive_mems (d : Dev) (k : Nat) : (d.epochReceive k).mems = d.mems := by simp [Dev.epochReceive]

@[simp] theorem Dev.wmAgree_mems (d : Dev) (k : Nat) : (d.wmAgree k).mems = d.mems := (rfl)

@[simp] theorem Dev.wmReceive_mems (d : Dev) (k : Nat) : (d.wmReceive k).mems = d.mems := by simp [Dev.wmReceive]

@[simp] theorem Dev.mboxReceive_mems (d : Dev) (k : Nat) : (d.mboxReceive k).mems = d.mems := (rfl)

@[simp] theorem Dev.frameGood_memsOk (d : Dev) (k : Nat) (sync body : List Byte) (h : MemsOk d.mems) :
    MemsOk (d.frameGood k sync body).mems := by
  simp [Dev.frameGood, h]

@[simp] theorem Dev.frameMissed_mems (d : Dev) (k : Nat) : (d.frameMissed k).mems = d.mems := (rfl)

@[simp] theorem Dev.lockGained_mems (d : Dev) (k : Nat) : (d.lockGained k).mems = d.mems := by simp [Dev.lockGained]

@[simp] theorem Dev.lockLost_mems (d : Dev) (k : Nat) : (d.lockLost k).mems = d.mems := by simp [Dev.lockLost]

@[simp] theorem Dev.blockTake_mems (d : Dev) (k : Nat) (b : Block) : (d.blockTake k b).1.mems = d.mems := by simp [Dev.blockTake]

@[simp] theorem Dev.frameJudge_memsOk (d : Dev) (k : Nat) (sync body : List Byte) (whole : Bool) (h : MemsOk d.mems) :
    MemsOk (d.frameJudge k sync body whole).mems := by
  simp [Dev.frameJudge, h]

@[simp] theorem Dev.blocksTake_mems (k : Nat) (d : Dev) (l : List Block) : (Dev.blocksTake k d l).1.mems = d.mems := by
  induction l generalizing d with
  | nil => rfl
  | cons b r ih => simp [Dev.blocksTake, ih]

@[simp] theorem Dev.frameBlocksTake_memsOk (d : Dev) (k : Nat) (l : List Block) (h : MemsOk d.mems) :
    MemsOk (d.frameBlocksTake k l).mems := by
  have hb : MemsOk (Dev.blocksTake k d l).1.mems := by rwa [Dev.blocksTake_mems]
  unfold Dev.frameBlocksTake
  generalize Dev.blocksTake k d l = p at hb ⊢
  dsimp only
  split
  · exact hb
  · simp [h]

@[simp] theorem Dev.tickFrameReceive_memsOk (d : Dev) (k : Nat) (l : List Block) (h : MemsOk d.mems) :
    MemsOk (d.tickFrameReceive k l).mems := by
  simp [Dev.tickFrameReceive, h]

@[simp] theorem Dev.linkSend_memsOk (d : Dev) (k : Nat) (f : Option (List Byte)) (h : MemsOk d.mems) :
    MemsOk (d.linkSend k f).mems := by
  unfold Dev.linkSend
  dsimp only
  (repeat' split) <;> simp [h]

@[simp] theorem Dev.tickFrameSend_memsOk (d : Dev) (h : MemsOk d.mems) : MemsOk d.tickFrameSend.mems := by
  simp +contextual [Dev.tickFrameSend, h]

@[simp] theorem Dev.linkUpNow_mems (d : Dev) (k : Nat) : (d.linkUpNow k).mems = d.mems := by simp [Dev.linkUpNow]

@[simp] theorem Dev.calFail_mems (d : Dev) (k : Nat) : (d.calFail k).mems = d.mems := by simp [Dev.calFail]

@[simp] theorem Dev.rrefsLost_mems (d : Dev) (k : Nat) : (d.rrefsLost k).mems = d.mems := by simp [Dev.rrefsLost]

@[simp] theorem Dev.linkDownNow_mems (d : Dev) (k : Nat) : (d.linkDownNow k).mems = d.mems := by simp [Dev.linkDownNow]

@[simp] theorem Dev.blocksReceive_mems (d : Dev) (k : Nat) (l : List Block) : (d.blocksReceive k l).mems = d.mems := by
  simp only [Dev.blocksReceive]
  split <;> simp

@[simp] theorem Dev.linkBoundary_mems (d : Dev) (k : Nat) : (d.linkBoundary k).mems = d.mems := by simp [Dev.linkBoundary]

theorem Dev.calNamed_mems (d : Dev) (p : Path) (k : Nat) (t : Option Nat) : (d.calNamed p k t).mems = d.mems := by
  cases t
  · exact Dev.refuse_mems ..
  · rfl

@[simp] theorem Dev.linkCalCmd_mems (d : Dev) (p : Path) (k s30 : Nat) : (d.linkCalCmd p k s30).mems = d.mems := by
  rw [Dev.linkCalCmd_eq]
  exact Dev.calNamed_mems d p k _

@[simp] theorem Dev.linkAbortCmd_mems (d : Dev) (k : Nat) : (d.linkAbortCmd k).mems = d.mems := (rfl)

@[simp] theorem Dev.calBegin_mems (d : Dev) (k : Nat) : (d.calBegin k).mems = d.mems := (rfl)

@[simp] theorem Dev.calSwap_mems (d : Dev) (k t : Nat) : (d.calSwap k t).mems = d.mems := by simp [Dev.calSwap]

@[simp] theorem Dev.calEnd_mems (d : Dev) (k t : Nat) : (d.calEnd k t).mems = d.mems := by simp [Dev.calEnd]

@[simp] theorem Dev.calBoundary_mems (d : Dev) (k : Nat) : (d.calBoundary k).mems = d.mems := by simp [Dev.calBoundary]

@[simp] theorem Dev.upstream_mems (d : Dev) : d.upstream.mems = d.mems := by
  unfold Dev.upstream
  (repeat' split) <;> simp

@[simp] theorem Dev.publishNext_mems (d : Dev) : d.publishNext.mems = d.mems := by
  unfold Dev.publishNext
  dsimp only
  (repeat' split) <;> simp

@[simp] theorem Dev.becomeLead_mems (d : Dev) : d.becomeLead.mems = d.mems := (rfl)

@[simp] theorem Dev.leadElection_mems (d : Dev) : d.leadElection.mems = d.mems := by simp [Dev.leadElection]

@[simp] theorem Dev.join_mems (d : Dev) : d.join.mems = d.mems := by
  unfold Dev.join
  dsimp only
  (repeat' split) <;> simp

@[simp] theorem Dev.joinStep_mems (d : Dev) : d.joinStep.mems = d.mems := by
  unfold Dev.joinStep
  dsimp only
  (repeat' split) <;> simp

@[simp] theorem Dev.failover_mems (d : Dev) : d.failover.mems = d.mems := by simp [Dev.failover]

@[simp] theorem Dev.splitNow_mems (d : Dev) : d.splitNow.mems = d.mems := by simp [Dev.splitNow]

@[simp] theorem Dev.rejoin_mems (d : Dev) : d.rejoin.mems = d.mems := by simp [Dev.rejoin]

@[simp] theorem Dev.klWord_mems (d : Dev) : d.klWord.mems = d.mems := by
  unfold Dev.klWord
  dsimp only
  (repeat' split) <;> simp

@[simp] theorem Dev.pllBoundary_mems (d : Dev) : d.pllBoundary.mems = d.mems := (rfl)

@[simp] theorem Dev.linksKnown_mems (d : Dev) : d.linksKnown.mems = d.mems := (rfl)

@[simp] theorem Dev.groupBoundary_mems (d : Dev) : d.groupBoundary.mems = d.mems := by simp [Dev.groupBoundary]

@[simp] theorem Dev.mailbox_mems (d : Dev) (w : BitVec 256) : (d.mailbox w).mems = d.mems := (rfl)

@[simp] theorem Dev.badName_mems (d : Dev) : d.badName.mems = d.mems := (rfl)

@[simp] theorem Dev.bulkReceive_mems (d : Dev) (index : Nat) (data : List Byte) (good : Bool) :
    (d.bulkReceive index data good).mems = d.mems := by
  simp [Dev.bulkReceive]

@[simp] theorem Dev.bulkBurstReceive_mems (d : Dev) (k : Nat) (l : List Block) : (d.bulkBurstReceive k l).mems = d.mems := by
  unfold Dev.bulkBurstReceive
  split
  · rfl
  · have hb := Dev.blocksTake_mems k d l
    generalize Dev.blocksTake k d l = p at hb ⊢
    dsimp only
    split
    · exact hb
    · exact (Dev.bulkReceive_mems _ _ _ _).trans hb

@[simp] theorem Dev.wmMismatch_mems (d : Dev) (k : Nat) : (d.wmMismatch k).mems = d.mems := by simp [Dev.wmMismatch]

end Sys2Proof.Machine
end

section
/-! SUPPORT. The memories under the Ream, the faults, the host and the tests. -/

namespace Sys2Proof.Machine

/-! ## `Machine/Ream.lean` -/

@[simp] theorem Dev.groupPut_memsOk (d : Dev) (g : Nat) (l : List Byte) (h : MemsOk d.mems) : MemsOk (d.groupPut g l).mems := by
  unfold Dev.groupPut
  extract_lets b r ones
  exact h.withReam (h.ream.writeN _ _)

@[simp] theorem Dev.groupIndet_memsOk (d : Dev) (g : Nat) (h : MemsOk d.mems) : MemsOk (d.groupIndet g).mems := by
  simp [Dev.groupIndet, h]

@[simp] theorem Dev.reamPut_memsOk (d : Dev) (a : Nat) (l : List Byte) (h : MemsOk d.mems) : MemsOk (d.reamPut a l).mems := by
  simp +contextual [Dev.reamPut, h]

@[simp] theorem Dev.sectorBlank_memsOk (d : Dev) (s : Nat) (h : MemsOk d.mems) : MemsOk (d.sectorBlank s).mems := by
  exact h.withReam (h.ream.filter _)

@[simp] theorem Dev.erasesUp_mems (d : Dev) (s count : Nat) : (d.erasesUp s count).mems = d.mems := by simp [Dev.erasesUp]

@[simp] theorem Dev.halfShow_mems (d : Dev) : d.halfShow.mems = d.mems := by
  unfold Dev.halfShow
  split <;> simp

@[simp] theorem Dev.logScan_mems (d : Dev) : d.logScan.mems = d.mems := by simp [Dev.logScan]

@[simp] theorem Dev.logSlotPut_memsOk (d : Dev) (sector kind count : Nat) (h : MemsOk d.mems) :
    MemsOk (d.logSlotPut sector kind count).mems := by
  simp [Dev.logSlotPut, h]

@[simp] theorem Dev.logRotate_memsOk (d : Dev) (h : MemsOk d.mems) : MemsOk d.logRotate.mems := by
  unfold Dev.logRotate
  extract_lets r other n d1 v d2 d3
  have h1 : MemsOk d1.mems := by simp [d1, h]
  clear_value d1
  have h2 : MemsOk d2.mems := h1.same
  clear_value d2
  have h3 : MemsOk d3.mems := d2.logSlotPut_memsOk _ _ _ h2
  clear_value d3
  split
  · exact h
  · exact MemsOk.foldl h3 (fun d s h => d.logSlotPut_memsOk _ _ _ h) _

@[simp] theorem Dev.logAppend_memsOk (d : Dev) (sector kind count : Nat) (h : MemsOk d.mems) :
    MemsOk (d.logAppend sector kind count).mems := by
  simp [Dev.logAppend, h]

@[simp] theorem Dev.eraseBegin_memsOk (d : Dev) (s : Nat) (h : MemsOk d.mems) : MemsOk (d.eraseBegin s).mems := by
  simp [Dev.eraseBegin, h]

@[simp] theorem Dev.eraseFinish_memsOk (d : Dev) (s : Nat) (h : MemsOk d.mems) : MemsOk (d.eraseFinish s).mems := by
  simp [Dev.eraseFinish, h]

@[simp] theorem Dev.eraseOwn_memsOk (d : Dev) (s : Nat) (h : MemsOk d.mems) : MemsOk (d.eraseOwn s).mems := by
  simp [Dev.eraseOwn, h]

theorem Dev.erases_memsOk (d : Dev) (t : Tbl Nat) (h : MemsOk d.mems) :
    MemsOk ({ d with ream := { d.ream with erases := t } } : Dev).mems := h

@[simp] theorem Dev.eraseCut_memsOk (d : Dev) (s : Nat) (h : MemsOk d.mems) : MemsOk (d.eraseCut s).mems := by
  unfold Dev.eraseCut
  extract_lets d1 v f
  have h1 : MemsOk d1.mems := MemsOk.foldl h (fun d i h => d.groupIndet_memsOk _ h) _
  clear_value d1
  exact Dev.erases_memsOk d1.freeNext _ (by simpa using h1)

@[simp] theorem Dev.reamRefuse_mems (d : Dev) (p : Path) (code : Nat) (r : Reason) : (d.reamRefuse p code r).mems = d.mems := by
  simp [Dev.reamRefuse]

@[simp] theorem Dev.reamCmd_memsOk (d : Dev) (p : Path) (op len : Nat) (h : MemsOk d.mems) : MemsOk (d.reamCmd p op len).mems := by
  simp [Dev.reamCmd, h]

@[simp] theorem Dev.reamEnd_mems (d : Dev) (st code : Nat) : (d.reamEnd st code).mems = d.mems := by simp [Dev.reamEnd]

@[simp] theorem Dev.readGroup_memsOk (d : Dev) (g vat code : Nat) (h : MemsOk d.mems) : MemsOk (d.readGroup g vat code).1.mems := by
  simp [Dev.readGroup, h]

@[simp] theorem Dev.reamReadDone_memsOk (d : Dev) (h : MemsOk d.mems) : MemsOk d.reamReadDone.mems := by
  unfold Dev.reamReadDone
  split
  next addr len vat heq =>
    have h1 := MemsOk.foldl_fst (f := fun (p : Dev × Nat) i => p.1.readGroup (addr / 8 + i) (vat + 8 * i) p.2)
      (fun p i h => p.1.readGroup_memsOk _ _ _ h) (List.range (len / 8)) (d, 1) h
    generalize List.foldl _ _ _ = p at h1 ⊢
    simpa using h1
  · exact h

@[simp] theorem Dev.reamProgramDone_memsOk (d : Dev) (ok : Bool) (h : MemsOk d.mems) : MemsOk (d.reamProgramDone ok).mems := by
  unfold Dev.reamProgramDone
  dsimp only
  (repeat' split) <;> simp +contextual [h]

@[simp] theorem Dev.reamEraseDone_memsOk (d : Dev) (ok : Bool) (h : MemsOk d.mems) : MemsOk (d.reamEraseDone ok).mems := by
  unfold Dev.reamEraseDone
  split <;> simp [h]

@[simp] theorem Dev.reamCut_memsOk (d : Dev) (n : Nat) (h : MemsOk d.mems) : MemsOk (d.reamCut n).mems := by
  unfold Dev.reamCut
  dsimp only
  (repeat' split) <;> simp +contextual [h]

@[simp] theorem Dev.readCut_memsOk (d : Dev) (n : Nat) (h : MemsOk d.mems) : MemsOk (d.readCut n).mems := by
  unfold Dev.readCut
  split
  · exact MemsOk.foldl h (fun d i h => d.readGroup_memsOk _ _ _ h) _
  · exact h

@[simp] theorem Dev.reamAbort_memsOk (d : Dev) (p : Path) (n : Nat) (h : MemsOk d.mems) : MemsOk (d.reamAbort p n).mems := by
  unfold Dev.reamAbort
  split <;> simp [h]

@[simp] theorem Dev.recordsPut_memsOk (d : Dev) (s : Nat) (l : List (List Byte)) (h : MemsOk d.mems) :
    MemsOk (d.recordsPut s l).1.mems := by
  unfold Dev.recordsPut
  refine MemsOk.foldl_fst (fun p b h => ?_) _ _ h
  split
  · exact p.1.reamPut_memsOk _ _ h
  · exact h

@[simp] theorem Dev.journalEnter_memsOk (d : Dev) (rgn s : Nat) (h : MemsOk d.mems) : MemsOk (d.journalEnter rgn s).1.mems := by
  unfold Dev.journalEnter
  extract_lets e all keep kept d1
  have h1 : MemsOk d1.mems := by simp [d1, h]
  clear_value d1
  have h2 := d1.recordsPut_memsOk s kept h1
  generalize d1.recordsPut s kept = p at h2 ⊢
  clear_value kept
  dsimp only
  split
  · exact Dev.eraseOwn_memsOk _ _ h2
  · exact h2

@[simp] theorem Dev.journalRoom_memsOk (d : Dev) (rgn need n s o : Nat) (h : MemsOk d.mems) :
    MemsOk (d.journalRoom rgn need n s o).1.mems := by
  induction n generalizing d s o with
  | zero => exact h
  | succ n ih =>
    simp only [Dev.journalRoom]
    split
    · exact h
    · exact ih _ _ _ (d.journalEnter_memsOk rgn _ h)

@[simp] theorem Dev.journalAppend_memsOk (d : Dev) (rgn id : Nat) (payload : List Byte) (h : MemsOk d.mems) :
    MemsOk (d.journalAppend rgn id payload).mems := by
  unfold Dev.journalAppend
  split
  next s o q heq =>
  extract_lets need
  have h1 := d.journalRoom_memsOk rgn need (d.region rgn).2 s o h
  generalize d.journalRoom rgn need (d.region rgn).2 s o = p at h1 ⊢
  dsimp only
  split
  · exact Dev.reamPut_memsOk _ _ _ h1
  · exact h1

@[simp] theorem Dev.saveTouch_mems (d : Dev) : d.saveTouch.mems = d.mems := by simp [Dev.saveTouch]

@[simp] theorem Dev.saveProgram_memsOk (d : Dev) (r : SaveRun) (n : Nat) (cut : Bool) (h : MemsOk d.mems) :
    MemsOk (d.saveProgram r n cut).mems := by
  simp +contextual [Dev.saveProgram, h]

@[simp] theorem Dev.saveStop_mems (d : Dev) : d.saveStop.mems = d.mems := by simp [Dev.saveStop]

@[simp] theorem Dev.saveInto_memsOk (d : Dev) (a : Nat) (h : MemsOk d.mems) : MemsOk (d.saveInto a).mems := by
  unfold Dev.saveInto
  split <;> simp [h]

@[simp] theorem Dev.saveSkip_mems (d : Dev) : d.saveSkip.mems = d.mems := by
  have hf := Dev.fault_mems d 73 0 0
  exact Prod.ext (congrArg (·.1) hf) (Prod.ext rfl (congrArg (·.2.2) hf))

@[simp] theorem Dev.saveStart_memsOk (d : Dev) (h : MemsOk d.mems) : MemsOk d.saveStart.mems := by
  unfold Dev.saveStart
  dsimp only
  split <;> simp [h]

@[simp] theorem Dev.saveDone_memsOk (d : Dev) (h : MemsOk d.mems) : MemsOk d.saveDone.mems := by
  unfold Dev.saveDone
  split <;> simp [h]

@[simp] theorem Dev.pfailRecognised_mems (d : Dev) : d.pfailRecognised.mems = d.mems := by simp [Dev.pfailRecognised]

@[simp] theorem Dev.armCut_memsOk (d : Dev) (h : MemsOk d.mems) : MemsOk d.armCut.mems := by
  unfold Dev.armCut
  split <;> simp [h]

@[simp] theorem Dev.reamHalt_memsOk (d : Dev) (n : Nat) (h : MemsOk d.mems) : MemsOk (d.reamHalt n).mems := by
  simp [Dev.reamHalt, h]

@[simp] theorem Dev.logTorn_memsOk (d : Dev) (h : MemsOk d.mems) : MemsOk d.logTorn.mems := by
  unfold Dev.logTorn
  split
  · exact h
  · extract_lets v d1 j g gone r f
    have h1 : MemsOk d1.mems := h
    clear_value j d1
    split
    · exact h1
    · exact Dev.groupIndet_memsOk _ _ (h1.withReam (h1.ream.filter _))

@[simp] theorem Dev.reamPowerCut_memsOk (d : Dev) (n : Nat) (h : MemsOk d.mems) : MemsOk (d.reamPowerCut n).mems := by
  unfold Dev.reamPowerCut
  extract_lets d1 d2
  have h1 : MemsOk d1.mems := by
    simp only [d1]
    split <;> simp [h]
  clear_value d1
  have h2 : MemsOk d2.mems := by simp [d2, h1]
  exact h2

/-! ## `Machine/Faults.lean` -/

@[simp] theorem Dev.collect_mems (d : Dev) (s inst detail : Nat) : (d.collect s inst detail).mems = d.mems := by simp [Dev.collect]

@[simp] theorem Dev.logBegin_mems (d : Dev) (addr : Nat) (erased : Bool) : (d.logBegin addr erased).mems = d.mems := (rfl)

@[simp] theorem Dev.logWrite_memsOk (d : Dev) (h : MemsOk d.mems) : MemsOk d.logWrite.mems := by
  unfold Dev.logWrite
  split <;> simp [h]

@[simp] theorem Dev.pulseDone_mems (d : Dev) : d.pulseDone.mems = d.mems := by
  unfold Dev.pulseDone
  split <;> simp

@[simp] theorem Dev.pinFollow_mems (d : Dev) : d.pinFollow.mems = d.mems := by simp [Dev.pinFollow]

@[simp] theorem Dev.pinStart_mems (d : Dev) : d.pinStart.mems = d.mems := by simp [Dev.pinStart]

@[simp] theorem Dev.forceCmd_mems (d : Dev) (p : Path) (g w : Nat) : (d.forceCmd p g w).mems = d.mems := by simp [Dev.forceCmd]

/-! ## `Machine/HostOps.lean` -/

@[simp] theorem Dev.setXi2c_mems (d : Dev) (n : Nat) (x : Xi2c) : (d.setXi2c n x).mems = d.mems := (rfl)

@[simp] theorem Dev.causeClear_mems (d : Dev) (w : Nat) : (d.causeClear w).mems = d.mems := by simp [Dev.causeClear]

@[simp] theorem Dev.ringsOff_mems (d : Dev) (p : Nat → Bool) : (d.ringsOff p).mems = d.mems := by simp [Dev.ringsOff]

@[simp] theorem Dev.hostReset_mems (d : Dev) : d.hostReset.mems = d.mems := by simp [Dev.hostReset]

@[simp] theorem Dev.perst_mems (d : Dev) : d.perst.mems = d.mems := by simp [Dev.perst]

@[simp] theorem Dev.perstRelease_mems (d : Dev) : d.perstRelease.mems = d.mems := (rfl)

@[simp] theorem Dev.pcieUp_mems (d : Dev) (width speed : Nat) : (d.pcieUp width speed).mems = d.mems := by simp [Dev.pcieUp]

@[simp] theorem Dev.pcieLoss_mems (d : Dev) : d.pcieLoss.mems = d.mems := by simp [Dev.pcieLoss]

@[simp] theorem Dev.flr_mems (d : Dev) (f : Nat) : (d.flr f).mems = d.mems := by simp [Dev.flr]

@[simp] theorem Dev.d3hot_mems (d : Dev) (f : Nat) : (d.d3hot f).mems = d.mems := by simp [Dev.d3hot]

@[simp] theorem Dev.bar2Write_mems (d : Dev) (f x : Nat) (l : List (Byte × Bool)) : (d.bar2Write f x l).mems = d.mems := by
  induction l generalizing d x with
  | nil => rfl
  | cons p r ih =>
    obtain ⟨b, on⟩ := p
    simp only [Dev.bar2Write, ih]
    split <;> simp

@[simp] theorem Dev.hostCfg_mems (d : Dev) (c : HostCfg) : (d.hostCfg c).mems = d.mems := by
  unfold Dev.hostCfg
  split
  · rfl
  · cases c with
    | vfs n => simp
    | wake f => simp
    | ident f => simp
    | msix f on mask => simp
    | bar2Write f x l => dsimp only; split <;> simp
    | bar2Read f x n => dsimp only; split <;> simp

@[simp] theorem Dev.hostTimeout_mems (d : Dev) (p : Path) (write : Bool) : (d.hostTimeout p write).mems = d.mems := by
  simp [Dev.hostTimeout]

@[simp] theorem Dev.windowWrite_memsOk (d : Dev) (a : Nat) (data : List (Byte × Bool)) (ep : Bool) (h : MemsOk d.mems) :
    MemsOk (d.windowWrite a data ep).mems := by
  unfold Dev.windowWrite
  dsimp only
  (repeat' split) <;> simp +contextual [h]

@[simp] theorem Dev.windowRead_memsOk (d : Dev) (p : Path) (a n : Nat) (h : MemsOk d.mems) :
    MemsOk (d.windowRead p a n).1.mems := by
  unfold Dev.windowRead
  split <;> simp [h]

@[simp] theorem Dev.windowGive_memsOk (d : Dev) (p : Path) (a n : Nat) (h : MemsOk d.mems) : MemsOk (d.windowGive p a n).mems := by
  simp [Dev.windowGive, h]

@[simp] theorem Dev.apertureAccess_memsOk (d : Dev) (m x : Nat) (write : Option (List (Byte × Bool))) (len : Nat) (ep : Bool) (h : MemsOk d.mems) :
    MemsOk (d.apertureAccess m x write len ep).mems := by
  unfold Dev.apertureAccess
  dsimp only
  (repeat' split) <;> simp [h]

@[simp] theorem Dev.xiXfer_mems (d : Dev) (p : Path) (n addr wlen rlen : Nat) : (d.xiXfer p n addr wlen rlen).mems = d.mems := by
  simp [Dev.xiXfer]

@[simp] theorem Dev.xiEnd_mems (d : Dev) (n : Nat) (nack : Bool) (data : Nat) : (d.xiEnd n nack data).mems = d.mems := by
  simp [Dev.xiEnd]

@[simp] theorem Dev.xiRecover_mems (d : Dev) (n : Nat) (sda : SdaForm) (retry : Bool) : (d.xiRecover n sda retry).mems = d.mems :=
  (rfl)

@[simp] theorem Dev.xiStillLow_mems (d : Dev) (n : Nat) (retry : Bool) : (d.xiStillLow n retry).mems = d.mems := by
  simp [Dev.xiStillLow]

@[simp] theorem Dev.xiBoundary_mems (d : Dev) (n : Nat) : (d.xiBoundary n).mems = d.mems := by
  unfold Dev.xiBoundary
  split <;> simp

@[simp] theorem Dev.xiRestart_mems (d : Dev) (n : Nat) (sda : SdaForm) : (d.xiRestart n sda).mems = d.mems := (rfl)

@[simp] theorem Dev.xiReset_mems (d : Dev) (n : Nat) (sda : SdaForm) : (d.xiReset n sda).mems = d.mems := by simp [Dev.xiReset]

@[simp] theorem Dev.xiStretch_mems (d : Dev) (n : Nat) (sda : SdaForm) : (d.xiStretch n sda).mems = d.mems := by
  simp [Dev.xiStretch]

@[simp] theorem Dev.xiStuck_mems (d : Dev) (n : Nat) (sda : SdaForm) : (d.xiStuck n sda).mems = d.mems := by simp [Dev.xiStuck]

@[simp] theorem Dev.xiRetry_mems (d : Dev) (n : Nat) (sda : SdaForm) : (d.xiRetry n sda).mems = d.mems := by simp [Dev.xiRetry]

@[simp] theorem Dev.fspiRefuse_mems (d : Dev) (p : Path) (r : Reason) : (d.fspiRefuse p r).mems = d.mems := by simp [Dev.fspiRefuse]

@[simp] theorem Dev.fspiStart_memsOk (d : Dev) (op mode len : Nat) (h : MemsOk d.mems) : MemsOk (d.fspiStart op mode len).mems := by
  unfold Dev.fspiStart
  dsimp only
  (repeat' split) <;> simp [h]

@[simp] theorem Dev.fspiCmd_memsOk (d : Dev) (p : Path) (op mode len : Nat) (h : MemsOk d.mems) :
    MemsOk (d.fspiCmd p op mode len).mems := by
  simp [Dev.fspiCmd, h]

@[simp] theorem Dev.fspiAbort_mems (d : Dev) (p : Path) : (d.fspiAbort p).mems = d.mems := by simp [Dev.fspiAbort]

@[simp] theorem Dev.fspiEnd_memsOk (d : Dev) (data : List Byte) (late : Bool) (h : MemsOk d.mems) :
    MemsOk (d.fspiEnd data late).mems := by
  simp [Dev.fspiEnd, h]

/-! ## `Machine/Test.lean` -/

@[simp] theorem Dev.testShow_mems (d : Dev) : d.testShow.mems = d.mems := by simp [Dev.testShow]

@[simp] theorem Dev.synthetic_memsOk (d : Dev) (n : Nat) (h : MemsOk d.mems) : MemsOk (d.synthetic n).mems := by
  simp +contextual [Dev.synthetic, h]

@[simp] theorem Dev.bistRefuse_mems (d : Dev) (p : Path) : (d.bistRefuse p).mems = d.mems := by simp [Dev.bistRefuse]

@[simp] theorem Dev.bistCmd_memsOk (d : Dev) (p : Path) (op c : Nat) (h : MemsOk d.mems) : MemsOk (d.bistCmd p op c).mems := by
  simp [Dev.bistCmd, h]

@[simp] theorem Dev.bistAbortCmd_mems (d : Dev) (p : Path) : (d.bistAbortCmd p).mems = d.mems := by simp [Dev.bistAbortCmd]

@[simp] theorem Dev.vatZero_memsOk (d : Dev) (g n : Nat) (h : MemsOk d.mems) : MemsOk (d.vatZero g n).mems := by
  unfold Dev.vatZero
  extract_lets inside v
  exact h.withVat (h.vat.filter _)

@[simp] theorem Dev.clusterZero_memsOk (d : Dev) (c : Nat) (h : MemsOk d.mems) : MemsOk (d.clusterZero c).mems := by
  unfold Dev.clusterZero
  extract_lets x d1
  have h1 : MemsOk d1.mems := h.setClus (canonical_nil _) (canonical_nil _) c
  exact h1.withEngs fun i x hx => h1.mem_engs i x (List.mem_of_mem_filter hx)

@[simp] theorem Dev.vatIndet_memsOk (d : Dev) (g n : Nat) (h : MemsOk d.mems) : MemsOk (d.vatIndet g n).mems := by
  unfold Dev.vatIndet
  extract_lets w v
  have h1 := d.vatZero_memsOk g n h
  exact h1.withVat (h1.vat.freeFill _ _ _)

theorem MemsOk.withFree {d : Dev} (h : MemsOk d.mems) (n : Nat) : MemsOk ({ d with free := n } : Dev).mems := h

theorem MemsOk.setClus_with {d : Dev} (h : MemsOk d.mems) (x : Cluster) {i m : Memory} (hi : Canonical 0#8 i) (hm : Canonical 0#8 m)
    (c : Nat) : MemsOk (d.setClus c { x with istore := i, cmem := m }).mems := h.setClus hi hm c

theorem MemsOk.setEng_with {d : Dev} (h : MemsOk d.mems) (x : Engine) {m : Memory} (hm : Canonical 0#8 m) (e : Nat) :
    MemsOk (d.setEng e { x with lmem := m }).mems := h.setEng hm e

@[simp] theorem Dev.clusterIndet_memsOk (d : Dev) (c : Nat) (h : MemsOk d.mems) : MemsOk (d.clusterIndet c).mems := by
  unfold Dev.clusterIndet
  extract_lets d1 v x v2 d2
  have h1 : MemsOk d1.mems := d.clusterZero_memsOk c h
  have hx : MemsOk (d1.setClus c x).mems :=
    h1.setClus_with v ((canonical_nil _).freeFill _ _ _) ((canonical_nil _).freeFill _ _ _) c
  have h2 : MemsOk d2.mems := hx.withFree _
  clear_value d2
  refine h2.foldl (fun d i h => ?_) _
  extract_lets e y
  exact (h.setEng_with y ((canonical_nil _).freeFill _ _ _) e).withFree _

@[simp] theorem Dev.bistStop_memsOk (d : Dev) (h : MemsOk d.mems) : MemsOk d.bistStop.mems := by
  unfold Dev.bistStop
  split <;> simp [h]

@[simp] theorem Dev.bistDone_memsOk (d : Dev) (fail : Option Nat) (h : MemsOk d.mems) : MemsOk (d.bistDone fail).mems := by
  unfold Dev.bistDone
  dsimp only
  (repeat' split) <;> simp [h]

@[simp] theorem Dev.bistDue_memsOk (d : Dev) (h : MemsOk d.mems) : MemsOk d.bistDue.mems := by
  unfold Dev.bistDue
  split <;> simp [h]

@[simp] theorem Dev.bistBoundary_memsOk (d : Dev) (h : MemsOk d.mems) : MemsOk d.bistBoundary.mems := by
  unfold Dev.bistBoundary
  dsimp only
  split <;> simp [h]

@[simp] theorem Dev.powerFail_memsOk (d : Dev) (h : MemsOk d.mems) : MemsOk d.powerFail.mems := by
  unfold Dev.powerFail
  split
  · exact Dev.saveStart_memsOk _ (Dev.piPower_memsOk _ (d.bistStop_memsOk h))
  · exact h

@[simp] theorem Dev.selfStamp_mems (d : Dev) (c : Nat) (dev : Int) : (d.selfStamp c dev).mems = d.mems := by simp [Dev.selfStamp]

@[simp] theorem Dev.selfPulse_mems (d : Dev) (reads : List SelfRead) : (d.selfPulse reads).mems = d.mems := by simp [Dev.selfPulse]

@[simp] theorem Dev.cellsDrive_mems (d : Dev) : d.cellsDrive.mems = d.mems := (rfl)

@[simp] theorem Dev.tapLoad_mems (d : Dev) (x : TapScan) : (d.tapLoad x).mems = d.mems := by simp [Dev.tapLoad]

/-! ## `Machine/Boundary.lean` -/

@[simp] theorem Dev.accTake_memsOk (d : Dev) (h : MemsOk d.mems) : MemsOk d.accTake.mems := by simp +contextual [Dev.accTake, h]

/-! ## `Machine/BootCmd.lean` -/

@[simp] theorem Dev.bootRestartCmd_mems (d : Dev) (p : Path) (src : Nat) (flash : List Byte) :
    (d.bootRestartCmd p src flash).mems = d.mems := by
  simp [Dev.bootRestartCmd]

@[simp] theorem Dev.bootReleaseCmd_mems (d : Dev) : d.bootReleaseCmd.mems = d.mems := by simp [Dev.bootReleaseCmd]

@[simp] theorem Dev.pushGoCmd_mems (d : Dev) : d.pushGoCmd.mems = d.mems := (rfl)

end Sys2Proof.Machine
end

section
/-! SUPPORT. The memories under the staged change, register writes, images, restores and the start. -/

namespace Sys2Proof.Machine

/-! ## `Machine/Stage.lean` -/

@[simp] theorem Dev.stageClear_mems (d : Dev) : d.stageClear.mems = d.mems := (rfl)

@[simp] theorem Dev.stageOpenCmd_mems (d : Dev) (p : Path) : (d.stageOpenCmd p).mems = d.mems := by simp [Dev.stageOpenCmd]

@[simp] theorem Dev.stageArmCmd_memsOk (d : Dev) (p : Path) (h : MemsOk d.mems) : MemsOk (d.stageArmCmd p).mems := by
  simp [Dev.stageArmCmd, h]

@[simp] theorem Dev.stageDiscardCmd_mems (d : Dev) (p : Path) : (d.stageDiscardCmd p).mems = d.mems := by simp [Dev.stageDiscardCmd]

@[simp] theorem Dev.tableStage_memsOk (d : Dev) (t a n : Nat) (b : List Byte) (h : MemsOk d.mems) :
    MemsOk (d.tableStage t a n b).mems := by
  unfold Dev.tableStage
  extract_lets d1
  have h1 : MemsOk d1.mems := by
    refine h.mapCluss (fun c => ?_) (fun c => ?_) <;> split <;> rfl
  rwa [Dev.put_mems]

@[simp] theorem Dev.tableLoadCmd_memsOk (d : Dev) (p : Path) (t n : Nat) (h : MemsOk d.mems) :
    MemsOk (d.tableLoadCmd p t n).mems := by
  simp [Dev.tableLoadCmd, h]

@[simp] theorem Dev.tableDeleteCmd_memsOk (d : Dev) (p : Path) (t : Nat) (h : MemsOk d.mems) :
    MemsOk (d.tableDeleteCmd p t).mems := by
  simp [Dev.tableDeleteCmd, h]

@[simp] theorem Dev.changeRecord_mems (d v : Dev) : (d.changeRecord v).mems = d.mems := by
  unfold Dev.changeRecord
  dsimp only
  (repeat' split) <;> simp

@[simp] theorem Dev.poolsMoved_memsOk (old d : Dev) (h : MemsOk d.mems) : MemsOk (old.poolsMoved d).mems := by
  unfold Dev.poolsMoved
  extract_lets moved d1 f
  have h1 : MemsOk d1.mems := by
    refine MemsOk.foldl h (fun d q h => ?_) _
    extract_lets x d2
    clear_value x
    have h2 : MemsOk d2.mems := Dev.qDrop_memsOk _ _ (by simpa using h)
    clear_value d2
    (repeat' split)
    · exact h
    · exact d2.vatStore_memsOk _ _ h2
    · exact h2
  clear_value d1
  (repeat' split)
  · exact h
  · exact h1.same
  · exact h1

@[simp] theorem Dev.ringsRestart_mems (old d : Dev) : (old.ringsRestart d).mems = d.mems := by
  unfold Dev.ringsRestart
  extract_lets all
  refine Dev.foldl_mems _ (fun d l => ?_) _ _
  dsimp only
  (repeat' split) <;> simp

@[simp] theorem Dev.reclassify_mems (old d : Dev) : (old.reclassify d).mems = d.mems := by
  unfold Dev.reclassify
  extract_lets d1
  rw [Dev.irqRefresh_mems]
  refine Dev.foldl_mems _ (fun d s => ?_) _ _
  dsimp only
  (repeat' split) <;> simp

@[simp] theorem Dev.safeFollow_mems (d : Dev) : d.safeFollow.mems = d.mems := by simp [Dev.safeFollow]

@[simp] theorem Dev.tasksUnbound_mems (old d : Dev) : (old.tasksUnbound d).mems = d.mems := by
  unfold Dev.tasksUnbound
  extract_lets d1
  have h1 : d1.mems = d.mems := Dev.foldl_mems _ (fun d t => by dsimp only; split <;> simp) _ _
  exact (Dev.foldl_mems _ (fun d t => by split <;> simp) _ _).trans h1

@[simp] theorem Dev.bindingsNew_mems (old d : Dev) : (old.bindingsNew d).mems = d.mems := by
  unfold Dev.bindingsNew
  extract_lets d1
  have h1 : d1.mems = d.mems := Dev.foldl_mems _ (fun d i => by split <;> rfl) _ _
  exact (Dev.foldl_mems _ (fun d i => by split <;> rfl) _ _).trans h1

@[simp] theorem Dev.profileEnter_memsOk (d : Dev) (new : Nat) (h : MemsOk d.mems) : MemsOk (d.profileEnter new).mems := by
  simp +contextual [Dev.profileEnter, h]

@[simp] theorem Cluster.swap_istore (c : Cluster) (n : Nat) : (c.swap n).istore = c.istore := by
  unfold Cluster.swap
  split <;> rfl

@[simp] theorem Cluster.swap_cmem (c : Cluster) (n : Nat) : (c.swap n).cmem = c.cmem := by
  unfold Cluster.swap
  split <;> rfl

theorem Cluster.swaps_memories (c : Cluster) (tabs : Tbl StagedTable) :
    (tabs.foldl (fun c t => c.swap t.1) c).istore = c.istore ∧ (tabs.foldl (fun c t => c.swap t.1) c).cmem = c.cmem := by
  induction tabs generalizing c with
  | nil => exact ⟨rfl, rfl⟩
  | cons t r ih => simpa using ih (c.swap t.1)

@[simp] theorem Dev.clustersSwap_memsOk (d : Dev) (tabs : Tbl StagedTable) (h : MemsOk d.mems) :
    MemsOk (d.clustersSwap tabs).mems := by
  exact h.mapCluss (fun c => (c.2.swaps_memories tabs).1) (fun c => (c.2.swaps_memories tabs).2)

@[simp] theorem Dev.configTakes_memsOk (old d : Dev) (h : MemsOk d.mems) : MemsOk (old.configTakes d).mems := by
  simp [Dev.configTakes, h]

@[simp] theorem Dev.stageApply_memsOk (d : Dev) (h : MemsOk d.mems) : MemsOk d.stageApply.mems := by
  unfold Dev.stageApply
  extract_lets new c c1
  have hc : MemsOk c.mems := h
  have h1 : MemsOk c1.mems := Dev.clustersSwap_memsOk _ _ (Dev.profileEnter_memsOk _ _ (d.tableSwap_memsOk c hc))
  exact Dev.configTakes_memsOk _ _ (by simpa using h1)

@[simp] theorem Dev.stageResult_mems (d : Dev) (code : Nat) : (d.stageResult code).mems = d.mems := by simp [Dev.stageResult]

@[simp] theorem Dev.stageBoundary_memsOk (d : Dev) (h : MemsOk d.mems) : MemsOk d.stageBoundary.mems := by
  simp [Dev.stageBoundary, h]

/-! ## `Machine/RegWrite.lean` -/

@[simp] theorem Dev.directNote_mems (d v : Dev) (x : Site) : (d.directNote v x).mems = d.mems := by
  unfold Dev.directNote
  (repeat' split) <;> simp

@[simp] theorem Dev.withWords_mems (o : Dev) (x : Site) (n : Nat) (ws : List (Site × Nat)) :
    (o.withWords x n ws).mems = o.mems := by
  simp [Dev.withWords]

@[simp] theorem Dev.takeWord_mems (d : Dev) (n : Nat) (direct : Bool) (y : Site × Nat) : (d.takeWord n direct y).mems = d.mems := by
  simp [Dev.takeWord]

@[simp] theorem Dev.clearBits_mems (d : Dev) (x : Site) (n w : Nat) : (d.clearBits x n w).mems = d.mems := by simp [Dev.clearBits]

@[simp] theorem Dev.writeHook_memsOk (old d : Dev) (p : Path) (x : Site) (n : Nat) (direct : Bool) (h : MemsOk d.mems) :
    MemsOk (old.writeHook d p x n direct).mems := by
  unfold Dev.writeHook
  extract_lets d1 d2 d3
  have h1 : MemsOk d1.mems := by
    simp only [d1]
    split
    · exact old.tableSwap_memsOk d h
    · exact h
  clear_value d1
  have h2 : MemsOk d2.mems := by
    simp only [d2]
    split
    · exact d1.profileEnter_memsOk _ h1
    · exact h1
  clear_value d2
  have h3 : MemsOk d3.mems := by
    simp only [d3]
    split
    · exact old.configTakes_memsOk d2 h2
    · exact h
  clear_value d3
  (repeat' split) <;> simp [h3]

@[simp] theorem Dev.halvesDone_mems (d : Dev) (p : Path) (x : Site) : (d.halvesDone p x).mems = d.mems := by simp [Dev.halvesDone]

@[simp] theorem Dev.writeTake_memsOk (d : Dev) (p : Path) (x : Site) (n w : Nat) (ws : List (Site × Nat)) (direct : Bool) (h : MemsOk d.mems) :
    MemsOk (d.writeTake p x n w ws direct).mems := by
  simp [Dev.writeTake, h]

@[simp] theorem Dev.noteAdmit_mems (d v : Dev) (x : Site) (n w : Nat) (r : Reason) : (d.noteAdmit v x n w r).mems = d.mems := by
  simp [Dev.noteAdmit]

@[simp] theorem Dev.halfDone_mems (d : Dev) (p : Path) (x : Site) : (d.halfDone p x).mems = d.mems := (rfl)

theorem Dev.bmHostWrite_mems (d : Dev) (n e k v : Nat) (y : Dev) (hy : y.mems = d.mems) :
    ((d.bmHostWrite n e k v).getD y).mems = d.mems := by
  unfold Dev.bmHostWrite
  dsimp only
  split
  · rfl
  · split
    · rfl
    · exact hy

@[simp] theorem Dev.command1_memsOk (d : Dev) (p : Path) (x : Site) (w : Nat) (h : MemsOk d.mems) :
    MemsOk (d.command1 p x w).mems := by
  have hbm (off : Nat) : MemsOk ((d.bmHostWrite x.n (d.copyOf p x) x.k w).getD (d.refuse p.code off .access)).mems := by
    rwa [d.bmHostWrite_mems _ _ _ _ _ (d.refuse_mems ..)]
  unfold Dev.command1
  extract_lets off op bad
  have hbad : MemsOk bad.mems := by simpa [bad] using h
  clear_value bad op
  simp [h, hbad, hbm]

@[simp] theorem Dev.leapCommand_mems (d : Dev) (p : Path) (x : Site) (w : Nat) : (d.leapCommand p x w).mems = d.mems := by
  simp [Dev.leapCommand]

@[simp] theorem Dev.command2_memsOk (d : Dev) (p : Path) (x : Site) (w : Nat) (h : MemsOk d.mems) :
    MemsOk (d.command2 p x w).mems := by
  unfold Dev.command2
  extract_lets off op op3 bad lo src
  have hbad : MemsOk bad.mems := by simpa [bad] using h
  clear_value bad op op3 lo src
  rcases op3 with _ | _ | _ | _ | _ | _ | n <;> simp [h, hbad]

@[simp] theorem Dev.command_memsOk (d : Dev) (p : Path) (x : Site) (w : Nat) (h : MemsOk d.mems) :
    MemsOk (d.command p x w).mems := by
  simp [Dev.command, h]

@[simp] theorem Dev.siteWrite_memsOk (d : Dev) (p : Path) (x : Site) (off w : Nat) (whole direct : Bool) (h : MemsOk d.mems) :
    MemsOk (d.siteWrite p x off w whole direct).mems := by
  unfold Dev.siteWrite
  dsimp only
  (repeat' split) <;> simp [h]

@[simp] theorem Dev.istorePath_memsOk (d : Dev) (p : Path) (off w : Nat) (whole : Bool) (h : MemsOk d.mems) :
    MemsOk (d.istorePath p off w whole).mems := by
  unfold Dev.istorePath
  dsimp only
  (repeat' split) <;> simp [h]

@[simp] theorem Dev.regWrite_memsOk (d : Dev) (p : Path) (off w : Nat) (whole direct : Bool) (h : MemsOk d.mems) :
    MemsOk (d.regWrite p off w whole direct).mems := by
  unfold Dev.regWrite
  (repeat' split) <;> simp [h]

@[simp] theorem Dev.poisonWrite_mems (d : Dev) (p : Path) (off : Nat) : (d.poisonWrite p off).mems = d.mems := by
  unfold Dev.poisonWrite
  split <;> simp

@[simp] theorem Dev.pathWrite_memsOk (d : Dev) (p : Path) (off w : Nat) (whole ep : Bool) (h : MemsOk d.mems) :
    MemsOk (d.pathWrite p off w whole ep).mems := by
  unfold Dev.pathWrite
  (repeat' split) <;> simp [h]

/-! ## `Machine/Image.lean` -/

@[simp] theorem Dev.taskPlace_mems (d : Dev) (t : List Byte) : (d.taskPlace t).mems = d.mems := by
  unfold Dev.taskPlace
  dsimp only
  split <;> simp

@[simp] theorem Dev.tablePlace_memsOk (d : Dev) (b : List Byte) (n dest : Nat) (t : List Byte) (h : MemsOk d.mems) :
    MemsOk (d.tablePlace b n dest t).mems := by
  unfold Dev.tablePlace
  refine MemsOk.foldl (by simp [h]) (fun d c h => ?_) _
  extract_lets x
  split
  · exact h.setClus_same
  · exact h

@[simp] theorem Dev.sectPlace_memsOk (b : List Byte) (d : Dev) (s : Sect) (h : MemsOk d.mems) :
    MemsOk (Dev.sectPlace b d s).mems := by
  unfold Dev.sectPlace
  extract_lets t
  split
  · exact h
  · split
    · exact MemsOk.setClus (x := { d.clus s.target with istore := _ }) h ((h.istore _).writeN _ _) (h.cmem _) _
    · refine MemsOk.setClus (x := { d.clus s.target with cmem := (d.clus s.target).cmem.writeN 0 s.dest t }) h (h.istore _) ?_ _
      exact (h.cmem _).writeN _ _
    · exact h.setEng ((h.eng _).writeN _ _) _
    · exact d.vatUser_memsOk _ _ h
    · exact MemsOk.foldl h (fun d l h => by simp [h]) _
    · exact d.tablePlace_memsOk b _ _ _ h
    · exact MemsOk.foldl h (fun d p h => by simp [h]) _
    · exact MemsOk.foldl h (fun d p h => by simp [h]) _

@[simp] theorem Dev.imagePlace_memsOk (d : Dev) (b : List Byte) (h : MemsOk d.mems) : MemsOk (d.imagePlace b).mems := by
  simp +contextual [Dev.imagePlace, h]

@[simp] theorem Dev.imageCheck_memsOk (d base : Dev) (b : List Byte) (h : MemsOk d.mems) : MemsOk (d.imageCheck base b).1.mems := by
  unfold Dev.imageCheck
  dsimp only
  (repeat' split) <;> simp [h]

@[simp] theorem Dev.imageSign_mems (d : Dev) (b : List Byte) : (d.imageSign b).1.mems = d.mems := by simp [Dev.imageSign]

/-! ## `Machine/Restore.lean` -/

@[simp] theorem Dev.twinRead_mems (d : Dev) (rgn : Nat) : (d.twinRead rgn).1.mems = d.mems := by
  unfold Dev.twinRead
  split <;> simp

@[simp] theorem Dev.paramsApply_memsOk (d : Dev) (h : MemsOk d.mems) : MemsOk d.paramsApply.mems := by
  simp +contextual [Dev.paramsApply, h]

@[simp] theorem Dev.bandRestore_mems (d : Dev) : d.bandRestore.mems = d.mems := by simp [Dev.bandRestore]

@[simp] theorem Dev.restoreRange_memsOk (d : Dev) (a x vat n : Nat) (h : MemsOk d.mems) :
    MemsOk (d.restoreRange a x vat n).mems := by
  simp +contextual [Dev.restoreRange, h]

@[simp] theorem Dev.ctxRestore_memsOk (d : Dev) (n : Nat) (r : List Byte) (h : MemsOk d.mems) : MemsOk (d.ctxRestore n r).mems := by
  simp [Dev.ctxRestore, h]

@[simp] theorem Dev.binRestore_memsOk (d : Dev) (a : Nat) (b : List Byte) (o kind : Nat) (h : MemsOk d.mems) :
    MemsOk (d.binRestore a b o kind).mems := by
  simp [Dev.binRestore, h]

@[simp] theorem Dev.areaRestore_memsOk (d : Dev) (a : Nat) (b : List Byte) (h : MemsOk d.mems) :
    MemsOk (d.areaRestore a b).mems := by
  unfold Dev.areaRestore
  extract_lets pi n x d1 p d2 d3 sh cfg d4 other torn d5
  have h1 : MemsOk d1.mems := MemsOk.foldl h (fun d o h => by simp [h]) _
  clear_value d1
  have h2 : MemsOk d2.mems := by
    simp only [d2]
    split
    · exact h1
    · exact h
  clear_value d2
  have h3 : MemsOk d3.mems := MemsOk.foldl h2 (fun d i h => by dsimp only; split <;> simp [h]) _
  clear_value d3
  have h4 : MemsOk d4.mems := by simp [d4, h3]
  clear_value d4
  simp [d5, h4]

@[simp] theorem Dev.areaArm_memsOk (d : Dev) (a : Nat) (h : MemsOk d.mems) : MemsOk (d.areaArm a).mems := by simp [Dev.areaArm, h]

@[simp] theorem Dev.armBoundary_memsOk (d : Dev) (h : MemsOk d.mems) : MemsOk d.armBoundary.mems := by
  unfold Dev.armBoundary
  split <;> simp [h]

@[simp] theorem Dev.saveRestore_memsOk (d : Dev) (alt : Bool) (h : MemsOk d.mems) : MemsOk (d.saveRestore alt).mems := by
  unfold Dev.saveRestore
  split <;> simp [h]

/-! ## `Machine/Boot.lean` -/

@[simp] theorem Dev.setBoot_mems (d : Dev) (x : Boot) : (d.setBoot x).mems = d.mems := (rfl)

@[simp] theorem Dev.bootTime_mems (d : Dev) (k us : Nat) : (d.bootTime k us).mems = d.mems := (rfl)

@[simp] theorem Dev.bootRecordOf_memsOk (d : Dev) (imageId version : Nat) (complete halted : Bool) (failed last : Nat) (h : MemsOk d.mems) :
    MemsOk (d.bootRecordOf imageId version complete halted failed last).mems := by
  simp [Dev.bootRecordOf, h]

@[simp] theorem Dev.bootRecord_memsOk (d : Dev) (complete halted : Bool) (failed last : Nat) (h : MemsOk d.mems) :
    MemsOk (d.bootRecord complete halted failed last).mems := by
  simp [Dev.bootRecord, h]

@[simp] theorem Dev.bootFail_mems (d : Dev) : d.bootFail.mems = d.mems := (rfl)

@[simp] theorem Dev.bootPlan_mems (d : Dev) : d.bootPlan.mems = d.mems := by
  unfold Dev.bootPlan
  split <;> simp

@[simp] theorem Dev.bootAt_memsOk (d : Dev) (k : Nat) (h : MemsOk d.mems) : MemsOk (d.bootAt k).mems := by simp [Dev.bootAt, h]

@[simp] theorem Dev.bootScan_memsOk (d : Dev) (h : MemsOk d.mems) : MemsOk d.bootScan.mems := by
  unfold Dev.bootScan
  extract_lets d1 d2 d3 r d4 d5 d6
  have h1 : MemsOk d1.mems := by simp [d1, h]
  clear_value d1
  have h2 : MemsOk d2.mems := by
    simp only [d2, Dev.bootPlan_mems, Dev.halfShow_mems]
    exact MemsOk.foldl h1 (fun d s h => by simp [h]) _
  clear_value d2
  have h3 : MemsOk d3.mems := by simpa [d3] using h2
  clear_value d3
  have h4 : MemsOk d4.mems := h3.same
  clear_value d4
  have h6 : MemsOk d6.mems := by simp [d6, d5, h4]
  clear_value d6
  (repeat' split)
  · exact h6
  · exact h6
  · exact d6.paramsApply_memsOk h6

@[simp] theorem Dev.loadFlash_mems (d : Dev) (second : Bool) : (d.loadFlash second).mems = d.mems := (rfl)

@[simp] theorem Dev.loadPush_mems (d : Dev) : d.loadPush.mems = d.mems := (rfl)

@[simp] theorem Dev.loadKeanmar_mems (d : Dev) : d.loadKeanmar.mems = d.mems := (rfl)

@[simp] theorem Dev.loadBegin_mems (d : Dev) : d.loadBegin.mems = d.mems := by
  unfold Dev.loadBegin
  split <;> simp

@[simp] theorem Dev.loadPlace_memsOk (d : Dev) (b : List Byte) (h : MemsOk d.mems) : MemsOk (d.loadPlace b).mems := by
  simp [Dev.loadPlace, h]

@[simp] theorem Dev.loadEnd_memsOk (d : Dev) (h : MemsOk d.mems) : MemsOk d.loadEnd.1.mems := by
  unfold Dev.loadEnd
  split <;> simp [h]

@[simp] theorem Dev.hopStored_mems (d : Dev) (n : Nat) : (d.hopStored n).mems = d.mems := by
  unfold Dev.hopStored
  dsimp only
  (repeat' split) <;> simp

@[simp] theorem Dev.calEnds_mems (d : Dev) : d.calEnds.1.mems = d.mems := by simp [Dev.calEnds]

@[simp] theorem Dev.enginesStart_memsOk (d : Dev) (h : MemsOk d.mems) : MemsOk d.enginesStart.mems := by
  unfold Dev.enginesStart
  extract_lets on d1
  have h1 : MemsOk d1.mems := by
    refine MemsOk.foldl h (fun d c h => ?_) _
    split
    · exact h.setClus_same
    · exact h
  clear_value d1
  exact h1.same

@[simp] theorem Dev.bootComplete_memsOk (d : Dev) (last : Nat) (h : MemsOk d.mems) : MemsOk (d.bootComplete last).mems := by
  simp [Dev.bootComplete, h]

@[simp] theorem Dev.bootBegin_memsOk (d : Dev) (k : Nat) (h : MemsOk d.mems) : MemsOk (d.bootBegin k).mems := by
  unfold Dev.bootBegin
  split <;> simp [h]

@[simp] theorem Dev.bootLive_mems (d : Dev) : d.bootLive.mems = d.mems := by simp [Dev.bootLive]

@[simp] theorem Dev.bootNext_memsOk (d : Dev) (k : Nat) (h : MemsOk d.mems) : MemsOk (d.bootNext k).mems := by
  simp [Dev.bootNext, h]

@[simp] theorem Dev.bootEnd_memsOk (d : Dev) (k : Nat) (h : MemsOk d.mems) : MemsOk (d.bootEnd k).1.mems := by
  unfold Dev.bootEnd
  split
  · split
    · exact h.withVat (canonical_nil _)
    · simpa using h
  · split
    · exact ⟨h.vat, h.ream, (nofun), (nofun)⟩
    · simpa using h
  · exact d.loadEnd_memsOk h
  · simpa using h
  · dsimp only
    split <;> simpa using h
  · simpa using h
  · exact h
  · exact h

@[simp] theorem Dev.stepRefused_mems (d : Dev) (k : Nat) : (d.stepRefused k).mems = d.mems := by simp [Dev.stepRefused]

@[simp] theorem Dev.bootTick_memsOk (d : Dev) (h : MemsOk d.mems) : MemsOk d.bootTick.mems := by
  unfold Dev.bootTick
  extract_lets k el
  have h1 := d.bootEnd_memsOk k h
  generalize d.bootEnd k = p at h1 ⊢
  clear_value k el
  split
  · exact h
  · split
    · split
      · exact Dev.bootBegin_memsOk _ 5 h
      · exact h
    · split
      · exact h
      · split
        · simpa using h
        · split
          · exact h
          · split
            · exact h1
            · exact Dev.bootNext_memsOk _ k h1
            · simpa using h1

@[simp] theorem Dev.cold_memsOk (d : Dev) (h : MemsOk d.mems) : MemsOk d.cold.mems := by
  unfold Dev.cold
  extract_lets r v f hst t tst e1 e2 e3 e4 b
  have h1 : MemsOk e1.mems := ⟨h.vat, h.ream, (nofun), (nofun)⟩
  clear_value e1
  have h2 : e2.mems = e1.mems := Dev.foldl_mems _ (fun e k => by split <;> simp) _ _
  clear_value e2
  have h4 : MemsOk e4.mems := by
    simp only [e4, e3, Dev.put_mems]
    split <;> simpa [h2] using h1
  exact h4.same

@[simp] theorem Dev.bootPll_memsOk (d : Dev) (h : MemsOk d.mems) : MemsOk d.bootPll.mems := by simp [Dev.bootPll, h]

@[simp] theorem Dev.bootXo_memsOk (d : Dev) (h : MemsOk d.mems) : MemsOk d.bootXo.mems := by
  unfold Dev.bootXo
  dsimp only
  (repeat' split) <;> simp [h]

@[simp] theorem Dev.bootStart_memsOk (d : Dev) (i : BootIn) (cause : Nat) (h : MemsOk d.mems) :
    MemsOk (d.bootStart i cause).mems := by
  simp [Dev.bootStart, h]

@[simp] theorem Dev.resetRelease_memsOk (d : Dev) (i : BootIn) (h : MemsOk d.mems) : MemsOk (d.resetRelease i).mems := by
  simp [Dev.resetRelease, h]

@[simp] theorem Dev.stepFail_memsOk (d : Dev) (i : BootIn) (h : MemsOk d.mems) : MemsOk (d.stepFail i).mems := by
  unfold Dev.stepFail
  extract_lets k f d1
  have h1 : MemsOk d1.mems := by simp [d1, h]
  clear_value d1
  split
  · exact h
  · exact Dev.bootStart_memsOk _ _ 2 (Dev.reamHalt_memsOk _ _ (by simpa using h1))

@[simp] theorem Dev.resetLow_memsOk (d : Dev) (n : Nat) (h : MemsOk d.mems) : MemsOk (d.resetLow n).mems := by
  unfold Dev.resetLow
  extract_lets a d1 d2 d3 f b
  have h1 : MemsOk d1.mems := by
    have ha := d.reamHalt_memsOk n h
    simp only [d1, Dev.framesStop_mems]
    exact ha.same
  clear_value d1
  have h2 : MemsOk d2.mems := MemsOk.foldl h1 (fun d k h => by simpa using h) _
  clear_value d2
  have h3 : MemsOk d3.mems := by simpa [d3] using h2
  clear_value d3
  rw [Dev.outsStop_mems]
  exact h3.same

@[simp] theorem Dev.resetAssert_memsOk (d : Dev) (n : Nat) (h : MemsOk d.mems) : MemsOk (d.resetAssert n).mems := by
  simp [Dev.resetAssert, h]

@[simp] theorem Dev.saveEnd_memsOk (d : Dev) (h : MemsOk d.mems) : MemsOk d.saveEnd.mems := by
  unfold Dev.saveEnd
  extract_lets d1
  have h1 : MemsOk d1.mems := d.saveDone_memsOk h
  clear_value d1
  split
  · exact h
  · split
    · exact h1
    · exact d1.resetLow_memsOk 0 h1
    · exact Dev.bootStart_memsOk _ _ 1 (d1.resetLow_memsOk 0 h1)

@[simp] theorem Dev.powerOn_memsOk (d : Dev) (n : Nat) (h : MemsOk d.mems) : MemsOk (d.powerOn n).mems := by
  have h1 := d.reamPowerCut_memsOk n h
  exact ⟨canonical_nil _, h1.ream, nofun, nofun⟩

@[simp] theorem Dev.powerLoss_mems (d : Dev) : d.powerLoss.mems = d.mems := by simp [Dev.powerLoss]

@[simp] theorem Dev.restartClear_memsOk (d : Dev) (h : MemsOk d.mems) : MemsOk d.restartClear.mems := by
  unfold Dev.restartClear
  extract_lets keep words f e1 rst e2 e3
  have h1 : MemsOk e1.mems := ⟨h.vat, h.ream, (nofun), (nofun)⟩
  clear_value e1
  have h2 : MemsOk e2.mems := MemsOk.foldl h1 (fun e l h => by simp [h]) _
  clear_value e2
  have h3 : MemsOk e3.mems := by
    simp only [e3]
    split
    · simpa using h2
    · exact h2
  clear_value e3
  exact e3.vatStore_memsOk _ _ h3

@[simp] theorem Dev.restartBegin_mems (d : Dev) (src : Nat) : (d.restartBegin src).mems = d.mems := by simp [Dev.restartBegin]

@[simp] theorem Dev.restartRecord_memsOk (d : Dev) (b : List Byte) (failed last : Nat) (h : MemsOk d.mems) :
    MemsOk (d.restartRecord b failed last).mems := by
  simp [Dev.restartRecord, h]

@[simp] theorem Dev.restartFail_memsOk (d : Dev) (b : List Byte) (last : Nat) (h : MemsOk d.mems) :
    MemsOk (d.restartFail b last).mems := by
  simp [Dev.restartFail, h]

@[simp] theorem Dev.restartCheck_memsOk (d : Dev) (b : List Byte) (h : MemsOk d.mems) : MemsOk (d.restartCheck b).mems := by
  simp [Dev.restartCheck, h]

@[simp] theorem Dev.restartLoad_memsOk (d : Dev) (b : List Byte) (h : MemsOk d.mems) : MemsOk (d.restartLoad b).mems := by
  simp [Dev.restartLoad, h]

@[simp] theorem Dev.restartGo_memsOk (d : Dev) (h : MemsOk d.mems) : MemsOk d.restartGo.mems := by
  unfold Dev.restartGo
  split
  · exact h
  · split
    · exact h
    next b _ =>
      extract_lets runs d1 ok d2 bt kl
      have h1 : MemsOk d1.mems := by simp [d1, h]
      clear_value d1
      have h2 : MemsOk d2.mems := by simp [d2, h1]
      clear_value d2
      exact h2.same

@[simp] theorem Dev.restartBoundary_memsOk (d : Dev) (h : MemsOk d.mems) : MemsOk d.restartBoundary.mems := by
  unfold Dev.restartBoundary
  split <;> simp [h]

@[simp] theorem Dev.restartSwitch_memsOk (d : Dev) (h : MemsOk d.mems) : MemsOk d.restartSwitch.mems := by
  simp [Dev.restartSwitch, h]

end Sys2Proof.Machine
end

section
/-! SUPPORT. The memories under register reads, the serial targets, the base program and the tick. -/

namespace Sys2Proof.Machine

/-! ## `Machine/EngineCtl.lean` -/

@[simp] theorem Dev.armOp_memsOk (d : Dev) (e : Nat) (o : EOp) (h : MemsOk d.mems) : MemsOk (d.armOp e o).mems := by
  refine d.issue_memsOk e 2 _ (fun d h => ?_) h
  dsimp only
  (repeat' split)
  · exact d.engIllegal_memsOk e h
  · exact Dev.predOnly_memsOk _ _ _ _ (d.engDo_memsOk e _ rfl h)
  · exact Dev.predOnly_memsOk _ _ _ _ (d.engDo_memsOk e _ rfl h)
  · exact Dev.predOnly_memsOk _ _ _ _ (d.advance_memsOk e h)

@[simp] theorem Dev.branch_memsOk (d : Dev) (e : Nat) (ok : Bool) (o : EOp) (taken : Bool) (push : Bool) (h : MemsOk d.mems) :
    MemsOk (d.branch e ok o taken push).mems := by
  refine d.issue_memsOk e _ _ (fun d h => ?_) h
  dsimp only
  split
  · exact d.engIllegal_memsOk e h
  · (repeat' split)
    · exact d.engIllegal_memsOk e h
    · exact d.engFault_memsOk e 36 h
    · exact h.setEng_same
    · exact h.setEng_same
    · exact d.advance_memsOk e h

/-! ## `Machine/RegRead.lean` -/

@[simp] theorem Dev.siteRead_mems (d : Dev) (p : Path) (x : Site) : (d.siteRead p x).1.mems = d.mems := by
  unfold Dev.siteRead
  dsimp only
  (repeat' split) <;> simp

@[simp] theorem Dev.spaceRead_memsOk (d : Dev) (p : Path) (off : Nat) (h : MemsOk d.mems) : MemsOk (d.spaceRead p off).1.mems := by
  unfold Dev.spaceRead
  dsimp only
  (repeat' split) <;> simp [h]

theorem Dev.pathRead_memsOk (d : Dev) (p : Path) (off : Nat) (h : MemsOk d.mems) (e : Dev) (v st : Nat)
    (hr : d.pathRead p off = some (e, v, st)) : MemsOk e.mems := by
  have go (at' : Nat) (r : Dev × Nat × Nat) (hok : MemsOk r.1.mems)
      (hg : (match d.access p at' false with
        | .absent => none
        | .timeout => some (d.accessTimeout p, 0xFFFFFFFF, 1)
        | _ => some r) = some (e, v, st)) : MemsOk e.mems := by
    split at hg
    · nomatch hg
    · obtain rfl := congrArg Prod.fst (Option.some.inj hg)
      simpa using h
    · obtain rfl := Option.some.inj hg
      exact hok
  unfold Dev.pathRead at hr
  split at hr
  · exact go _ _ (by simpa using h) hr
  · exact go _ _ (d.spaceRead_memsOk p _ h) hr

@[simp] theorem Dev.hostRead_memsOk (d : Dev) (p : Path) (off : Nat) (one : Bool) (h : MemsOk d.mems) :
    MemsOk (d.hostRead p off one).mems := by
  unfold Dev.hostRead
  split
  · exact h
  next e v st heq =>
    have he := d.pathRead_memsOk p off h e v st heq
    (repeat' split) <;> simp [h, he]

@[simp] theorem Dev.engWrite_memsOk (d : Dev) (e : Eng) (off w : Nat) (h : MemsOk d.mems) : MemsOk (d.engWrite e off w).1.mems := by
  simp [Dev.engWrite, h]

/-! ## `Machine/HostIf.lean` -/

@[simp] theorem Dev.wordsRead_memsOk (d : Dev) (p : Path) (a n : Nat) (h : MemsOk d.mems) : MemsOk (d.wordsRead p a n).mems := by
  induction n generalizing d a with
  | zero => exact h
  | succ n ih =>
    simp only [Dev.wordsRead]
    split
    · exact h
    next e v st heq =>
      have he := d.pathRead_memsOk p _ h e v st heq
      exact ih _ _ (by simpa using he)

@[simp] theorem Dev.groupsWrite_memsOk (d : Dev) (p : Path) (a : Nat) (l : List Word) (h : MemsOk d.mems) :
    MemsOk (d.groupsWrite p a l).mems := by
  induction l generalizing d a with
  | nil => exact h
  | cons w r ih => exact ih _ _ (d.pathWrite_memsOk p _ _ _ _ h)

@[simp] theorem Dev.spiWrite_memsOk (d : Dev) (a : Nat) (ws : List Word) (part : Nat) (h : MemsOk d.mems) :
    MemsOk (d.spiWrite a ws part).mems := by
  unfold Dev.spiWrite
  extract_lets d1
  have h1 : MemsOk d1.mems := d.groupsWrite_memsOk _ _ _ h
  (repeat' split)
  · exact h
  · exact h1
  · simpa using h1

@[simp] theorem Dev.spiRead_memsOk (d : Dev) (a n : Nat) (h : MemsOk d.mems) : MemsOk (d.spiRead a n).mems := by
  unfold Dev.spiRead
  split
  · exact d.wordsRead_memsOk _ _ _ h
  · exact h

@[simp] theorem Dev.spiTimeout_mems (d : Dev) : d.spiTimeout.mems = d.mems := by simp [Dev.spiTimeout]

@[simp] theorem Dev.setPtr_mems (d : Dev) (a : Nat) : (d.setPtr a).mems = d.mems := (rfl)

@[simp] theorem Dev.i2cWrite_memsOk (d : Dev) (np ptr : Nat) (ws : List Word) (part : Nat) (h : MemsOk d.mems) :
    MemsOk (d.i2cWrite np ptr ws part).mems := by
  unfold Dev.i2cWrite
  extract_lets d1
  have h1 : MemsOk d1.mems := by simp [d1, h]
  clear_value d1
  (repeat' split)
  · exact h
  · simpa using h
  · exact h1
  · simpa using h1

@[simp] theorem Dev.i2cRead_memsOk (d : Dev) (n : Nat) (h : MemsOk d.mems) : MemsOk (d.i2cRead n).mems := by
  unfold Dev.i2cRead
  split
  · exact h
  · simp [h]

@[simp] theorem Dev.i2cTimeout_mems (d : Dev) : d.i2cTimeout.mems = d.mems := by simp [Dev.i2cTimeout]

/-! ## `Machine/Suspect.lean` -/

@[simp] theorem Dev.susTake_mems (d : Dev) (n : Nat) (p : Int) : (d.susTake n p).mems = d.mems := by simp [Dev.susTake]

@[simp] theorem Dev.susSample_mems (d : Dev) (n : Nat) : (d.susSample n).mems = d.mems := by
  unfold Dev.susSample
  extract_lets x l alone d1
  split
  · rfl
  · refine Dev.foldl_mems _ (fun d s => ?_) _ _
    dsimp only
    (repeat' split) <;> simp

/-! ## `Machine/BaseSelect.lean` -/

@[simp] theorem Dev.setBaseLoop_mems (d : Dev) (l : Nat) (x : BaseLoop) : (d.setBaseLoop l x).mems = d.mems := (rfl)

@[simp] theorem Dev.accPut_mems (d : Dev) (f : Fld) (v : Nat) (n : Nat) : (d.accPut f v n).mems = d.mems := (rfl)

@[simp] theorem Dev.accPut64_mems (d : Dev) (lo hi : Fld) (v : Nat) (n : Nat) : (d.accPut64 lo hi v n).mems = d.mems := (rfl)

@[simp] theorem Dev.refAction_mems (d : Dev) (n action l k : Nat) : (d.refAction n action l k).mems = d.mems := by
  unfold Dev.refAction
  dsimp only
  (repeat' split) <;> simp

@[simp] theorem Dev.statePut_mems (d : Dev) (n st : Nat) : (d.statePut n st).mems = d.mems := by simp [Dev.statePut]

@[simp] theorem Dev.refStep_mems (d : Dev) (n : Nat) : (d.refStep n).mems = d.mems := by
  unfold Dev.refStep
  dsimp only
  (repeat' split) <;> simp

@[simp] theorem Dev.baseErrs_mems (d : Dev) (l : Nat) : (d.baseErrs l).mems = d.mems := by simp [Dev.baseErrs]

@[simp] theorem Dev.tdevRefresh_mems (d : Dev) (l : Nat) : (d.tdevRefresh l).mems = d.mems := by simp [Dev.tdevRefresh]

@[simp] theorem Dev.membersWrite_mems (d : Dev) (l : Nat) (a : Option Nat) (ms : List Nat) (offset : Nat → Int) :
    (d.membersWrite l a ms offset).mems = d.mems := by
  unfold Dev.membersWrite
  split <;> simp

@[simp] theorem Dev.membersSet_mems (d : Dev) (l : Nat) (a : Option Nat) (ms : List Nat) : (d.membersSet l a ms).mems = d.mems := by
  simp [Dev.membersSet]

@[simp] theorem Dev.selSelect_mems (d : Dev) (l drop : Nat) : (d.selSelect l drop).mems = d.mems := by simp [Dev.selSelect]

@[simp] theorem Dev.selLeave_mems (d : Dev) (l : Nat) (out : List Nat) : (d.selLeave l out).mems = d.mems := by simp [Dev.selLeave]

@[simp] theorem Dev.heldPut_mems (d : Dev) (l : Nat) (f : Nat → Bool) : (d.heldPut l f).mems = d.mems := (rfl)

@[simp] theorem Dev.selHold_mems (d : Dev) (l : Nat) : (d.selHold l).mems = d.mems := by simp [Dev.selHold]

@[simp] theorem Dev.selRelease_mems (d : Dev) (l : Nat) : (d.selRelease l).mems = d.mems := (rfl)

@[simp] theorem Dev.selDrop_mems (d : Dev) (l : Nat) : (d.selDrop l).mems = d.mems := by simp [Dev.selDrop]

@[simp] theorem Dev.selRewind_mems (d : Dev) (l : Nat) : (d.selRewind l).mems = d.mems := by simp [Dev.selRewind]

@[simp] theorem Dev.selEnd_mems (d : Dev) (l : Nat) : (d.selEnd l).mems = d.mems := by simp [Dev.selEnd]

@[simp] theorem Dev.selLose_mems (d : Dev) (l : Nat) : (d.selLose l).mems = d.mems := by simp [Dev.selLose]

@[simp] theorem Dev.selAct_mems (d : Dev) (l action : Nat) : (d.selAct l action).mems = d.mems := by
  unfold Dev.selAct
  split <;> simp

@[simp] theorem Dev.selRow_mems (d : Dev) (l : Nat) : (d.selRow l).mems = d.mems := by
  unfold Dev.selRow
  dsimp only
  (repeat' split) <;> simp

@[simp] theorem Dev.selRefresh_mems (d e : Dev) (l : Nat) : (d.selRefresh e l).mems = e.mems := by
  unfold Dev.selRefresh
  dsimp only
  split <;> simp

@[simp] theorem Dev.selStep_mems (d : Dev) (l : Nat) : (d.selStep l).mems = d.mems := by simp [Dev.selStep]

/-! ## `Machine/BaseFrames.lean` -/

@[simp] theorem Dev.setEsmc_mems (d : Dev) (n : Nat) (x : Nat × Bool) : (d.setEsmc n x).mems = d.mems := (rfl)

@[simp] theorem Dev.esmcTake_mems (d : Dev) (f : List Byte) : (d.esmcTake f).mems = d.mems := by
  unfold Dev.esmcTake
  split <;> simp

@[simp] theorem Dev.esmcTimeout_mems (d : Dev) (n : Nat) : (d.esmcTimeout n).mems = d.mems := by
  unfold Dev.esmcTimeout
  dsimp only
  (repeat' split) <;> simp

@[simp] theorem Dev.esmcPops_memsOk (d : Dev) (n : Nat) (h : MemsOk d.mems) : MemsOk (d.esmcPops n).mems := by
  induction n generalizing d with
  | zero => exact h
  | succ n ih =>
    simp only [Dev.esmcPops]
    have hp := d.qPop_memsOk esmcQueue 0 h
    split
    next heq => rwa [heq] at hp
    next heq =>
      rw [heq] at hp
      exact ih _ (by simpa using hp)

@[simp] theorem Dev.esmcProgram_memsOk (d : Dev) (h : MemsOk d.mems) : MemsOk d.esmcProgram.mems := by
  unfold Dev.esmcProgram
  extract_lets x d1
  have h1 : MemsOk d1.mems := by
    simp only [d1]
    split
    · exact d.esmcPops_memsOk _ h
    · exact h
  clear_value d1
  split
  · exact h
  · exact h1.foldl (fun d n h => by simpa using h) _

/-! ## `Machine/BaseLoop.lean` -/

@[simp] theorem Dev.slotPut_memsOk (d : Dev) (l : Nat) (w : Int) (h : MemsOk d.mems) : MemsOk (d.slotPut l w).mems := by
  simp [Dev.slotPut, h]

@[simp] theorem Dev.servoNote_mems (d : Dev) : d.servoNote.mems = d.mems := by simp [Dev.servoNote]

@[simp] theorem Dev.loopTask_memsOk (d : Dev) (l : Nat) (h : MemsOk d.mems) : MemsOk (d.loopTask l).mems := by
  simp [Dev.loopTask, h]

@[simp] theorem Dev.replayLoad_mems (d : Dev) (l : Nat) : (d.replayLoad l).mems = d.mems := (rfl)

@[simp] theorem Dev.replayTake_mems (d : Dev) (l : Nat) (rec : List Byte) : (d.replayTake l rec).mems = d.mems := (rfl)

@[simp] theorem Dev.replayPops_memsOk (l n : Nat) (d : Dev) (c : Bool) (h : MemsOk d.mems) :
    MemsOk (Dev.replayPops l n d c).1.mems := by
  induction n generalizing d c with
  | zero => exact h
  | succ n ih =>
    simp only [Dev.replayPops]
    have hp := d.qPop_memsOk (d.get F.SEL_RWD_CFG.QUEUE l) 0 h
    split
    next heq => rwa [heq] at hp
    next heq =>
      rw [heq] at hp
      exact ih _ _ (by simpa using hp)

@[simp] theorem Dev.replayTask_memsOk (d : Dev) (l : Nat) (h : MemsOk d.mems) : MemsOk (d.replayTask l).mems := by
  unfold Dev.replayTask
  extract_lets d1 c
  have h1 : MemsOk d1.mems := by simp [d1, h]
  clear_value c d1
  have h2 : MemsOk (if c < 512 then Dev.replayPops l 17 d1 false else (d1, false)).1.mems := by
    split
    · exact Dev.replayPops_memsOk l 17 d1 false h1
    · exact h1
  generalize (if c < 512 then Dev.replayPops l 17 d1 false else (d1, false)) = p at h2 ⊢
  dsimp only
  split
  · exact Dev.slotPut_memsOk _ l _ h2
  · exact h2

@[simp] theorem Dev.ckptProgram_memsOk (d : Dev) (l : Nat) (h : MemsOk d.mems) : MemsOk (d.ckptProgram l).mems := by
  simp [Dev.ckptProgram, h]

@[simp] theorem Dev.loopProgram_memsOk (d : Dev) (l : Nat) (h : MemsOk d.mems) : MemsOk (d.loopProgram l).mems := by
  simp [Dev.loopProgram, h]

/-! ## `Machine/BaseGlide.lean` -/

@[simp] theorem Dev.glideCompute_mems (d : Dev) (l : Nat) : (d.glideCompute l).mems = d.mems := by simp [Dev.glideCompute]

@[simp] theorem Dev.glideWrite_mems (d : Dev) (l : Nat) : (d.glideWrite l).mems = d.mems := by
  unfold Dev.glideWrite
  dsimp only
  (repeat' split) <;> simp

@[simp] theorem Dev.modelShow_mems (d : Dev) (l : Nat) (m : OscModel) (locked : Nat) : (d.modelShow l m locked).mems = d.mems :=
  (rfl)

@[simp] theorem Dev.modelKeep_mems (d : Dev) (l : Nat) : (d.modelKeep l).mems = d.mems := by
  unfold Dev.modelKeep
  dsimp only
  split <;> simp

theorem Dev.saveModels_mems (d : Dev) (b : Base) : ({ d.freeNext with base := b } : Dev).mems = d.mems := d.freeNext_mems

@[simp] theorem Dev.modelSecond_mems (d : Dev) (l s : Nat) : (d.modelSecond l s).mems = d.mems := by
  unfold Dev.modelSecond
  split
  · rfl
  · extract_lets x f m d1 y
    clear_value m f
    split
    · rfl
    · split
      · exact (Dev.saveModels_mems ..).trans (Dev.modelShow_mems ..)
      · exact Dev.modelShow_mems ..

@[simp] theorem Dev.modelsRestore_mems (d : Dev) : d.modelsRestore.mems = d.mems := by simp [Dev.modelsRestore]

@[simp] theorem Dev.xtQuiet_mems (d : Dev) (k : Nat) : (d.xtQuiet k).mems = d.mems := by simp [Dev.xtQuiet]

@[simp] theorem Dev.xtAnswer_mems (d : Dev) (k b : Nat) : (d.xtAnswer k b).mems = d.mems := (rfl)

@[simp] theorem Dev.xtStart_mems (d : Dev) (k b : Nat) : (d.xtStart k b).mems = d.mems := by simp [Dev.xtStart]

@[simp] theorem Dev.xtBus_mems (d : Dev) (b : Nat) : (d.xtBus b).mems = d.mems := by
  unfold Dev.xtBus
  dsimp only
  (repeat' split) <;> simp

@[simp] theorem Dev.xtempRead_mems (d : Dev) : d.xtempRead.mems = d.mems := by simp [Dev.xtempRead]

/-- R318: a copy of a twin region, blank first, with its body and then its header. -/
def Dev.twinPut (d : Dev) (first n seq : Nat) (body : List Byte) : Dev :=
  (((List.range n).foldl (fun (d : Dev) j => d.eraseOwn (first + j)) d).reamPut (first * 4096 + 16) body).reamPut (first * 4096)
    (leBytes 4 ((seq + 1) % 2 ^ 32) ++ leBytes 4 body.length ++ leBytes 4 (crc32 body) ++ leBytes 4 0)

theorem Dev.twinPut_memsOk (d : Dev) (first n seq : Nat) (body : List Byte) (h : MemsOk d.mems) :
    MemsOk (d.twinPut first n seq body).mems :=
  Dev.reamPut_memsOk _ _ _ (Dev.reamPut_memsOk _ _ _ (h.foldl (fun d _ h => d.eraseOwn_memsOk _ h) _))

theorem Dev.twinWrite_eq (d : Dev) (rgn : Nat) (body : List Byte) :
    ∃ first n seq, d.twinWrite rgn body = d.twinPut first n seq body := ⟨_, _, _, rfl⟩

@[simp] theorem Dev.twinWrite_memsOk (d : Dev) (rgn : Nat) (body : List Byte) (h : MemsOk d.mems) :
    MemsOk (d.twinWrite rgn body).mems := by
  obtain ⟨first, n, seq, heq⟩ := d.twinWrite_eq rgn body
  exact heq ▸ d.twinPut_memsOk first n seq body h

@[simp] theorem Dev.modelsSave_memsOk (d : Dev) (h : MemsOk d.mems) : MemsOk d.modelsSave.mems := by simp [Dev.modelsSave, h]

@[simp] theorem Dev.bandsSave_memsOk (d : Dev) (h : MemsOk d.mems) : MemsOk d.bandsSave.mems := by simp [Dev.bandsSave, h]

@[simp] theorem Dev.wmRecord_memsOk (d : Dev) (h : MemsOk d.mems) : MemsOk d.wmRecord.mems := by simp [Dev.wmRecord, h]

@[simp] theorem Dev.baseBoundary_memsOk (d : Dev) (h : MemsOk d.mems) : MemsOk d.baseBoundary.mems := by
  unfold Dev.baseBoundary
  extract_lets b1 d0 d1 d2 d3 d4
  have h1 : MemsOk d1.mems := by
    simp only [d1]
    split
    · exact h
    · rwa [Dev.modelsRestore_mems]
  clear_value d1
  have h2 : MemsOk d2.mems := MemsOk.foldl (d1.esmcProgram_memsOk h1) (fun d n h => by simpa using h) _
  clear_value d2
  have h3 : MemsOk d3.mems := h2.foldl (fun d l h => by simpa using h) _
  clear_value d3
  have h4 : MemsOk d4.mems := by
    refine h3.foldl (fun d l h => ?_) _
    rw [Dev.glideWrite_mems]
    split <;> simp [h]
  clear_value d4
  split
  · exact h
  · exact Dev.wmRecord_memsOk _ (Dev.bandsSave_memsOk _ (Dev.modelsSave_memsOk _ (by simpa using h4)))

@[simp] theorem Dev.baseTickEnd_mems (d : Dev) : d.baseTickEnd.mems = d.mems := by simp [Dev.baseTickEnd]

/-! ## `Machine/Tick.lean` -/

@[simp] theorem Dev.each_mems (d : Dev) (n : Nat) (f : Dev → Nat → Dev) (hf : ∀ d k, (f d k).mems = d.mems) :
    (d.each n f).mems = d.mems := Dev.foldl_mems f hf _ d

theorem MemsOk.each {d : Dev} {n : Nat} {f : Dev → Nat → Dev} (h : MemsOk d.mems)
    (hf : ∀ d k, MemsOk d.mems → MemsOk (f d k).mems) : MemsOk (d.each n f).mems := h.foldl hf _

@[simp] theorem Dev.tickEnd_memsOk (d : Dev) (h : MemsOk d.mems) : MemsOk d.tickEnd.mems := by
  unfold Dev.tickEnd
  extract_lets d0 d1 d2 d3 d4 d5 d6 lo hi d7 d8
  have h0 : MemsOk d0.mems := d.overrunAll_memsOk h
  have h1 : MemsOk d1.mems := h0.same
  clear_value d1
  have h2 : MemsOk d2.mems := by
    simp only [d2, Dev.baseTickEnd_mems]
    exact (h1.each Dev.sampleWrite_memsOk).each Dev.synthetic_memsOk
  clear_value d2
  have h3 : MemsOk d3.mems := MemsOk.each (by simpa using h2) Dev.inputTickEnd_memsOk
  clear_value d3
  have h4 : MemsOk d4.mems := by simpa [d4] using h3
  clear_value d4
  have h5 : MemsOk d5.mems := h4.each fun d l h => by simp [h]
  clear_value d5
  have h6 : MemsOk d6.mems := by simp [d6, h5]
  clear_value d6
  have h7 : MemsOk d7.mems := by simpa [d7] using h6
  clear_value d7
  have h8 : MemsOk d8.mems := by simpa [d8] using h7
  clear_value d8
  exact MemsOk.each (by simpa using h8) Dev.portDrainEnd_memsOk

@[simp] theorem Dev.pinsSample_memsOk (d : Dev) (s : BitVec 8) (h : MemsOk d.mems) : MemsOk (d.pinsSample s).mems := by
  simp [Dev.pinsSample, h]

@[simp] theorem Dev.upset_memsOk (d : Dev) (u : Upset) (h : MemsOk d.mems) : MemsOk (d.upset u).mems := by
  unfold Dev.upset
  dsimp only
  (repeat' split) <;> simp [h]

@[simp] theorem Dev.sample_memsOk (d : Dev) (i : TickIn) (h : MemsOk d.mems) : MemsOk (d.sample i).mems := by
  unfold Dev.sample
  have h1 : MemsOk (i.upsets.foldl Dev.upset { d with sensors := i.ts.toList }).mems :=
    MemsOk.foldl (d := { d with sensors := i.ts.toList }) h (fun d u h => d.upset_memsOk u h) _
  exact Dev.pinsSample_memsOk _ _ (by simpa using h1)

@[simp] theorem Dev.temps_mems (d : Dev) : d.temps.mems = d.mems := by simp [Dev.temps]

@[simp] theorem Dev.actions12_memsOk (d : Dev) (h : MemsOk d.mems) : MemsOk d.actions12.mems := by
  unfold Dev.actions12
  extract_lets d1
  have h1 : MemsOk d1.mems := by simpa [d1] using h
  clear_value d1
  have h2 : MemsOk d1.stageBoundary.accTake.mems := Dev.accTake_memsOk _ (d1.stageBoundary_memsOk h1)
  exact Dev.bootTick_memsOk _ (by simpa using h2)

@[simp] theorem Dev.action3_memsOk (d : Dev) (en : List (Bool × Bool)) (h : MemsOk d.mems) : MemsOk (d.action3 en).mems := by
  unfold Dev.action3
  extract_lets d1 d2 d3
  have h1 : MemsOk d1.mems := by simpa [d1] using h
  clear_value d1
  have h2 : MemsOk d2.mems := by simp [d2, h1]
  clear_value d2
  have h3 : MemsOk d3.mems := h2.each fun d l h => by split <;> simp [h]
  clear_value d3
  have h4 : MemsOk (d3.klWord.each 33 Dev.wordOut).mems := MemsOk.each (by simpa using h3) Dev.wordOut_memsOk
  simpa using h4

@[simp] theorem Dev.actions47_memsOk (d : Dev) (h : MemsOk d.mems) : MemsOk d.actions47.mems := by
  unfold Dev.actions47
  extract_lets d1
  have h1 : MemsOk d1.mems := by simpa [d1] using h
  clear_value d1
  exact Dev.piAfter_memsOk _ (Dev.ctxStepAll_memsOk _ (Dev.powerFail_memsOk _ (d1.piBoundary_memsOk h1)))

@[simp] theorem Dev.blocksAfter_memsOk (d : Dev) (i : TickIn) (old : List Nat) (h : MemsOk d.mems) :
    MemsOk (d.blocksAfter i old).mems := by
  unfold Dev.blocksAfter
  extract_lets d1 d2 d3 d4 busy d5 d6
  have h1 : MemsOk d1.mems := (h.each Dev.replayBoundary_memsOk).each Dev.loopBoundaryEnd_memsOk
  clear_value d1
  have h2 : MemsOk d2.mems := by simpa [d2] using h1
  clear_value d2
  have h3 : MemsOk d3.mems := by simpa [d3] using h2
  clear_value d3
  have h4 : MemsOk d4.mems := by simpa [d4] using h3
  clear_value d4
  have h5 : MemsOk d5.mems := by simpa [d5] using h4
  clear_value d5
  have h6 : MemsOk d6.mems := by simpa [d6] using h5
  clear_value d6
  exact h6.each fun d l h => by split <;> simp [h]

@[simp] theorem Dev.hostsAfter_memsOk (d : Dev) (i : TickIn) (h : MemsOk d.mems) : MemsOk (d.hostsAfter i).mems := by
  unfold Dev.hostsAfter
  extract_lets d1 d2 d3 d4 d5 d6
  have h1 : MemsOk d1.mems := by simpa [d1] using h
  clear_value d1
  have h2 : MemsOk d2.mems := by simpa [d2] using h1
  clear_value d2
  have h3 : MemsOk d3.mems := by simpa [d3] using h2
  clear_value d3
  have h4 : MemsOk d4.mems := d3.bistBoundary_memsOk h3
  clear_value d4
  have h5 : MemsOk d5.mems := by simpa [d5] using h4
  clear_value d5
  have h6 : MemsOk d6.mems := by simpa [d6] using h5
  clear_value d6
  exact Dev.restartBoundary_memsOk _ (Dev.armBoundary_memsOk _ (by simpa using h6))

@[simp] theorem Dev.joinTick_mems (d : Dev) : d.joinTick.mems = d.mems := by simp [Dev.joinTick]

@[simp] theorem Dev.boundary_memsOk (d : Dev) (i : TickIn) (h : MemsOk d.mems) : MemsOk (d.boundary i).mems := by
  unfold Dev.boundary
  extract_lets en old d1 d2 d3 d4 d5
  have h1 : MemsOk d1.mems := Dev.actions47_memsOk _ (Dev.action3_memsOk _ en (d.actions12_memsOk h))
  clear_value d1
  have h2 : MemsOk d2.mems := Dev.hostsAfter_memsOk _ i (d1.blocksAfter_memsOk i old h1)
  clear_value d2
  have h3 : MemsOk d3.mems := by
    simp only [d3]
    split
    · exact h2.same
    · exact h2
  clear_value d3
  have h4 : MemsOk d4.mems := d3.timersExpire_memsOk h3
  clear_value d4
  have h5 : MemsOk d5.mems := by
    simp only [d5]
    split
    · simpa using h4
    · exact h4
  clear_value d5
  exact (d5.baseBoundary_memsOk h5).same

@[simp] theorem Dev.tickBoundary_memsOk (d : Dev) (i : TickIn) (h : MemsOk d.mems) : MemsOk (d.tickBoundary i).mems := by
  simp [Dev.tickBoundary, h]

end Sys2Proof.Machine
end

section
/-! SUPPORT and proof. Every command keeps the memories in their form; O60. -/

namespace Sys2Proof.Machine

/-- The state that a command answers holds its memories in their one form. -/
def Keeps (o : StepOut) : Prop := ∀ s', o = .next s' → MemsOk s'.dev.mems

theorem Keeps.run {s : State} {f : Dev → Dev} (h : MemsOk s.dev.mems)
    (hf : ∀ d, MemsOk d.mems → MemsOk (f d).mems) : Keeps (s.run f) := by
  intro s' heq
  cases heq
  exact hf _ h

theorem Keeps.runBy {s : State} {p : Path} {off : Nat} {f : Dev → Dev} (h : MemsOk s.dev.mems)
    (hf : ∀ d, MemsOk d.mems → MemsOk (f d).mems) : Keeps (s.runBy p off f) := by
  refine .run h fun d h => ?_
  split
  · exact hf d h
  · exact h
  · simpa using h
  · simpa using h
  · simpa using h

@[simp] theorem Engine.setRg_lmem (x : Engine) (n : Fin 16) (v : DWord) : (x.setRg n v).lmem = x.lmem := by
  unfold Engine.setRg
  split <;> rfl

theorem Dev.issueIllegal_memsOk (d : Dev) (e cost : Nat) (h : MemsOk d.mems) :
    MemsOk (d.issue e cost fun d => d.engIllegal e).mems :=
  d.issue_memsOk e cost _ (fun d h => d.engIllegal_memsOk e h) h

section
variable {s : State} (h : MemsOk s.dev.mems)
include h

theorem execNop_keeps (e : Eng) (w : NopWord) : Keeps (execNop e w s) :=
  .run h fun d h => d.issue_memsOk e 1 _ (fun d h => by split <;> simp [h]) h

theorem execMac_keeps (e : Eng) (imm : Bool) (o : EOp) : Keeps (execMac e imm o s) := by
  refine .run h fun d h => d.issue_memsOk e 4 _ (fun d h => ?_) h
  split
  · exact Dev.predOnly_memsOk _ _ _ _ (d.engDo_memsOk e _ rfl h)
  · exact d.engIllegal_memsOk e h

theorem execMacs_keeps (e : Eng) (imm : Bool) (o : EOp) : Keeps (execMacs e imm o s) := by
  refine .run h fun d h => d.issue_memsOk e 4 _ (fun d h => ?_) h
  split
  · exact Dev.predOnly_memsOk _ _ _ _ (d.engDo_memsOk e _ rfl h)
  · exact d.engIllegal_memsOk e h

theorem execClracc_keeps (e : Eng) (o : EOp) : Keeps (execClracc e o s) := by
  refine .run h fun d h => d.issue_memsOk e 1 _ (fun d h => ?_) h
  split
  · exact d.engDo_memsOk e _ rfl h
  · exact d.engIllegal_memsOk e h

theorem execLd_keeps (e : Eng) (o : EOp) : Keeps (execLd e o s) := by
  refine .run h fun d h => d.issue_memsOk e _ _ (fun d h => ?_) h
  split
  · exact d.engIllegal_memsOk e h
  · split
    · exact d.engFault_memsOk e 34 h
    · dsimp only
      split
      · exact Dev.engFault_memsOk _ e 35 (by simpa using h)
      · exact Dev.engDo_memsOk _ e _ (by simp) (by split <;> simp [h])

theorem execSt_keeps (e : Eng) (o : EOp) : Keeps (execSt e o s) := by
  refine .run h fun d h => d.issue_memsOk e _ _ (fun d h => ?_) h
  (repeat' split) <;> simp [h]

theorem execVget_keeps (e : Eng) (o : EOp) : Keeps (execVget e o s) := by
  refine .run h fun d h => d.vatIssue_memsOk e _ _ (fun d h => ?_) h
  split
  · exact d.engIllegal_memsOk e h
  · split
    · exact d.engFault_memsOk e 34 h
    · dsimp only
      split
      · exact Dev.engFault_memsOk _ e 35 (d.engVat_memsOk e _ h)
      · exact Dev.engDo_memsOk _ e _ (by simp) (d.engVat_memsOk e _ h)

theorem execVpeek_keeps (e : Eng) (o : EOp) : Keeps (execVpeek e o s) := by
  refine .run h fun d h => d.vatIssue_memsOk e _ _ (fun d h => ?_) h
  split
  · exact d.engIllegal_memsOk e h
  · split
    · exact d.engFault_memsOk e 34 h
    · exact Dev.engDo_memsOk _ e _ (by simp) (d.engVat_memsOk e _ h)

theorem execVput_keeps (e : Eng) (o : EOp) : Keeps (execVput e o s) := by
  refine .run h fun d h => d.issue_memsOk e _ _ (fun d h => ?_) h
  split
  · exact d.engIllegal_memsOk e h
  · split
    · exact d.engFault_memsOk e 34 h
    · rw [Dev.freeNext_mems]
      exact d.engDo_memsOk e _ rfl h

theorem execTlook_keeps (e : Eng) (o : EOp) : Keeps (execTlook e o s) := by
  refine .run h fun d h => ?_
  split
  · exact d.issue_memsOk e 12 _ (fun d h => d.engIllegal_memsOk e h) h
  · exact d.tableOp_memsOk e 12 1 o _ h

theorem execNow_keeps (e : Eng) (o : EOp) : Keeps (execNow e o s) := by
  refine .run h fun d h => d.issue_memsOk e 1 _ (fun d h => ?_) h
  have put (v : DWord) : MemsOk (d.engDo e fun x => x.setRg o.d v).mems := d.engDo_memsOk e _ (by simp) h
  split
  · exact d.engIllegal_memsOk e h
  · dsimp only
    split
    · exact d.engDo_memsOk e _ (by simp) h
    · exact put _
    · exact put _
    · exact put _
    · exact put _
    · exact put _
    · exact put _
    · exact d.engIllegal_memsOk e h

theorem execWait_keeps (e : Eng) (o : EOp) : Keeps (execWait e o s) :=
  .run h fun d h => d.issue_memsOk e _ _ (fun d h => by split <;> simp [h]) h

theorem execIoLd_keeps (e : Eng) (o : EOp) : Keeps (execIoLd e o s) := by
  refine .run h fun d h => d.issue_memsOk e 24 _ (fun d h => ?_) h
  split
  · exact d.engIllegal_memsOk e h
  · split
    · exact d.engFault_memsOk e 34 h
    · split
      · exact Dev.engDo_memsOk _ e _ (by simp) (d.spaceRead_memsOk _ _ h)
      · exact d.engDo_memsOk e _ (by simp) h

theorem execIoSt_keeps (e : Eng) (o : EOp) : Keeps (execIoSt e o s) := by
  refine .run h fun d h => d.issue_memsOk e 2 _ (fun d h => ?_) h
  split
  · exact d.engIllegal_memsOk e h
  · split
    · exact d.engFault_memsOk e 34 h
    · extract_lets done w
      split
      next y bad heq =>
      have hy : MemsOk y.mems := by
        split at heq
        · obtain rfl : _ = y := congrArg Prod.fst heq
          exact d.freeNext.engWrite_memsOk e _ w (by simpa using h)
        · obtain rfl : _ = y := congrArg Prod.fst heq
          simpa using h
      exact Dev.predOnly_memsOk _ _ _ _ (Dev.advance_memsOk _ _ hy.setEng_same)

theorem execEvclear_keeps (e : Eng) (o : EOp) : Keeps (execEvclear e o s) := by
  refine .run h fun d h => d.issue_memsOk e 2 _ (fun d h => ?_) h
  split
  · exact d.engIllegal_memsOk e h
  · exact Dev.predOnly_memsOk _ _ _ _ (Dev.advance_memsOk _ _ (by simpa using h))

theorem execSignal_keeps (e : Eng) (o : EOp) : Keeps (execSignal e o s) := by
  refine .run h fun d h => d.issue_memsOk e 1 _ (fun d h => ?_) h
  (repeat' split) <;> simp [h]

theorem execRet_keeps (e : Eng) (o : EOp) : Keeps (execRet e o s) := by
  refine .run h fun d h => d.issue_memsOk e 2 _ (fun d h => ?_) h
  split
  · exact d.engIllegal_memsOk e h
  · dsimp only
    split
    · exact d.engFault_memsOk e 36 h
    · exact h.setEng_same

theorem execFault_keeps (e : Eng) (o : EOp) : Keeps (execFault e o s) :=
  .run h fun d h => d.issue_memsOk e 2 _ (fun d h => by split <;> simp [h]) h

theorem execYield_keeps (e : Eng) (o : EOp) : Keeps (execYield e o s) := by
  refine .run h fun d h => ?_
  split
  · exact d.fenceThen_memsOk e 1 _ (fun d h => d.endTask_memsOk e h) h
  · exact d.issueIllegal_memsOk e 1 h

theorem execHalt_keeps (e : Eng) (o : EOp) : Keeps (execHalt e o s) := by
  refine .run h fun d h => ?_
  split
  · exact d.fenceThen_memsOk e 1 _ (fun d h => by simp [h]) h
  · exact d.issueIllegal_memsOk e 1 h

theorem execFence_keeps (e : Eng) (o : EOp) : Keeps (execFence e o s) := by
  refine .run h fun d h => ?_
  split
  · exact d.fenceThen_memsOk e 0 _ (fun d h => d.advance_memsOk e h) h
  · exact d.issueIllegal_memsOk e 1 h

theorem execVatWindowRead_keeps (off : BitVec 26) (len : BitVec 13) (c : Cycle) : Keeps (execVatWindowRead off len c s) := by
  refine .run h fun d h => ?_
  dsimp only
  split <;> simp [h]

theorem execTraceTrigger_keeps (r : Fin 4) (src : Option (Fin 4 × Fin 288)) (c : Cycle) : Keeps (execTraceTrigger r src c s) := by
  refine .run h fun d h => ?_
  cases src with
  | none => simp [h]
  | some x =>
    dsimp only
    split
    · split <;> simp [h]
    · simp [h]

theorem execBistDone_keeps (fail : Option (BitVec 14)) (c : Cycle) : Keeps (execBistDone fail c s) := by
  unfold execBistDone
  exact .run h fun d h => by simp [h]

end

/-- Every command keeps the form: most by the lemma about the one function that they run. -/
theorem exec_keeps (c : Instr) (s : State) (h : MemsOk s.dev.mems) : Keeps (exec c s) := by
  unfold exec
  cases c with
  | tickBoundary inp => exact .run h fun d h => by simp [h]
  | stageCommit => exact .run h fun d h => by simp [h]
  | registerWrite p off w whole ep c => exact .run h fun d h => by simp [h]
  | loRead p off one c => exact .run h fun d h => by simp [h]
  | instructionStoreWrite p c inp w => exact .runBy h fun d h => by simp [h]
  | clusterPower p on c => exact .run h fun d h => by simp [h]
  | clusterStart c => exact .run h fun d h => by simp [h]
  | taskDispatch e c => exact .run h fun d h => by simp [h]
  | taskOverrun e => exact .run h fun d h => by simp [h]
  | taskPromotion e slot c => exact .run h fun d h => by simp [h]
  | taskInputEvent e inp source c => exact .run h fun d h => by simp [h]
  | taskCancel p e slot => exact .runBy h fun d h => by simp [h]
  | tickTimerExpiry e t => exact .run h fun d h => by simp [h]
  | nop e w => exact execNop_keeps h e w
  | add e imm o => exact .run h fun d h => by simp [h]
  | sub e imm o => exact .run h fun d h => by simp [h]
  | and e imm o => exact .run h fun d h => by simp [h]
  | or e imm o => exact .run h fun d h => by simp [h]
  | xor e imm o => exact .run h fun d h => by simp [h]
  | shl e imm o => exact .run h fun d h => by simp [h]
  | shr e imm o => exact .run h fun d h => by simp [h]
  | sar e imm o => exact .run h fun d h => by simp [h]
  | min e imm o => exact .run h fun d h => by simp [h]
  | max e imm o => exact .run h fun d h => by simp [h]
  | sdiff e o => exact .run h fun d h => by simp [h]
  | sat e o => exact .run h fun d h => by simp [h]
  | ldh e o => exact .run h fun d h => by simp [h]
  | mul e o => exact .run h fun d h => by simp [h]
  | mac e imm o => exact execMac_keeps h e imm o
  | macs e imm o => exact execMacs_keeps h e imm o
  | getacc e o => exact .run h fun d h => by simp [h]
  | clracc e o => exact execClracc_keeps h e o
  | ld e o => exact execLd_keeps h e o
  | st e o => exact execSt_keeps h e o
  | vget e o => exact execVget_keeps h e o
  | vput e o => exact execVput_keeps h e o
  | vpeek e o => exact execVpeek_keeps h e o
  | qpop e o => exact .run h fun d h => by simp [h]
  | qpush e o => exact .run h fun d h => by simp [h]
  | tlook e o => exact execTlook_keeps h e o
  | tstep e o => exact .run h fun d h => by simp [h]
  | now e o => exact execNow_keeps h e o
  | wait e o => exact execWait_keeps h e o
  | arm e o => exact .run h fun d h => by simp [h]
  | disarm e o => exact .run h fun d h => by simp [h]
  | ioLd e o => exact execIoLd_keeps h e o
  | ioSt e o => exact execIoSt_keeps h e o
  | evtest e o => exact .run h fun d h => by simp [h]
  | evclear e o => exact execEvclear_keeps h e o
  | signal e o => exact execSignal_keeps h e o
  | b e o => exact .run h fun d h => by simp [h]
  | bz e o => exact .run h fun d h => by simp [h]
  | bnz e o => exact .run h fun d h => by simp [h]
  | bp e o => exact .run h fun d h => by simp [h]
  | call e o => exact .run h fun d h => by simp [h]
  | ret e o => exact execRet_keeps h e o
  | fault e o => exact execFault_keeps h e o
  | yield e o => exact execYield_keeps h e o
  | halt e o => exact execHalt_keeps h e o
  | fence e o => exact execFence_keeps h e o
  | tableLoad p t n => exact .runBy h fun d h => by simp [h]
  | tableDelete p t => exact .runBy h fun d h => by simp [h]
  | vatWindowWrite off data ep c => exact .runBy h fun d h => by simp [h]
  | vatWindowRead off len c => exact execVatWindowRead_keeps h off len c
  | vfApertureAccess f x write len ep c => exact .run h fun d h => by simp [h]
  | qhostPop p q n => exact .runBy h fun d h => by simp [h]
  | qhostPush p q n => exact .runBy h fun d h => by simp [h]
  | qhostCommit p q => exact .runBy h fun d h => by simp [h]
  | qhostGrantExpiry p => exact .run h fun d h => by simp [h]
  | scrubLine bank ce ue => exact .run h fun d h => by simp [h]
  | tdcStamp c coarse code edge => exact .run h fun d h => by simp [h]
  | burstBufferDrain c => exact .run h fun d h => by simp [h]
  | tdcCalibration c c1 c2 => exact .run h fun d h => by simp [h]
  | armCalibrationDone c a1 a2 b1 b2 => exact .run h fun d h => by simp [h]
  | activityWindowMissed n c => exact .run h fun d h => by simp [h]
  | frequencyGateEnd n => exact .run h fun d h => by simp [h]
  | suspectGateEnd n => exact .run h fun d h => by simp [h]
  | observationComplete n => exact .run h fun d h => by simp [h]
  | inStateWrite e n st c => exact .run h fun d h => by simp [h]
  | rewindStart p l excl => exact .runBy h fun d h => by simp [h]
  | rewindAbort p l => exact .runBy h fun d h => by simp [h]
  | rewindSplice p l => exact .runBy h fun d h => by simp [h]
  | replayCaughtUp l => exact .run h fun d h => by simp [h]
  | spliceEnd l => exact .run h fun d h => by simp [h]
  | lockGateEnd l => exact .run h fun d h => by simp [h]
  | referenceGapExpiry l => exact .run h fun d h => by simp [h]
  | coastTimerExpiry l => exact .run h fun d h => by simp [h]
  | historyRecordWrite => exact .run h fun d h => by simp [h]
  | synSearch p n => exact .runBy h fun d h => by simp [h]
  | synAbort p n => exact .runBy h fun d h => by simp [h]
  | hopLock n locked core band vt => exact .run h fun d h => by simp [h]
  | outputGateOpen k => exact .run h fun d h => by simp [h]
  | outputGateClose k => exact .run h fun d h => by simp [h]
  | outputDividerChange k => exact .run h fun d h => by simp [h]
  | outputSourceSwitch k => exact .run h fun d h => by simp [h]
  | outputDelayChange k => exact .run h fun d h => by simp [h]
  | dphMeasureEnd k => exact .run h fun d h => by simp [h]
  | dphTrimStep k => exact .run h fun d h => by simp [h]
  | bankSupplyMismatch b => exact .run h fun d h => by simp [h]
  | slalomStart p n => exact .runBy h fun d h => by simp [h]
  | slalomAbort p n => exact .runBy h fun d h => by simp [h]
  | slalomClear p n => exact .runBy h fun d h => by simp [h]
  | slalomDwellEnd n => exact .run h fun d h => by simp [h]
  | msArm p k => exact .runBy h fun d h => by simp [h]
  | msAbort p k c => exact .runBy h fun d h => by simp [h]
  | measurementTimeout k c => exact .run h fun d h => by simp [h]
  | deckleNostop k c => exact .run h fun d h => by simp [h]
  | stStart p k => exact .runBy h fun d h => by simp [h]
  | stAbort p k c => exact .runBy h fun d h => by simp [h]
  | traceArm p r => exact .runBy h fun d h => by simp [h]
  | traceTrigger r src c => exact execTraceTrigger_keeps h r src c
  | traceAbort p r c => exact .runBy h fun d h => by simp [h]
  | traceRecordWrite r => exact .run h fun d h => by simp [h]
  | traceCaptureDone r => exact .run h fun d h => by simp [h]
  | traceRearmEnd r => exact .run h fun d h => by simp [h]
  | ltStep p e => exact .runBy h fun d h => by simp [h]
  | contextConversion p t => exact .runBy h fun d h => by simp [h]
  | ctxSet p => exact .runBy h fun d h => by simp [h]
  | ctxStep p => exact .runBy h fun d h => by simp [h]
  | ctxSlew p => exact .runBy h fun d h => by simp [h]
  | ctxCancel p => exact .runBy h fun d h => by simp [h]
  | ctxDisable p => exact .runBy h fun d h => by simp [h]
  | slewComplete n => exact .run h fun d h => by simp [h]
  | leapArm p time del => exact .runBy h fun d h => by simp [h]
  | leapDisarm p time del => exact .runBy h fun d h => by simp [h]
  | leapAnnounce n => exact .run h fun d h => by simp [h]
  | leapApply n => exact .run h fun d h => by simp [h]
  | performanceIntervalClose => exact .run h fun d h => by simp [h]
  | evtArm path p => exact .runBy h fun d h => by simp [h]
  | evtStop path p => exact .runBy h fun d h => by simp [h]
  | pulseEdge p => exact .run h fun d h => by simp [h]
  | evtParkEnd p => exact .run h fun d h => by simp [h]
  | frameReceive p f fcsOk before c left => exact .run h fun d h => by simp [h]
  | frameReassemblyTimeout p => exact .run h fun d h => by simp [h]
  | frameTransmit p c => exact .run h fun d h => by simp [h]
  | twoStepEntryAge => exact .run h fun d h => by simp [h]
  | portDrainEnd p => exact .run h fun d h => by simp [h]
  | dmaDescriptorFetch r desc f poison c => exact .run h fun d h => by simp [h]
  | dmaReceive r desc c => exact .run h fun d h => by simp [h]
  | dmaReadTimeout r desc => exact .run h fun d h => by simp [h]
  | ringDisable p r c => exact .runBy h fun d h => by simp [h]
  | tickFrameSend => exact .run h fun d h => by simp [h]
  | tickFrameReceive k fill frame rest => exact .run h fun d h => by simp [h]
  | linkUp k => exact .run h fun d h => by simp [h]
  | linkDown k => exact .run h fun d h => by simp [h]
  | linkCal p k s30 => exact .runBy h fun d h => by simp [h]
  | linkCalAbort p k => exact .runBy h fun d h => by simp [h]
  | linkCalSwap k => exact .run h fun d h => by simp [h]
  | linkCalEnd k => exact .run h fun d h => by simp [h]
  | leadElection => exact .run h fun d h => by simp [h]
  | join => exact .run h fun d h => by simp [h]
  | leadFailover => exact .run h fun d h => by simp [h]
  | split => exact .run h fun d h => by simp [h]
  | rejoin => exact .run h fun d h => by simp [h]
  | bulkBurstReceive k fill burst rest => exact .run h fun d h => by simp [h]
  | stageOpen p => exact .runBy h fun d h => by simp [h]
  | stageArm p => exact .runBy h fun d h => by simp [h]
  | stageDiscard p => exact .runBy h fun d h => by simp [h]
  | watermarkMismatch k => exact .run h fun d h => by simp [h]
  | reamRead p len => exact .runBy h fun d h => by simp [h]
  | reamProgram p len => exact .runBy h fun d h => by simp [h]
  | reamErase p => exact .runBy h fun d h => by simp [h]
  | reamAbort p n c => exact .runBy h fun d h => by simp [h]
  | reamReadDone => exact .run h fun d h => by simp [h]
  | reamProgramDone ok => exact .run h fun d h => by simp [h]
  | reamEraseDone ok => exact .run h fun d h => by simp [h]
  | pfailRecognised => exact .run h fun d h => by simp [h]
  | saveStart => exact .run h fun d h => by simp [h]
  | saveDone => exact .run h fun d h => by simp [h]
  | powerLossDetect => exact .run h fun d h => by simp [h]
  | faultCollection src inst detail c => exact .run h fun d h => by simp [h]
  | faultLogWrite => exact .run h fun d h => by simp [h]
  | faultPinPulseEnd => exact .run h fun d h => by simp [h]
  | faultForce p g w c => exact .runBy h fun d h => by simp [h]
  | faultStatusClear p g w => exact .runBy h fun d h => by simp [h]
  | powerOn n => exact .run h fun d h => by simp [h]
  | resetAssert n c => exact .run h fun d h => by simp [h]
  | resetRelease inp => exact .run h fun d h => by simp [h]
  | bootStepFail inp => exact .run h fun d h => by simp [h]
  | bootRestart p src flash => exact .runBy h fun d h => by simp [h]
  | bootRelease p => exact .runBy h fun d h => by simp [h]
  | pushGo p => exact .runBy h fun d h => by simp [h]
  | imageRestartSwitch => exact .run h fun d h => by simp [h]
  | perst c => exact .run h fun d h => by simp [h]
  | flr f c => exact .run h fun d h => by simp [h]
  | d3hotEntry f c => exact .run h fun d h => by simp [h]
  | hostAccessTimeout p write => exact .run h fun d h => by simp [h]
  | spiWrite a ws part c => exact .run h fun d h => by simp [h]
  | spiRead a n c => exact .run h fun d h => by simp [h]
  | spiTimeout => exact .run h fun d h => by simp [h]
  | i2cWrite np ptr ws part c => exact .run h fun d h => by simp [h]
  | i2cRead n c => exact .run h fun d h => by simp [h]
  | i2cSclTimeout => exact .run h fun d h => by simp [h]
  | irqCauseClear p w => exact .runBy h fun d h => by simp [h]
  | xi2cXfer p n addr wlen rlen => exact .runBy h fun d h => by simp [h]
  | xi2cReset p n high c => exact .runBy h fun d h => by simp [h]
  | xi2cTransferEnd n nack data c => exact .run h fun d h => by simp [h]
  | xi2cStretchTimeout n high => exact .run h fun d h => by simp [h]
  | xi2cSdaStuck n high => exact .run h fun d h => by simp [h]
  | xi2cRecoveryRetry n high => exact .run h fun d h => by simp [h]
  | fspiRead p mode len => exact .runBy h fun d h => by simp [h]
  | fspiProgram p len => exact .runBy h fun d h => by simp [h]
  | fspiErase p => exact .runBy h fun d h => by simp [h]
  | fspiAbort p c => exact .runBy h fun d h => by simp [h]
  | fspiCommandEnd data late c => exact .run h fun d h => by simp [h]
  | bistVat p => exact .runBy h fun d h => by simp [h]
  | bistEngine p c => exact .runBy h fun d h => by simp [h]
  | bistAbort p c => exact .runBy h fun d h => by simp [h]
  | bistDone fail c => exact execBistDone_keeps h fail c
  | selfStampPulse reads => exact .run h fun d h => by simp [h]
  | tapInstruction inp => exact .run h fun d h => by simp [h]
  | faultConditionEnd src inst => exact .run h fun d h => by simp [h]
  | blockLockGained x => exact .run h fun d h => by simp [h]
  | blockLockLost x => exact .run h fun d h => by simp [h]
  | pcsLockGained p => exact .run h fun d h => by simp [h]
  | pcsLockLost p => exact .run h fun d h => by simp [h]
  | pcieLinkUp width speed => exact .run h fun d h => by simp [h]
  | pcieLinkLoss => exact .run h fun d h => by simp [h]
  | perstRelease => exact .run h fun d h => by simp [h]
  | clusterPowerUpDone c => exact .run h fun d h => by simp [h]

theorem Dev.reset_memsOk : MemsOk Dev.reset.mems := ⟨canonical_nil _, canonical_nil _, nofun, nofun⟩

theorem step_keeps (s : State) (h : MemsOk s.dev.mems) : Keeps (step s) := by
  cases hq : s.pending with
  | nil =>
    intro s' heq
    rw [step_nil s hq] at heq
    cases heq
    exact h
  | cons c rest =>
    rw [step_cons s c rest hq]
    exact exec_keeps c { s with pending := rest } h

/-- Settles O60: a store keeps the form and is read back by the memory laws; and every command keeps the form, since each function of
the model leaves the memories alone, stores in one of them, or is made of functions that do. -/
theorem memoryKeepsItsForm : Obligations.MemoryKeepsItsForm :=
  ⟨fun blank m a l => ⟨Memory.writeN_wf blank l m a, by simpa using Memory.readN_writeN_prefix blank m a l [],
    fun i hi => Memory.read_writeN_out blank l m a i hi⟩, Dev.reset_memsOk.memoriesOk,
    fun s s' h heq => (step_keeps s (Dev.memoriesOk_iff _ |>.mp h) s' heq).memoriesOk⟩

end Sys2Proof.Machine
end
